-- ==== Sys2Proof/Word.lean ====
section
/-! DEFINITION. The word types of the block and their plainest arithmetic (R5: bit 0 is the least significant bit).
Numbers that the spec reads as fields of packets, records and memory tables are natural numbers taken from a little-endian
run of bytes; what is stored in a register or in a memory cell is a bit vector of that width. -/
namespace Sys2Proof

/-- A byte of memory. -/
abbrev Byte := BitVec 8

/-- A register of the block: every register of the spec is 64 bits wide. -/
abbrev Word64 := BitVec 64

end Sys2Proof
end

