-- ==== Sys2Proof/Syntax.lean ====
section
/-! DEFINITION. The commands of the block. Each row of spec/opcode_table.json is one constructor of `Instr`: a command opcode,
an access to the block, a protocol event, or an internal step. The queue, engine, stack, channel, port, hart, lane or region
concerned and what comes from outside (the value written, the frame received, the reading of a sensor, the errors met) are its
operands. -/
namespace Sys2Proof

/-- A command in flight is named by its queue and the ring index of its first slot (R51). -/
structure CmdRef where
  q   : Nat
  idx : Nat
  deriving DecidableEq, Repr

/-- Who makes a direct access: an agent of R41 that reads or writes the block itself. -/
inductive Agent where
  | hart (h : Fin 64)
  | devctl
  | rgnctl (r : Fin 4)
  | netA
  | netB
  | debug          -- the debug port of R489
  | ijtag          -- the IEEE 1687 network at level 2 (R490)
  deriving DecidableEq, Repr

/-- Traffic classes (R242). -/
inductive TClass where
  | crit | coll | bulk | back
  deriving DecidableEq, Repr

/-- Kinds of an access (R31); an AMO, LR or SC of a core is `amo` (R292). -/
inductive AccKind where
  | fetch | read | write | amo
  deriving DecidableEq, Repr

/-- A region (R14): H or Qn. -/
inductive Region where
  | hub | q (n : Fin 4)
  deriving DecidableEq, Repr

/-- A part of the package whose loss is a chip-level fault (R20). -/
inductive Part where
  | region (r : Region) | stack (s : Fin 32)
  deriving DecidableEq, Repr

/-- What an engine's checkers report at the end of a K step, a drain or a save (R135, R153, R154). -/
inductive ArrayEvent where
  | none
  | residue (column stage : Nat)
  | parity (column stage : Nat)
  | millCorrected (words : Nat)
  | millUncorrectable
  | spillCorrected (values : Nat)
  | spillUncorrectable (row : Nat)
  deriving DecidableEq, Repr

/-- ECC events in a unit's own storage while a command runs (R186, R338, R481). -/
structure BufEvents where
  corrected     : Nat := 0
  uncorrectable : Nat := 0
  deriving DecidableEq, Repr

/-- A failing known-answer set of an engine (R485, R486). -/
structure KatFault where
  engine : Fin 4
  set_   : Nat
  row    : Nat
  column : Nat
  stage  : Nat
  deriving DecidableEq, Repr

/-- A failing row found by memory BIST (R488). -/
structure MbistRow where
  die   : Nat
  bank  : Nat
  row   : Nat
  lanes : Nat
  deriving DecidableEq, Repr

/-- The Tentering windows of R249. -/
inductive TentKind where
  | oscillator | vref | impedance
  deriving DecidableEq, Repr

/-- Atomics performed at a home (R286): an unsigned add of 4 or 8 bytes, and the unsigned 32-bit MAX. The FP32 add of a line is
ACC_WRITE_LINE. -/
inductive AtomicOp where
  | add64 (off v : Nat)
  | add32 (off v : Nat)
  | max32 (off v : Nat)
  deriving DecidableEq, Repr

/-- What the SEC-DED code of a directory finds in the entry that a request reads (R279, R297). -/
inductive DirEcc where
  | clean | corrected | uncorrectable
  deriving DecidableEq, Repr

/-- Core accesses that can meet poison (R479). -/
inductive CoreAccess where
  | fetch | load | store | cboZero
  deriving DecidableEq, Repr

/-- The link and transport headers of a frame as received, as far as rules look at them (R347, R350, R353, R372): the destination MAC, `none`
for the port's own; the 802.1Q tag's VID and priority code point, `none` for an untagged frame; its length, FCS included; the UDP destination
port, `none` for the one of its protocol; whether its checksum (the UDP checksum, or the invariant CRC of RoCEv2) holds. -/
structure RxHdr where
  dst   : Option Nat := none
  tag   : Option (Nat × Nat) := none
  len   : Nat := 64
  dport : Option Nat := none
  sumOk : Bool := true
  deriving DecidableEq, Repr

/-- A collective frame: the header of R372 and its payload, little-endian; `rx` is what a received one came in. -/
structure CFrame where
  typ   : Nat
  vc    : Nat
  sat   : Bool := false
  last  : Bool := false
  gid   : Nat
  src   : Nat
  dst   : Nat
  redId : Nat
  step  : Nat
  seq   : Nat := 0
  index : Nat := 0
  plen  : Nat := 0
  data  : Nat := 0
  major : Nat := 1
  rx    : RxHdr := {}
  deriving DecidableEq, Repr

/-- An ICMP or ICMPv6 echo request as received (R348). -/
structure EchoReq where
  v6     : Bool
  target : Nat
  sender : Nat
  mac    : Nat
  ident  : Nat
  len    : Nat
  data   : Nat
  rx     : RxHdr := {}
  deriving DecidableEq, Repr

/-- A RoCEv2 packet (R353 to R361): its queue pair, PSN, place in its message, and what its headers carry; `unlisted` marks a request of
an operation that the support table of R353 does not list, and `rx` is what a received one came in. -/
structure RocePkt where
  qpn   : Nat
  psn   : Nat
  first : Bool
  last  : Bool
  va    : Nat := 0
  rkey  : Nat := 0
  dlen  : Nat := 0
  imm   : Nat := 0
  len   : Nat := 0
  data  : Nat := 0
  ackReq : Bool := true
  unlisted : Bool := false
  rx    : RxHdr := {}
  deriving DecidableEq, Repr

/-- Negative acknowledgements of R356 and R358. -/
inductive NakKind where
  | sequence | rnr | invalid | access | operational
  deriving DecidableEq, Repr

/-- A frame of the recovery protocol that a server sends (R442): the fields of its header and its payload. -/
structure RecFrame where
  port    : Fin 8 := 4
  version : Nat := 0x10
  flags   : Nat := 0
  session : Nat := 0
  offset  : Nat := 0
  len     : Nat := 0
  data    : Nat := 0
  deriving DecidableEq, Repr

/-- What the surroundings give a start: the pins, and the outcomes of hardware that no state of the block fixes (R421 to R430). The
lists name the boot steps whose normal form, or whose alternative form, fails in this start, the engines that fail their test and the
stacks that fail the retention form of memory training. `straps` holds GANG_ROLE in [1:0], BOOT_SRC in [3:2], FLASH_WIDTH in [5:4]. -/
structure StartEnv where
  vinMv          : Nat := 36000
  straps         : Nat := 0
  failNormal     : List Nat := []
  failAlt        : List Nat := []
  badEngines     : List (Fin 16) := []
  retentionFails : List (Fin 32) := []
  pufBits        : Nat := 0
  flashBad       : Bool := false          -- programming the image area fails its readback
  deriving DecidableEq, Repr

/-- A chip-level fault (R20, R476): the error code and the two numbers its record names. -/
structure FatalFault where
  code : Nat
  unit : Nat
  addr : Nat := 0
  arg  : Nat := 0
  deriving DecidableEq, Repr

/-- The DBG_AUTH register (R440). -/
inductive AuthOp where
  | challenge
  | response (bytes : Nat)
  | relock
  deriving DecidableEq, Repr

/-- Debug port accesses (R489). -/
inductive FabricOp where
  | readOnce (line : Nat)
  | invWrite (line data : Nat)
  | mergeWrite (line mask data : Nat)
  deriving DecidableEq, Repr

/-- IEEE 1687 instrument accesses (R490). -/
inductive Ijtag where
  | regRead (pa : Nat)
  | regWrite (pa v : Nat)
  | freeze
  | freezeRelease
  | freezeState
  | millpond (e : Fin 16) (word : Nat)
  | spillway (r : Fin 4) (row col : Nat)
  | mbistStart (v : Nat)
  | mbistStatus
  | repCmd (stack : Fin 32) (v : Nat)
  | laneMapWrite (ch : Fin 512) (v : Nat)
  | laneMapRead (ch : Fin 512)
  | repAvail (stack : Fin 32)
  | remap (ch : Fin 512) (frame : Nat)
  | captureRead (unit : Fin 4096)
  | mbistLog (entry : Nat)
  deriving DecidableEq, Repr


/-- The commands and events of the block: one constructor per row of the table of operations and events. A row of a command
opcode, and a row about one command, names that command by its queue and ring index. -/
inductive Instr where
  /-- REGISTER_WRITE (R6). -/
  | registerWrite (a : Agent) (pa size v : Nat)
  /-- SNAP_LOW_READ (R7). -/
  | snapLowRead (a : Agent) (pa : Nat)
  /-- UNPOPULATED_ACCESS (R31). -/
  | unpopulatedAccess (a : Agent) (pa len : Nat) (k : AccKind)
  /-- DB_TAIL_WRITE (R56). -/
  | dbTailWrite (q : Fin 256) (v : Nat)
  /-- Q_CTL_ENABLE (R50). -/
  | qCtlEnable (q : Fin 256)
  /-- Q_CTL_DISABLE (R80). -/
  | qCtlDisable (q : Fin 256)
  /-- Q_CTL_RESTART (R80). -/
  | qCtlRestart (q : Fin 256)
  /-- PACKET_FETCH (R60). -/
  | packetFetch (q : Fin 256)
  /-- SEAL_REREAD (R61). -/
  | sealReread (q : Fin 256)
  /-- COMMAND_ISSUE (R48). -/
  | commandIssue (q : Fin 256)
  /-- COMMAND_COMPLETE (R78). -/
  | commandComplete (r : CmdRef)
  /-- NOP (R64). -/
  | nop (r : CmdRef)
  /-- FENCE (R67). -/
  | fence (r : CmdRef)
  /-- WAIT (R67). -/
  | wait (r : CmdRef)
  /-- WAIT_POLL (R67). -/
  | waitPoll (r : CmdRef)
  /-- SIGNAL (R67). -/
  | signal (r : CmdRef)
  /-- QUERY_CAPS (R86). -/
  | queryCaps (r : CmdRef)
  /-- BRAKE (R461). -/
  | brake (r : CmdRef)
  /-- MOVE (R71). -/
  | move (r : CmdRef)
  /-- CONVERT (R71). -/
  | convert (r : CmdRef)
  /-- FILL (R71). -/
  | fill (r : CmdRef)
  /-- GATHER (R71). -/
  | gather (r : CmdRef)
  /-- SCATTER (R71). -/
  | scatter (r : CmdRef)
  /-- ACC_WRITE (R71). -/
  | accWrite (r : CmdRef)
  /-- ACC_WRITE_LINE (R73). -/
  | accWriteLine (stack : Fin 32)
  /-- MATMUL (R119). -/
  | matmul (r : CmdRef)
  /-- MATMUL_WGRAD (R128). -/
  | matmulWgrad (r : CmdRef)
  /-- CONV (R132). -/
  | conv (r : CmdRef)
  /-- TILE_DISPATCH (R127). -/
  | tileDispatch (e : Fin 16)
  /-- FRAME_GRANT (R146). -/
  | frameGrant (region : Fin 4)
  /-- KSTEP_END (R127). -/
  | kstepEnd (e : Fin 16) (ev : ArrayEvent)
  /-- TILE_DRAIN (R141). -/
  | tileDrain (e : Fin 16) (ev : ArrayEvent)
  /-- PREEMPTION (R82). -/
  | preemption (e : Fin 16)
  /-- CONTEXT_SAVE_COMPLETE (R156). -/
  | contextSaveComplete (e : Fin 16) (ev : ArrayEvent)
  /-- CONTEXT_RESTORE (R84). -/
  | contextRestore (e : Fin 16)
  /-- COMBINE (R148). -/
  | combine (r : CmdRef)
  /-- ELTWISE (R161). -/
  | eltwise (r : CmdRef) (ev : BufEvents)
  /-- REDUCE (R163). -/
  | reduce (r : CmdRef) (ev : BufEvents)
  /-- NORM (R164). -/
  | norm (r : CmdRef) (ev : BufEvents)
  /-- ACTIVATE (R168). -/
  | activate (r : CmdRef) (ev : BufEvents)
  /-- ACTIVATE_GRAD (R168). -/
  | activateGrad (r : CmdRef) (ev : BufEvents)
  /-- TABLE_LOAD (R169). -/
  | tableLoad (r : CmdRef)
  /-- ATTN_FWD (R173). -/
  | attnFwd (r : CmdRef) (ev : BufEvents)
  /-- ATTN_BWD (R174). -/
  | attnBwd (r : CmdRef) (ev : BufEvents)
  /-- KV_APPEND (R182). -/
  | kvAppend (r : CmdRef) (ev : BufEvents)
  /-- PAGE_COPY (R183). -/
  | pageCopy (r : CmdRef)
  /-- PAGE_FREE (R184). -/
  | pageFree (r : CmdRef)
  /-- POOL_CFG (R176). -/
  | poolCfg (r : CmdRef)
  /-- UPD_ADAMW (R210). -/
  | updAdamw (r : CmdRef) (ev : BufEvents)
  /-- UPD_SGDM (R210). -/
  | updSgdm (r : CmdRef) (ev : BufEvents)
  /-- UPD_SIGNM (R210). -/
  | updSignm (r : CmdRef) (ev : BufEvents)
  /-- EPOCH_WAIT_END (R217). -/
  | epochWaitEnd (r : CmdRef) (evs : List BufEvents := [])
  /-- GRAD_CLEAR (R205). -/
  | gradClear (r : CmdRef)
  /-- COMMIT_STEP (R223). -/
  | commitStep (r : CmdRef)
  /-- STEP_RECONCILE (R224). -/
  | stepReconcile (r : CmdRef) (evs : List BufEvents := [])
  /-- TELEMETRY_FLUSH (R194). -/
  | telemetryFlush (r : CmdRef)
  /-- ALLREDUCE (R375). -/
  | allreduce (r : CmdRef)
  /-- REDUCE_SCATTER (R375). -/
  | reduceScatter (r : CmdRef)
  /-- ALLGATHER (R390). -/
  | allgather (r : CmdRef)
  /-- BROADCAST (R390). -/
  | broadcast (r : CmdRef)
  /-- PERMUTE (R391). -/
  | permute (r : CmdRef)
  /-- LATE (R381). -/
  | late (r : CmdRef)
  /-- GROUP_LOAD (R370). -/
  | groupLoad (r : CmdRef)
  /-- PHASE_SELECT (R371). -/
  | phaseSelect (r : CmdRef)
  /-- SLICE_FETCH (R393). -/
  | sliceFetch (r : CmdRef)
  /-- READY_WORD_POLL (R380). -/
  | readyWordPoll (r : CmdRef)
  /-- AUTO_LATE (R380). -/
  | autoLate (r : CmdRef)
  /-- MASK_DEADLINE (R382). -/
  | maskDeadline (r : CmdRef)
  /-- PROGRESS_TIMEOUT (R386). -/
  | progressTimeout (r : CmdRef)
  /-- COLLECTIVE_RETRANSMIT (R373). -/
  | collectiveRetransmit (r : CmdRef) (peer : Nat)
  /-- ARRIVE (R382). -/
  | arrive (p : Fin 4) (f : CFrame)
  /-- LATE_FRAME (R382). -/
  | lateFrame (p : Fin 4) (f : CFrame)
  /-- GO (R382). -/
  | go (p : Fin 4) (f : CFrame)
  /-- UP (R377). -/
  | up (p : Fin 4) (f : CFrame)
  /-- DOWN (R377). -/
  | down (p : Fin 4) (f : CFrame)
  /-- SIDE_UP (R379). -/
  | sideUp (p : Fin 4) (f : CFrame)
  /-- SIDE_DOWN (R379). -/
  | sideDown (p : Fin 4) (f : CFrame)
  /-- XFER (R390). -/
  | xfer (p : Fin 4) (f : CFrame)
  /-- COLLECTIVE_ACK (R373). -/
  | collectiveAck (p : Fin 4) (f : CFrame)
  /-- FETCH_REQ (R393). -/
  | fetchReq (p : Fin 4) (f : CFrame)
  /-- FETCH_DATA (R393). -/
  | fetchData (p : Fin 4) (f : CFrame)
  /-- FETCH_NAK (R393). -/
  | fetchNak (p : Fin 4) (f : CFrame)
  /-- BRAKE_FRAME (R468). -/
  | brakeFrame (p : Fin 4) (f : CFrame)
  /-- ABORT (R386). -/
  | abort (p : Fin 4) (f : CFrame)
  /-- DECODE (R330). -/
  | decode (r : CmdRef)
  /-- TOKENIZE (R329). -/
  | tokenize (r : CmdRef)
  /-- DICT_LOAD (R327). -/
  | dictLoad (r : CmdRef)
  /-- ASSEMBLE (R331). -/
  | assemble (r : CmdRef)
  /-- SAMPLE_DONE (R336). -/
  | sampleDone (lane : Fin 24) (ev : BufEvents)
  /-- TEXT_DONE (R328). -/
  | textDone (lane : Fin 4) (ev : BufEvents)
  /-- HOPPER_TAKE (R340). -/
  | hopperTake (r : CmdRef)
  /-- HOP_CTL_ENABLE (R342). -/
  | hopCtlEnable
  /-- HOP_CTL_DISABLE (R342). -/
  | hopCtlDisable
  /-- HOIST (R259). -/
  | hoist (r : CmdRef)
  /-- LOWER (R259). -/
  | lower (r : CmdRef)
  /-- PIN (R259). -/
  | pin (r : CmdRef)
  /-- UNPIN (R259). -/
  | unpin (r : CmdRef)
  /-- STREAM (R265). -/
  | stream (r : CmdRef)
  /-- SWAP_COMPLETE (R263). -/
  | swapComplete (ch : Fin 512)
  /-- QUEUE_SETUP (R65). -/
  | queueSetup (r : CmdRef)
  /-- QUARANTINE (R484). -/
  | quarantine (r : CmdRef)
  /-- POWER_CAP (R407). -/
  | powerCap (r : CmdRef)
  /-- PORT_CTL (R362). -/
  | portCtl (r : CmdRef)
  /-- ERROR_RING_CFG (R478). -/
  | errorRingCfg (r : CmdRef)
  /-- MEASURE_EXTEND (R437). -/
  | measureExtend (r : CmdRef)
  /-- ATTEST (R439). -/
  | attest (r : CmdRef)
  /-- CERT_READ (R436). -/
  | certRead (r : CmdRef)
  /-- DEBUG_UNLOCK (R440). -/
  | debugUnlock (r : CmdRef)
  /-- TRACE_CFG (R458). -/
  | traceCfg (r : CmdRef)
  /-- TRACE_MARK (R460). -/
  | traceMark (r : CmdRef)
  /-- COUNTER_SNAP (R447). -/
  | counterSnap (r : CmdRef)
  /-- COUNTER_SNAP_LATCH (R447). -/
  | counterSnapLatch (r : CmdRef)
  /-- FREEZE (R470). -/
  | freeze (r : CmdRef)
  /-- KAT_RUN (R485). -/
  | katRun (r : CmdRef) (faults : List KatFault)
  /-- BURST_SLOT (R243). -/
  | burstSlot (ch : Fin 512) (err : Nat)
  /-- REFRESH_DUE (R245). -/
  | refreshDue (ch : Fin 512) (die : Fin 16) (bank : Fin 32)
  /-- REFRESH_RATE_LOWER (R245). -/
  | refreshRateLower (stack : Fin 32)
  /-- SCRUB_READ (R241). -/
  | scrubRead (ch : Fin 512)
  /-- TENTERING_WINDOW (R250). -/
  | tenteringWindow (ch : Fin 512) (k : TentKind) (count : Nat)
  /-- STACK_THERMAL_SAMPLE (R246). -/
  | stackThermalSample (stack : Fin 32) (dies : List Int)
  /-- SELF_REFRESH_TIMEOUT (R248). -/
  | selfRefreshTimeout (stack : Fin 32)
  /-- SOFT_ROW (R252). -/
  | softRow (a : Agent) (stack : Fin 32) (chan : Fin 16) (die : Fin 16) (bank : Fin 32) (row : Fin 8192)
  /-- HARD_ROW (R252). -/
  | hardRow (a : Agent) (stack : Fin 32) (chan : Fin 16) (die : Fin 16) (bank : Fin 32) (row : Fin 8192)
  /-- HARD_ROW_PROGRAM_DONE (R252). -/
  | hardRowProgramDone (stack : Fin 32)
  /-- UNDO_SOFT (R252). -/
  | undoSoft (a : Agent) (stack : Fin 32) (chan : Fin 16) (die : Fin 16) (bank : Fin 32) (row : Fin 8192)
  /-- LANE_COMMIT (R253). -/
  | laneCommit (a : Agent) (stack : Fin 32) (chan : Fin 16)
  /-- CH_LANE_MAP_WRITE (R253). -/
  | chLaneMapWrite (a : Agent) (ch : Fin 512) (v : Nat)
  /-- CH_STATE_WRITE (R487). -/
  | chStateWrite (a : Agent) (ch : Fin 512) (v : Nat)
  /-- MBIST_START (R488). -/
  | mbistStart (a : Agent) (v : Nat)
  /-- MBIST_DONE (R488). -/
  | mbistDone (rows : List MbistRow) (lanes : Nat)
  /-- POISON_HOLD (R268). -/
  | poisonHold (pa : Nat)
  /-- HOLD_REPAIR_CHECK (R271). -/
  | holdRepairCheck (region : Fin 4) (slot : Fin 16)
  /-- RC_HOLD_CTL_RELEASE (R272). -/
  | rcHoldCtlRelease (region : Fin 4) (slot : Fin 16)
  /-- READ_SHARED (R280). -/
  | readShared (k : Fin 13) (line : Nat) (ev : DirEcc := .clean)
  /-- READ_UNIQUE (R280); `zero` marks a cbo.zero. -/
  | readUnique (k : Fin 13) (line mask data : Nat) (zero : Bool := false) (ev : DirEcc := .clean)
  /-- UPGRADE (R282); `zero` marks a cbo.zero. -/
  | upgrade (k : Fin 13) (line mask data : Nat) (zero : Bool := false) (ev : DirEcc := .clean)
  /-- EVICT (R279). -/
  | evict (k : Fin 13) (line : Nat)
  /-- WRITE_BACK (R279). `keep` marks a cbo.clean, which leaves a clean copy (R295); `level` is the cache level, 1 to 3, at which an
  uncorrectable error has struck the line (R305), 0 for none. -/
  | writeBack (k : Fin 13) (line : Nat) (keep : Bool := false) (level : Nat := 0)
  /-- READ_ONCE (R284). -/
  | readOnce (line : Nat) (ev : DirEcc := .clean) (cls : TClass := .bulk)
  /-- INV_WRITE (R285). -/
  | invWrite (line data : Nat) (poison : Bool) (ev : DirEcc := .clean) (cls : TClass := .bulk)
  /-- MERGE_WRITE (R285). -/
  | mergeWrite (line mask data : Nat) (ev : DirEcc := .clean) (cls : TClass := .bulk)
  /-- HOME_ATOMIC (R286). -/
  | homeAtomic (line : Nat) (op : AtomicOp) (ev : DirEcc := .clean) (cls : TClass := .bulk)
  /-- TRANSACTION_ACK (R281). -/
  | transactionAck (line : Nat)
  /-- SNP_SHARED (R280). -/
  | snpShared (k : Fin 13) (line : Nat)
  /-- SNP_UNIQUE (R280). -/
  | snpUnique (k : Fin 13) (line : Nat)
  /-- SNP_ONCE (R280). -/
  | snpOnce (k : Fin 13) (line : Nat)
  /-- SNP_INV (R280). -/
  | snpInv (k : Fin 13) (line : Nat)
  /-- SNOOP_TIMEOUT (R297). -/
  | snoopTimeout (k : Fin 13) (line : Nat)
  /-- AGENT_ATTACH (R296). -/
  | agentAttach (a : Agent) (k : Fin 13)
  /-- AGENT_DETACH (R296). -/
  | agentDetach (a : Agent) (k : Fin 13)
  /-- DETACH_COMPLETE (R296). -/
  | detachComplete (k : Fin 13)
  /-- CORE_POISONED_ACCESS (R479). -/
  | corePoisonedAccess (h : Fin 64) (k : CoreAccess) (pa : Nat)
  /-- CBO_INVAL (R295). -/
  | cboInval (h : Fin 64) (line : Nat)
  /-- UVTOPID_WRITE (R450). -/
  | uvtopidWrite (h : Fin 64) (v cycles : Nat)
  /-- CORE_CYCLE_CHARGE (R450). -/
  | coreCycleCharge (h : Fin 64) (cycles : Nat)
  /-- TIMER_COMPARE (R307). -/
  | timerCompare (h : Fin 64)
  /-- CL_HART_START (R309). -/
  | clHartStart (a : Agent) (h : Fin 64) (vec : Nat)
  /-- CL_HART_STOP (R309). -/
  | clHartStop (a : Agent) (h : Fin 64)
  /-- HART_STOP_AT_WFI (R309). -/
  | hartStopAtWfi (h : Fin 64)
  /-- CL_CTL_OFF_REQ (R310). -/
  | clCtlOffReq (k : Fin 8)
  /-- CL_CTL_ON_REQ (R310). -/
  | clCtlOnReq (k : Fin 8)
  /-- CL_DVFS_REQ (R308). -/
  | clDvfsReq (k : Fin 8) (v : Nat)
  /-- DVFS_CHANGE_DONE (R308). -/
  | dvfsChangeDone (k : Fin 8)
  /-- PORT_TRAINING_DONE (R343). -/
  | portTrainingDone (p : Fin 8)
  /-- PORT_LINK_FAULT (R363). -/
  | portLinkFault (p : Fin 8)
  /-- PORT_FEC_FAULT (R363). -/
  | portFecFault (p : Fin 8) (n : Nat)
  /-- PORT_AUTO_UP_RETRY (R363). -/
  | portAutoUpRetry (p : Fin 8)
  /-- SERDES_ADAPT_WINDOW (R345): receive lane 2p + `lane` of port p. -/
  | serdesAdaptWindow (p : Fin 8) (corr : Nat) (lane : Fin 2 := 0)
  /-- ARP_REQUEST (R348). -/
  | arpRequest (p : Fin 8) (target sender mac : Nat) (h : RxHdr := {})
  /-- NEIGHBOR_SOLICITATION (R348). -/
  | neighborSolicitation (p : Fin 8) (target sender mac : Nat) (h : RxHdr := {})
  /-- ICMP_ECHO_REQUEST (R348). -/
  | icmpEchoRequest (p : Fin 8) (f : EchoReq)
  /-- UNSUPPORTED_PROTOCOL_FRAME (R348). -/
  | unsupportedProtocolFrame (p : Fin 8) (h : RxHdr) (len : Nat)
  /-- PFC_FRAME (R351). -/
  | pfcFrame (p : Fin 8) (enable : Nat) (quanta : List Nat) (h : RxHdr := {})
  /-- PFC_PAUSE_EXPIRY (R351). -/
  | pfcPauseExpiry (p : Fin 8) (prio : Fin 8)
  /-- PFC_XOFF_REPEAT (R351). -/
  | pfcXoffRepeat (p : Fin 8) (prio : Fin 8) (bytes : Nat)
  /-- PTP_EVENT_MESSAGE (R366): received, or sent. -/
  | ptpEventMessage (p : Fin 8) (seqId : Nat) (sent : Bool := false) (h : RxHdr := {})
  /-- ROCE_SEND (R356). -/
  | roceSend (p : Fin 8) (k : RocePkt)
  /-- RDMA_WRITE (R360). -/
  | rdmaWrite (p : Fin 8) (k : RocePkt)
  /-- RDMA_WRITE_IMMEDIATE (R356). -/
  | rdmaWriteImmediate (p : Fin 8) (k : RocePkt)
  /-- RDMA_READ (R361). -/
  | rdmaRead (p : Fin 8) (k : RocePkt)
  /-- ROCE_ACK (R356). -/
  | roceAck (p : Fin 8) (qpn psn : Nat) (h : RxHdr := {})
  /-- ROCE_NAK (R353). -/
  | roceNak (p : Fin 8) (qpn psn : Nat) (k : NakKind) (h : RxHdr := {})
  /-- READ_RESPONSE (R353). -/
  | readResponse (p : Fin 8) (k : RocePkt)
  /-- ROCE_ACK_TIMEOUT (R353). -/
  | roceAckTimeout (net : Fin 2) (qpn : Nat)
  /-- CNP_RECEIVED (R353). -/
  | cnpReceived (p : Fin 8) (qpn : Nat) (h : RxHdr := {})
  /-- NET_DB_SEND (R355). -/
  | netDbSend (net : Fin 2) (v : Nat)
  /-- NET_DB_RECEIVE (R355). -/
  | netDbReceive (net : Fin 2) (v : Nat)
  /-- PPS_IN_EDGE (R367). -/
  | ppsInEdge
  /-- NET_TIME_STEP_WRITE (R367). -/
  | netTimeStepWrite (a : Agent) (v : Nat)
  /-- TIME_REPLICA_RESYNC (R452). -/
  | timeReplicaResync (k : Fin 37)
  /-- DEVICE_START (R399). -/
  | deviceStart (env : StartEnv)
  /-- RECOVERY_ANNOUNCE (R442). -/
  | recoveryAnnounce
  /-- RECOVERY_LINK_TIMEOUT (R442). -/
  | recoveryLinkTimeout
  /-- OFFER (R443). -/
  | offer (f : RecFrame)
  /-- DATA (R443). -/
  | data (f : RecFrame)
  /-- DONE (R443). -/
  | done (f : RecFrame)
  /-- VIN_LOW (R398). -/
  | vinLow (mv : Nat)
  /-- INPUT_SAG (R398). -/
  | inputSag (mv : Nat)
  /-- OVER_VOLTAGE (R398). -/
  | overVoltage (mv : Nat)
  /-- PWR_GOOD_LOST (R398). -/
  | pwrGoodLost
  /-- HOLDUP_END (R411). -/
  | holdupEnd
  /-- POWER_LOSS (R398). -/
  | powerLoss (mv : Nat)
  /-- RESET_N_ASSERT (R500). -/
  | resetNAssert
  /-- RESET_N_DEASSERT (R500). -/
  | resetNDeassert
  /-- REFCLK_LOSS (R417). -/
  | refclkLoss
  /-- REFCLK_RETURN (R417). -/
  | refclkReturn
  /-- DROOP_STRETCH (R409). -/
  | droopStretch (d : Fin 72)
  /-- DROOP_RECOVER (R409). -/
  | droopRecover (d : Fin 72)
  /-- DROOP_FATAL (R409). -/
  | droopFatal (d : Fin 72)
  /-- JUNCTION_SAMPLE (R410). -/
  | junctionSample (t : Int)
  /-- CAP_EVALUATION (R406). -/
  | capEvaluation (mw : Nat)
  /-- GOV_DOM_ON (R403). -/
  | govDomOn (a : Agent) (d : Fin 72)
  /-- GOV_DOM_OFF (R403). -/
  | govDomOff (a : Agent) (d : Fin 72)
  /-- DOMAIN_SWITCH_DONE (R403). -/
  | domainSwitchDone (d : Fin 72)
  /-- PMBUS_CLEAR_FAULTS (R418). -/
  | pmbusClearFaults
  /-- PMBUS_MFR_POWER_CAP (R418). -/
  | pmbusMfrPowerCap (v : Nat)
  /-- PMBUS_UNSUPPORTED (R418). -/
  | pmbusUnsupported (code : Nat)
  /-- D2D_LANE_SUBSTITUTION (R18). -/
  | d2dLaneSubstitution (link : Fin 8) (lane : Nat)
  /-- LINK_WIDTH_LOSS (R18). -/
  | linkWidthLoss (link : Fin 8)
  /-- PART_LOST (R20). -/
  | partLost (part : Part)
  /-- CONTROLLER_FAULT (R476). -/
  | controllerFault (region : Region)
  /-- FATAL_DEVICE_ERROR (R480). -/
  | fatalDeviceError (f : FatalFault)
  /-- FATAL_RESET (R405). -/
  | fatalReset
  /-- SEC_BOOT_CTL_RESTART (R444). -/
  | secBootCtlRestart (a : Agent)
  /-- UPD_JRNL_WRITE (R229). -/
  | updJrnlWrite (a : Agent) (stack : Fin 32) (v : Nat)
  /-- BRAKE_TIME_REACHED (R462). -/
  | brakeTimeReached
  /-- BRAKE_CUT (R465). -/
  | brakeCut
  /-- OBS_BRAKE_RELEASE (R467). -/
  | obsBrakeRelease
  /-- OBS_BRAKE_CANCEL (R461). -/
  | obsBrakeCancel
  /-- OBS_FRZ_FREEZE (R470). -/
  | obsFrzFreeze
  /-- FREEZE_CAPTURE (R471). -/
  | freezeCapture
  /-- OBS_FRZ_RELEASE (R472). -/
  | obsFrzRelease
  /-- OBS_MARK_WRITE (R460). -/
  | obsMarkWrite (a : Agent) (v : Nat)
  /-- OBS_PROF_SEL_WRITE (R474). -/
  | obsProfSelWrite (n : Fin 80) (v : Nat)
  /-- TRACE_LINE_FLUSH (R458). -/
  | traceLineFlush (ring : Fin 5)
  /-- JTAG_DBG_AUTH (R440). -/
  | jtagDbgAuth (k : AuthOp)
  /-- JTAG_FABRIC (R489). -/
  | jtagFabric (k : FabricOp)
  /-- JTAG_STACK_READ (R491). -/
  | jtagStackRead (ch : Fin 512) (off : Nat)
  /-- IJTAG_ACCESS (R490). -/
  | ijtagAccess (k : Ijtag)
  /-- JTAG_EXTEST (R489). -/
  | jtagExtest (pins : Nat)
  /-- MMIO_READ_FAULT (R10). -/
  | mmioReadFault (a : Agent) (pa size : Nat)
  /-- PPS_OUT_PULSE (R367). -/
  | ppsOutPulse
  /-- MODE_MISMATCH (R343). -/
  | modeMismatch (p : Fin 8)
  /-- NO_PORT_UP_TIMEOUT (R386). -/
  | noPortUpTimeout (r : CmdRef)
  /-- BRAKE_PFC_REPEAT (R464). -/
  | brakePfcRepeat
  deriving DecidableEq, Repr

end Sys2Proof
end

