-- ==== Sys2Proof/Machine/Bits.lean ====
section
/-! DEFINITION. Bit fields, byte strings and the checks computed over them: the conventions of R5 and R13, the CRC-32C of
R59. A byte string of a packet, record or row is held as one natural number, little-endian, beside its length. -/
namespace Sys2Proof.Machine

/-- `x[hi:lo]` of R13. -/
def bits (x hi lo : Nat) : Nat := (x >>> lo) % 2 ^ (hi + 1 - lo)

/-- Bit `k` of `x`. -/
def bit (x k : Nat) : Bool := x.testBit k

/-- `x` with bits `hi` to `lo` replaced by the low bits of `v`. -/
def setBits (x hi lo v : Nat) : Nat :=
  let w := hi + 1 - lo
  (x >>> (hi + 1)) <<< (hi + 1) + (v % 2 ^ w) <<< lo + x % 2 ^ lo

/-- A Boolean as a one-bit field. -/
def b2n (b : Bool) : Nat := if b then 1 else 0

/-- The field of `size` bytes at byte `off` of a little-endian string (R5). -/
def le (x off size : Nat) : Nat := (x >>> (8 * off)) % 2 ^ (8 * size)

/-- Bits `hi` to `lo` of the field that starts at byte `off`. -/
def leBits (x off hi lo : Nat) : Nat := bits (x >>> (8 * off)) hi lo

/-- `v` placed as a field of `size` bytes at byte `off` of a string whose field there is zero. -/
def put (off size v : Nat) : Nat := (v % 2 ^ (8 * size)) <<< (8 * off)

/-- The `n` low bytes of a little-endian string, in address order. -/
def toBytes (x : Nat) : Nat → List Byte
  | 0 => []
  | n + 1 => BitVec.ofNat 8 x :: toBytes (x >>> 8) n

/-- The little-endian number that a list of bytes, in address order, spells. -/
def ofBytes : List Byte → Nat
  | [] => 0
  | b :: bs => b.toNat + 256 * ofBytes bs

/-- The `n` low bytes of `x` in reverse order: a big-endian field of a standard protocol (R5). -/
def swapBytes (x n : Nat) : Nat := ofBytes (toBytes x n).reverse

/-- The signed value of a two's-complement field of `w` bits. -/
def signed (x w : Nat) : Int := let y : Nat := x % 2 ^ w
  if y < 2 ^ (w - 1) then (y : Int) else (y : Int) - (2 ^ w : Nat)

/-- The two's-complement field of `w` bits that holds `v`. -/
def unsigned (v : Int) (w : Nat) : Nat := (v % ((2 ^ w : Nat) : Int)).toNat

/-- `a + b` that stops at `top`: the saturating counters of the register maps. -/
def satAdd (a b top : Nat) : Nat := min (a + b) top

/-- Subtraction modulo 2^32 (R51, R56). -/
def sub32 (a b : Nat) : Nat := (a + (2 ^ 32 - b % 2 ^ 32)) % 2 ^ 32

/-- `⌈a / b⌉`. -/
def ceilDiv (a b : Nat) : Nat := if b = 0 then 0 else (a + b - 1) / b

/-- `x` rounded up to a multiple of `a`. -/
def roundUp (x a : Nat) : Nat := ceilDiv x a * a

/-- The number of ones among the `n` low bits. -/
def popCount (x : Nat) : Nat → Nat
  | 0 => 0
  | n + 1 => b2n (x.testBit n) + popCount x n

/-- The lowest number below `n` that `p` accepts. -/
def lowest (n : Nat) (p : Nat → Bool) : Option Nat := (List.range n).find? p

/-- An element put before the first one whose key is larger. -/
def insertBy (key : Nat → Nat) (x : Nat) : List Nat → List Nat
  | [] => [x]
  | y :: ys => if key x < key y then x :: y :: ys else y :: insertBy key x ys

/-- The elements by rising key, equal keys in their order. -/
def sortBy (key : Nat → Nat) (xs : List Nat) : List Nat := xs.foldl (fun acc x => insertBy key x acc) []

/-- Two half-open ranges given by base and length share a byte; the lowest shared address. -/
def overlapAt (b₁ l₁ b₂ l₂ : Nat) : Option Nat :=
  let lo := max b₁ b₂
  if lo < b₁ + l₁ ∧ lo < b₂ + l₂ then some lo else none

/-- One bit of the reflected CRC-32C register (R59). -/
def crcBit (c : Nat) : Nat := if c % 2 = 1 then (c >>> 1) ^^^ 0x82F63B78 else c >>> 1

/-- One byte through the CRC-32C register. -/
def crcByte (c b : Nat) : Nat :=
  crcBit (crcBit (crcBit (crcBit (crcBit (crcBit (crcBit (crcBit (c ^^^ b))))))))

/-- The CRC register after the `n` low bytes of `x`. -/
def crcRun (c x : Nat) : Nat → Nat
  | 0 => c
  | n + 1 => crcRun (crcByte c (x % 256)) (x >>> 8) n

/-- The CRC-32C of the `n` low bytes of `x` (R59): reflected, started and finished with all ones. -/
def crc32c (x n : Nat) : Nat := (crcRun 0xFFFFFFFF x n) ^^^ 0xFFFFFFFF

end Sys2Proof.Machine
end

