-- ==== Sys2Proof/Machine/Flags.lean ====
section
/-! DEFINITION. The numeric flags: R110, R111. Which operation raises which flag stands with the operation, in
Sys2Proof/Machine/Num.lean; where a unit keeps its flags, `State.orFlags` sets them. -/
namespace Sys2Proof.Machine

/-- The four sticky flags of R110. -/
structure NumFlags where
  nv : Bool := false
  nx : Bool := false
  uf : Bool := false
  of : Bool := false
  deriving DecidableEq, Repr

/-- Flags raised by either of two operations. -/
def NumFlags.or (a b : NumFlags) : NumFlags :=
  { nv := a.nv || b.nv, nx := a.nx || b.nx, uf := a.uf || b.uf, of := a.of || b.of }

/-- The flags in the bit places of the NUMFLAGS registers: NV 3, NX 2, UF 1, OF 0. -/
def NumFlags.toNat (f : NumFlags) : Nat := 8 * b2n f.nv + 4 * b2n f.nx + 2 * b2n f.uf + b2n f.of

/-- Flags of an invalid operation. -/
def nvFlag (b : Bool) : NumFlags := { nv := b }

end Sys2Proof.Machine
end

