-- ==== Sys2Proof/Machine/Num.lean ====
section
/-! DEFINITION. Exact numbers, the number formats and every rounding of the device: spec/04_number_formats.md, R89 to R111,
R507. A value is exact until a rule rounds it; the rounding functions answer the rounded value with the flags it raises. -/
namespace Sys2Proof.Machine

/-- An exact value: not a number, a signed infinity, or `(-1)^neg · m · 2^e`. A zero keeps its sign (R91). -/
inductive Val where
  | nan
  | inf (neg : Bool)
  | fin (neg : Bool) (m : Nat) (e : Int)
  deriving DecidableEq, Repr

/-- The census class of one converted element (R111); every element counts in the total. -/
inductive Cls where
  | none | clipped | vanished | subnormal
  deriving DecidableEq, Repr

namespace Val

/-- Positive zero. -/
def zero : Val := .fin false 0 0

/-- One. -/
def one : Val := .fin false 1 0

/-- An integer as an exact value. -/
def ofInt (i : Int) : Val := .fin (decide (i < 0)) i.natAbs 0

/-- A natural number as an exact value. -/
def ofNat (n : Nat) : Val := .fin false n 0

/-- `2^e`. -/
def pow2 (e : Int) : Val := .fin false 1 e

/-- The sign bit; a NaN has none. -/
def neg? : Val → Bool
  | .nan => false
  | .inf n => n
  | .fin n _ _ => n

/-- Whether the value is a NaN. -/
def isNan : Val → Bool
  | .nan => true
  | _ => false

/-- Whether the value is infinite. -/
def isInf : Val → Bool
  | .inf _ => true
  | _ => false

/-- Whether the value is a zero of either sign. -/
def isZero : Val → Bool
  | .fin _ 0 _ => true
  | _ => false

/-- Whether the value is finite. -/
def isFin : Val → Bool
  | .fin _ _ _ => true
  | _ => false

/-- The value with the sign given. -/
def withSign (n : Bool) : Val → Val
  | .nan => .nan
  | .inf _ => .inf n
  | .fin _ m e => .fin n m e

/-- Negation: a NaN stays a NaN. -/
def neg (x : Val) : Val := x.withSign (!x.neg?)

/-- Magnitude. -/
def abs (x : Val) : Val := x.withSign false

/-- `x · 2^k`, exact. -/
def scale (x : Val) (k : Int) : Val :=
  match x with
  | .fin n m e => .fin n m (e + k)
  | y => y

/-- `m₁·2^e₁ < m₂·2^e₂` on magnitudes. -/
def magLt (m₁ : Nat) (e₁ : Int) (m₂ : Nat) (e₂ : Int) : Bool :=
  let e := min e₁ e₂
  m₁ <<< (e₁ - e).toNat < m₂ <<< (e₂ - e).toNat

/-- The exponent of the leading bit: `⌊log₂ |v|⌋` of a non-zero `m·2^e`. -/
def ilog (m : Nat) (e : Int) : Int := (m.log2 : Int) + e

/-- `x < y`; false when either is a NaN. Zeros of both signs are equal. -/
def lt : Val → Val → Bool
  | .nan, _ => false
  | _, .nan => false
  | .inf a, .inf b => a && !b
  | .inf a, .fin _ _ _ => a
  | .fin _ _ _, .inf b => !b
  | .fin a m e, .fin b n f =>
    if m = 0 ∧ n = 0 then false
    else match a, b with
      | false, false => magLt m e n f
      | true, true => magLt n f m e
      | true, false => true
      | false, true => false

/-- `x = y` as numbers; false when either is a NaN. -/
def eqv (x y : Val) : Bool := !x.isNan && !y.isNan && !x.lt y && !y.lt x

/-- `x ≤ y`; false when either is a NaN. -/
def le (x y : Val) : Bool := x.lt y || x.eqv y

/-- Equality of value and of the sign of a zero: what "the result differs from the source" compares (R107). -/
def same (x y : Val) : Bool :=
  match x, y with
  | .nan, .nan => true
  | .inf a, .inf b => a == b
  | .fin a m e, .fin b n f => a == b && !magLt m e n f && !magLt n f m e
  | _, _ => false

/-- Exact sum, and whether it is an invalid operation (infinities of opposite sign). An exact zero sum of opposite signs is
+0, as under round to nearest. -/
def add (x y : Val) : Val × Bool :=
  match x, y with
  | .nan, _ => (.nan, false)
  | _, .nan => (.nan, false)
  | .inf a, .inf b => if a = b then (.inf a, false) else (.nan, true)
  | .inf a, .fin _ _ _ => (.inf a, false)
  | .fin _ _ _, .inf b => (.inf b, false)
  | .fin a m e, .fin b n f =>
    let g := min e f
    let p := m <<< (e - g).toNat
    let q := n <<< (f - g).toNat
    if a = b then (.fin a (p + q) g, false)
    else if p = q then (.fin false 0 0, false)
    else if q < p then (.fin a (p - q) g, false)
    else (.fin b (q - p) g, false)

/-- Exact product, and whether it is invalid (zero times infinity). -/
def mul (x y : Val) : Val × Bool :=
  match x, y with
  | .nan, _ => (.nan, false)
  | _, .nan => (.nan, false)
  | .inf a, .inf b => (.inf (a != b), false)
  | .inf a, .fin b n _ => if n = 0 then (.nan, true) else (.inf (a != b), false)
  | .fin a m _, .inf b => if m = 0 then (.nan, true) else (.inf (a != b), false)
  | .fin a m e, .fin b n f => (.fin (a != b) (m * n) (e + f), false)

/-- Quotient with its flags (R110): a finite non-zero value over zero is an infinity with OF alone; 0/0 and ∞/∞ are NaN with
NV. A quotient that has no finite binary expansion is held to more than 128 bits with a lowest bit that is set when anything
was cut off, so that every later rounding to at most 64 bits, and every comparison with such a value, is that of the exact
quotient. -/
def div (x y : Val) : Val × NumFlags :=
  match x, y with
  | .nan, _ => (.nan, {})
  | _, .nan => (.nan, {})
  | .inf _, .inf _ => (.nan, { nv := true })
  | .inf a, .fin b _ _ => (.inf (a != b), {})
  | .fin a _ _, .inf b => (.fin (a != b) 0 0, {})
  | .fin a m e, .fin b n f =>
    if n = 0 then (if m = 0 then (.nan, { nv := true }) else (.inf (a != b), { of := true }))
    else if m = 0 then (.fin (a != b) 0 0, {})
    else
      let k := 130 + n.log2
      let q := (m <<< k) / n
      (.fin (a != b) (2 * q + b2n (decide ((m <<< k) % n ≠ 0))) (e - f - k - 1), {})

/-- Integer square root by one binary digit a step: `r` is the root of the digits above `2^(2n)`. -/
def isqrtGo (x : Nat) : Nat → Nat → Nat
  | 0, r => r
  | n + 1, r =>
    let t := 2 * r + 1
    isqrtGo x n (if t * t ≤ x >>> (2 * n) then t else 2 * r)

/-- `⌊√x⌋`. -/
def isqrt (x : Nat) : Nat := isqrtGo x (x.log2 / 2 + 1) 0

/-- Square root, kept to more than 128 bits with a sticky lowest bit as in `div`; a negative value is invalid. -/
def sqrt (x : Val) : Val × NumFlags :=
  match x with
  | .nan => (.nan, {})
  | .inf n => if n then (.nan, { nv := true }) else (.inf false, {})
  | .fin n m e =>
    if m = 0 then (.fin n 0 0, {})
    else if n then (.nan, { nv := true })
    else
      let o : Nat := (e % 2).toNat
      let p := m <<< (o + 260)
      let r := isqrt p
      (.fin false (2 * r + b2n (decide (r * r ≠ p))) ((e - o) / 2 - 130 - 1), {})

end Val

/-- `m·2^e` in units of `2^q`, rounded to nearest, ties to even (R103). -/
def roundRne (m : Nat) (e q : Int) : Nat :=
  if q ≤ e then m <<< (e - q).toNat
  else
    let k := (q - e).toNat
    let t := m >>> k
    let rem := m % 2 ^ k
    let half := 2 ^ (k - 1)
    if half < rem ∨ (rem = half ∧ t % 2 = 1) then t + 1 else t

/-- `m·2^e` in units of `2^q`, rounded stochastically with the 16 bits `r` (R104). -/
def roundSr (m : Nat) (e q : Int) (r : Nat) : Nat :=
  if q ≤ e then m <<< (e - q).toNat
  else
    let k := (q - e).toNat
    let t := m >>> k
    let d := ((m % 2 ^ k) <<< 16) >>> k
    if 2 ^ 16 ≤ d + r then t + 1 else t

/-- An element layout of R90. `maxM·2^maxE` is the largest finite magnitude. -/
structure FloatFmt where
  ebits  : Nat
  mbits  : Nat
  bias   : Nat
  long   : Bool
  hasInf : Bool
  hasNan : Bool
  maxM   : Nat
  maxE   : Int
  defInf : Bool
  deriving DecidableEq, Repr

def fFp32 : FloatFmt := { ebits := 8, mbits := 23, bias := 127, long := true, hasInf := true, hasNan := true, maxM := 0xFFFFFF, maxE := 104, defInf := true }
def fBf16 : FloatFmt := { ebits := 8, mbits := 7, bias := 127, long := true, hasInf := true, hasNan := true, maxM := 0xFF, maxE := 120, defInf := true }
def fFp16 : FloatFmt := { ebits := 5, mbits := 10, bias := 15, long := true, hasInf := true, hasNan := true, maxM := 0x7FF, maxE := 5, defInf := true }
def fE4m3 : FloatFmt := { ebits := 4, mbits := 3, bias := 7, long := false, hasInf := false, hasNan := true, maxM := 14, maxE := 5, defInf := false }
def fE5m2 : FloatFmt := { ebits := 5, mbits := 2, bias := 15, long := false, hasInf := true, hasNan := true, maxM := 7, maxE := 13, defInf := false }
def fE3m2 : FloatFmt := { ebits := 3, mbits := 2, bias := 3, long := false, hasInf := false, hasNan := false, maxM := 7, maxE := 2, defInf := false }
def fE2m3 : FloatFmt := { ebits := 2, mbits := 3, bias := 1, long := false, hasInf := false, hasNan := false, maxM := 15, maxE := -1, defInf := false }
def fE2m1 : FloatFmt := { ebits := 2, mbits := 1, bias := 1, long := false, hasInf := false, hasNan := false, maxM := 3, maxE := 1, defInf := false }

/-- Exponent of the smallest normal: `1 - bias`. -/
def FloatFmt.emin (f : FloatFmt) : Int := 1 - f.bias

/-- Significant bits, the hidden one among them. -/
def FloatFmt.sig (f : FloatFmt) : Nat := f.mbits + 1

/-- The canonical NaN of R91 (zero where the format has none). -/
def FloatFmt.canonNan (f : FloatFmt) : Nat :=
  if f.hasNan then
    (if f.hasInf then ((2 ^ f.ebits - 1) <<< f.mbits) + 2 ^ (f.mbits - 1) else ((2 ^ f.ebits - 1) <<< f.mbits) + (2 ^ f.mbits - 1))
  else 0

/-- The bits of a value the format holds exactly; a NaN gives the canonical NaN. -/
def FloatFmt.encode (f : FloatFmt) (x : Val) : Nat :=
  let s (n : Bool) := b2n n <<< (f.ebits + f.mbits)
  match x with
  | .nan => f.canonNan
  | .inf n => s n + (2 ^ f.ebits - 1) <<< f.mbits
  | .fin n m e =>
    if m = 0 then s n
    else
      let l := Val.ilog m e
      if f.emin ≤ l then s n + ((l + f.bias).toNat <<< f.mbits) + (roundRne m e (l - f.mbits) - 2 ^ f.mbits)
      else s n + roundRne m e (f.emin - f.mbits)

/-- The value of a bit pattern of the format, before R92. -/
def FloatFmt.decode (f : FloatFmt) (w : Nat) : Val :=
  let n := w.testBit (f.ebits + f.mbits)
  let e := (w >>> f.mbits) % 2 ^ f.ebits
  let m := w % 2 ^ f.mbits
  if f.hasInf ∧ e = 2 ^ f.ebits - 1 then (if m = 0 then .inf n else .nan)
  else if f.hasNan ∧ ¬ f.hasInf ∧ e = 2 ^ f.ebits - 1 ∧ m = 2 ^ f.mbits - 1 then .nan
  else if e = 0 then .fin n m (f.emin - f.mbits)
  else .fin n (2 ^ f.mbits + m) ((e : Int) - f.bias - f.mbits)

/-- Whether a bit pattern is a non-zero subnormal. -/
def FloatFmt.isSub (f : FloatFmt) (w : Nat) : Bool :=
  decide ((w >>> f.mbits) % 2 ^ f.ebits = 0) && decide (w % 2 ^ f.mbits ≠ 0)

/-- The value of an operand element: a long format reads a subnormal as zero of its sign (R92). -/
def FloatFmt.read (f : FloatFmt) (w : Nat) : Val :=
  if f.long ∧ f.isSub w then .fin (w.testBit (f.ebits + f.mbits)) 0 0 else f.decode w

/-- A target of a conversion: a floating-point element, or an integer of -127 to 127 (R105). -/
inductive Target where
  | float (f : FloatFmt)
  | int8
  deriving DecidableEq, Repr

/-- What one conversion answers: the stored bits, the value they stand for, the flags and the census class. -/
structure Conv where
  raw : Nat := 0
  val : Val := .zero
  fl  : NumFlags := {}
  cls : Cls := .none
  deriving DecidableEq, Repr

/-- Rounding of a finite non-zero magnitude to a target's spacing (R103, R104): short formats stop at the subnormal spacing,
long formats round with the exponent unbounded below. -/
def Target.round (t : Target) (m : Nat) (e : Int) (r : Option Nat) : Val :=
  match t with
  | .int8 => .fin false (roundRne m e 0) 0
  | .float f =>
    let u := Val.ilog m e - f.mbits
    match r with
    | some b => .fin false (roundSr m e u b) u
    | none =>
      let q := if f.long then u else max u (f.emin - f.mbits)
      .fin false (roundRne m e q) q

/-- The largest finite magnitude of a target. -/
def Target.maxFin : Target → Val
  | .int8 => .ofNat 127
  | .float f => .fin false f.maxM f.maxE

/-- The stored bits of a value the target holds. -/
def Target.encode : Target → Val → Nat
  | .int8, .fin n m e => unsigned (if n then -(roundRne m e 0 : Int) else (roundRne m e 0 : Int)) 8
  | .int8, _ => 0
  | .float f, x => f.encode x

/-- Whether OVP selects INF (R105): 0 is the target's default, 1 SAT, 2 INF. -/
def Target.selInf (t : Target) (ovp : Nat) : Bool :=
  match t with
  | .int8 => false
  | .float f => decide (ovp = 2) || (decide (ovp = 0) && f.defInf)

/-- The scalar conversion of R107. -/
def Target.convert (t : Target) (x : Val) (ovp : Nat) (r : Option Nat) : Conv :=
  let hasNan : Bool := match t with | .int8 => false | .float f => f.hasNan
  let hasInf : Bool := match t with | .int8 => false | .float f => f.hasInf
  let long : Bool := match t with | .int8 => false | .float f => f.long
  let minNorm : Val := match t with | .int8 => .zero | .float f => .pow2 f.emin
  let fin (n : Bool) (m : Val) (xm : Bool) : Conv :=
    if (t.maxFin).lt m then
      if t.selInf ovp ∧ hasInf then
        { raw := t.encode (.inf n), val := .inf n, fl := { of := true, nx := !x.isInf }, cls := .clipped }
      else if t.selInf ovp ∧ hasNan then
        match t with
        | .float f => { raw := f.canonNan + b2n n <<< (f.ebits + f.mbits), val := .nan, fl := { of := true, nx := true }, cls := .clipped }
        | .int8 => {}
      else
        let v := t.maxFin.withSign n
        { raw := t.encode v, val := v, fl := { of := true, nx := true }, cls := .clipped }
    else if long ∧ !m.isZero ∧ m.lt minNorm then
      { raw := t.encode (.fin n 0 0), val := .fin n 0 0, fl := { uf := true, nx := true }, cls := .subnormal }
    else if m.isZero ∧ xm then
      { raw := t.encode (.fin n 0 0), val := .fin n 0 0, fl := { uf := true, nx := true }, cls := .vanished }
    else
      let v := m.withSign n
      { raw := t.encode v, val := v, fl := { nx := !(v.abs).same x.abs },
        cls := if !long ∧ !m.isZero ∧ m.lt minNorm then .subnormal else .none }
  match x with
  | .nan => if hasNan then { raw := t.encode .nan, val := .nan } else { fl := { nv := true } }
  | .inf n => fin n (.inf false) true
  | .fin n m e => if m = 0 then { raw := t.encode (.fin n 0 0), val := .fin n 0 0 } else fin n (t.round m e r) true

/-- An arithmetic form: significant bits, smallest normal exponent, largest finite value, and what an overflow gives. -/
structure Form where
  sig    : Nat
  emin   : Int
  maxM   : Nat
  maxE   : Int
  hasInf : Bool
  deriving DecidableEq, Repr

def formFp32 : Form := { sig := 24, emin := -126, maxM := 0xFFFFFF, maxE := 104, hasInf := true }
def formBf16 : Form := { sig := 8, emin := -126, maxM := 0xFF, maxE := 120, hasInf := true }
/-- ACC40 (R100). -/
def formAcc : Form := { sig := 29, emin := -510, maxM := 2 ^ 29 - 1, maxE := 483, hasInf := true }
/-- W64 (R101). -/
def formW64 : Form := { sig := 51, emin := -2046, maxM := 2 ^ 51 - 1, maxE := 1997, hasInf := false }

/-- The rounding of an arithmetic result (R92 for FP32 and BF16, R102 for ACC40 and W64): to nearest, ties to even, the
exponent unbounded below; over the largest finite value OF and NX with an infinity, or in W64 the largest finite value; below
the smallest normal a zero of the sign with UF and NX. An infinity that meets W64 becomes its largest finite value with OF. -/
def Form.round (f : Form) (x : Val) : Val × NumFlags :=
  match x with
  | .nan => (.nan, {})
  | .inf n => if f.hasInf then (.inf n, {}) else (.fin n f.maxM f.maxE, { of := true })
  | .fin n m e =>
    if m = 0 then (.fin n 0 0, {})
    else
      let q := Val.ilog m e - (f.sig - 1 : Nat)
      let t := roundRne m e q
      if Val.magLt f.maxM f.maxE t q then
        (if f.hasInf then .inf n else .fin n f.maxM f.maxE, { of := true, nx := true })
      else if Val.magLt t q 1 f.emin then (.fin n 0 0, { uf := true, nx := true })
      else (.fin n t q, { nx := !(Val.fin n t q).same x })

/-- A rounded sum. -/
def Form.add (f : Form) (x y : Val) : Val × NumFlags :=
  let (s, i) := x.add y
  let (v, fl) := f.round s
  (v, fl.or (nvFlag i))

/-- A rounded difference. -/
def Form.sub (f : Form) (x y : Val) : Val × NumFlags := f.add x y.neg

/-- A rounded product. -/
def Form.mul (f : Form) (x y : Val) : Val × NumFlags :=
  let (s, i) := x.mul y
  let (v, fl) := f.round s
  (v, fl.or (nvFlag i))

/-- A rounded quotient (R110). -/
def Form.div (f : Form) (x y : Val) : Val × NumFlags :=
  let (s, g) := x.div y
  let (v, fl) := f.round s
  (v, fl.or g)

/-- A rounded square root. -/
def Form.sqrt (f : Form) (x : Val) : Val × NumFlags :=
  let (s, g) := x.sqrt
  let (v, fl) := f.round s
  (v, fl.or g)

/-- `x·y + z` rounded once. -/
def Form.fma (f : Form) (x y z : Val) : Val × NumFlags :=
  let (p, i) := x.mul y
  let (s, j) := p.add z
  let (v, fl) := f.round s
  (v, fl.or (nvFlag (i || j)))

/-- The larger of two values by number; a NaN operand gives NaN. -/
def Val.maxv (x y : Val) : Val := if x.isNan || y.isNan then .nan else if x.lt y then y else x

/-- The smaller of two values by number; a NaN operand gives NaN. -/
def Val.minv (x y : Val) : Val := if x.isNan || y.isNan then .nan else if y.lt x then y else x

/-- Decoding of a sign-exponent-significand form with an explicit integer bit (R100, R101): a non-canonical encoding reads
as zero of its sign. -/
def decodeWide (ebits mbits bias : Nat) (hasInf : Bool) (w : Nat) : Val :=
  let n := w.testBit (ebits + mbits)
  let e := (w >>> mbits) % 2 ^ ebits
  let m := w % 2 ^ mbits
  if e = 2 ^ ebits - 1 then (if hasInf ∧ m = 0 then .inf n else .nan)
  else if e = 0 ∨ ¬ m.testBit (mbits - 1) then .fin n 0 0
  else .fin n m ((e : Int) - bias - (mbits - 1 : Nat))

/-- Encoding of a value that such a form holds; only canonical encodings are written. -/
def encodeWide (ebits mbits bias nanBits : Nat) (x : Val) : Nat :=
  let s (n : Bool) := b2n n <<< (ebits + mbits)
  match x with
  | .nan => nanBits
  | .inf n => s n + (2 ^ ebits - 1) <<< mbits
  | .fin n m e =>
    if m = 0 then s n
    else
      let l := Val.ilog m e
      s n + ((l + bias).toNat <<< mbits) + roundRne m e (l - (mbits - 1 : Nat))

/-- ACC40 bits (R100). -/
def accDecode (w : Nat) : Val := decodeWide 10 29 511 true w
/-- ACC40 bits of a value the form holds; the canonical NaN is 0x7F_F000_0000. -/
def accEncode (x : Val) : Nat := encodeWide 10 29 511 0x7FF0000000 x
/-- W64 bits (R101). -/
def w64Decode (w : Nat) : Val := decodeWide 12 51 2047 false w
/-- W64 bits of a value the form holds; the canonical NaN is 0x7FFC_0000_0000_0000. -/
def w64Encode (x : Val) : Nat := encodeWide 12 51 2047 0x7FFC000000000000 x

/-- ACC40 into W64: exact but for an infinity (R102). -/
def accToW64 (x : Val) : Val × NumFlags := formW64.round x

/-- FP32 bits of a value, and back with R92. -/
def fp32Bits (x : Val) : Nat := fFp32.encode x
def fp32Val (w : Nat) : Val := fFp32.read w
def bf16Val (w : Nat) : Val := fBf16.read w

/-- The OPF22 form of an operand (R98). -/
def opf22Encode (x : Val) : Nat :=
  match x with
  | .nan => (0x3FF <<< 11) + 2 ^ 10
  | .inf n => b2n n <<< 21 + 0x3FF <<< 11
  | .fin n m e =>
    if m = 0 then b2n n <<< 21
    else b2n n <<< 21 + ((Val.ilog m e + 511).toNat <<< 11) + (roundRne m e (Val.ilog m e - 11) - 2 ^ 11)

/-- The value of an OPF22 operand (R98). -/
def opf22Decode (w : Nat) : Val :=
  let n := w.testBit 21
  let e : Nat := (w >>> 11) % 2 ^ 10
  let f := w % 2 ^ 11
  if e = 0x3FF then (if f = 0 then .inf n else .nan)
  else if e = 0 then .fin n 0 0
  else .fin n (2 ^ 11 + f) ((e : Int) - 511 - 11)

/-- An operand as the multipliers see it (R98): exact for every value the formats decode to. -/
def toOperand (x : Val) : Val := opf22Decode (opf22Encode x)

/-- Rounding of one piece of R99 to 8 significant bits, exponent unbounded above, flushed below the smallest normal (R92). -/
def bf16Piece (x : Val) : Val :=
  match x with
  | .fin n m e =>
    if m = 0 then .fin n 0 0
    else
      let q := Val.ilog m e - 7
      let t := roundRne m e q
      if Val.magLt t q 1 (-126) then .fin n 0 0 else .fin n t q
  | y => y

/-- The three BF16 pieces of an FP32 operand (R99). -/
def split3 (x : Val) : Val × Val × Val :=
  if x.isFin then
    let hi := bf16Piece x
    let r₁ := (x.add hi.neg).1
    let mid := bf16Piece r₁
    let lo := bf16Piece (r₁.add mid.neg).1
    (hi, mid, lo)
  else (x, .zero, .zero)

/-- The format codes of R89. -/
inductive Fmt where
  | fp32 | bf16 | fp16 | e4m3 | e5m2 | mxfp8 | mxfp6e3m2 | mxfp6e2m3 | mxfp4 | vb4 | vt2 | int8 | wb8
  deriving DecidableEq, Repr

/-- The format of a code; 0xD to 0xF are reserved (R27). -/
def Fmt.ofCode : Nat → Option Fmt
  | 0 => some .fp32 | 1 => some .bf16 | 2 => some .fp16 | 3 => some .e4m3 | 4 => some .e5m2 | 5 => some .mxfp8
  | 6 => some .mxfp6e3m2 | 7 => some .mxfp6e2m3 | 8 => some .mxfp4 | 9 => some .vb4 | 10 => some .vt2 | 11 => some .int8
  | 12 => some .wb8 | _ => none

/-- The code of a format. -/
def Fmt.code : Fmt → Nat
  | .fp32 => 0 | .bf16 => 1 | .fp16 => 2 | .e4m3 => 3 | .e5m2 => 4 | .mxfp8 => 5 | .mxfp6e3m2 => 6 | .mxfp6e2m3 => 7
  | .mxfp4 => 8 | .vb4 => 9 | .vt2 => 10 | .int8 => 11 | .wb8 => 12

/-- Bits of one element field. -/
def Fmt.elemBits : Fmt → Nat
  | .fp32 => 32 | .bf16 | .fp16 => 16 | .e4m3 | .e5m2 | .mxfp8 | .int8 | .wb8 => 8 | .mxfp6e3m2 | .mxfp6e2m3 => 6
  | .mxfp4 | .vb4 => 4 | .vt2 => 2

/-- Block length, 1 for the scalar formats. -/
def Fmt.blockLen : Fmt → Nat
  | .mxfp8 | .mxfp6e3m2 | .mxfp6e2m3 | .mxfp4 => 32
  | .vb4 | .vt2 => 64
  | .wb8 => 4096
  | _ => 1

/-- Long formats: FP32, BF16, FP16 (R89). -/
def Fmt.isLong : Fmt → Bool
  | .fp32 | .bf16 | .fp16 => true
  | _ => false

/-- Bytes of stored block scale per block (R93). -/
def Fmt.scaleBytes : Fmt → Nat
  | .mxfp8 | .mxfp6e3m2 | .mxfp6e2m3 | .mxfp4 | .vb4 => 1
  | .vt2 => 2
  | _ => 0

/-- Whether a row is laid out by R93: elements narrower than 8 bits, or a block format with stored scales. WB8 rows are plain
bytes: its chunk scales are not stored. -/
def Fmt.rowed (f : Fmt) : Bool := decide (f.scaleBytes ≠ 0)

/-- Whether the format is a block format (R89). -/
def Fmt.isBlock (f : Fmt) : Bool := decide (f.blockLen ≠ 1)

/-- The element layout of a float element. -/
def Fmt.float : Fmt → FloatFmt
  | .fp32 => fFp32 | .bf16 => fBf16 | .fp16 => fFp16 | .e4m3 | .mxfp8 => fE4m3 | .e5m2 => fE5m2
  | .mxfp6e3m2 => fE3m2 | .mxfp6e2m3 => fE2m3 | .mxfp4 | .vb4 => fE2m1
  | .vt2 | .int8 | .wb8 => fFp32

/-- The conversion target of one element. -/
def Fmt.target : Fmt → Target
  | .int8 | .wb8 | .vt2 => .int8
  | f => .float f.float

/-- `emax` of R108. -/
def Fmt.emax : Fmt → Int
  | .mxfp8 => 8
  | .mxfp6e3m2 => 4
  | _ => 2

/-- Bytes of one row of `ext0` elements (R93): the parts rounded up to 64 bytes; a scalar or WB8 row has no padding. -/
def Fmt.rowBytes (f : Fmt) (ext0 : Nat) : Nat :=
  if f.rowed then
    roundUp (ceilDiv (ext0 * f.elemBits) 8 + ext0 / f.blockLen * (f.scaleBytes + if f = .vb4 then 3 else 0)) 64
  else ext0 * f.elemBits / 8

/-- The byte offset of the scale area in a row (R93). -/
def Fmt.scaleOff (f : Fmt) (ext0 : Nat) : Nat := ceilDiv (ext0 * f.elemBits) 8

/-- The element field `i` of a row held as a little-endian number. -/
def Fmt.elemField (f : Fmt) (row i : Nat) : Nat := (row >>> (i * f.elemBits)) % 2 ^ f.elemBits

/-- A decoded element: its value, its field, and the census class it counts in beside the total (R111). -/
structure Elem where
  val : Val
  cls : Cls := .none
  deriving DecidableEq, Repr

/-- The element `i` of a row, decoded (R90 to R97): block scales folded in; the scale of INT8 (`sc`) applied by the caller, the
power of two of WB8 in `sc`. A block scale of VT2 that is flushed adds to no class of the counts (DESIGN CHOICE, log 41), and the NaN of c = 0 under an infinite
scale sets no flag (DESIGN CHOICE, log 62). -/
def Fmt.decodeAt (f : Fmt) (row ext0 i : Nat) (sc : Val) : Elem :=
  let w := f.elemField row i
  let blk := i / f.blockLen
  match f with
  | .fp32 | .bf16 | .fp16 =>
    { val := f.float.read w, cls := if f.float.isSub w then .subnormal else .none }
  | .e4m3 | .e5m2 => { val := f.float.read w }
  | .mxfp8 | .mxfp6e3m2 | .mxfp6e2m3 | .mxfp4 =>
    let x := le row (f.scaleOff ext0 + blk) 1
    { val := if x = 255 then .nan else (f.float.decode w).scale ((x : Int) - 127) }
  | .vb4 =>
    let x := le row (f.scaleOff ext0 + blk) 1
    let sh := le row (f.scaleOff ext0 + ext0 / 64 + 3 * blk) 3
    let s := (sh >>> (3 * ((i % 64) / 8))) % 8
    { val := if x = 255 then .nan else (f.float.decode w).scale ((x : Int) - 127 - s) }
  | .vt2 =>
    let b := le row (f.scaleOff ext0 + 2 * blk) 2
    let s := fBf16.read b
    { val := if w = 1 then s else if w = 3 then s.neg else if s.isFin then .zero else .nan }
  | .int8 => { val := ((Val.ofInt (signed w 8)).mul sc).1 }
  | .wb8 => { val := ((Val.ofInt (signed w 8)).mul sc).1 }

/-- Census counts of one command for one format (R190): clipped, vanished, subnormal, total. -/
structure Counts where
  clipped   : Nat := 0
  vanished  : Nat := 0
  subnormal : Nat := 0
  total     : Nat := 0
  deriving DecidableEq, Repr

/-- One more element of a class. -/
def Counts.bump (c : Counts) (k : Cls) : Counts :=
  { clipped := c.clipped + if k = .clipped then 1 else 0,
    vanished := c.vanished + if k = .vanished then 1 else 0,
    subnormal := c.subnormal + if k = .subnormal then 1 else 0,
    total := c.total + 1 }

/-- Sum of two counts. -/
def Counts.add (a b : Counts) : Counts :=
  { clipped := a.clipped + b.clipped, vanished := a.vanished + b.vanished,
    subnormal := a.subnormal + b.subnormal, total := a.total + b.total }

/-- One encoded block: the element fields, the scale field, the shift field, the flags and the census counts. -/
structure Block where
  elems  : List Nat := []
  scale  : Nat := 0
  shift  : Nat := 0
  fl     : NumFlags := {}
  counts : Counts := {}
  deriving DecidableEq, Repr

/-- Largest magnitude among the finite elements; zero when there is none. -/
def maxMag (xs : List Val) : Val :=
  xs.foldl (fun a x => if x.isFin && a.lt x.abs then x.abs else a) .zero

/-- `⌊log₂ v⌋` of a finite non-zero magnitude, 0 otherwise. -/
def Val.flog2 : Val → Int
  | .fin _ m e => if m = 0 then 0 else Val.ilog m e
  | _ => 0

/-- Converts a list of values with one target, scaling each first by `2^(-k i)`. -/
def convertList (t : Target) (ovp : Nat) (k : Nat → Int) (xs : List Val) : List Nat × NumFlags × Counts :=
  let go := xs.foldl (fun (acc : List Nat × NumFlags × Counts × Nat) x =>
    let c := t.convert (x.scale (-(k acc.2.2.2))) ovp none
    (c.raw :: acc.1, acc.2.1.or c.fl, acc.2.2.1.bump c.cls, acc.2.2.2 + 1)) ([], {}, {}, 0)
  (go.1.reverse, go.2.1, go.2.2.1)

/-- Encoding of an MX or VB4 block (R107, R108). -/
def encodeMx (f : Fmt) (ovp : Nat) (xs : List Val) : Block :=
  if xs.any Val.isNan then
    { elems := xs.map (fun _ => 0), scale := 255, fl := { nv := true }, counts := { total := xs.length } }
  else
    let a := maxMag xs
    let xe : Int := if a.isZero then 0 else min 254 (max 0 (a.flog2 - f.emax + 127))
    let sh (j : Nat) : Nat :=
      if f = .vb4 then
        let aj := maxMag ((xs.drop (8 * j)).take 8)
        if aj.isZero then 7 else (min 7 (max 0 (a.flog2 - aj.flog2))).toNat
      else 0
    let (es, fl, cn) := convertList f.target ovp (fun i => xe - 127 - sh (i / 8)) xs
    { elems := es, scale := xe.toNat,
      shift := if f = .vb4 then (List.range 8).foldl (fun acc j => acc + sh j <<< (3 * j)) 0 else 0,
      fl := fl, counts := cn }

/-- The exact sum of the magnitudes of the finite elements of a block. -/
def sumMag (xs : List Val) : Val := xs.foldl (fun a x => if x.isFin then (a.add x.abs).1 else a) .zero

/-- Encoding of a VT2 block (R109). A sum / 64 beyond the finite values of BF16 gives an infinite scale, with OF and NX whatever OVP is, and
then k = 0 for every finite element (DESIGN CHOICE, log 62). -/
def encodeVt2 (xs : List Val) : Block :=
  let (s, sfl) := formBf16.round ((sumMag xs).scale (-6))
  let one (x : Val) : Nat × NumFlags × Cls :=
    match x with
    | .nan => (0, { nv := true }, .none)
    | .inf n => (if n then 3 else 1, { of := true, nx := true }, .clipped)
    | .fin n m e =>
      if m = 0 then (0, {}, .none)
      else if s.isZero then (2, { uf := true, nx := true }, .vanished)
      else match (Val.div (.fin n m e) s).1 with
        | .fin _ qm qe =>
          let k := roundRne qm qe 0
          if k = 0 then (2, { uf := true, nx := true }, .vanished)
          else if 2 ≤ k then (if n then 3 else 1, { of := true, nx := true }, .clipped)
          else (if n then 3 else 1, { nx := !(Val.fin false qm qe).same .one }, .none)
        | _ => (0, {}, .none)
  let rs := xs.map one
  { elems := rs.map (·.1), scale := fBf16.encode s,
    fl := rs.foldl (fun a r => a.or r.2.1) sfl,
    counts := rs.foldl (fun a r => a.bump r.2.2) {} }

/-- Encoding of one block or, for a scalar format, one element. `sc` is the scale of INT8 or WB8: the exact quotient by it is
converted (R97, R507). -/
def Fmt.encodeBlock (f : Fmt) (ovp : Nat) (sc : Val) (xs : List Val) : Block :=
  match f with
  | .vt2 => encodeVt2 xs
  | .mxfp8 | .mxfp6e3m2 | .mxfp6e2m3 | .mxfp4 | .vb4 => encodeMx f ovp xs
  | .int8 | .wb8 =>
    let (es, fl, cn) := convertList .int8 ovp (fun _ => 0) (xs.map (fun x => (x.div sc).1))
    { elems := es, fl := fl, counts := cn }
  | _ =>
    let (es, fl, cn) := convertList f.target ovp (fun _ => 0) xs
    { elems := es, fl := fl, counts := cn }

/-- Places element fields at consecutive bit positions. -/
def packFields (b : Nat) : List Nat → Nat
  | [] => 0
  | x :: xs => x % 2 ^ b + (packFields b xs) <<< b

/-- Splits a list into pieces of `n` elements; `fuel` bounds their number. -/
def chunksOf (n : Nat) : Nat → List α → List (List α)
  | 0, _ => []
  | fuel + 1, xs => if xs.isEmpty then [] else xs.take n :: chunksOf n fuel (xs.drop n)

/-- One encoded row with its flags and counts (R93): element area, scale area, shift area, padding written as zero. `sc`
gives the scale of each block of INT8 or WB8. -/
def Fmt.encodeRow (f : Fmt) (ovp : Nat) (sc : Nat → Val) (xs : List Val) : Nat × NumFlags × Counts :=
  let bs := ((chunksOf f.blockLen (xs.length + 1) xs).zipIdx).map (fun p => f.encodeBlock ovp (sc p.2) p.1)
  let els := packFields f.elemBits (bs.flatMap (·.elems))
  let scs := packFields (8 * f.scaleBytes) (bs.map (·.scale))
  let shs := packFields 24 (bs.map (·.shift))
  let so := f.scaleOff xs.length
  let row := els + (if f.rowed then scs <<< (8 * so) else 0)
    + (if f = .vb4 then shs <<< (8 * (so + bs.length)) else 0)
  (row, bs.foldl (fun a b => a.or b.fl) {}, bs.foldl (fun a b => a.add b.counts) {})

end Sys2Proof.Machine
end

