-- ==== Sys2Proof/Machine/Tab.lean ====
section
/-! DEFINITION. Sparse tables in one canonical form: keys strictly rising, no entry equal to what an unlisted key reads as.
Memory and every large set of like registers, lines, entries and slots of the block are held so, and equal contents are
equal data. -/
namespace Sys2Proof.Machine

/-- A sparse table: key and value, keys strictly rising. -/
abbrev Tab (α : Type) := List (Nat × α)

namespace Tab
variable {α : Type}

/-- The entry of a key. -/
def find : Tab α → Nat → Option α
  | [], _ => none
  | (k, v) :: t, i => if i = k then some v else find t i

/-- What a key reads as: its entry, or the default `d`. -/
def get (d : α) (t : Tab α) (i : Nat) : α := (find t i).getD d

/-- The table without the entry of a key. -/
def erase : Tab α → Nat → Tab α
  | [], _ => []
  | (k, v) :: t, i => if i = k then erase t i else (k, v) :: erase t i

/-- The table with an entry for a key. -/
def insert : Tab α → Nat → α → Tab α
  | [], i, x => [(i, x)]
  | (k, v) :: t, i, x =>
    if i = k then (i, x) :: t else if i < k then (i, x) :: (k, v) :: t else (k, v) :: insert t i x

/-- A write that keeps the canonical form: writing the default `d` removes the entry. -/
def set [DecidableEq α] (d : α) (t : Tab α) (i : Nat) (x : α) : Tab α :=
  if x = d then erase t i else insert t i x

/-- The keys, rising. -/
def keys (t : Tab α) : List Nat := t.map (·.1)

/-- Whether every key of the table is above `b` and the keys rise. -/
def above (b : Nat) : Tab α → Bool
  | [] => true
  | (k, _) :: t => decide (b < k) && above k t

/-- Keys strictly rising. -/
def sorted : Tab α → Bool
  | [] => true
  | (k, _) :: t => above k t

/-- The canonical form, for a default that may depend on the key. -/
def wf [DecidableEq α] (d : Nat → α) (t : Tab α) : Bool :=
  sorted t && t.all (fun p => decide (p.2 ≠ d p.1))

end Tab
end Sys2Proof.Machine
end

