-- ==== Sys2Proof/Machine/Regs.lean ====
section
/-! DEFINITION. The registers of the block under the spec's own names: one `Reg` per register map of spec/, its fields with
their access codes (R6) and the word each holds at reset (R11). -/
namespace Sys2Proof.Machine

/-- The registers of the register maps. A register of which the device has several is named with an instance number. -/
inductive Reg where
  | AMR_CFG | AMR_ILV_TOP | AMR_FAULT_STATUS | AMR_FAULT_ADDR | DM_NUMFLAGS | Q_RING_BASE | Q_STS_BASE | Q_CTX_BASE
  | Q_CFG | Q_PTR | Q_TAIL | Q_STATE | Q_CTL | Q_IRQ | ENG_NUMFLAGS | ENG_STATUS | ENG_CTL | ENG_ERR_COUNT
  | ENG_ERR_INFO | ENG_CYCLES | ENG_BUSY | ACC_AMAX_BASE | SPW_STATUS | ACC_ERR_COUNT | ACC_ERR_INFO | ACC_NUMFLAGS
  | MP_ECC | MP_SPARE | VEC_TABLE | VEC_NUMFLAGS | PK_POOL | PK_COUNTS | PK_DROPS | ATT_NUMFLAGS | NTEL_SCALE
  | NTEL_CENSUS | NTEL_UW | NTEL_UW_THRESH | NTEL_STATUS | NTEL_SRT_SEED | NTEL_SRT_STEP | NTEL_SRT_TID
  | NTEL_SRT_IDX | NTEL_SRT_OUT | UPD_STATUS | UPD_CTL | UPD_JRNL | UPD_JLINE | UPD_NUMFLAGS | RC_WRT | RC_WREF_SEL
  | RC_WREF | STK_THERM | STK_THERM_EVT | STK_TENT | STK_TENT_CFG | CH_STATE | CH_ARB | CH_ECC_COUNT | CH_ECC_INFO
  | CH_ECC_CFG | CH_LANE_MAP | CH_SCRUB | CH_UE_WINDOW | REP_CMD | REP_STATUS | REP_AVAIL | HST_STATUS | HST_MIGRATED
  | HST_MAP | RC_RTAB | RC_HOLD_CFG | RC_HOLD_CTL | RC_HOLD | RC_HOLD_UNIT | CF_AGENTS | CF_SNP_TIMEOUT | CF_FATAL
  | HA_SEL | HA_DIR | HA_BACKINV | HA_FORWARD | mvtcfg | uvtopid | CL_DVFS | CL_CTL | CL_HART_CTL | CL_TIMECMP
  | BLT_CTL | BLT_STATUS | BLT_DMG_BASE | BLT_DMG_PTR | TOK_CTL | TOK_STATUS | HOP_BASE | HOP_CFG | HOP_CTL
  | HOP_STATUS | HOP_EVT | HOP_STATS | PORT_CFG | PORT_MAC | PORT_STATUS | PORT_FEC_CORR | PORT_FEC_TH | PORT_PFC
  | PORT_DROPS | NET_CFG | NET_VC_MAP | NET_IPV4 | NET_IPV6_LO | NET_IPV6_HI | NET_MR | NET_QPT | NET_DB | NET_DROPS
  | NET_TIME_CFG | NET_TIME_ADJ | NET_TIME_STEP | NET_TIME_STAT | NET_PPS_IN | CT_CFG | CT_STAGING | CT_STATUS
  | CT_SLOG_BASE | CT_SLOG_PTR | CT_ERR | CT_PHASE | CT_MAP | GOV_INPUT | GOV_CAP | GOV_STATUS | GOV_EVT
  | GOV_DOM_CTL | GOV_DOM_ON_LO | GOV_DOM_ON_HI | GOV_DROOP | GOV_LG | SEC_BOOT | SEC_BOOT_CTL | SEC_ID | SEC_IMAGE
  | SEC_MEAS_SEL | SEC_MEAS | SEC_DEBUG | OBS_TIME | OBS_STATUS | OBS_RCYC | OBS_MARK | OBS_BRAKE_CFG | OBS_BRAKE
  | OBS_BRAKE_T | OBS_FRZ | OBS_ACCT | OBS_TRC_BASE | OBS_TRC_PTR | OBS_TRC_CFG | OBS_PROF_SEL | OBS_PROF | OBS_AON
  | OBS_COMPAT | RC_ENGMAP | ERR_RING_BASE | ERR_RING_PTR | ERR_STATUS | TST_MBIST_CTL | TST_MBIST_STATUS
  | TST_MBIST_LOG
  deriving DecidableEq, Repr

/-- The access codes that occur (R6). -/
inductive Acc where
  | ro | rw | w1c | wo | snap
  deriving DecidableEq, Repr

/-- A field of a register: its register and its bits. -/
structure Fld where
  reg : Reg
  hi  : Nat
  lo  : Nat
  deriving DecidableEq, Repr

namespace F
-- R43: AMR_CFG
def AMR_CFG_HASH_ID : Fld := ⟨.AMR_CFG, 15, 8⟩
def AMR_CFG_LOCAL_GIB : Fld := ⟨.AMR_CFG, 4, 0⟩
-- R43: AMR_ILV_TOP
def AMR_ILV_TOP_ILV_TOP : Fld := ⟨.AMR_ILV_TOP, 47, 0⟩
-- R43: AMR_FAULT_STATUS
def AMR_FAULT_STATUS_COUNT : Fld := ⟨.AMR_FAULT_STATUS, 31, 16⟩
def AMR_FAULT_STATUS_SRC_REGION : Fld := ⟨.AMR_FAULT_STATUS, 15, 12⟩
def AMR_FAULT_STATUS_SRC_UNIT : Fld := ⟨.AMR_FAULT_STATUS, 11, 4⟩
def AMR_FAULT_STATUS_KIND : Fld := ⟨.AMR_FAULT_STATUS, 3, 2⟩
def AMR_FAULT_STATUS_OVF : Fld := ⟨.AMR_FAULT_STATUS, 1, 1⟩
def AMR_FAULT_STATUS_VALID : Fld := ⟨.AMR_FAULT_STATUS, 0, 0⟩
-- R43: AMR_FAULT_ADDR
def AMR_FAULT_ADDR_ADDR : Fld := ⟨.AMR_FAULT_ADDR, 47, 0⟩
-- R73: DM_NUMFLAGS
def DM_NUMFLAGS_NV : Fld := ⟨.DM_NUMFLAGS, 3, 3⟩
def DM_NUMFLAGS_NX : Fld := ⟨.DM_NUMFLAGS, 2, 2⟩
def DM_NUMFLAGS_UF : Fld := ⟨.DM_NUMFLAGS, 1, 1⟩
def DM_NUMFLAGS_OF : Fld := ⟨.DM_NUMFLAGS, 0, 0⟩
-- R87: Q_RING_BASE
def Q_RING_BASE_BASE : Fld := ⟨.Q_RING_BASE, 47, 12⟩
-- R87: Q_STS_BASE
def Q_STS_BASE_BASE : Fld := ⟨.Q_STS_BASE, 47, 12⟩
-- R87: Q_CTX_BASE
def Q_CTX_BASE_BASE : Fld := ⟨.Q_CTX_BASE, 47, 16⟩
-- R87: Q_CFG
def Q_CFG_REGION : Fld := ⟨.Q_CFG, 31, 28⟩
def Q_CFG_CTX_SLOTS : Fld := ⟨.Q_CFG, 27, 25⟩
def Q_CFG_IRQ_EN : Fld := ⟨.Q_CFG, 24, 24⟩
def Q_CFG_SIZE_LOG2 : Fld := ⟨.Q_CFG, 20, 16⟩
def Q_CFG_PRIO : Fld := ⟨.Q_CFG, 1, 0⟩
-- R87: Q_PTR
def Q_PTR_SEQ : Fld := ⟨.Q_PTR, 63, 32⟩
def Q_PTR_HEAD : Fld := ⟨.Q_PTR, 31, 0⟩
-- R87: Q_TAIL
def Q_TAIL_TAIL : Fld := ⟨.Q_TAIL, 31, 0⟩
-- R87: Q_STATE
def Q_STATE_LAST_STATUS : Fld := ⟨.Q_STATE, 47, 32⟩
def Q_STATE_DROPS : Fld := ⟨.Q_STATE, 31, 16⟩
def Q_STATE_SAVED : Fld := ⟨.Q_STATE, 7, 7⟩
def Q_STATE_STATE : Fld := ⟨.Q_STATE, 2, 0⟩
-- R87: Q_CTL
def Q_CTL_RESTART : Fld := ⟨.Q_CTL, 2, 2⟩
def Q_CTL_DISABLE : Fld := ⟨.Q_CTL, 1, 1⟩
def Q_CTL_ENABLE : Fld := ⟨.Q_CTL, 0, 0⟩
-- R88: Q_IRQ
def Q_IRQ_EIID : Fld := ⟨.Q_IRQ, 19, 9⟩
def Q_IRQ_FILE : Fld := ⟨.Q_IRQ, 8, 8⟩
def Q_IRQ_HART : Fld := ⟨.Q_IRQ, 5, 0⟩
-- R111: ENG_NUMFLAGS
def ENG_NUMFLAGS_NV : Fld := ⟨.ENG_NUMFLAGS, 3, 3⟩
def ENG_NUMFLAGS_NX : Fld := ⟨.ENG_NUMFLAGS, 2, 2⟩
def ENG_NUMFLAGS_UF : Fld := ⟨.ENG_NUMFLAGS, 1, 1⟩
def ENG_NUMFLAGS_OF : Fld := ⟨.ENG_NUMFLAGS, 0, 0⟩
-- R138: ENG_STATUS
def ENG_STATUS_CUR_SEQ : Fld := ⟨.ENG_STATUS, 63, 32⟩
def ENG_STATUS_CUR_QUEUE : Fld := ⟨.ENG_STATUS, 31, 24⟩
def ENG_STATUS_LOGICAL : Fld := ⟨.ENG_STATUS, 23, 20⟩
def ENG_STATUS_RETRYING : Fld := ⟨.ENG_STATUS, 3, 3⟩
def ENG_STATUS_STATE : Fld := ⟨.ENG_STATUS, 2, 0⟩
-- R138: ENG_CTL
def ENG_CTL_SVC_MODE : Fld := ⟨.ENG_CTL, 1, 0⟩
-- R139: ENG_ERR_COUNT
def ENG_ERR_COUNT_PARITY : Fld := ⟨.ENG_ERR_COUNT, 47, 32⟩
def ENG_ERR_COUNT_SECOND : Fld := ⟨.ENG_ERR_COUNT, 31, 16⟩
def ENG_ERR_COUNT_FIRST : Fld := ⟨.ENG_ERR_COUNT, 15, 0⟩
-- R139: ENG_ERR_INFO
def ENG_ERR_INFO_SEQ : Fld := ⟨.ENG_ERR_INFO, 63, 32⟩
def ENG_ERR_INFO_QUEUE : Fld := ⟨.ENG_ERR_INFO, 31, 24⟩
def ENG_ERR_INFO_COLUMN : Fld := ⟨.ENG_ERR_INFO, 23, 15⟩
def ENG_ERR_INFO_STAGE : Fld := ⟨.ENG_ERR_INFO, 14, 12⟩
def ENG_ERR_INFO_OVF : Fld := ⟨.ENG_ERR_INFO, 1, 1⟩
def ENG_ERR_INFO_VALID : Fld := ⟨.ENG_ERR_INFO, 0, 0⟩
-- R139: ENG_CYCLES
def ENG_CYCLES_CYCLES : Fld := ⟨.ENG_CYCLES, 63, 0⟩
-- R139: ENG_BUSY
def ENG_BUSY_BUSY : Fld := ⟨.ENG_BUSY, 63, 0⟩
-- R157: ACC_AMAX_BASE
def ACC_AMAX_BASE_BASE : Fld := ⟨.ACC_AMAX_BASE, 47, 6⟩
-- R157: SPW_STATUS
def SPW_STATUS_FREE_ROWS : Fld := ⟨.SPW_STATUS, 45, 32⟩
def SPW_STATUS_WAITING : Fld := ⟨.SPW_STATUS, 23, 16⟩
def SPW_STATUS_FRAMES : Fld := ⟨.SPW_STATUS, 7, 0⟩
-- R157: ACC_ERR_COUNT
def ACC_ERR_COUNT_SPW_UNCORR : Fld := ⟨.ACC_ERR_COUNT, 31, 16⟩
def ACC_ERR_COUNT_SPW_CORR : Fld := ⟨.ACC_ERR_COUNT, 15, 0⟩
-- R157: ACC_ERR_INFO
def ACC_ERR_INFO_SEQ : Fld := ⟨.ACC_ERR_INFO, 63, 32⟩
def ACC_ERR_INFO_QUEUE : Fld := ⟨.ACC_ERR_INFO, 31, 24⟩
def ACC_ERR_INFO_ROW : Fld := ⟨.ACC_ERR_INFO, 23, 11⟩
def ACC_ERR_INFO_OVF : Fld := ⟨.ACC_ERR_INFO, 1, 1⟩
def ACC_ERR_INFO_VALID : Fld := ⟨.ACC_ERR_INFO, 0, 0⟩
-- R157: ACC_NUMFLAGS
def ACC_NUMFLAGS_NV : Fld := ⟨.ACC_NUMFLAGS, 3, 3⟩
def ACC_NUMFLAGS_NX : Fld := ⟨.ACC_NUMFLAGS, 2, 2⟩
def ACC_NUMFLAGS_UF : Fld := ⟨.ACC_NUMFLAGS, 1, 1⟩
def ACC_NUMFLAGS_OF : Fld := ⟨.ACC_NUMFLAGS, 0, 0⟩
-- R157: MP_ECC
def MP_ECC_UNCORR : Fld := ⟨.MP_ECC, 31, 16⟩
def MP_ECC_CORR : Fld := ⟨.MP_ECC, 15, 0⟩
-- R157: MP_SPARE
def MP_SPARE_EN : Fld := ⟨.MP_SPARE, 6, 6⟩
def MP_SPARE_BIT : Fld := ⟨.MP_SPARE, 5, 0⟩
-- R186: VEC_TABLE
def VEC_TABLE_BUILTIN_CRC : Fld := ⟨.VEC_TABLE, 63, 32⟩
def VEC_TABLE_ECC_CORR : Fld := ⟨.VEC_TABLE, 31, 16⟩
def VEC_TABLE_VALID : Fld := ⟨.VEC_TABLE, 15, 0⟩
-- R186: VEC_NUMFLAGS
def VEC_NUMFLAGS_NV : Fld := ⟨.VEC_NUMFLAGS, 3, 3⟩
def VEC_NUMFLAGS_NX : Fld := ⟨.VEC_NUMFLAGS, 2, 2⟩
def VEC_NUMFLAGS_UF : Fld := ⟨.VEC_NUMFLAGS, 1, 1⟩
def VEC_NUMFLAGS_OF : Fld := ⟨.VEC_NUMFLAGS, 0, 0⟩
-- R186: PK_POOL
def PK_POOL_PAGES : Fld := ⟨.PK_POOL, 63, 40⟩
def PK_POOL_HKV : Fld := ⟨.PK_POOL, 31, 16⟩
def PK_POOL_FMT : Fld := ⟨.PK_POOL, 15, 12⟩
def PK_POOL_DCODE : Fld := ⟨.PK_POOL, 11, 10⟩
def PK_POOL_VALID : Fld := ⟨.PK_POOL, 0, 0⟩
-- R186: PK_COUNTS
def PK_COUNTS_FREE : Fld := ⟨.PK_COUNTS, 55, 32⟩
def PK_COUNTS_DEFERRED : Fld := ⟨.PK_COUNTS, 23, 0⟩
-- R186: PK_DROPS
def PK_DROPS_ECC_CORR : Fld := ⟨.PK_DROPS, 63, 32⟩
def PK_DROPS_DROPS : Fld := ⟨.PK_DROPS, 31, 0⟩
-- R186: ATT_NUMFLAGS
def ATT_NUMFLAGS_NV : Fld := ⟨.ATT_NUMFLAGS, 3, 3⟩
def ATT_NUMFLAGS_NX : Fld := ⟨.ATT_NUMFLAGS, 2, 2⟩
def ATT_NUMFLAGS_UF : Fld := ⟨.ATT_NUMFLAGS, 1, 1⟩
def ATT_NUMFLAGS_OF : Fld := ⟨.ATT_NUMFLAGS, 0, 0⟩
-- R202: NTEL_SCALE
def NTEL_SCALE_COUNT : Fld := ⟨.NTEL_SCALE, 63, 48⟩
def NTEL_SCALE_BASE : Fld := ⟨.NTEL_SCALE, 47, 7⟩
-- R202: NTEL_CENSUS
def NTEL_CENSUS_LAYERS_LOG2 : Fld := ⟨.NTEL_CENSUS, 52, 48⟩
def NTEL_CENSUS_BASE : Fld := ⟨.NTEL_CENSUS, 47, 6⟩
-- R202: NTEL_UW
def NTEL_UW_BASE : Fld := ⟨.NTEL_UW, 47, 6⟩
-- R202: NTEL_UW_THRESH
def NTEL_UW_THRESH_THRESH : Fld := ⟨.NTEL_UW_THRESH, 31, 0⟩
-- R202: NTEL_STATUS
def NTEL_STATUS_CEN_DROPPED : Fld := ⟨.NTEL_STATUS, 47, 32⟩
def NTEL_STATUS_FLUSHES : Fld := ⟨.NTEL_STATUS, 31, 0⟩
-- R202: NTEL_SRT_SEED
def NTEL_SRT_SEED_SEED : Fld := ⟨.NTEL_SRT_SEED, 63, 0⟩
-- R202: NTEL_SRT_STEP
def NTEL_SRT_STEP_STEP : Fld := ⟨.NTEL_SRT_STEP, 63, 0⟩
-- R202: NTEL_SRT_TID
def NTEL_SRT_TID_TID : Fld := ⟨.NTEL_SRT_TID, 31, 0⟩
-- R202: NTEL_SRT_IDX
def NTEL_SRT_IDX_IDX : Fld := ⟨.NTEL_SRT_IDX, 63, 0⟩
-- R202: NTEL_SRT_OUT
def NTEL_SRT_OUT_OUT : Fld := ⟨.NTEL_SRT_OUT, 63, 0⟩
-- R228: UPD_STATUS
def UPD_STATUS_CUR_SEQ : Fld := ⟨.UPD_STATUS, 63, 32⟩
def UPD_STATUS_CUR_QUEUE : Fld := ⟨.UPD_STATUS, 31, 24⟩
def UPD_STATUS_BUSY : Fld := ⟨.UPD_STATUS, 12, 12⟩
def UPD_STATUS_USED : Fld := ⟨.UPD_STATUS, 11, 0⟩
-- R228: UPD_CTL
def UPD_CTL_MODE : Fld := ⟨.UPD_CTL, 1, 0⟩
-- R228: UPD_JRNL
def UPD_JRNL_BASE : Fld := ⟨.UPD_JRNL, 47, 20⟩
def UPD_JRNL_EN : Fld := ⟨.UPD_JRNL, 0, 0⟩
-- R228: UPD_JLINE
def UPD_JLINE_DAMAGED : Fld := ⟨.UPD_JLINE, 63, 48⟩
def UPD_JLINE_APPLIED : Fld := ⟨.UPD_JLINE, 47, 32⟩
def UPD_JLINE_APPLYING : Fld := ⟨.UPD_JLINE, 31, 16⟩
def UPD_JLINE_PENDING : Fld := ⟨.UPD_JLINE, 15, 0⟩
-- R228: UPD_NUMFLAGS
def UPD_NUMFLAGS_NV : Fld := ⟨.UPD_NUMFLAGS, 3, 3⟩
def UPD_NUMFLAGS_NX : Fld := ⟨.UPD_NUMFLAGS, 2, 2⟩
def UPD_NUMFLAGS_UF : Fld := ⟨.UPD_NUMFLAGS, 1, 1⟩
def UPD_NUMFLAGS_OF : Fld := ⟨.UPD_NUMFLAGS, 0, 0⟩
-- R229: RC_WRT
def RC_WRT_COUNT : Fld := ⟨.RC_WRT, 63, 48⟩
def RC_WRT_BASE : Fld := ⟨.RC_WRT, 47, 6⟩
-- R229: RC_WREF_SEL
def RC_WREF_SEL_INDEX : Fld := ⟨.RC_WREF_SEL, 13, 0⟩
-- R229: RC_WREF
def RC_WREF_WAITERS : Fld := ⟨.RC_WREF, 63, 56⟩
def RC_WREF_REF_B : Fld := ⟨.RC_WREF, 47, 24⟩
def RC_WREF_REF_A : Fld := ⟨.RC_WREF, 23, 0⟩
-- R254: STK_THERM
def STK_THERM_SR_MS : Fld := ⟨.STK_THERM, 47, 32⟩
def STK_THERM_HOTTEST : Fld := ⟨.STK_THERM, 31, 24⟩
def STK_THERM_GRADE : Fld := ⟨.STK_THERM, 18, 16⟩
def STK_THERM_TEMP : Fld := ⟨.STK_THERM, 15, 0⟩
-- R254: STK_THERM_EVT
def STK_THERM_EVT_SR : Fld := ⟨.STK_THERM_EVT, 3, 3⟩
def STK_THERM_EVT_CRITICAL : Fld := ⟨.STK_THERM_EVT, 2, 2⟩
def STK_THERM_EVT_HOT : Fld := ⟨.STK_THERM_EVT, 1, 1⟩
def STK_THERM_EVT_WARM : Fld := ⟨.STK_THERM_EVT, 0, 0⟩
-- R254: STK_TENT
def STK_TENT_DEFERRED : Fld := ⟨.STK_TENT, 63, 48⟩
def STK_TENT_EXTRA : Fld := ⟨.STK_TENT, 47, 32⟩
def STK_TENT_SHARE : Fld := ⟨.STK_TENT, 15, 0⟩
-- R254: STK_TENT_CFG
def STK_TENT_CFG_DRIFT_TH : Fld := ⟨.STK_TENT_CFG, 15, 0⟩
-- R254: CH_STATE
def CH_STATE_STATE : Fld := ⟨.CH_STATE, 1, 0⟩
-- R254: CH_ARB
def CH_ARB_CRIT_DEPTH : Fld := ⟨.CH_ARB, 47, 40⟩
def CH_ARB_CRIT_PERIOD : Fld := ⟨.CH_ARB, 39, 32⟩
def CH_ARB_BACK_W : Fld := ⟨.CH_ARB, 31, 24⟩
def CH_ARB_BULK_W : Fld := ⟨.CH_ARB, 23, 16⟩
def CH_ARB_COLL_W : Fld := ⟨.CH_ARB, 15, 8⟩
def CH_ARB_CRIT_W : Fld := ⟨.CH_ARB, 7, 0⟩
-- R254: CH_ECC_COUNT
def CH_ECC_COUNT_LANE_SUSPECT : Fld := ⟨.CH_ECC_COUNT, 53, 48⟩
def CH_ECC_COUNT_POISON_RD : Fld := ⟨.CH_ECC_COUNT, 47, 32⟩
def CH_ECC_COUNT_UNCORR : Fld := ⟨.CH_ECC_COUNT, 31, 16⟩
def CH_ECC_COUNT_CORR : Fld := ⟨.CH_ECC_COUNT, 15, 0⟩
-- R254: CH_ECC_INFO
def CH_ECC_INFO_DIE : Fld := ⟨.CH_ECC_INFO, 63, 60⟩
def CH_ECC_INFO_BANK : Fld := ⟨.CH_ECC_INFO, 59, 55⟩
def CH_ECC_INFO_ROW : Fld := ⟨.CH_ECC_INFO, 54, 42⟩
def CH_ECC_INFO_COL : Fld := ⟨.CH_ECC_INFO, 41, 38⟩
def CH_ECC_INFO_SOURCE : Fld := ⟨.CH_ECC_INFO, 37, 36⟩
def CH_ECC_INFO_OVF : Fld := ⟨.CH_ECC_INFO, 1, 1⟩
def CH_ECC_INFO_VALID : Fld := ⟨.CH_ECC_INFO, 0, 0⟩
-- R254: CH_ECC_CFG
def CH_ECC_CFG_LANE_TH : Fld := ⟨.CH_ECC_CFG, 15, 0⟩
-- R254: CH_LANE_MAP
def CH_LANE_MAP_ERASE_EN : Fld := ⟨.CH_LANE_MAP, 38, 38⟩
def CH_LANE_MAP_ERASE_LANE : Fld := ⟨.CH_LANE_MAP, 37, 32⟩
def CH_LANE_MAP_CA_SUB : Fld := ⟨.CH_LANE_MAP, 25, 24⟩
def CH_LANE_MAP_SUB1_EN : Fld := ⟨.CH_LANE_MAP, 14, 14⟩
def CH_LANE_MAP_SUB1_LANE : Fld := ⟨.CH_LANE_MAP, 13, 8⟩
def CH_LANE_MAP_SUB0_EN : Fld := ⟨.CH_LANE_MAP, 6, 6⟩
def CH_LANE_MAP_SUB0_LANE : Fld := ⟨.CH_LANE_MAP, 5, 0⟩
-- R254: CH_SCRUB
def CH_SCRUB_PASSES : Fld := ⟨.CH_SCRUB, 63, 48⟩
def CH_SCRUB_INTERVAL : Fld := ⟨.CH_SCRUB, 31, 0⟩
-- R254: CH_UE_WINDOW
def CH_UE_WINDOW_SECONDS : Fld := ⟨.CH_UE_WINDOW, 31, 0⟩
-- R254: REP_CMD
def REP_CMD_OP : Fld := ⟨.REP_CMD, 34, 32⟩
def REP_CMD_CHAN : Fld := ⟨.REP_CMD, 31, 28⟩
def REP_CMD_DIE : Fld := ⟨.REP_CMD, 27, 24⟩
def REP_CMD_BANK : Fld := ⟨.REP_CMD, 23, 19⟩
def REP_CMD_ROW : Fld := ⟨.REP_CMD, 12, 0⟩
-- R254: REP_STATUS
def REP_STATUS_REJECTS : Fld := ⟨.REP_STATUS, 63, 48⟩
def REP_STATUS_RESULT : Fld := ⟨.REP_STATUS, 7, 4⟩
def REP_STATUS_BUSY : Fld := ⟨.REP_STATUS, 0, 0⟩
-- R254: REP_AVAIL
def REP_AVAIL_SEL_CHAN : Fld := ⟨.REP_AVAIL, 31, 28⟩
def REP_AVAIL_SEL_DIE : Fld := ⟨.REP_AVAIL, 27, 24⟩
def REP_AVAIL_SEL_BANK : Fld := ⟨.REP_AVAIL, 23, 19⟩
def REP_AVAIL_HARD_FREE : Fld := ⟨.REP_AVAIL, 5, 3⟩
def REP_AVAIL_SOFT_FREE : Fld := ⟨.REP_AVAIL, 2, 0⟩
-- R274: HST_STATUS
def HST_STATUS_PINNED_MAX : Fld := ⟨.HST_STATUS, 63, 48⟩
def HST_STATUS_HINTS : Fld := ⟨.HST_STATUS, 47, 32⟩
def HST_STATUS_MOVING : Fld := ⟨.HST_STATUS, 20, 16⟩
def HST_STATUS_STREAMS : Fld := ⟨.HST_STATUS, 15, 8⟩
def HST_STATUS_DEFERRED : Fld := ⟨.HST_STATUS, 0, 0⟩
-- R274: HST_MIGRATED
def HST_MIGRATED_FRAMES : Fld := ⟨.HST_MIGRATED, 63, 0⟩
-- R274: HST_MAP
def HST_MAP_CHAN : Fld := ⟨.HST_MAP, 63, 60⟩
def HST_MAP_FRAME : Fld := ⟨.HST_MAP, 59, 44⟩
def HST_MAP_SLOT : Fld := ⟨.HST_MAP, 43, 28⟩
def HST_MAP_ATTR : Fld := ⟨.HST_MAP, 15, 0⟩
-- R274: RC_RTAB
def RC_RTAB_COUNT : Fld := ⟨.RC_RTAB, 63, 48⟩
def RC_RTAB_BASE : Fld := ⟨.RC_RTAB, 47, 6⟩
-- R274: RC_HOLD_CFG
def RC_HOLD_CFG_AUTO : Fld := ⟨.RC_HOLD_CFG, 9, 9⟩
def RC_HOLD_CFG_RQ_EN : Fld := ⟨.RC_HOLD_CFG, 8, 8⟩
def RC_HOLD_CFG_REPAIR_QUEUE : Fld := ⟨.RC_HOLD_CFG, 7, 0⟩
-- R274: RC_HOLD_CTL
def RC_HOLD_CTL_RELEASE : Fld := ⟨.RC_HOLD_CTL, 4, 4⟩
def RC_HOLD_CTL_INDEX : Fld := ⟨.RC_HOLD_CTL, 3, 0⟩
-- R274: RC_HOLD
def RC_HOLD_BURSTS : Fld := ⟨.RC_HOLD, 63, 48⟩
def RC_HOLD_HELD : Fld := ⟨.RC_HOLD, 47, 32⟩
def RC_HOLD_STATE : Fld := ⟨.RC_HOLD, 2, 0⟩
-- R274: RC_HOLD_UNIT
def RC_HOLD_UNIT_BASE : Fld := ⟨.RC_HOLD_UNIT, 47, 0⟩
-- R299: CF_AGENTS
def CF_AGENTS_DETACHING : Fld := ⟨.CF_AGENTS, 28, 16⟩
def CF_AGENTS_ATTACHED : Fld := ⟨.CF_AGENTS, 12, 0⟩
-- R299: CF_SNP_TIMEOUT
def CF_SNP_TIMEOUT_US : Fld := ⟨.CF_SNP_TIMEOUT, 15, 0⟩
-- R299: CF_FATAL
def CF_FATAL_CAUSE : Fld := ⟨.CF_FATAL, 63, 61⟩
def CF_FATAL_AGENT : Fld := ⟨.CF_FATAL, 60, 57⟩
def CF_FATAL_STACK : Fld := ⟨.CF_FATAL, 56, 52⟩
def CF_FATAL_LINE : Fld := ⟨.CF_FATAL, 47, 6⟩
def CF_FATAL_VALID : Fld := ⟨.CF_FATAL, 0, 0⟩
-- R299: HA_SEL
def HA_SEL_STACK : Fld := ⟨.HA_SEL, 2, 0⟩
-- R299: HA_DIR
def HA_DIR_DIR_CORR : Fld := ⟨.HA_DIR, 47, 32⟩
def HA_DIR_ENTRIES : Fld := ⟨.HA_DIR, 18, 0⟩
-- R299: HA_BACKINV
def HA_BACKINV_COUNT : Fld := ⟨.HA_BACKINV, 63, 0⟩
-- R299: HA_FORWARD
def HA_FORWARD_COUNT : Fld := ⟨.HA_FORWARD, 63, 0⟩
-- R315: mvtcfg
def mvtcfg_L3_PF : Fld := ⟨.mvtcfg, 2, 2⟩
def mvtcfg_L2_PF : Fld := ⟨.mvtcfg, 1, 1⟩
def mvtcfg_L1_PF : Fld := ⟨.mvtcfg, 0, 0⟩
-- R315: uvtopid
def uvtopid_LAYER_ID : Fld := ⟨.uvtopid, 31, 16⟩
def uvtopid_OPERATOR_ID : Fld := ⟨.uvtopid, 15, 0⟩
-- R315: CL_DVFS
def CL_DVFS_CUR : Fld := ⟨.CL_DVFS, 15, 8⟩
def CL_DVFS_REQ : Fld := ⟨.CL_DVFS, 7, 0⟩
-- R315: CL_CTL
def CL_CTL_ON : Fld := ⟨.CL_CTL, 2, 2⟩
def CL_CTL_ON_REQ : Fld := ⟨.CL_CTL, 1, 1⟩
def CL_CTL_OFF_REQ : Fld := ⟨.CL_CTL, 0, 0⟩
-- R315: CL_HART_CTL
def CL_HART_CTL_START : Fld := ⟨.CL_HART_CTL, 63, 63⟩
def CL_HART_CTL_STOP : Fld := ⟨.CL_HART_CTL, 62, 62⟩
def CL_HART_CTL_STATE : Fld := ⟨.CL_HART_CTL, 61, 60⟩
def CL_HART_CTL_VEC : Fld := ⟨.CL_HART_CTL, 47, 2⟩
-- R315: CL_TIMECMP
def CL_TIMECMP_CMP : Fld := ⟨.CL_TIMECMP, 63, 0⟩
-- R342: BLT_CTL
def BLT_CTL_BYPASS : Fld := ⟨.BLT_CTL, 23, 0⟩
-- R342: BLT_STATUS
def BLT_STATUS_QUAR : Fld := ⟨.BLT_STATUS, 55, 32⟩
def BLT_STATUS_BUSY : Fld := ⟨.BLT_STATUS, 23, 0⟩
-- R342: BLT_DMG_BASE
def BLT_DMG_BASE_SIZE_LOG2 : Fld := ⟨.BLT_DMG_BASE, 63, 59⟩
def BLT_DMG_BASE_BASE : Fld := ⟨.BLT_DMG_BASE, 47, 6⟩
-- R342: BLT_DMG_PTR
def BLT_DMG_PTR_DROPS : Fld := ⟨.BLT_DMG_PTR, 63, 48⟩
def BLT_DMG_PTR_CONS : Fld := ⟨.BLT_DMG_PTR, 47, 24⟩
def BLT_DMG_PTR_PROD : Fld := ⟨.BLT_DMG_PTR, 23, 0⟩
-- R342: TOK_CTL
def TOK_CTL_BYPASS : Fld := ⟨.TOK_CTL, 3, 0⟩
-- R342: TOK_STATUS
def TOK_STATUS_VALID : Fld := ⟨.TOK_STATUS, 63, 62⟩
def TOK_STATUS_QUAR : Fld := ⟨.TOK_STATUS, 55, 52⟩
def TOK_STATUS_BUSY : Fld := ⟨.TOK_STATUS, 51, 48⟩
def TOK_STATUS_N1 : Fld := ⟨.TOK_STATUS, 37, 19⟩
def TOK_STATUS_N0 : Fld := ⟨.TOK_STATUS, 18, 0⟩
-- R342: HOP_BASE
def HOP_BASE_BASE : Fld := ⟨.HOP_BASE, 47, 20⟩
-- R342: HOP_CFG
def HOP_CFG_LOW_WATER : Fld := ⟨.HOP_CFG, 39, 32⟩
def HOP_CFG_SLOT_MIB : Fld := ⟨.HOP_CFG, 31, 8⟩
def HOP_CFG_SLOTS : Fld := ⟨.HOP_CFG, 6, 0⟩
-- R342: HOP_CTL
def HOP_CTL_DISABLE : Fld := ⟨.HOP_CTL, 1, 1⟩
def HOP_CTL_ENABLE : Fld := ⟨.HOP_CTL, 0, 0⟩
-- R342: HOP_STATUS
def HOP_STATUS_TAKE_IDX : Fld := ⟨.HOP_STATUS, 63, 56⟩
def HOP_STATUS_FILL_IDX : Fld := ⟨.HOP_STATUS, 55, 48⟩
def HOP_STATUS_TAKEN : Fld := ⟨.HOP_STATUS, 47, 40⟩
def HOP_STATUS_READY : Fld := ⟨.HOP_STATUS, 39, 32⟩
def HOP_STATUS_FILLING : Fld := ⟨.HOP_STATUS, 31, 24⟩
def HOP_STATUS_EN : Fld := ⟨.HOP_STATUS, 0, 0⟩
-- R342: HOP_EVT
def HOP_EVT_LOW : Fld := ⟨.HOP_EVT, 0, 0⟩
-- R342: HOP_STATS
def HOP_STATS_STARVED_NS : Fld := ⟨.HOP_STATS, 63, 0⟩
-- R368: PORT_CFG
def PORT_CFG_AUTO_UP : Fld := ⟨.PORT_CFG, 11, 11⟩
def PORT_CFG_RX_SWAP : Fld := ⟨.PORT_CFG, 10, 10⟩
def PORT_CFG_TX_SWAP : Fld := ⟨.PORT_CFG, 9, 9⟩
def PORT_CFG_POL : Fld := ⟨.PORT_CFG, 8, 5⟩
def PORT_CFG_MODE : Fld := ⟨.PORT_CFG, 1, 0⟩
-- R368: PORT_MAC
def PORT_MAC_MAC : Fld := ⟨.PORT_MAC, 47, 0⟩
-- R368: PORT_STATUS
def PORT_STATUS_TRANSITIONS : Fld := ⟨.PORT_STATUS, 31, 16⟩
def PORT_STATUS_REASON : Fld := ⟨.PORT_STATUS, 11, 8⟩
def PORT_STATUS_STATE : Fld := ⟨.PORT_STATUS, 2, 0⟩
-- R368: PORT_FEC_CORR
def PORT_FEC_CORR_CORR : Fld := ⟨.PORT_FEC_CORR, 63, 0⟩
-- R368: PORT_FEC_TH
def PORT_FEC_TH_UNCORR : Fld := ⟨.PORT_FEC_TH, 47, 32⟩
def PORT_FEC_TH_UNCORR_TH : Fld := ⟨.PORT_FEC_TH, 15, 0⟩
-- R368: PORT_PFC
def PORT_PFC_XOFF_KIB : Fld := ⟨.PORT_PFC, 47, 32⟩
def PORT_PFC_XON_KIB : Fld := ⟨.PORT_PFC, 31, 16⟩
def PORT_PFC_EN : Fld := ⟨.PORT_PFC, 7, 0⟩
-- R368: PORT_DROPS
def PORT_DROPS_FILTER : Fld := ⟨.PORT_DROPS, 63, 48⟩
def PORT_DROPS_OVERFLOW : Fld := ⟨.PORT_DROPS, 47, 32⟩
def PORT_DROPS_OVERSIZE : Fld := ⟨.PORT_DROPS, 31, 16⟩
def PORT_DROPS_PFC_IGNORED : Fld := ⟨.PORT_DROPS, 15, 0⟩
-- R368: NET_CFG
def NET_CFG_VID : Fld := ⟨.NET_CFG, 43, 32⟩
def NET_CFG_PTP_PCP : Fld := ⟨.NET_CFG, 14, 12⟩
def NET_CFG_ROCE_PCP : Fld := ⟨.NET_CFG, 10, 8⟩
-- R368: NET_VC_MAP
def NET_VC_MAP_PCP : Fld := ⟨.NET_VC_MAP, 31, 0⟩
-- R368: NET_IPV4
def NET_IPV4_ADDR : Fld := ⟨.NET_IPV4, 31, 0⟩
-- R368: NET_IPV6_LO
def NET_IPV6_LO_ADDR : Fld := ⟨.NET_IPV6_LO, 63, 0⟩
-- R368: NET_IPV6_HI
def NET_IPV6_HI_ADDR : Fld := ⟨.NET_IPV6_HI, 63, 0⟩
-- R368: NET_MR
def NET_MR_COUNT : Fld := ⟨.NET_MR, 63, 48⟩
def NET_MR_BASE : Fld := ⟨.NET_MR, 47, 5⟩
-- R368: NET_QPT
def NET_QPT_COUNT : Fld := ⟨.NET_QPT, 60, 48⟩
def NET_QPT_BASE : Fld := ⟨.NET_QPT, 47, 7⟩
-- R368: NET_DB
def NET_DB_RQ : Fld := ⟨.NET_DB, 63, 63⟩
def NET_DB_QPN : Fld := ⟨.NET_DB, 59, 48⟩
def NET_DB_TAIL : Fld := ⟨.NET_DB, 31, 0⟩
-- R368: NET_DROPS
def NET_DROPS_RKEY : Fld := ⟨.NET_DROPS, 63, 48⟩
def NET_DROPS_PROTO : Fld := ⟨.NET_DROPS, 47, 32⟩
def NET_DROPS_QP : Fld := ⟨.NET_DROPS, 31, 16⟩
def NET_DROPS_CNP : Fld := ⟨.NET_DROPS, 15, 0⟩
-- R368: NET_TIME_CFG
def NET_TIME_CFG_PPS_OUT_EN : Fld := ⟨.NET_TIME_CFG, 4, 4⟩
def NET_TIME_CFG_SRC : Fld := ⟨.NET_TIME_CFG, 1, 0⟩
-- R368: NET_TIME_ADJ
def NET_TIME_ADJ_FREQ : Fld := ⟨.NET_TIME_ADJ, 31, 0⟩
-- R368: NET_TIME_STEP
def NET_TIME_STEP_NS : Fld := ⟨.NET_TIME_STEP, 63, 0⟩
-- R368: NET_TIME_STAT
def NET_TIME_STAT_STEPS : Fld := ⟨.NET_TIME_STAT, 31, 16⟩
def NET_TIME_STAT_REFUSED : Fld := ⟨.NET_TIME_STAT, 0, 0⟩
-- R368: NET_PPS_IN
def NET_PPS_IN_TIME : Fld := ⟨.NET_PPS_IN, 63, 0⟩
-- R397: CT_CFG
def CT_CFG_UDP_PORT : Fld := ⟨.CT_CFG, 63, 48⟩
def CT_CFG_LATE_LEAD_US : Fld := ⟨.CT_CFG, 47, 32⟩
def CT_CFG_RTO_US : Fld := ⟨.CT_CFG, 31, 20⟩
def CT_CFG_WINDOW : Fld := ⟨.CT_CFG, 19, 12⟩
def CT_CFG_FETCH_EN : Fld := ⟨.CT_CFG, 3, 3⟩
def CT_CFG_CTRL_VC : Fld := ⟨.CT_CFG, 2, 0⟩
-- R397: CT_STAGING
def CT_STAGING_SIZE_MIB : Fld := ⟨.CT_STAGING, 63, 56⟩
def CT_STAGING_BASE : Fld := ⟨.CT_STAGING, 47, 20⟩
-- R397: CT_STATUS
def CT_STATUS_ACTIVE : Fld := ⟨.CT_STATUS, 63, 48⟩
def CT_STATUS_LOADED : Fld := ⟨.CT_STATUS, 39, 32⟩
def CT_STATUS_PHASE : Fld := ⟨.CT_STATUS, 3, 2⟩
def CT_STATUS_GANG_ROLE : Fld := ⟨.CT_STATUS, 1, 0⟩
-- R397: CT_SLOG_BASE
def CT_SLOG_BASE_SIZE_LOG2 : Fld := ⟨.CT_SLOG_BASE, 63, 59⟩
def CT_SLOG_BASE_BASE : Fld := ⟨.CT_SLOG_BASE, 47, 5⟩
-- R397: CT_SLOG_PTR
def CT_SLOG_PTR_DROPS : Fld := ⟨.CT_SLOG_PTR, 63, 48⟩
def CT_SLOG_PTR_CONS : Fld := ⟨.CT_SLOG_PTR, 47, 24⟩
def CT_SLOG_PTR_PROD : Fld := ⟨.CT_SLOG_PTR, 23, 0⟩
-- R397: CT_ERR
def CT_ERR_FAULTS : Fld := ⟨.CT_ERR, 47, 32⟩
def CT_ERR_DISCARD : Fld := ⟨.CT_ERR, 31, 16⟩
def CT_ERR_RETRANS : Fld := ⟨.CT_ERR, 15, 0⟩
-- R397: CT_PHASE
def CT_PHASE_SEL : Fld := ⟨.CT_PHASE, 7, 6⟩
def CT_PHASE_ACTIVE : Fld := ⟨.CT_PHASE, 1, 0⟩
-- R397: CT_MAP
def CT_MAP_MAP : Fld := ⟨.CT_MAP, 63, 0⟩
-- R420: GOV_INPUT
def GOV_INPUT_PIN : Fld := ⟨.GOV_INPUT, 63, 48⟩
def GOV_INPUT_IIN : Fld := ⟨.GOV_INPUT, 47, 32⟩
def GOV_INPUT_VIN : Fld := ⟨.GOV_INPUT, 31, 16⟩
-- R420: GOV_CAP
def GOV_CAP_WINDOW_MS : Fld := ⟨.GOV_CAP, 31, 16⟩
def GOV_CAP_CAP_W : Fld := ⟨.GOV_CAP, 15, 0⟩
-- R420: GOV_STATUS
def GOV_STATUS_EFF_CAP_W : Fld := ⟨.GOV_STATUS, 63, 48⟩
def GOV_STATUS_TJ : Fld := ⟨.GOV_STATUS, 47, 32⟩
def GOV_STATUS_CL_CAP : Fld := ⟨.GOV_STATUS, 31, 24⟩
def GOV_STATUS_STRETCH : Fld := ⟨.GOV_STATUS, 20, 16⟩
def GOV_STATUS_AT_LIMIT : Fld := ⟨.GOV_STATUS, 2, 2⟩
def GOV_STATUS_BULK_CAP : Fld := ⟨.GOV_STATUS, 1, 1⟩
def GOV_STATUS_THERMAL : Fld := ⟨.GOV_STATUS, 0, 0⟩
-- R420: GOV_EVT
def GOV_EVT_DOM_REFUSED : Fld := ⟨.GOV_EVT, 4, 4⟩
def GOV_EVT_TJ_WARN : Fld := ⟨.GOV_EVT, 3, 3⟩
def GOV_EVT_DROOP : Fld := ⟨.GOV_EVT, 2, 2⟩
def GOV_EVT_AT_LIMIT : Fld := ⟨.GOV_EVT, 1, 1⟩
def GOV_EVT_VIN_LOW : Fld := ⟨.GOV_EVT, 0, 0⟩
-- R420: GOV_DOM_CTL
def GOV_DOM_CTL_ON : Fld := ⟨.GOV_DOM_CTL, 63, 63⟩
def GOV_DOM_CTL_OFF : Fld := ⟨.GOV_DOM_CTL, 62, 62⟩
def GOV_DOM_CTL_DOMAIN : Fld := ⟨.GOV_DOM_CTL, 6, 0⟩
-- R420: GOV_DOM_ON_LO
def GOV_DOM_ON_LO_ON : Fld := ⟨.GOV_DOM_ON_LO, 63, 0⟩
-- R420: GOV_DOM_ON_HI
def GOV_DOM_ON_HI_ON : Fld := ⟨.GOV_DOM_ON_HI, 7, 0⟩
-- R420: GOV_DROOP
def GOV_DROOP_LAST : Fld := ⟨.GOV_DROOP, 22, 16⟩
def GOV_DROOP_COUNT : Fld := ⟨.GOV_DROOP, 15, 0⟩
-- R420: GOV_LG
def GOV_LG_SEQ : Fld := ⟨.GOV_LG, 47, 16⟩
def GOV_LG_ERASED : Fld := ⟨.GOV_LG, 15, 8⟩
def GOV_LG_ARMED : Fld := ⟨.GOV_LG, 0, 0⟩
-- R444: SEC_BOOT
def SEC_BOOT_BOOT_COUNT : Fld := ⟨.SEC_BOOT, 63, 32⟩
def SEC_BOOT_PREV_FAILED : Fld := ⟨.SEC_BOOT, 31, 24⟩
def SEC_BOOT_RECOVERY : Fld := ⟨.SEC_BOOT, 16, 16⟩
def SEC_BOOT_ALT_MASK : Fld := ⟨.SEC_BOOT, 15, 0⟩
-- R444: SEC_BOOT_CTL
def SEC_BOOT_CTL_RESTART : Fld := ⟨.SEC_BOOT_CTL, 1, 1⟩
def SEC_BOOT_CTL_RECOVER_NEXT : Fld := ⟨.SEC_BOOT_CTL, 0, 0⟩
-- R444: SEC_ID
def SEC_ID_SERIAL : Fld := ⟨.SEC_ID, 63, 0⟩
-- R444: SEC_IMAGE
def SEC_IMAGE_CFG_SEQ : Fld := ⟨.SEC_IMAGE, 63, 32⟩
def SEC_IMAGE_FW_VERSION : Fld := ⟨.SEC_IMAGE, 31, 0⟩
-- R444: SEC_MEAS_SEL
def SEC_MEAS_SEL_INDEX : Fld := ⟨.SEC_MEAS_SEL, 4, 2⟩
def SEC_MEAS_SEL_WORD : Fld := ⟨.SEC_MEAS_SEL, 1, 0⟩
-- R444: SEC_MEAS
def SEC_MEAS_VALUE : Fld := ⟨.SEC_MEAS, 63, 0⟩
-- R444: SEC_DEBUG
def SEC_DEBUG_FAILS : Fld := ⟨.SEC_DEBUG, 11, 8⟩
def SEC_DEBUG_IDENTITY : Fld := ⟨.SEC_DEBUG, 4, 4⟩
def SEC_DEBUG_CERT_MATCH : Fld := ⟨.SEC_DEBUG, 3, 3⟩
def SEC_DEBUG_DEBUG_EVER : Fld := ⟨.SEC_DEBUG, 2, 2⟩
def SEC_DEBUG_LEVEL : Fld := ⟨.SEC_DEBUG, 1, 0⟩
-- R474: OBS_TIME
def OBS_TIME_TIME : Fld := ⟨.OBS_TIME, 63, 0⟩
-- R474: OBS_STATUS
def OBS_STATUS_ACCT_DROPPED : Fld := ⟨.OBS_STATUS, 63, 48⟩
def OBS_STATUS_SUPPRESSED : Fld := ⟨.OBS_STATUS, 47, 32⟩
-- R474: OBS_RCYC
def OBS_RCYC_CYCLES : Fld := ⟨.OBS_RCYC, 63, 0⟩
-- R474: OBS_MARK
def OBS_MARK_PAYLOAD : Fld := ⟨.OBS_MARK, 63, 0⟩
-- R474: OBS_BRAKE_CFG
def OBS_BRAKE_CFG_CTRL_EN : Fld := ⟨.OBS_BRAKE_CFG, 8, 8⟩
def OBS_BRAKE_CFG_CTRL_QUEUE : Fld := ⟨.OBS_BRAKE_CFG, 7, 0⟩
-- R474: OBS_BRAKE
def OBS_BRAKE_RELEASE : Fld := ⟨.OBS_BRAKE, 7, 7⟩
def OBS_BRAKE_CANCEL : Fld := ⟨.OBS_BRAKE, 6, 6⟩
def OBS_BRAKE_LATE_START : Fld := ⟨.OBS_BRAKE, 5, 5⟩
def OBS_BRAKE_GANG : Fld := ⟨.OBS_BRAKE, 4, 4⟩
def OBS_BRAKE_STATE : Fld := ⟨.OBS_BRAKE, 1, 0⟩
-- R474: OBS_BRAKE_T
def OBS_BRAKE_T_T : Fld := ⟨.OBS_BRAKE_T, 63, 0⟩
-- R474: OBS_FRZ
def OBS_FRZ_BASE : Fld := ⟨.OBS_FRZ, 47, 16⟩
def OBS_FRZ_STATE : Fld := ⟨.OBS_FRZ, 3, 2⟩
def OBS_FRZ_RELEASE : Fld := ⟨.OBS_FRZ, 1, 1⟩
def OBS_FRZ_FREEZE : Fld := ⟨.OBS_FRZ, 0, 0⟩
-- R474: OBS_ACCT
def OBS_ACCT_LAYERS_LOG2 : Fld := ⟨.OBS_ACCT, 63, 59⟩
def OBS_ACCT_OPS_LOG2 : Fld := ⟨.OBS_ACCT, 58, 55⟩
def OBS_ACCT_BASE : Fld := ⟨.OBS_ACCT, 47, 7⟩
def OBS_ACCT_EN : Fld := ⟨.OBS_ACCT, 0, 0⟩
-- R474: OBS_TRC_BASE
def OBS_TRC_BASE_SIZE_LOG2 : Fld := ⟨.OBS_TRC_BASE, 63, 59⟩
def OBS_TRC_BASE_BASE : Fld := ⟨.OBS_TRC_BASE, 47, 6⟩
def OBS_TRC_BASE_MODE : Fld := ⟨.OBS_TRC_BASE, 1, 0⟩
-- R474: OBS_TRC_PTR
def OBS_TRC_PTR_CONS : Fld := ⟨.OBS_TRC_PTR, 56, 32⟩
def OBS_TRC_PTR_PROD : Fld := ⟨.OBS_TRC_PTR, 24, 0⟩
-- R474: OBS_TRC_CFG
def OBS_TRC_CFG_DROPS : Fld := ⟨.OBS_TRC_CFG, 63, 48⟩
def OBS_TRC_CFG_CLASS_MASK : Fld := ⟨.OBS_TRC_CFG, 47, 32⟩
def OBS_TRC_CFG_THRESH : Fld := ⟨.OBS_TRC_CFG, 31, 0⟩
-- R474: OBS_PROF_SEL
def OBS_PROF_SEL_UNIT : Fld := ⟨.OBS_PROF_SEL, 27, 16⟩
def OBS_PROF_SEL_SIGNAL : Fld := ⟨.OBS_PROF_SEL, 15, 8⟩
def OBS_PROF_SEL_OVF : Fld := ⟨.OBS_PROF_SEL, 2, 2⟩
def OBS_PROF_SEL_EVT : Fld := ⟨.OBS_PROF_SEL, 1, 1⟩
def OBS_PROF_SEL_EN : Fld := ⟨.OBS_PROF_SEL, 0, 0⟩
-- R474: OBS_PROF
def OBS_PROF_COUNT : Fld := ⟨.OBS_PROF, 47, 0⟩
-- R474: OBS_AON
def OBS_AON_COUNT : Fld := ⟨.OBS_AON, 63, 0⟩
-- R474: OBS_COMPAT
def OBS_COMPAT_COUNT : Fld := ⟨.OBS_COMPAT, 63, 0⟩
-- R482: RC_ENGMAP
def RC_ENGMAP_QUAR : Fld := ⟨.RC_ENGMAP, 19, 16⟩
def RC_ENGMAP_L3 : Fld := ⟨.RC_ENGMAP, 15, 12⟩
def RC_ENGMAP_L2 : Fld := ⟨.RC_ENGMAP, 11, 8⟩
def RC_ENGMAP_L1 : Fld := ⟨.RC_ENGMAP, 7, 4⟩
def RC_ENGMAP_L0 : Fld := ⟨.RC_ENGMAP, 3, 0⟩
-- R492: ERR_RING_BASE
def ERR_RING_BASE_SIZE_LOG2 : Fld := ⟨.ERR_RING_BASE, 63, 59⟩
def ERR_RING_BASE_CLASS_MASK : Fld := ⟨.ERR_RING_BASE, 51, 48⟩
def ERR_RING_BASE_BASE : Fld := ⟨.ERR_RING_BASE, 47, 6⟩
-- R492: ERR_RING_PTR
def ERR_RING_PTR_DROPS : Fld := ⟨.ERR_RING_PTR, 63, 48⟩
def ERR_RING_PTR_CONS : Fld := ⟨.ERR_RING_PTR, 47, 24⟩
def ERR_RING_PTR_PROD : Fld := ⟨.ERR_RING_PTR, 23, 0⟩
-- R492: ERR_STATUS
def ERR_STATUS_MMIO_DROPS : Fld := ⟨.ERR_STATUS, 63, 48⟩
def ERR_STATUS_RSEQ : Fld := ⟨.ERR_STATUS, 47, 16⟩
def ERR_STATUS_FATALS : Fld := ⟨.ERR_STATUS, 15, 8⟩
-- R492: TST_MBIST_CTL
def TST_MBIST_CTL_START : Fld := ⟨.TST_MBIST_CTL, 63, 63⟩
def TST_MBIST_CTL_ALG : Fld := ⟨.TST_MBIST_CTL, 17, 16⟩
def TST_MBIST_CTL_DIE : Fld := ⟨.TST_MBIST_CTL, 15, 12⟩
def TST_MBIST_CTL_CHANNEL : Fld := ⟨.TST_MBIST_CTL, 8, 0⟩
-- R492: TST_MBIST_STATUS
def TST_MBIST_STATUS_LANES : Fld := ⟨.TST_MBIST_STATUS, 63, 28⟩
def TST_MBIST_STATUS_ROWS : Fld := ⟨.TST_MBIST_STATUS, 27, 8⟩
def TST_MBIST_STATUS_RESULT : Fld := ⟨.TST_MBIST_STATUS, 7, 4⟩
def TST_MBIST_STATUS_BUSY : Fld := ⟨.TST_MBIST_STATUS, 0, 0⟩
-- R492: TST_MBIST_LOG
def TST_MBIST_LOG_ENTRIES_LOG2 : Fld := ⟨.TST_MBIST_LOG, 63, 52⟩
def TST_MBIST_LOG_BASE : Fld := ⟨.TST_MBIST_LOG, 47, 4⟩
end F

/-- Access codes of the fields of a register, from the most significant field down; bits named by no field are reserved (R8). -/
def Reg.layout : Reg → List (Nat × Nat × Acc)
  | .AMR_CFG => [(15, 8, .ro), (4, 0, .ro)]
  | .AMR_ILV_TOP => [(47, 0, .ro)]
  | .AMR_FAULT_STATUS => [(31, 16, .ro), (15, 12, .ro), (11, 4, .ro), (3, 2, .ro), (1, 1, .w1c), (0, 0, .w1c)]
  | .AMR_FAULT_ADDR => [(47, 0, .ro)]
  | .DM_NUMFLAGS => [(3, 3, .w1c), (2, 2, .w1c), (1, 1, .w1c), (0, 0, .w1c)]
  | .Q_RING_BASE => [(47, 12, .rw)]
  | .Q_STS_BASE => [(47, 12, .rw)]
  | .Q_CTX_BASE => [(47, 16, .rw)]
  | .Q_CFG => [(31, 28, .rw), (27, 25, .rw), (24, 24, .rw), (20, 16, .rw), (1, 0, .rw)]
  | .Q_PTR => [(63, 32, .rw), (31, 0, .rw)]
  | .Q_TAIL => [(31, 0, .ro)]
  | .Q_STATE => [(47, 32, .ro), (31, 16, .ro), (7, 7, .ro), (2, 0, .ro)]
  | .Q_CTL => [(2, 2, .wo), (1, 1, .wo), (0, 0, .wo)]
  | .Q_IRQ => [(19, 9, .rw), (8, 8, .rw), (5, 0, .rw)]
  | .ENG_NUMFLAGS => [(3, 3, .w1c), (2, 2, .w1c), (1, 1, .w1c), (0, 0, .w1c)]
  | .ENG_STATUS => [(63, 32, .ro), (31, 24, .ro), (23, 20, .ro), (3, 3, .ro), (2, 0, .ro)]
  | .ENG_CTL => [(1, 0, .rw)]
  | .ENG_ERR_COUNT => [(47, 32, .ro), (31, 16, .ro), (15, 0, .ro)]
  | .ENG_ERR_INFO => [(63, 32, .ro), (31, 24, .ro), (23, 15, .ro), (14, 12, .ro), (1, 1, .w1c), (0, 0, .w1c)]
  | .ENG_CYCLES => [(63, 0, .snap)]
  | .ENG_BUSY => [(63, 0, .snap)]
  | .ACC_AMAX_BASE => [(47, 6, .rw)]
  | .SPW_STATUS => [(45, 32, .ro), (23, 16, .ro), (7, 0, .ro)]
  | .ACC_ERR_COUNT => [(31, 16, .ro), (15, 0, .ro)]
  | .ACC_ERR_INFO => [(63, 32, .ro), (31, 24, .ro), (23, 11, .ro), (1, 1, .w1c), (0, 0, .w1c)]
  | .ACC_NUMFLAGS => [(3, 3, .w1c), (2, 2, .w1c), (1, 1, .w1c), (0, 0, .w1c)]
  | .MP_ECC => [(31, 16, .ro), (15, 0, .ro)]
  | .MP_SPARE => [(6, 6, .rw), (5, 0, .rw)]
  | .VEC_TABLE => [(63, 32, .ro), (31, 16, .ro), (15, 0, .ro)]
  | .VEC_NUMFLAGS => [(3, 3, .w1c), (2, 2, .w1c), (1, 1, .w1c), (0, 0, .w1c)]
  | .PK_POOL => [(63, 40, .ro), (31, 16, .ro), (15, 12, .ro), (11, 10, .ro), (0, 0, .ro)]
  | .PK_COUNTS => [(55, 32, .snap), (23, 0, .snap)]
  | .PK_DROPS => [(63, 32, .ro), (31, 0, .ro)]
  | .ATT_NUMFLAGS => [(3, 3, .w1c), (2, 2, .w1c), (1, 1, .w1c), (0, 0, .w1c)]
  | .NTEL_SCALE => [(63, 48, .rw), (47, 7, .rw)]
  | .NTEL_CENSUS => [(52, 48, .rw), (47, 6, .rw)]
  | .NTEL_UW => [(47, 6, .rw)]
  | .NTEL_UW_THRESH => [(31, 0, .rw)]
  | .NTEL_STATUS => [(47, 32, .ro), (31, 0, .ro)]
  | .NTEL_SRT_SEED => [(63, 0, .rw)]
  | .NTEL_SRT_STEP => [(63, 0, .rw)]
  | .NTEL_SRT_TID => [(31, 0, .rw)]
  | .NTEL_SRT_IDX => [(63, 0, .rw)]
  | .NTEL_SRT_OUT => [(63, 0, .ro)]
  | .UPD_STATUS => [(63, 32, .ro), (31, 24, .ro), (12, 12, .ro), (11, 0, .ro)]
  | .UPD_CTL => [(1, 0, .rw)]
  | .UPD_JRNL => [(47, 20, .rw), (0, 0, .rw)]
  | .UPD_JLINE => [(63, 48, .snap), (47, 32, .snap), (31, 16, .snap), (15, 0, .snap)]
  | .UPD_NUMFLAGS => [(3, 3, .w1c), (2, 2, .w1c), (1, 1, .w1c), (0, 0, .w1c)]
  | .RC_WRT => [(63, 48, .rw), (47, 6, .rw)]
  | .RC_WREF_SEL => [(13, 0, .rw)]
  | .RC_WREF => [(63, 56, .snap), (47, 24, .snap), (23, 0, .snap)]
  | .STK_THERM => [(47, 32, .ro), (31, 24, .ro), (18, 16, .ro), (15, 0, .ro)]
  | .STK_THERM_EVT => [(3, 3, .w1c), (2, 2, .w1c), (1, 1, .w1c), (0, 0, .w1c)]
  | .STK_TENT => [(63, 48, .ro), (47, 32, .ro), (15, 0, .ro)]
  | .STK_TENT_CFG => [(15, 0, .rw)]
  | .CH_STATE => [(1, 0, .rw)]
  | .CH_ARB => [(47, 40, .rw), (39, 32, .rw), (31, 24, .rw), (23, 16, .rw), (15, 8, .rw), (7, 0, .rw)]
  | .CH_ECC_COUNT => [(53, 48, .ro), (47, 32, .ro), (31, 16, .ro), (15, 0, .ro)]
  | .CH_ECC_INFO => [(63, 60, .ro), (59, 55, .ro), (54, 42, .ro), (41, 38, .ro), (37, 36, .ro), (1, 1, .w1c), (0, 0, .w1c)]
  | .CH_ECC_CFG => [(15, 0, .rw)]
  | .CH_LANE_MAP => [(38, 38, .rw), (37, 32, .rw), (25, 24, .rw), (14, 14, .rw), (13, 8, .rw), (6, 6, .rw), (5, 0, .rw)]
  | .CH_SCRUB => [(63, 48, .ro), (31, 0, .rw)]
  | .CH_UE_WINDOW => [(31, 0, .rw)]
  | .REP_CMD => [(34, 32, .wo), (31, 28, .wo), (27, 24, .wo), (23, 19, .wo), (12, 0, .wo)]
  | .REP_STATUS => [(63, 48, .ro), (7, 4, .ro), (0, 0, .ro)]
  | .REP_AVAIL => [(31, 28, .rw), (27, 24, .rw), (23, 19, .rw), (5, 3, .ro), (2, 0, .ro)]
  | .HST_STATUS => [(63, 48, .ro), (47, 32, .ro), (20, 16, .ro), (15, 8, .ro), (0, 0, .ro)]
  | .HST_MIGRATED => [(63, 0, .snap)]
  | .HST_MAP => [(63, 60, .rw), (59, 44, .rw), (43, 28, .ro), (15, 0, .ro)]
  | .RC_RTAB => [(63, 48, .rw), (47, 6, .rw)]
  | .RC_HOLD_CFG => [(9, 9, .rw), (8, 8, .rw), (7, 0, .rw)]
  | .RC_HOLD_CTL => [(4, 4, .wo), (3, 0, .rw)]
  | .RC_HOLD => [(63, 48, .ro), (47, 32, .ro), (2, 0, .ro)]
  | .RC_HOLD_UNIT => [(47, 0, .ro)]
  | .CF_AGENTS => [(28, 16, .ro), (12, 0, .rw)]
  | .CF_SNP_TIMEOUT => [(15, 0, .rw)]
  | .CF_FATAL => [(63, 61, .ro), (60, 57, .ro), (56, 52, .ro), (47, 6, .ro), (0, 0, .w1c)]
  | .HA_SEL => [(2, 0, .rw)]
  | .HA_DIR => [(47, 32, .ro), (18, 0, .ro)]
  | .HA_BACKINV => [(63, 0, .snap)]
  | .HA_FORWARD => [(63, 0, .snap)]
  | .mvtcfg => [(2, 2, .rw), (1, 1, .rw), (0, 0, .rw)]
  | .uvtopid => [(31, 16, .rw), (15, 0, .rw)]
  | .CL_DVFS => [(15, 8, .ro), (7, 0, .rw)]
  | .CL_CTL => [(2, 2, .ro), (1, 1, .wo), (0, 0, .wo)]
  | .CL_HART_CTL => [(63, 63, .wo), (62, 62, .wo), (61, 60, .ro), (47, 2, .rw)]
  | .CL_TIMECMP => [(63, 0, .rw)]
  | .BLT_CTL => [(23, 0, .rw)]
  | .BLT_STATUS => [(55, 32, .ro), (23, 0, .ro)]
  | .BLT_DMG_BASE => [(63, 59, .rw), (47, 6, .rw)]
  | .BLT_DMG_PTR => [(63, 48, .ro), (47, 24, .rw), (23, 0, .ro)]
  | .TOK_CTL => [(3, 0, .rw)]
  | .TOK_STATUS => [(63, 62, .ro), (55, 52, .ro), (51, 48, .ro), (37, 19, .ro), (18, 0, .ro)]
  | .HOP_BASE => [(47, 20, .rw)]
  | .HOP_CFG => [(39, 32, .rw), (31, 8, .rw), (6, 0, .rw)]
  | .HOP_CTL => [(1, 1, .wo), (0, 0, .wo)]
  | .HOP_STATUS => [(63, 56, .ro), (55, 48, .ro), (47, 40, .ro), (39, 32, .ro), (31, 24, .ro), (0, 0, .ro)]
  | .HOP_EVT => [(0, 0, .w1c)]
  | .HOP_STATS => [(63, 0, .snap)]
  | .PORT_CFG => [(11, 11, .rw), (10, 10, .rw), (9, 9, .rw), (8, 5, .rw), (1, 0, .rw)]
  | .PORT_MAC => [(47, 0, .rw)]
  | .PORT_STATUS => [(31, 16, .ro), (11, 8, .ro), (2, 0, .ro)]
  | .PORT_FEC_CORR => [(63, 0, .snap)]
  | .PORT_FEC_TH => [(47, 32, .ro), (15, 0, .rw)]
  | .PORT_PFC => [(47, 32, .rw), (31, 16, .rw), (7, 0, .rw)]
  | .PORT_DROPS => [(63, 48, .ro), (47, 32, .ro), (31, 16, .ro), (15, 0, .ro)]
  | .NET_CFG => [(43, 32, .rw), (14, 12, .rw), (10, 8, .rw)]
  | .NET_VC_MAP => [(31, 0, .rw)]
  | .NET_IPV4 => [(31, 0, .rw)]
  | .NET_IPV6_LO => [(63, 0, .rw)]
  | .NET_IPV6_HI => [(63, 0, .rw)]
  | .NET_MR => [(63, 48, .rw), (47, 5, .rw)]
  | .NET_QPT => [(60, 48, .rw), (47, 7, .rw)]
  | .NET_DB => [(63, 63, .wo), (59, 48, .wo), (31, 0, .wo)]
  | .NET_DROPS => [(63, 48, .ro), (47, 32, .ro), (31, 16, .ro), (15, 0, .ro)]
  | .NET_TIME_CFG => [(4, 4, .rw), (1, 0, .rw)]
  | .NET_TIME_ADJ => [(31, 0, .rw)]
  | .NET_TIME_STEP => [(63, 0, .wo)]
  | .NET_TIME_STAT => [(31, 16, .ro), (0, 0, .w1c)]
  | .NET_PPS_IN => [(63, 0, .snap)]
  | .CT_CFG => [(63, 48, .rw), (47, 32, .rw), (31, 20, .rw), (19, 12, .rw), (3, 3, .rw), (2, 0, .rw)]
  | .CT_STAGING => [(63, 56, .rw), (47, 20, .rw)]
  | .CT_STATUS => [(63, 48, .ro), (39, 32, .ro), (3, 2, .ro), (1, 0, .ro)]
  | .CT_SLOG_BASE => [(63, 59, .rw), (47, 5, .rw)]
  | .CT_SLOG_PTR => [(63, 48, .ro), (47, 24, .rw), (23, 0, .ro)]
  | .CT_ERR => [(47, 32, .ro), (31, 16, .ro), (15, 0, .ro)]
  | .CT_PHASE => [(7, 6, .rw), (1, 0, .ro)]
  | .CT_MAP => [(63, 0, .ro)]
  | .GOV_INPUT => [(63, 48, .snap), (47, 32, .snap), (31, 16, .snap)]
  | .GOV_CAP => [(31, 16, .rw), (15, 0, .rw)]
  | .GOV_STATUS => [(63, 48, .ro), (47, 32, .ro), (31, 24, .ro), (20, 16, .ro), (2, 2, .ro), (1, 1, .ro), (0, 0, .ro)]
  | .GOV_EVT => [(4, 4, .w1c), (3, 3, .w1c), (2, 2, .w1c), (1, 1, .w1c), (0, 0, .w1c)]
  | .GOV_DOM_CTL => [(63, 63, .wo), (62, 62, .wo), (6, 0, .wo)]
  | .GOV_DOM_ON_LO => [(63, 0, .ro)]
  | .GOV_DOM_ON_HI => [(7, 0, .ro)]
  | .GOV_DROOP => [(22, 16, .ro), (15, 0, .ro)]
  | .GOV_LG => [(47, 16, .rw), (15, 8, .rw), (0, 0, .rw)]
  | .SEC_BOOT => [(63, 32, .ro), (31, 24, .ro), (16, 16, .ro), (15, 0, .ro)]
  | .SEC_BOOT_CTL => [(1, 1, .wo), (0, 0, .rw)]
  | .SEC_ID => [(63, 0, .ro)]
  | .SEC_IMAGE => [(63, 32, .ro), (31, 0, .ro)]
  | .SEC_MEAS_SEL => [(4, 2, .rw), (1, 0, .rw)]
  | .SEC_MEAS => [(63, 0, .snap)]
  | .SEC_DEBUG => [(11, 8, .ro), (4, 4, .ro), (3, 3, .ro), (2, 2, .ro), (1, 0, .ro)]
  | .OBS_TIME => [(63, 0, .snap)]
  | .OBS_STATUS => [(63, 48, .ro), (47, 32, .ro)]
  | .OBS_RCYC => [(63, 0, .snap)]
  | .OBS_MARK => [(63, 0, .wo)]
  | .OBS_BRAKE_CFG => [(8, 8, .rw), (7, 0, .rw)]
  | .OBS_BRAKE => [(7, 7, .wo), (6, 6, .wo), (5, 5, .ro), (4, 4, .ro), (1, 0, .ro)]
  | .OBS_BRAKE_T => [(63, 0, .ro)]
  | .OBS_FRZ => [(47, 16, .rw), (3, 2, .ro), (1, 1, .wo), (0, 0, .wo)]
  | .OBS_ACCT => [(63, 59, .rw), (58, 55, .rw), (47, 7, .rw), (0, 0, .rw)]
  | .OBS_TRC_BASE => [(63, 59, .ro), (47, 6, .ro), (1, 0, .ro)]
  | .OBS_TRC_PTR => [(56, 32, .rw), (24, 0, .ro)]
  | .OBS_TRC_CFG => [(63, 48, .ro), (47, 32, .ro), (31, 0, .ro)]
  | .OBS_PROF_SEL => [(27, 16, .rw), (15, 8, .rw), (2, 2, .w1c), (1, 1, .rw), (0, 0, .rw)]
  | .OBS_PROF => [(47, 0, .snap)]
  | .OBS_AON => [(63, 0, .snap)]
  | .OBS_COMPAT => [(63, 0, .snap)]
  | .RC_ENGMAP => [(19, 16, .ro), (15, 12, .ro), (11, 8, .ro), (7, 4, .ro), (3, 0, .ro)]
  | .ERR_RING_BASE => [(63, 59, .ro), (51, 48, .ro), (47, 6, .ro)]
  | .ERR_RING_PTR => [(63, 48, .ro), (47, 24, .rw), (23, 0, .ro)]
  | .ERR_STATUS => [(63, 48, .ro), (47, 16, .ro), (15, 8, .ro)]
  | .TST_MBIST_CTL => [(63, 63, .wo), (17, 16, .rw), (15, 12, .rw), (8, 0, .rw)]
  | .TST_MBIST_STATUS => [(63, 28, .ro), (27, 8, .ro), (7, 4, .ro), (0, 0, .ro)]
  | .TST_MBIST_LOG => [(63, 52, .rw), (47, 4, .rw)]

/-- The word a register holds at reset (R11). `i` is the instance. Reset entries "cfg" hold the default that the spec states,
else zero or the lowest value that is not reserved (DESIGN CHOICE, log 4); entries "kept" and "nv" hold zero, as in a
device that starts for the first time (DESIGN CHOICE, log 4). -/
def Reg.resetWord (r : Reg) (i : Nat) : BitVec 64 :=
  match r with
  | .ERR_RING_BASE => 0x8000000000000#64
  | .AMR_CFG => 0x100#64
  | .AMR_ILV_TOP => 0x1C000000000#64
  | .Q_CFG => 0x80060002#64
  | .ENG_STATUS => BitVec.ofNat 64 ((i % 4) <<< 20 + 0)
  | .ENG_CTL => 0x1#64
  | .SPW_STATUS => 0x200000000000#64
  | .VEC_TABLE => 0x7F#64
  | .CH_ARB => 0x2008081C1804#64
  | .CH_ECC_COUNT => 0x3F000000000000#64
  | .CH_SCRUB => 0xA8C0#64
  | .REP_AVAIL => 0x4#64
  | .CF_AGENTS => 0x1000#64
  | .CF_SNP_TIMEOUT => 0xA#64
  | .mvtcfg => 0x7#64
  | .CL_DVFS => 0x808#64
  | .CL_TIMECMP => 0xFFFFFFFFFFFFFFFF#64
  | .HOP_CFG => 0x101#64
  | .NET_CFG => 0x100000000#64
  | .CT_CFG => 0x1000000A08000#64
  | .CT_MAP => 0xFFFFFFFFFFFFFFFF#64
  | .GOV_CAP => 0xA05DC#64
  | .GOV_STATUS => 0x5DC00001E000000#64
  | .RC_ENGMAP => 0x3210#64
  | .AMR_FAULT_STATUS | .AMR_FAULT_ADDR | .DM_NUMFLAGS | .Q_RING_BASE | .Q_STS_BASE | .Q_CTX_BASE | .Q_PTR
  | .Q_TAIL | .Q_STATE | .Q_CTL | .Q_IRQ | .ENG_NUMFLAGS | .ENG_ERR_COUNT | .ENG_ERR_INFO | .ENG_CYCLES
  | .ENG_BUSY | .ACC_AMAX_BASE | .ACC_ERR_COUNT | .ACC_ERR_INFO | .ACC_NUMFLAGS | .MP_ECC | .MP_SPARE
  | .VEC_NUMFLAGS | .PK_POOL | .PK_COUNTS | .PK_DROPS | .ATT_NUMFLAGS | .NTEL_SCALE | .NTEL_CENSUS | .NTEL_UW
  | .NTEL_UW_THRESH | .NTEL_STATUS | .NTEL_SRT_SEED | .NTEL_SRT_STEP | .NTEL_SRT_TID | .NTEL_SRT_IDX
  | .NTEL_SRT_OUT | .UPD_STATUS | .UPD_CTL | .UPD_JRNL | .UPD_JLINE | .UPD_NUMFLAGS | .RC_WRT | .RC_WREF_SEL
  | .RC_WREF | .STK_THERM | .STK_THERM_EVT | .STK_TENT | .STK_TENT_CFG | .CH_STATE | .CH_ECC_INFO | .CH_ECC_CFG
  | .CH_LANE_MAP | .CH_UE_WINDOW | .REP_CMD | .REP_STATUS | .HST_STATUS | .HST_MIGRATED | .HST_MAP | .RC_RTAB
  | .RC_HOLD_CFG | .RC_HOLD_CTL | .RC_HOLD | .RC_HOLD_UNIT | .CF_FATAL | .HA_SEL | .HA_DIR | .HA_BACKINV
  | .HA_FORWARD | .uvtopid | .CL_CTL | .CL_HART_CTL | .BLT_CTL | .BLT_STATUS | .BLT_DMG_BASE | .BLT_DMG_PTR
  | .TOK_CTL | .TOK_STATUS | .HOP_BASE | .HOP_CTL | .HOP_STATUS | .HOP_EVT | .HOP_STATS | .PORT_CFG | .PORT_MAC
  | .PORT_STATUS | .PORT_FEC_CORR | .PORT_FEC_TH | .PORT_PFC | .PORT_DROPS | .NET_VC_MAP | .NET_IPV4
  | .NET_IPV6_LO | .NET_IPV6_HI | .NET_MR | .NET_QPT | .NET_DB | .NET_DROPS | .NET_TIME_CFG | .NET_TIME_ADJ
  | .NET_TIME_STEP | .NET_TIME_STAT | .NET_PPS_IN | .CT_STAGING | .CT_STATUS | .CT_SLOG_BASE | .CT_SLOG_PTR
  | .CT_ERR | .CT_PHASE | .GOV_INPUT | .GOV_EVT | .GOV_DOM_CTL | .GOV_DOM_ON_LO | .GOV_DOM_ON_HI | .GOV_DROOP
  | .GOV_LG | .SEC_BOOT | .SEC_BOOT_CTL | .SEC_ID | .SEC_IMAGE | .SEC_MEAS_SEL | .SEC_MEAS | .SEC_DEBUG
  | .OBS_TIME | .OBS_STATUS | .OBS_RCYC | .OBS_MARK | .OBS_BRAKE_CFG | .OBS_BRAKE | .OBS_BRAKE_T | .OBS_FRZ
  | .OBS_ACCT | .OBS_TRC_BASE | .OBS_TRC_PTR | .OBS_TRC_CFG | .OBS_PROF_SEL | .OBS_PROF | .OBS_AON
  | .OBS_COMPAT | .ERR_RING_PTR | .ERR_STATUS | .TST_MBIST_CTL | .TST_MBIST_STATUS
  | .TST_MBIST_LOG => 0#64

/-- The reset values of fields whose default is neither zero nor a kept value can be read back as numbers. -/
def Fld.resetVal (f : Fld) (i : Nat) : Nat := bits (f.reg.resetWord i).toNat f.hi f.lo

end Sys2Proof.Machine
end

