-- ==== Sys2Proof/Machine/Units.lean ====
section
/-! DEFINITION. What the units of the block hold beside their registers: queues, engines, accumulation and update units,
channels, Hoists, homes, harts, lanes, ports, collectives, power, boot and observation. All of it is plain data. -/
namespace Sys2Proof.Machine

/-- Where a command stands between its fetch and the step that follows its completion (R48, R78). -/
inductive Phase where
  | decoded    -- fetched and validated, not yet issued
  | issued     -- issued; its unit has not begun it
  | waiting    -- issued and waiting: a WAIT's word, an epoch (R217), a hold (R269)
  | running    -- begun: engine items, collective transfers, a brake or a pipeline in progress
  | saved      -- every remaining item is in a save slot (R82)
  | ended      -- its status is known; its writes are done; COMMAND_COMPLETE has still to report it
  | completed  -- reported; HEAD has not yet passed it
  deriving DecidableEq, Repr

/-- An engine's item: one share, or one chunked output tile, of a command (R126, R142, R155). -/
structure Item where
  cmd    : CmdRef
  index  : Nat              -- ITEM[47:0]
  chunk  : Nat := 0         -- ITEM[63:48]
  kstep  : Nat := 0         -- first K step still to run within the share or chunk
  half   : Nat := 0         -- first Millpond row: 0 or 2,048 (R141)
  begun  : Bool := false    -- the rows hold a value (R124: acc is none before the first tile)
  atEnd  : Bool := false    -- a K step of this attempt has ended: the engine stands at a tile boundary (R127, R138)
  fl     : NumFlags := {}   -- flags this attempt has raised for ENG_NUMFLAGS (R111)
  fa     : NumFlags := {}   -- flags its chunk spills have raised for ACC_NUMFLAGS (R142)
  deriving DecidableEq, Repr

/-- A Millstone engine beside its registers (R112, R140, R153). The Millpond holds ACC40 bits at 512 · row + column; a weight tile
buffer holds the elements of B within range at 512 · (reduction index within the tile) + column. -/
structure Engine where
  cmd       : Option CmdRef := none
  compute   : Option Item := none
  drain     : Option Item := none
  retrying  : Bool := false
  wX        : Tab Val := []
  wY        : Tab Val := []
  activeY   : Bool := true                      -- the active buffer is Y (R116)
  spare     : Nat := 0                          -- word bit that the spare bit replaces, plus one; 0 none (R158)
  worked    : Bool := false                     -- a command has been in progress since ENG_BUSY was read last (R139)
  saving    : Option Nat := none                -- save slot an item is being written to (R82)
  millpond  : Tab (BitVec 40) := []
  deriving DecidableEq, Repr

/-- A Spillway frame: the rows of one output tile's partial sums (R146): frame A (0) or B (1), and the Spillway rows it was
drawn from as segments of first row and length. `arrived` lists the shares, or one more than the chunks, already in it. -/
structure Frame where
  cmd     : CmdRef
  tile    : Nat
  which   : Nat
  rows    : Nat
  segs    : List (Nat × Nat)
  arrived : List Nat := []
  deriving DecidableEq, Repr

/-- The accumulation unit of a region beside its registers (R146). -/
structure AccUnit where
  frames  : List Frame := []
  waiting : List (CmdRef × Nat) := []   -- output tiles waiting for frames, in the order of their requests
  rows    : Tab (BitVec 64) := []       -- the Spillway's values, at 512 · row + column
  deriving DecidableEq, Repr

/-- The progress of a class 0x2 command (R126, R155 to R157). -/
structure MatWork where
  cursor   : Nat := 0                     -- next item to dispatch
  pending  : List Nat := []               -- items below the cursor that must be run again from their start
  saved    : List (Nat × Nat × Nat) := [] -- save slot, item, logical engine
  primary  : Option Nat := none           -- slot number of the primary save slot
  mask     : Nat := 0                     -- mask bits (R129)
  masked   : Bool := false                -- they have been read
  done     : List Nat := []               -- output tiles whose values have left
  retried  : List Nat := []               -- engines whose retry this command has spent (R138, R153)
  spwErr   : Nat := 0                     -- uncorrectable Spillway values met (R154)
  amax     : Val := .zero                 -- running maximum of |v| (R151)
  rowAcc   : Tab Val := []                -- ROWMAX or ROWSUM of a row's 512-column block, by row · NT + block (R150)
  failed   : Bool := false                -- an ending code stands; engines stop at their next boundary (R137)
  failAt   : Nat := 0                     -- the time at which it was set
  leaving  : Bool := false                -- abandoned: engines stop at their next boundary (R157)
  lines    : Nat := 0                     -- ACC_WRITE lines handed over and not yet added (R131)
  drainer  : Nat := 0                     -- engine that drained last: it takes the flags of R508
  deriving DecidableEq, Repr

/-- One line, or part of a line, that a stack's update unit has still to add (R73, R131). -/
structure AccLine where
  cmd   : CmdRef
  seed  : Nat
  step  : Nat
  tid   : Nat
  elems : List (Nat × Nat × Val)   -- address, element index, value
  ovp   : Nat := 0                 -- overflow policy of the destination (R69, R105)
  deriving DecidableEq, Repr

/-- Near-memory update unit of a stack beside its registers (R207, R228, R481). -/
structure UpdUnit where
  slices   : List CmdRef := []      -- slices that have left their epoch wait, in that order
  adds     : List AccLine := []     -- ACC_WRITE lines in the order in which they reached the unit
  eccSeen  : Nat := 0               -- uncorrectable words met in the slice in progress (R481)
  fresh    : Bool := true           -- the journal has not been in use since power-on (R229)
  deriving DecidableEq, Repr

/-- A page pool of a region: what POOL_CFG gave and no register reports (R176). -/
structure Pool where
  base      : Nat
  stateBase : Nat
  pages     : Nat
  hkv       : Nat
  fmt       : Nat
  dcode     : Nat
  deriving DecidableEq, Repr

/-- Attention-and-vector unit of a region beside its registers: the loadable table slots 8 to 15, each a slot image of 8,320
bytes held as a little-endian number (R165, R166), and the pool (R176). -/
structure VecUnit where
  tables : Tab Nat := []
  pool   : Option Pool := none
  deriving DecidableEq, Repr
/-- What a request that waits at a channel asks of its burst. -/
inductive BurstOp where
  | home                               -- the memory read of the line's transaction in progress (R282)
  | writeBack (data : Nat)             -- the ECC write-back of R237
  | scrub (last : Bool)                -- the scrub read of R241; whether it is the last of its pass
  deriving DecidableEq, Repr

def BurstOp.isScrub : BurstOp → Bool
  | .scrub _ => true
  | _ => false

/-- A request that waits at a channel controller (R242, R243). -/
structure BurstReq where
  cls  : TClass
  line : Nat            -- physical address of the 64-byte line, divided by 64
  op   : BurstOp
  deriving DecidableEq, Repr

/-- A repair operation that a stack runs (R251, R252). -/
structure RepOp where
  kind : Nat            -- 1 SOFT_ROW, 2 HARD_ROW, 3 UNDO_SOFT, 4 the move of a HARD_ROW's second hold
  chan : Nat
  die  : Nat
  bank : Nat
  row  : Nat
  deriving DecidableEq, Repr

/-- The repair resources of one bank of one slice (R251): rows in soft entries and in hard rows. -/
structure BankRep where
  soft : List Nat := []
  hard : List Nat := []
  deriving DecidableEq, Repr

/-- Refresh of one bank (R245): postponed refreshes, and whether the next slot goes to refresh. -/
structure BankRef where
  postponed : Nat := 0
  paying    : Bool := false
  deriving DecidableEq, Repr

/-- A channel controller beside its registers (R240 to R250). `count` numbers the slots since power-on; a refresh occupies its bank
up to a slot of that number. -/
structure Chan where
  queue      : List BurstReq := []     -- in the order in which requests reached the controller
  tokens     : Nat := 0                -- CRIT tokens (R244)
  tokenSlot  : Nat := 0                -- slots since the last token
  slot       : Nat := 0                -- position in the 64-slot frame
  count      : Nat := 0                -- slots since power-on
  removed    : Nat := 0                -- slots of this frame that Tentering has taken (R244)
  used       : List Nat := [0, 0, 0, 0]   -- slots taken in this frame by CRIT without token, COLL, BULK, BACK
  dense      : Nat := 0                -- dense bursts granted in this frame (R232)
  grade      : Nat := 0                -- grade in force since the last frame boundary (R246)
  banks      : Tab BankRef := []       -- by 32·die + bank
  refresh    : List Nat := []          -- banks taken for refresh at their limit and waiting for a slot
  busyTill   : Tab Nat := []           -- by bank: the slot number at which its refresh ends (R245)
  mult       : Nat := 1                -- refresh multiplier in force (R245)
  tentDue    : Nat := 0                -- slots of a Tentering window still to run (R249)
  tents      : List (Nat × Nat) := []  -- windows of the last 1 ms: time and slots (R250)
  tentLast   : Tab Nat := []           -- by kind of window: one more than the time at which the last scheduled one started
  extraDue   : Bool := false           -- an extra oscillator window that the limit refused (R250)
  oscLast    : Option Nat := none      -- last oscillator count (R250)
  scrubAt    : Nat := 0                -- next burst of the scrub pass: 1,024·slot + burst (R241)
  firstUe    : Option (Nat × Nat) := none   -- line and time of the last uncorrectable burst (R240)
  lanes      : Tab (List Nat) := []    -- by lane: when symbols of it were corrected within the last second (R237)
  nvMap      : Nat := 0                -- substitutions in the non-volatile repair cells (R253)
  deriving DecidableEq, Repr

/-- A stack beside its registers (R246 to R254). -/
structure Stack where
  srSince   : Nat := 0                 -- when protective self-refresh was entered
  below     : Nat := 0                 -- consecutive 100 µs samples at least 3 °C under the grade's threshold
  selfRef   : Bool := false            -- in protective self-refresh
  rep       : Option RepOp := none     -- the operation in progress: a HARD_ROW's programming
  repWait   : Option RepOp := none     -- the operation whose row copy waits until BACK is served (R242, R247); kind 4: the second copy of a HARD_ROW
  repNext   : List RepOp := []         -- HARD_ROW operations that repairs have still to start (R271)
  repBanks  : Tab BankRep := []        -- by (16·die + chan)·32 + bank
  lowered   : List (Nat × Nat) := []   -- falls of the grade whose multiplier is still to fall: time, multiplier of the grade reached (R245)
  deriving DecidableEq, Repr

/-- An open stream of a Hoist (R265). -/
structure Stream where
  base     : Nat
  segUnits : Nat
  segments : Nat
  win      : Nat
  deriving DecidableEq, Repr

/-- A swap in progress on one channel (R263): the slow frame, its victim, the first burst not yet exchanged, and how many of the four
slots of its exchange have been granted (R264). -/
structure Swap where
  slow   : Nat
  victim : Nat
  cursor : Nat := 0
  part   : Nat := 0
  deriving DecidableEq, Repr

/-- The Hoist side of one channel (R255, R262): the remap table as its exceptions from the identity, and the order in which
frames entered the fast tier. -/
structure HoistChan where
  remap   : List (Nat × Nat) := []     -- frame, slot: frames not in the slot of their number
  entered : List Nat := []             -- frames raised by swaps, oldest first
  swap    : Option Swap := none
  deriving DecidableEq, Repr

/-- What a Hoist does for a hint (R259, R265, R266). -/
inductive HintKind where
  | hoist | lower | pin | unpin | open_ | advance | close
  deriving DecidableEq, Repr

/-- A hint a Hoist has still to finish (R261): its command, none for the HINT field of R266; the frame numbers of its range; the
frames it raises, in order. -/
structure Hint where
  cmd    : Option CmdRef
  kind   : HintKind
  range  : List Nat
  raise  : List Nat := []
  sid    : Nat := 8
  begun  : Bool := false
  deriving DecidableEq, Repr

/-- The Hoist of a stack (R257, R261, R265): frame attributes, streams, hints in arrival order. -/
structure Hoist where
  attrs   : Tab (BitVec 16) := []
  streams : Tab (Option Stream) := []
  hints   : List Hint := []
  deriving DecidableEq, Repr

/-- A poison hold of a region (R268 to R273). -/
structure Hold where
  unit   : Nat                          -- base of the hoist unit
  state  : Nat                          -- 1 PLACED, 2 REPAIRING, 3 SOFTWARE
  bursts : List Nat := []               -- addresses of the poisoned bursts, 64-byte aligned
  rowed  : List Nat := []               -- bursts whose row step 1 of R271 has seen
  ran    : List Nat := []               -- bursts whose repair runs have all been started
  next   : Nat := 0                     -- repair entry to look at next for the first other burst
  runs   : List CmdRef := []            -- fetches of the repair that are still to end (R271 step 2)
  failed : Bool := false
  rows   : List (Nat × RepOp) := []     -- stack and row soft-repaired in step 1
  deriving DecidableEq, Repr

/-- Line states of a caching agent (R278). -/
inductive LineState where
  | i | s | e | o | m
  deriving DecidableEq, Repr

/-- A cached line: its state, its 64 bytes and whether it is poisoned (R287). -/
structure CLine where
  st   : LineState := .i
  data : Nat := 0
  poison : Bool := false
  deriving DecidableEq, Repr

/-- A directory entry (R279): mode 0 SHARED, 1 EXCL, 2 OWNED; its SEC-DED errors come with the requests that read it. -/
structure DirEntry where
  mode  : Nat
  owner : Nat := 0
  pres  : Nat := 0
  stamp : Nat := 0          -- order of allocation
  deriving DecidableEq, Repr

/-- Requests a home takes (R276, R280). `u` of a non-caching request is its traffic class: its `clsNum` (R242). -/
inductive HReq where
  | readShared (a : Nat)
  | readUnique (a : Nat) (mask data : Nat) (zero : Bool)
  | upgrade (a : Nat) (mask data : Nat) (zero : Bool)
  | evict (a : Nat)
  | writeBack (a : Nat) (keep : Bool) (level : Nat)
  | flush (a : Nat)
  | readOnce (u : Nat)
  | invWrite (u : Nat) (data : Nat) (poison : Bool)
  | mergeWrite (u : Nat) (mask data : Nat)
  | atomicAdd (u : Nat) (off size v : Nat)
  | atomicMax (u : Nat) (off v : Nat)
  deriving DecidableEq, Repr

/-- The four snoops (R280). -/
inductive Snoop where
  | shared | unique | once | inv
  deriving DecidableEq, Repr

/-- A transaction in progress at a home, for one line (R281). -/
structure Txn where
  req    : HReq
  snoops : List (Nat × Snoop) := []     -- answers still awaited
  data   : Option (Nat × Bool) := none  -- data and poison an answer has returned or forwarded
  dirty  : Bool := false                -- ownership came with it
  granted : Bool := false               -- served; the acknowledgement is awaited
  deriving DecidableEq, Repr

/-- The home side of one line (R281): the transaction in progress and the requests that wait, in arrival order. -/
structure Home where
  txn  : Option Txn := none
  wait : List HReq := []
  deriving DecidableEq, Repr

/-- A hart beside the cluster registers (R302, R306, R307, R309, R313). -/
structure Hart where
  pc       : Nat := 0
  mode     : Nat := 3                     -- privilege mode: 0 U, 1 S, 3 M (R300, R309)
  stopPend : Bool := false
  mtip     : Bool := false
  stip     : Bool := false                -- mip.STIP (R307)
  satp     : Nat := 0                     -- MODE in [63:60]: 0 Bare, 9 Sv48 (R302)
  pmpCfg   : Tab Nat := []                -- configuration byte of each of the 16 PMP entries (R302)
  pmpAddr  : Tab Nat := []                -- address register of each of them
  csrs     : Tab Nat := []                -- the standard registers that hold what is written, by number (R300)
  mSelect  : Nat := 0                     -- miselect and siselect: the register of the IMSIC file that mireg and sireg show
  sSelect  : Nat := 0
  cycles   : Nat := 0
  hpmEvent : Tab Nat := []                -- mhpmevent3 to 10 (R306)
  hpmCount : Tab Nat := []                -- hpmcounter3 to 10
  fault    : Option (Nat × Nat) := none   -- precise exception: its cause number (1 fetch, 2 illegal instruction, 5 load, 7 store) and address
  acctAt   : Nat := 0                     -- cycle count up to which R450 has charged
  deriving DecidableEq, Repr

/-- An IMSIC file (R312): pending and enabled identities as bit masks, eidelivery and eithreshold. -/
structure Imsic where
  pend   : Nat := 0
  enable : Nat := 0
  deliver   : Bool := false
  threshold : Nat := 0
  deriving DecidableEq, Repr

/-- An APLIC source (R314): its source mode, whether it is enabled, whether it is pending, and the MSI it sends. -/
structure AplicSrc where
  sm     : Nat := 0
  enable : Bool := false
  pend   : Bool := false
  hart   : Nat := 0
  eiid   : Nat := 0
  super  : Bool := false
  deriving DecidableEq, Repr
/-- What the sequence header or the parameter sets of a coded video stream declare (R316): the profile, 1 the first that the codec table lists
for the codec, 2 the second, 0 another one; whether the stream conforms to the first profile all the same; the level in tenths; picture size;
bits per sample; the chroma format, 0 for 4:0:0, 1 for 4:2:0. -/
structure VHead where
  profile  : Nat := 0
  conforms : Bool := false
  level    : Nat := 0
  w        : Nat := 0
  h        : Nat := 0
  bd       : Nat := 8
  chroma   : Nat := 1
  deriving DecidableEq, Repr, Inhabited

/-- A slice or tile of a decoded picture (R319): the 16 × 16 blocks it covers, in decoding order, and the place among them of the first error. -/
structure VSlice where
  blocks : List Nat
  error  : Option Nat := none
  deriving DecidableEq, Repr, Inhabited

/-- One picture in output order (R317, R319): its samples, its slices, and the work counted up to the decoding of every picture it needs
(R321). A field pair is one picture of interleaved rows. A picture that needs references from before the stream is missing. -/
structure VFrame where
  missing : Bool := false
  w       : Nat
  h       : Nat
  luma    : List Nat               -- raster order
  cb      : List Nat
  cr      : List Nat
  slices  : List VSlice
  bytes   : Nat                    -- coded bytes consumed when the frame can be put out
  cus     : Nat                    -- coding blocks decoded by then
  deriving DecidableEq, Repr, Inhabited

/-- A coded video stream as the published standard of its codec reads it (R317): whether it has the form that R317 names (an Annex B byte
stream; the low-overhead bitstream format) and begins at a random access point, its headers, and its pictures in output order. -/
structure VStream where
  form   : Bool := true
  entry  : Bool := true
  head   : VHead
  frames : List VFrame
  deriving DecidableEq, Repr, Inhabited

/-- What a lane holds (R336): the command, and the sample's position in its list. -/
structure LaneJob where
  cmd    : CmdRef
  sample : Nat
  ecc    : Nat := 0                -- uncorrectable words met in this sample (R338)
  deriving DecidableEq, Repr

/-- Progress of an ASSEMBLE (R331 to R339). Descriptors are held as read at the start, 128 bytes each; samples and batches are named
by their numbers within the command. -/
structure AsmWork where
  descs   : List Nat := []
  slots   : List (Nat × Nat) := []   -- batch, Hopper slot taken for it
  written : List Nat := []           -- batches whose writes are performed
  doneV   : List Nat := []           -- samples whose video is decoded
  doneT   : List Nat := []           -- samples whose text is tokenized
  deriving DecidableEq, Repr

/-- States of a Hopper slot (R339). -/
inductive HopSlotState where
  | free | filling | ready | taken
  deriving DecidableEq, Repr

/-- A Hopper slot: its state, the batch it holds and the command that fills it. -/
structure HopSlot where
  st    : HopSlotState := .free
  batch : Nat := 0
  cmd   : Option CmdRef := none
  full  : Bool := false            -- every write of the batch is performed; an earlier batch is not READY yet
  time  : Nat := 0                 -- TIME of its header
  deriving DecidableEq, Repr

/-- The input pipeline beside its registers (R326, R336, R339). -/
structure InputUnits where
  vlanes  : Tab (Option LaneJob) := []   -- 24 decode lanes
  tlanes  : Tab (Option LaneJob) := []   -- 4 tokenizer lanes
  soloV   : List CmdRef := []            -- DECODE commands that wait for a lane, in order
  soloT   : List CmdRef := []            -- TOKENIZE commands that wait for a lane, in order
  dicts   : Tab (Nat × Nat) := []        -- slot: image as a little-endian number, and its length in bytes
  slots   : Tab HopSlot := []
  current : Option CmdRef := none        -- the ASSEMBLE in progress
  queue   : List CmdRef := []            -- ASSEMBLE commands that have issued and wait, in order
  starved : Option Nat := none           -- since when a take has waited (R341)
  deriving DecidableEq, Repr

/-- A posted send entry that awaits its acknowledgement (R353, R356). -/
structure SendWr where
  idx    : Nat                     -- index in the send queue
  op     : Nat
  wrId   : Nat
  laddr  : Nat
  len    : Nat
  imm    : Nat
  rkey   : Nat
  raddr  : Nat
  psn    : Nat                     -- first PSN
  last   : Nat                     -- last PSN
  got    : Nat := 0                -- bytes of a READ response received
  deriving DecidableEq, Repr

/-- The message a responder is receiving (R356, R360). -/
structure RecvMsg where
  kind  : Nat                      -- 1 SEND, 2 WRITE, 3 WRITE with immediate
  addr  : Nat                      -- where the next byte goes
  left  : Nat                      -- bytes of room left
  start : Nat
  wrId  : Nat := 0
  bytes : Nat := 0
  deriving DecidableEq, Repr

/-- A queue pair beside its context in memory (R353 to R356, R364). -/
structure Qp where
  st      : Nat := 0               -- 0 RESET, 1 RTS, 2 ERROR
  ctx     : Nat := 0               -- the context as QP_LOAD read it
  port    : Nat := 0               -- port in use, 0–7
  sqHead  : Nat := 0
  sqTail  : Nat := 0
  rqHead  : Nat := 0
  rqTail  : Nat := 0
  sqPsn   : Nat := 0               -- next PSN to send
  rqPsn   : Nat := 0               -- next PSN expected
  cqIdx   : Nat := 0
  sends   : List SendWr := []      -- in flight, oldest first
  recv    : Option RecvMsg := none
  retries : Nat := 0
  rnr     : Nat := 0
  una     : Nat := 0               -- oldest unacknowledged PSN
  nakSent : Bool := false
  owed    : Bool := false          -- a retransmission waits for a Brake to end (R364, R464)
  back    : Bool := false          -- REBALANCE moves it at its next message boundary
  sync    : Bool := false          -- an MR_SYNC waits for its message
  deriving DecidableEq, Repr

/-- A network engine beside its registers (R346, R348). -/
structure NetSt where
  qps     : Tab Qp := []
  echoes  : Nat := 0               -- echo requests answered in the current second
  echoSec : Nat := 0
  deriving DecidableEq, Repr
/-- A loaded group (R369, R370): the entry and the member list as read, and the signature. -/
structure Group where
  entry   : Nat
  members : Nat
  gsig    : Nat
  deriving DecidableEq, Repr

/-- One direction pair of a flow between this rank and another (R373). -/
structure Flow where
  peer    : Nat
  nextSeq : Nat := 0               -- SEQ of the next frame sent
  unacked : List CFrame := []      -- sent and not acknowledged, oldest first
  queued  : List CFrame := []      -- waiting for credits
  credits : Nat := 0               -- frames the peer still grants
  recvSeq : Nat := 0               -- next SEQ accepted
  ackSeq  : Nat := 0               -- next SEQ to acknowledge: earlier than the one accepted while a write of D waits (R373, R389)
  retries : Nat := 0
  port    : Nat := 0
  deriving DecidableEq, Repr

/-- A write of D that waits in staging for a stack in protective self-refresh (R389): wire values of a reduction's result from an element on,
`base` being the number of D's first; an 8 KiB unit of D; a unit of a SLICE_FETCH. -/
inductive DWrite where
  | result (base first : Nat) (ws : List Nat)
  | unit (u data : Nat)
  | fetch (k len data : Nat)
  deriving DecidableEq, Repr

/-- The progress of one collective or SLICE_FETCH (R375 to R393). Elements are numbered in descriptor order. -/
structure CollWork where
  slot     : Nat                   -- group slot, resolved at issue
  group    : Group
  cfg      : Nat := 0              -- CT_CFG at issue (R397)
  staging  : Nat := 0              -- staging bytes at issue (R374, R397)
  exps     : List Nat := []        -- WB8: chunk exponent bytes read at issue, or the one of SCALE
  ptab     : List Nat := []        -- PERMUTE: the table read at issue
  started  : Bool := false
  arrived  : Bool := false
  late     : Bool := false         -- LATE sent (final)
  got      : List Nat := []        -- rank 0: ranks whose ARRIVE came before the mask was fixed
  lates    : List Nat := []        -- rank 0: ranks whose LATE came
  mask     : Option Nat := none
  tMask    : Nat := 0
  leaf     : List Nat := []        -- this rank's leaf, FP32 bits
  parts    : Tab Nat := []         -- partial sums received, wire values: by child · 2^44 + element
  upCount  : Tab Nat := []         -- elements received from a child: by block · 4,096 + child
  settled  : List Nat := []        -- blocks whose partial sum has gone to the parent, or whose result this rank has formed
  downCount : Tab Nat := []        -- elements of D written, by block
  satur    : List Nat := []        -- chunks that this rank, or one whose partial sums it has received, has saturated
  sideIn   : List (Nat × Nat × Nat × Bool) := []   -- side data from a child, or from the parent: rank, bytes, length, whole
  sideSent : Bool := false
  sideDone : Bool := false
  sat      : Nat := 0              -- the combined saturation summary: count and lowest chunk
  satLow   : Nat := 0xFFFFFFFF
  flows    : List Flow := []
  units    : List Nat := []        -- 8 KiB units of D written
  staged   : List (Nat × Nat) := []   -- PERMUTE in place: units received and not yet written
  heldIn   : Bool := false         -- a valid hold record entered the leaf (R384)
  kept     : Option (List Nat) := none   -- an excluded member's local(i), read before D is written (R383)
  lastSeen : Nat := 0              -- since when the ranks that have sent nothing are awaited (R386)
  seenAt   : Tab Nat := []         -- time of the last frame of a rank
  leafDue  : Bool := false         -- its source waits to be read: a stack of it is in protective self-refresh (R248)
  dwait    : List DWrite := []     -- writes of D that wait (R389)
  starved  : List Nat := []        -- peers granted no credit because the staging was full (R389)
  aborting : Option (Nat × Nat) := none   -- a fault reported to rank 0: rank concerned, cause
  deriving DecidableEq, Repr

/-- A collective as frames name it: GROUP_ID, RED_ID, STEP. -/
structure CollKey where
  gid   : Nat
  redId : Nat
  step  : Nat
  deriving DecidableEq, Repr

/-- Frames that the ports put on the wire: the block's output, oldest first (R346 to R351, R366, R372). -/
inductive TxFrame where
  | arpReply (port ip mac : Nat)                                  -- answer to a requester
  | naReply (port ip mac : Nat)
  | gratuitous (port ip4 ip6 : Nat)
  | echoReply (port ip mac ident len data : Nat) (v6 : Bool)
  | pfc (port prio quanta : Nat)
  | ptp (port seqId stamp : Nat)
  | roce (port dest op : Nat) (k : RocePkt)                       -- destination QPN; 1 SEND, 2 WRITE, 3 WRITE with immediate, 4 READ, 5 READ response
  | roceAck (port qpn psn : Nat)
  | roceNak (port qpn psn code : Nat)
  | coll (port pcp : Nat) (f : CFrame)
  | announce (port : Nat) (data : Nat)                            -- recovery protocol
  | recoveryAck (port session offset : Nat)
  | recoveryResult (port session status : Nat)
  deriving DecidableEq, Repr

/-- The headers that a frame on the wire carries (R347 to R350, R353, R354, R372): MAC addresses, the 802.1Q tag's VID and priority code
point, DSCP and ECN, the IP version and addresses, the UDP ports and checksum. Addresses have their first octet highest. -/
structure TxHdr where
  dstMac : Nat := 0
  srcMac : Nat := 0
  vid    : Nat := 0
  pcp    : Nat := 0
  dscp   : Nat := 0
  ecn    : Nat := 0
  ip     : Option (Bool × Nat × Nat) := none   -- IPv6, source, destination
  udp    : Option (Nat × Nat) := none          -- source, destination port
  sum    : Nat := 0                            -- UDP checksum, of a collective frame
  deriving DecidableEq, Repr

/-- A frame on the wire with its headers. -/
structure Sent where
  frame : TxFrame
  hdr   : TxHdr
  deriving DecidableEq, Repr

/-- A port beside its registers (R351, R363, R368). Pause times are in nanoseconds of the time base. -/
structure PortSt where
  cfg        : Nat := 0            -- PORT_CFG as its last training took it (R368)
  pausedTill : Tab Nat := []       -- by priority: 0 when not paused
  waiting    : List Sent := []     -- frames of paused priorities, oldest first (R351)
  xoff       : Tab Bool := []      -- by priority: an XOFF has been sent and no XON since
  buffered   : Tab Nat := []       -- by priority: bytes in the receive buffer
  kind       : Nat := 0            -- the reason a DOWN port went down
  downAt     : Nat := 0            -- when it was UP last
  adaptPend  : Tab Bool := []      -- by receive lane of the port: coefficient updates were applied in its last window (R345)
  corrBase   : Tab Nat := []       -- corrected symbols of the lane at that window
  stamps     : List Nat := []      -- time stamps of PTP event messages, newest first (R366)
  stampSeq   : Nat := 0            -- sequenceId of the newest one
  changed    : Bool := false       -- the link state change interrupt stands (R314, R363)
  quar       : Bool := false
  deriving DecidableEq, Repr

/-- The collective side of network A beside its registers (R369 to R373, R393). -/
structure CollUnit where
  groups : Tab (Option Group) := []
  maps   : Tab Nat := []           -- phase to map, 64 bits; all ones where nothing is set
  grants : List (CollKey × Nat × Nat) := []   -- credits that a peer has granted on a collective not issued here: rank, frames
  ended  : List CollKey := []      -- collectives that have ended here: duplicates of their frames are acknowledged again
  served : List (CollKey × Flow) := []        -- flows without a command: FETCH_DATA and FETCH_NAK that this device serves, ABORT after its command's end
  deriving DecidableEq, Repr
/-- Where the package stands between power-on and service (R399, R411, R419). -/
inductive PwrPhase where
  | off        -- the input is below the converter minimum, or has not been good for 10 ms since
  | booting    -- the always-on domain runs; software access is not granted
  | recovery   -- the ROM runs the recovery protocol (R442)
  | running    -- software access is granted
  | holdup     -- a hold-up sequence runs (R411)
  | held       -- held in reset with the fault output asserted
  | fatal      -- a fatal device error stands; the fatal reset follows (R480)
  | halted     -- three starts have failed at one step: held in reset with the fault output asserted (R432)
  deriving DecidableEq, Repr

/-- The Governor and the input stage beside their registers (R398 to R419). -/
structure Power where
  phase     : PwrPhase := .off
  vinMv     : Nat := 0                  -- input voltage at the balls, in mV
  pwrGood   : Bool := false             -- PWR_GOOD pin
  resetN    : Bool := true              -- RESET_N pin: true while deasserted
  refclk    : Bool := true
  cause     : Nat := 0                  -- cause of the hold-up sequence
  holdAt    : Nat := 0                  -- time of its detection
  holdMv    : Nat := 0                  -- input voltage then
  fatalWas  : Bool := false             -- a fatal device error was in progress at detection
  requests  : List (Nat × Bool) := []   -- domain switches asked for and not done, in order (R403)
  capCl     : Nat := 30                 -- cap steps of R406: cluster cap, stretch, joint cap
  capStretch : Nat := 0
  capBulk   : Bool := false
  thCl      : Nat := 30                 -- thermal steps of R410
  thStretch : Nat := 0
  thBulk    : Bool := false
  droop     : List Nat := []            -- domains stretched for droop (R409)
  timeFrac  : Nat := 0                  -- part of a nanosecond that slewing has gathered, in 2^-32 ns (R367)
  boardCap  : Nat := 1500               -- MFR_POWER_CAP
  statInput : Nat := 0                  -- STATUS_INPUT bits latched
  statTemp  : Nat := 0                  -- STATUS_TEMPERATURE bits latched
  cml       : Bool := false             -- CML bit of STATUS_WORD
  faultOut  : Bool := false             -- fault output pin
  ppsOut    : Bool := false             -- 1PPS output pin
  scan      : Option Nat := none        -- pins driven by boundary scan (R489)
  jlines    : Tab (BitVec 128) := []    -- journal lines the update units have sent (R412), by stack
  commit    : Option Nat := none        -- STEP of the last COMMIT_STEP completed
  failed    : List Nat := []            -- power domains of the part whose loss was the fatal device error (R405)
  deriving DecidableEq, Repr

/-- A challenge that stands (R440, R441). -/
structure Challenge where
  value : Nat
  time  : Nat
  deriving DecidableEq, Repr

/-- The recovery protocol (R442, R443). -/
structure Recovery where
  mode     : Nat := 0                   -- port mode tried
  linkUp   : Bool := false
  session  : Option Nat := none
  imgLen   : Nat := 0
  next     : Nat := 0                   -- next byte expected
  sinceAck : Nat := 0
  program  : Bool := false
  deriving DecidableEq, Repr

/-- A copy of a firmware segment in the instruction memory of the cores that run it (R23, R425). -/
structure Code where
  len  : Nat
  data : Nat
  deriving DecidableEq, Repr

/-- The security block, the boot controller and the always-on memory beside their registers (R421 to R443). -/
structure Secure where
  strapGang  : Nat := 0                 -- as sampled (R421)
  strapSrc   : Nat := 0
  strapWidth : Nat := 0
  journal    : List Nat := []           -- boot journal: 128 words of 64 bits, empty when power was lost
  meas       : Tab Nat := []            -- M0 to M7
  pufRead    : Nat := 0                 -- the 8,192 PUF bits as read at power-on
  seed       : Option Nat := none
  keyId      : Nat := 0                 -- 0 without an identity key
  cfg        : Nat := 0                 -- the configuration block in force, 8 KiB little-endian (R427)
  challenge  : Option Challenge := none
  attempts   : Nat := 0
  recover    : Recovery := {}
  startTime  : Nat := 0
  env        : StartEnv := {}           -- what the surroundings give the start in progress
  image      : Nat := 0                 -- the firmware image held in boot SRAM (R425, R443)
  ctlCode    : Tab (List Code) := []    -- by region: the KIND 2 segments that its released controller cores run (R425)
  dieCode    : Tab (List Code) := []    -- by stack: the KIND 3 segments that its released base-die sequencer runs
  fatalStart : Bool := false            -- this start follows a fatal device error
  failed     : List Nat := []           -- steps that failed on the previous start (R432)
  aon        : Option Nat := none       -- time at which the always-on domain started; none while it is unpowered
  queue      : List CmdRef := []        -- class 0xA commands decoded and not yet run (R438)
  deriving DecidableEq, Repr
/-- Operation counts of one command (R449). -/
structure Acct where
  macFull    : Nat := 0
  macDouble  : Nat := 0
  macQuad    : Nat := 0
  macFp32    : Nat := 0
  attMacs    : Nat := 0
  vecOps     : Nat := 0
  tableEvals : Nat := 0
  moveBytes  : Nat := 0
  accElems   : Nat := 0
  updParams  : Nat := 0
  wireBytes  : Nat := 0
  deriving DecidableEq, Repr

/-- An update slice in progress (R207 to R220): its journal entry and its weight region. -/
structure UpdWork where
  stack   : Nat
  entry   : Nat                       -- journal entry in use
  weight  : Option (Nat × Nat) := none   -- WREG, epoch written
  waited  : Bool := false             -- has left its epoch wait
  since   : Nat := 0                  -- when its epoch wait began
  srcs    : List Nat := []            -- the rows of G, W, M1 and M2 at issue (R214)
  sumW    : Nat := 0                  -- SUM_W read at issue (R212)
  deriving DecidableEq, Repr

/-- A STEP_RECONCILE in progress (R224): the entries still to act on (stack, entry), those acted on, the first failure, and the
weight region and epoch that the next one waits for. -/
structure ReconWork where
  todo   : List (Nat × Nat)
  acted  : Nat := 0
  fail   : Option (Nat × Nat) := none
  weight : Option (Nat × Nat) := none
  deriving DecidableEq, Repr

/-- What a command in progress holds beside its packet. -/
inductive Work where
  | none
  | mat  (w : MatWork)
  | coll (w : CollWork)
  | asm  (w : AsmWork)
  | upd  (w : UpdWork)
  | gang (t : Nat) (waiting : List (Nat × Nat)) (since : Nat)   -- a BRAKE with GANG 1: members that have not acknowledged, with their retransmissions (R468)
  | snap (at_ : Nat)                                   -- COUNTER_SNAP: the time of capture (R447)
  | sample (s : Nat)                                   -- DECODE and TOKENIZE: samples done
  | recon (w : ReconWork)                              -- STEP_RECONCILE (R224)
  | acc (lines : Nat)                                  -- ACC_WRITE: lines handed over and not yet added (R73)
  | att (tks : List Nat) (pages : List (List Nat))     -- a paged ATTN_FWD: Tk and the pages pinned of each batch (R181)
  | kv (pages : List Nat) (copied : Option Nat) (len last table : Nat)
    -- KV_APPEND: pages reserved, the page copied on write; LENGTH, the page of the last entry and TABLE_BASE as its issue step found them (R182)
  deriving DecidableEq, Repr

/-- The numerics telemetry registers as a command found them at its issue (R187). -/
structure Ntel where
  scaleBase  : Nat := 0
  scaleCount : Nat := 0
  censusBase : Nat := 0
  layersLog2 : Nat := 0
  uwBase     : Nat := 0
  uwThresh   : Nat := 0
  deriving DecidableEq, Repr

/-- A command from its fetch until HEAD has passed it (R48, R52, R78). -/
structure Cmd where
  ref    : CmdRef
  pkt    : Nat                 -- the packet, little-endian
  len    : Nat                 -- in units of 64 bytes
  phase  : Phase := .decoded
  status : Nat := 0            -- status code (R75)
  detail : Nat := 0
  wrote  : Bool := false       -- has written to a destination: PARTIAL
  notes  : List Nat := []      -- note codes met (R75)
  counts : Tab Counts := []    -- census counts: by format code for decoded elements, 16 + code for converted ones (R190)
  acct   : Acct := {}
  scales : List (Nat × Nat × Nat) := []   -- scale table entries read at issue: index, line 0, exponent array (R189)
  ntel   : Ntel := {}          -- the telemetry registers at issue (R187)
  refs   : List (Nat × Nat × Nat) := []   -- live references: region, weight region, epoch (R216)
  seen   : Nat := 0            -- global time of its decoding
  held   : Bool := false       -- held by a poison hold (R269)
  work   : Work := .none
  deriving DecidableEq, Repr

/-- A save slot that holds a command (R82 to R85, R155). -/
structure Slot where
  ref    : CmdRef
  pkt    : Nat
  len    : Nat
  region : Nat
  brake  : Bool                -- saved at a Brake
  engine : Nat                 -- logical engine of the item saved
  item   : Nat                 -- ITEM of R155
  fl     : NumFlags := {}      -- flags of the item's attempt, which the slot's image does not hold (R111)
  fa     : NumFlags := {}
  rowAcc : Tab Val := []       -- of an abandoned command: its row results so far (R125, R150)
  kept   : Option Nat := none  -- the primary slot of an abandoned command, whose slots stay for a RESUME (R80, R85)
  deriving DecidableEq, Repr

/-- A queue beside its registers (R52, R61, R82). -/
structure QueueSt where
  fetch   : Nat := 0           -- FETCH
  seq     : Nat := 0           -- expected SEQ at FETCH
  rereads : Nat := 0           -- re-reads done since the first failed check
  prior   : Nat := 0           -- state left for FROZEN
  slots   : List (Nat × Slot) := []
  deriving DecidableEq, Repr

/-- A trace ring beside its registers (R457, R458): records gathered and not yet written, oldest first, and whether the next
record written carries LOST. -/
structure TraceRing where
  queued : List Nat := []
  lost   : Bool := false
  deriving DecidableEq, Repr

/-- The limiter of one class C error code and unit (R477): time of its last record, occurrences since. -/
structure Limit where
  at_   : Nat := 0
  count : Nat := 0
  used  : Bool := false
  deriving DecidableEq, Repr

/-- A Brake in force or scheduled, beside OBS_BRAKE (R461 to R469). -/
structure BrakeSt where
  record    : Nat := 0
  start     : Nat := 0             -- T_START
  completed : Nat := 0
  frozen    : Bool := false        -- a Freeze was in force
  issuedBefore : List CmdRef := [] -- commands issued before T
  deriving DecidableEq, Repr

/-- Observability and error reporting beside their registers (R445 to R492). -/
structure Observe where
  rings     : Tab TraceRing := []
  seqs      : Tab Nat := []            -- record count of each unit, modulo 256
  stopTimes : Tab Nat := []            -- by unit ID: the time at which its clock stopped, plus one; 0 while it runs
  brake     : BrakeSt := {}
  frzAt     : Nat := 0                 -- stop time of a Freeze in force
  frzUnits  : List Nat := []           -- units that the Freeze in force has stopped
  head      : List (List Nat) := [[], [], [], []]   -- the error head: per class, newest first
  limits    : Tab Limit := []          -- by 4,096 · code + unit
  numEvent  : Bool := false            -- a flush has written a numerics event (source 21)
  ringed    : List Nat := []           -- RSEQ of the records that the ring has been given (R480)
  txHeld    : List Sent := []       -- frames that wait for the end of a Freeze (R470)
  ringLost  : Bool := false            -- the next record written carries DETAIL[15] bit 0
  katPassed : List Nat := []           -- engines with a passing KAT_RUN since their quarantine
  mbist     : Option (Nat × Nat × Nat) := none     -- BIST in progress: algorithm, channel, die
  deriving DecidableEq, Repr

/-- A die-to-die link (R16, R18): spare lanes in use, whether it carries the width it was trained at, and whether that is half the full
one (R429). -/
structure Link where
  subs : List Nat := []
  full : Bool := true
  half : Bool := false
  deriving DecidableEq, Repr

/-- What the block answered last to the agent that made the access: the block's read data output. -/
inductive Resp where
  | none
  | data (v : Nat)
  | accessFault                         -- R10, R31
  | exception (kind addr : Nat)         -- precise exception of a core: 1 fetch, 2 illegal instruction, 5 load, 7 store
  | nack                                -- PMBus
  | stack (bytes : Nat) (status : Nat)  -- JTAG direct stack read (R491)
  deriving DecidableEq, Repr

end Sys2Proof.Machine
end

