-- ==== Sys2Proof/Config.lean ====
section
/-! DEFINITION. What the spec leaves open or leaves to the device: constants without a body. A claim about the model holds for
every value of them. -/
namespace Sys2Proof.Machine

/-- A free natural number: the `n`-th drawn, for the purpose `what` (log 6). -/
opaque Config.free (what n : Nat) : Nat

/-- The image of built-in table slot 0 to 6, a little-endian number of 8,320 bytes (R165): its coefficients are not printed in
the spec (log 9). -/
opaque Config.tableImage (slot : Nat) : Nat

/-- The bytes of a destination row of a copy whose PERM moves dimension 0 of a format with stored block scales (R71, log 13): a function of
the command's body, the bytes it copies from and the number of the row. -/
opaque Config.movedBlocks (body source row : Nat) : Nat

/-- The priority code point of a frame that is neither PTP nor RoCEv2 nor of a collective (R348, R350): the spec gives none (log 65). -/
opaque Config.otherPcp : Nat

/-- The UDP source port of collective frames: the spec gives none (R372; log 65). -/
opaque Config.collSport : Nat

/-- The fixed delay, in ns, that corrects a port's PTP time stamps in a port mode (R366): the spec gives no number (log 65). -/
opaque Config.ptpDelay (mode : Nat) : Nat

/-- What the published codec standards make of a coded video stream (R316, R317; AV1 before film grain): the spec does not restate their
decoding rules (log 10). -/
opaque Config.decodeVideo (codec stream len : Nat) : VStream

/-- The directory set of a line at its home (R279): the spec does not give the index (log 8). -/
opaque Config.dirSet (line : Nat) : Nat

/-- The device serial in the fuses (R424). -/
opaque Config.serial : Nat

/-- The modulus of the vendor root key in the boot ROM (R424). -/
opaque Config.vendorKey : Nat

/-- Decoding of one block of 255 bits with the BCH(255,131) code of a helper data version (R434): the message, or none where more
than 18 errors are found. The spec does not give the codes (log 32). -/
opaque Config.bchDecode (version word : Nat) : Option Nat

/-- The modulus that the key generation of R435 yields for a seed and a serial (log 32). -/
opaque Config.identityKey (seed serial : Nat) : Nat

/-- KEY_ID of a modulus (R435). -/
opaque Config.keyId (modulus : Nat) : Nat

/-- The modulus of the subject public key of an X.509 certificate (R436): `der`, of `len` bytes. -/
opaque Config.certKey (der len : Nat) : Nat

/-- Whether a paged ATTN_FWD requires the pool's format to be Q's (R181, log 60). -/
opaque Config.pageFmtChecked : Bool

/-- The private exponent of a modulus that R435 yields (log 32). -/
opaque Config.privateExponent (modulus : Nat) : Nat

end Sys2Proof.Machine
end

