-- ==== Sys2Proof/Machine/State.lean ====
section
/-! DEFINITION. The state of the VT8: everything the spec gives it, as plain data, and the state after reset. -/
namespace Sys2Proof.Machine

/-- Memory: the interleaved range, the stack-local apertures, region scratch and the boot SRAM, by physical address (R30), in
canonical form: addresses rising, no entry equal to the byte an unlisted address reads as. -/
abbrev Memory := List Host.Cell

/-- What a byte of memory that nothing has written reads as: zero (DESIGN CHOICE, log 5). -/
def Memory.blank : Byte := 0

/-- What a byte of the flash that nothing has programmed reads as: 0xFF, the erased state (DESIGN CHOICE, log 5). -/
def flashBlank : Byte := 0xFF

/-- The canonical form of memory. -/
abbrev Memory.wf (m : Memory) : Bool := Tab.wf (fun _ => Memory.blank) m

/-- Why a step stops with a fault. -/
inductive Fault where
  /-- Raised by OVER_VOLTAGE beyond the absolute maximum of R495, where the spec says the device may be damaged and gives no
  behaviour. Safe: the model stops where the hardware's state is not given. -/
  | beyondAbsoluteMaximum
  deriving DecidableEq, Repr

/-- Why a step is refused. -/
inductive Refusal where
  /-- Raised by a dispatch arm of a command whose meaning is not written. Safe: nothing is claimed about it. -/
  | notModelled (mnemonic : String)
  deriving DecidableEq, Repr

/-- The state of the block. -/
structure State where
  pending   : List Instr := []              -- commands that wait, first in first out
  regs      : Tab (BitVec 64) := []         -- register file, by `Reg.key`; default: the reset word
  snap      : Tab (BitVec 64) := []         -- snapshot latches (R7), by `Reg.key`
  mem       : Memory := []
  flash     : Memory := []                  -- SPI NOR flash, by offset (R422)
  ecc       : Tab Nat := []                 -- by line: 72-byte difference of the stored burst from the codeword of its data
  time      : Nat := 0                      -- global time base, in ns (R451)
  replicas  : Tab Int := []                 -- offset of each replica from the time base: regions 0–4, stacks 5–36 (R452)
  queues    : Tab QueueSt := []
  lastAt    : Tab Nat := []                 -- last queue served, by 4 · unit + priority level, plus one (R47)
  cmds      : List Cmd := []                -- commands from fetch to the passing of HEAD, in order of their fetch
  engines   : Tab Engine := []
  accs      : Tab AccUnit := []
  vecs      : Tab VecUnit := []
  upds      : Tab UpdUnit := []
  chans     : Tab Chan := []
  stks    : Tab Stack := []
  hoistCh   : Tab HoistChan := []
  hoists    : Tab Hoist := []
  holds     : Tab (Option Hold) := []       -- by 16 · region + slot (R268)
  caches    : Tab CLine := []               -- cached lines, by agent and line (R277, R278)
  dir       : Tab (Option DirEntry) := []   -- directory, by line (R279)
  homes     : Tab Home := []                -- transactions in progress, by line (R281)
  harts     : Tab Hart := []
  imsics    : Tab Imsic := []               -- machine-level files 0–63, supervisor-level files 64–127
  aplic     : Tab AplicSrc := []
  aplicIe   : Nat := 0                      -- domaincfg.IE of the two domains (log 30)
  input     : InputUnits := {}
  ports     : Tab PortSt := []
  nets      : Tab NetSt := []
  coll      : CollUnit := {}
  pwr       : Power := {}
  sec       : Secure := {}
  obs       : Observe := {}
  links     : Tab Link := []
  counters  : Tab Nat := []                 -- always-on (0–52) and compatibility (64–101) counters (R448)
  draws     : Nat := 0                      -- free values drawn so far (the model's own)
  tx        : List Sent := []               -- frames put on the wire, oldest first
  resp      : Resp := .none                 -- last answer to a direct access
  deriving DecidableEq, Repr

/-- The key of a register in the register file: its place among the registers and its instance. -/
def Reg.key (r : Reg) (i : Nat) : Nat := r.ctorIdx * 4096 + i

/-- The state after reset: every register at its reset word, memory and flash with nothing listed, the package running with
software access granted (R11). -/
def State.reset : State := { pwr := { phase := .running, pwrGood := true, vinMv := 36000 } }

end Sys2Proof.Machine
end

