-- ==== Sys2Proof/Machine/Map.lean ====
section
/-! DEFINITION. The unified address space: spec/02_address_space.md, R29 to R40, with the channel hash, frames, and the places
of the register blocks. -/
namespace Sys2Proof.Machine

/-- The register blocks (R37). -/
inductive Blk where
  | devctl | amr | dm | cmdproc | eng | acc | vec | att | ntel | upd | rc | stk | ch | rep | hst | cf | ha | cl | blt | tok | hop | port | netb | neta | gov | sec | obs | test
  deriving DecidableEq, Repr

/-- BLK_TYPE of each block. The spec names no code for the device controller block, whose register map it does not give: 0
(DESIGN CHOICE, log 7). -/
def Blk.type : Blk → Nat
  | .devctl => 0x0000
  | .amr => 0x0002
  | .dm => 0x0024
  | .cmdproc => 0x0010
  | .eng => 0x0020
  | .acc => 0x0021
  | .vec => 0x0022
  | .att => 0x0023
  | .ntel => 0x0031
  | .upd => 0x0040
  | .rc => 0x0025
  | .stk => 0x0050
  | .ch => 0x0051
  | .rep => 0x0052
  | .hst => 0x0053
  | .cf => 0x0060
  | .ha => 0x0061
  | .cl => 0x0070
  | .blt => 0x0080
  | .tok => 0x0081
  | .hop => 0x0082
  | .port => 0x0090
  | .netb => 0x0092
  | .neta => 0x0091
  | .gov => 0x0004
  | .sec => 0x0003
  | .obs => 0x0030
  | .test => 0x0005

/-- The register of a block at a 64-bit aligned offset, and its instance, for unit `i` (register maps of spec/). -/
def Blk.regAt (b : Blk) (i off : Nat) : Option (Reg × Nat) :=
  match b with
  | .devctl => none
  | .amr =>
    match off with
    | 0x8 => some (.AMR_CFG, i)
    | 0x10 => some (.AMR_ILV_TOP, i)
    | 0x18 => some (.AMR_FAULT_STATUS, i)
    | 0x20 => some (.AMR_FAULT_ADDR, i)
    | _ => none
  | .dm =>
    match off with
    | 0x100 => some (.DM_NUMFLAGS, i)
    | _ => none
  | .eng =>
    match off with
    | 0x100 => some (.ENG_NUMFLAGS, i)
    | 0x8 => some (.ENG_STATUS, i)
    | 0x10 => some (.ENG_CTL, i)
    | 0x18 => some (.ENG_ERR_COUNT, i)
    | 0x20 => some (.ENG_ERR_INFO, i)
    | 0x108 => some (.ENG_CYCLES, i)
    | 0x110 => some (.ENG_BUSY, i)
    | 0x28 => some (.MP_ECC, i)
    | 0x30 => some (.MP_SPARE, i)
    | _ => none
  | .acc =>
    match off with
    | 0x8 => some (.ACC_AMAX_BASE, i)
    | 0x10 => some (.SPW_STATUS, i)
    | 0x18 => some (.ACC_ERR_COUNT, i)
    | 0x20 => some (.ACC_ERR_INFO, i)
    | 0x100 => some (.ACC_NUMFLAGS, i)
    | _ => none
  | .vec =>
    match off with
    | 0x8 => some (.VEC_TABLE, i)
    | 0x100 => some (.VEC_NUMFLAGS, i)
    | _ => none
  | .att =>
    match off with
    | 0x8 => some (.PK_POOL, i)
    | 0x10 => some (.PK_COUNTS, i)
    | 0x18 => some (.PK_DROPS, i)
    | 0x100 => some (.ATT_NUMFLAGS, i)
    | _ => none
  | .ntel =>
    match off with
    | 0x8 => some (.NTEL_SCALE, i)
    | 0x10 => some (.NTEL_CENSUS, i)
    | 0x18 => some (.NTEL_UW, i)
    | 0x20 => some (.NTEL_UW_THRESH, i)
    | 0x28 => some (.NTEL_STATUS, i)
    | 0x40 => some (.NTEL_SRT_SEED, i)
    | 0x48 => some (.NTEL_SRT_STEP, i)
    | 0x50 => some (.NTEL_SRT_TID, i)
    | 0x58 => some (.NTEL_SRT_IDX, i)
    | 0x60 => some (.NTEL_SRT_OUT, i)
    | _ => none
  | .upd =>
    match off with
    | 0x8 => some (.UPD_STATUS, i)
    | 0x10 => some (.UPD_CTL, i)
    | 0x18 => some (.UPD_JRNL, i)
    | 0x20 => some (.UPD_JLINE, i)
    | 0x100 => some (.UPD_NUMFLAGS, i)
    | _ => none
  | .rc =>
    match off with
    | 0x200 => some (.RC_WRT, i)
    | 0x208 => some (.RC_WREF_SEL, i)
    | 0x210 => some (.RC_WREF, i)
    | 0x300 => some (.RC_RTAB, i)
    | 0x308 => some (.RC_HOLD_CFG, i)
    | 0x310 => some (.RC_HOLD_CTL, i)
    | 0x318 => some (.RC_HOLD, i)
    | 0x320 => some (.RC_HOLD_UNIT, i)
    | 0x400 => some (.RC_ENGMAP, i)
    | _ => none
  | .stk =>
    match off with
    | 0x8 => some (.STK_THERM, i)
    | 0x10 => some (.STK_THERM_EVT, i)
    | 0x18 => some (.STK_TENT, i)
    | 0x20 => some (.STK_TENT_CFG, i)
    | _ => none
  | .ch =>
    match off with
    | 0x8 => some (.CH_STATE, i)
    | 0x10 => some (.CH_ARB, i)
    | 0x18 => some (.CH_ECC_COUNT, i)
    | 0x20 => some (.CH_ECC_INFO, i)
    | 0x28 => some (.CH_ECC_CFG, i)
    | 0x30 => some (.CH_LANE_MAP, i)
    | 0x38 => some (.CH_SCRUB, i)
    | 0x40 => some (.CH_UE_WINDOW, i)
    | _ => none
  | .rep =>
    match off with
    | 0x8 => some (.REP_CMD, i)
    | 0x10 => some (.REP_STATUS, i)
    | 0x18 => some (.REP_AVAIL, i)
    | _ => none
  | .hst =>
    match off with
    | 0x8 => some (.HST_STATUS, i)
    | 0x10 => some (.HST_MIGRATED, i)
    | 0x18 => some (.HST_MAP, i)
    | _ => none
  | .cf =>
    match off with
    | 0x8 => some (.CF_AGENTS, i)
    | 0x10 => some (.CF_SNP_TIMEOUT, i)
    | 0x18 => some (.CF_FATAL, i)
    | _ => none
  | .ha =>
    match off with
    | 0x8 => some (.HA_SEL, i)
    | 0x10 => some (.HA_DIR, i)
    | 0x18 => some (.HA_BACKINV, i)
    | 0x20 => some (.HA_FORWARD, i)
    | _ => none
  | .blt =>
    match off with
    | 0x8 => some (.BLT_CTL, i)
    | 0x10 => some (.BLT_STATUS, i)
    | 0x18 => some (.BLT_DMG_BASE, i)
    | 0x20 => some (.BLT_DMG_PTR, i)
    | _ => none
  | .tok =>
    match off with
    | 0x8 => some (.TOK_CTL, i)
    | 0x10 => some (.TOK_STATUS, i)
    | _ => none
  | .hop =>
    match off with
    | 0x8 => some (.HOP_BASE, i)
    | 0x10 => some (.HOP_CFG, i)
    | 0x18 => some (.HOP_CTL, i)
    | 0x20 => some (.HOP_STATUS, i)
    | 0x28 => some (.HOP_EVT, i)
    | 0x30 => some (.HOP_STATS, i)
    | _ => none
  | .port =>
    match off with
    | 0x8 => some (.PORT_CFG, i)
    | 0x10 => some (.PORT_MAC, i)
    | 0x18 => some (.PORT_STATUS, i)
    | 0x20 => some (.PORT_FEC_CORR, i)
    | 0x28 => some (.PORT_FEC_TH, i)
    | 0x30 => some (.PORT_PFC, i)
    | 0x38 => some (.PORT_DROPS, i)
    | _ => none
  | .gov =>
    match off with
    | 0x8 => some (.GOV_INPUT, i)
    | 0x10 => some (.GOV_CAP, i)
    | 0x18 => some (.GOV_STATUS, i)
    | 0x20 => some (.GOV_EVT, i)
    | 0x28 => some (.GOV_DOM_CTL, i)
    | 0x30 => some (.GOV_DOM_ON_LO, i)
    | 0x38 => some (.GOV_DOM_ON_HI, i)
    | 0x40 => some (.GOV_DROOP, i)
    | 0x48 => some (.GOV_LG, i)
    | _ => none
  | .sec =>
    match off with
    | 0x8 => some (.SEC_BOOT, i)
    | 0x10 => some (.SEC_BOOT_CTL, i)
    | 0x18 => some (.SEC_ID, i)
    | 0x20 => some (.SEC_IMAGE, i)
    | 0x28 => some (.SEC_MEAS_SEL, i)
    | 0x30 => some (.SEC_MEAS, i)
    | 0x38 => some (.SEC_DEBUG, i)
    | _ => none
  | .test =>
    match off with
    | 0x8 => some (.ERR_RING_BASE, i)
    | 0x10 => some (.ERR_RING_PTR, i)
    | 0x18 => some (.ERR_STATUS, i)
    | 0x20 => some (.TST_MBIST_CTL, i)
    | 0x28 => some (.TST_MBIST_STATUS, i)
    | 0x30 => some (.TST_MBIST_LOG, i)
    | _ => none
  | .cmdproc =>
    if 0x10000 ≤ off ∧ off < 0x20000 then
      let q := (off - 0x10000) / 256
      match off % 256 with
      | 0x0 => some (.Q_RING_BASE, q)
      | 0x8 => some (.Q_STS_BASE, q)
      | 0x10 => some (.Q_CTX_BASE, q)
      | 0x18 => some (.Q_CFG, q)
      | 0x20 => some (.Q_PTR, q)
      | 0x28 => some (.Q_TAIL, q)
      | 0x30 => some (.Q_STATE, q)
      | 0x38 => some (.Q_CTL, q)
      | 0x40 => some (.Q_IRQ, q)
      | _ => none
    else none
  | .cl =>
    if off = 0x8 then some (.CL_DVFS, i) else if off = 0x10 then some (.CL_CTL, i)
    else if 0x100 ≤ off ∧ off < 0x140 then some (.CL_HART_CTL, 8 * i + (off - 0x100) / 8)
    else if 0x200 ≤ off ∧ off < 0x240 then some (.CL_TIMECMP, 8 * i + (off - 0x200) / 8)
    else none
  | .obs =>
    if 0x18 ≤ off ∧ off < 0x40 then some (.OBS_RCYC, (off - 0x18) / 8)
    else if 0x100 ≤ off ∧ off < 0x1A0 then
      match (off - 0x100) % 0x20 with
      | 0x0 => some (.OBS_TRC_BASE, (off - 0x100) / 0x20)
      | 0x8 => some (.OBS_TRC_PTR, (off - 0x100) / 0x20)
      | 0x10 => some (.OBS_TRC_CFG, (off - 0x100) / 0x20)
      | _ => none
    else if 0x200 ≤ off ∧ off < 0x700 then
      if off % 16 = 0 then some (.OBS_PROF_SEL, (off - 0x200) / 16) else some (.OBS_PROF, (off - 0x200) / 16)
    else if 0x1000 ≤ off ∧ off < 0x11A8 then some (.OBS_AON, (off - 0x1000) / 8)
    else if 0x1400 ≤ off ∧ off < 0x1530 then some (.OBS_COMPAT, (off - 0x1400) / 8)
    else match off with
    | 0x8 => some (.OBS_TIME, i)
    | 0x10 => some (.OBS_STATUS, i)
    | 0x40 => some (.OBS_MARK, i)
    | 0x48 => some (.OBS_BRAKE_CFG, i)
    | 0x50 => some (.OBS_BRAKE, i)
    | 0x58 => some (.OBS_BRAKE_T, i)
    | 0x60 => some (.OBS_FRZ, i)
    | 0x68 => some (.OBS_ACCT, i)
    | _ => none
  | .neta =>
    match off with
    | 0x8 => some (.NET_CFG, 0)
    | 0x10 => some (.NET_VC_MAP, 0)
    | 0x18 => some (.NET_IPV4, 0)
    | 0x20 => some (.NET_IPV6_LO, 0)
    | 0x28 => some (.NET_IPV6_HI, 0)
    | 0x30 => some (.NET_MR, 0)
    | 0x38 => some (.NET_QPT, 0)
    | 0x40 => some (.NET_DB, 0)
    | 0x48 => some (.NET_DROPS, 0)
    | 0x200 => some (.CT_CFG, 0)
    | 0x208 => some (.CT_STAGING, 0)
    | 0x210 => some (.CT_STATUS, 0)
    | 0x218 => some (.CT_SLOG_BASE, 0)
    | 0x220 => some (.CT_SLOG_PTR, 0)
    | 0x228 => some (.CT_ERR, 0)
    | 0x230 => some (.CT_PHASE, 0)
    | 0x238 => some (.CT_MAP, 0)
    | _ => none
  | .netb =>
    match off with
    | 0x8 => some (.NET_CFG, 1)
    | 0x10 => some (.NET_VC_MAP, 1)
    | 0x18 => some (.NET_IPV4, 1)
    | 0x20 => some (.NET_IPV6_LO, 1)
    | 0x28 => some (.NET_IPV6_HI, 1)
    | 0x30 => some (.NET_MR, 1)
    | 0x38 => some (.NET_QPT, 1)
    | 0x40 => some (.NET_DB, 1)
    | 0x48 => some (.NET_DROPS, 1)
    | 0x100 => some (.NET_TIME_CFG, 0)
    | 0x108 => some (.NET_TIME_ADJ, 0)
    | 0x110 => some (.NET_TIME_STEP, 0)
    | 0x118 => some (.NET_TIME_STAT, 0)
    | 0x120 => some (.NET_PPS_IN, 0)
    | _ => none

/-- Local share L in GiB (R29). -/
def State.localGib (s : State) : Nat :=
  bits (Tab.get (Reg.AMR_CFG.resetWord 0) s.regs (Reg.AMR_CFG.key 0)).toNat 4 0

def gib : Nat := 0x40000000

/-- First address above the interleaved range, for a local share L (R30). -/
def ilvTop (l : Nat) : Nat := 32 * (56 - l) * gib

def aptBase : Nat := 0x400000000000
def aptPitch : Nat := 0x4000000000
def scratchBase (q : Nat) : Nat := 0x710000000000 + q * 0x1000000000 + 0x800000000
def scratchSize : Nat := 160 * 0x100000

/-- The ranges of the physical map (R30). -/
inductive Range where
  | ilv
  | apt (s : Nat)
  | hub (off : Nat)
  | region (q off : Nat)
  | scratch (q : Nat)
  | doorbell (q off : Nat)
  | rom
  | sram
  | none
  deriving DecidableEq, Repr

/-- The range a physical address lies in. -/
def rangeOf (l pa : Nat) : Range :=
  if pa < ilvTop l then .ilv
  else if pa < aptBase then .none
  else if pa < aptBase + 32 * aptPitch then
    let s := (pa - aptBase) / aptPitch
    if pa - aptBase - s * aptPitch < l * gib then .apt s else .none
  else if pa < 0x700000000000 then .none
  else if pa < 0x710000000000 then .hub (pa - 0x700000000000)
  else if pa < 0x714000000000 then
    let q := (pa - 0x710000000000) / 0x1000000000
    let o := (pa - 0x710000000000) % 0x1000000000
    if 0x800000000 ≤ o ∧ o < 0x800000000 + scratchSize then .scratch q else .region q o
  else if 0x780000000000 ≤ pa ∧ pa < 0x780000100000 then .doorbell ((pa - 0x780000000000) / 4096) (pa % 4096)
  else if 0x7F0000000000 ≤ pa ∧ pa < 0x7F0000040000 then .rom
  else if 0x7F0001000000 ≤ pa ∧ pa < 0x7F0001400000 then .sram
  else .none

/-- First address past the populated part of the range that holds `pa` (R43). -/
def rangeEnd (l pa : Nat) : Nat :=
  match rangeOf l pa with
  | .ilv => ilvTop l
  | .apt s => aptBase + s * aptPitch + l * gib
  | .scratch q => scratchBase q + scratchSize
  | .doorbell _ _ => 0x780000100000
  | .rom => 0x7F0000040000
  | .sram => 0x7F0001400000
  | .hub _ => 0x710000000000
  | .region q _ => 0x710000000000 + (q + 1) * 0x1000000000
  | .none => pa

/-- The blocks of the hub window and of a region window, with their unit: block, unit, offset in the block (R37). -/
def hubBlock (off : Nat) : Option (Blk × Nat × Nat) :=
  let o := off % 0x100000
  match off / 0x100000 with
  | 0x00 => some (.devctl, 0, o)
  | 0x01 => some (.sec, 0, o)
  | 0x02 => some (.gov, 0, o)
  | 0x03 => if o < 0x80000 then some (.obs, 0, o) else some (.ntel, 0, o - 0x80000)
  | 0x04 => some (.test, 0, o)
  | 0x05 => some (.amr, 0, o)
  | 0x20 => some (.cf, 0, o)
  | 0x30 => some (.cmdproc, 0, o)
  | 0x50 => some (.neta, 0, o)
  | 0x51 => some (.netb, 0, o)
  | 0x60 => some (.blt, 0, o)
  | 0x61 => some (.tok, 0, o)
  | 0x62 => some (.hop, 0, o)
  | 0x70 => some (.dm, 8, o)
  | n =>
    if 0x10 ≤ n ∧ n < 0x18 then some (.cl, n - 0x10, o)
    else if 0x40 ≤ n ∧ n < 0x48 then some (.port, n - 0x40, o)
    else none

def regionBlock (q off : Nat) : Option (Blk × Nat × Nat) :=
  if off < 0x2000000 then
    let o := off % 0x100000
    match off / 0x100000 with
    | 0x00 => some (.rc, q, o)
    | 0x10 => some (.acc, q, o)
    | 0x11 => some (.vec, q, o)
    | 0x12 => some (.att, q, o)
    | 0x13 => some (.dm, q, o)
    | 0x14 => some (.ha, q, o)
    | n => if 1 ≤ n ∧ n < 5 then some (.eng, 4 * q + (n - 1), o) else none
  else if off < 0xA000000 then
    let st := 8 * q + (off - 0x2000000) / 0x1000000
    let o := off % 0x1000000
    match o / 0x100000 with
    | 0 => some (.stk, st, o)
    | 1 => some (.ch, 16 * st + (o - 0x100000) / 0x10000, o % 0x10000)
    | 2 => some (.hst, st, o - 0x200000)
    | 3 => some (.upd, st, o - 0x300000)
    | 4 => some (.rep, st, o - 0x400000)
    | _ => none
  else none

/-- What an address of a register window names. -/
inductive Slotted where
  | blkId (b : Blk) (i : Nat)
  | reg (r : Reg) (i : Nat)
  | imsic (file off : Nat)
  | aplic (dom off : Nat)
  | unlisted                -- inside a listed block slot, at an offset its map does not list (R10)
  | unpopulated
  deriving DecidableEq, Repr

/-- The register, identification word or interrupt controller that holds the 64-bit word of an address. -/
def slotAt (l pa : Nat) : Slotted :=
  let ofBlk (x : Option (Blk × Nat × Nat)) : Slotted :=
    match x with
    | none => .unpopulated
    | some (b, i, o) =>
      let w := o - o % 8
      if w = 0 then .blkId b i
      else match b.regAt i w with
        | some (r, j) => .reg r j
        | none => .unlisted
  match rangeOf l pa with
  | .hub off =>
    if 0x8000000 ≤ off ∧ off < 0x8040000 then .imsic ((off - 0x8000000) / 4096) (off % 4096)
    else if 0x9000000 ≤ off ∧ off < 0x9040000 then .imsic (64 + (off - 0x9000000) / 4096) (off % 4096)
    else if 0xA000000 ≤ off ∧ off < 0xA020000 then .aplic ((off - 0xA000000) / 0x10000) (off % 0x10000)
    else ofBlk (hubBlock off)
  | .region q off => ofBlk (regionBlock q off)
  | _ => .unpopulated

/-- BLK_ID of a block (R12). INSTANCE of a block whose unit has a global index or a region code is that number. -/
def blkIdWord (b : Blk) (i : Nat) : BitVec 64 :=
  BitVec.ofNat 64 (i <<< 48 + b.type <<< 32 + 0x01 <<< 24 + 0x01 <<< 16)

/-- A byte of the memory of the stacks: its global channel and channel offset. -/
structure ChAddr where
  gch   : Nat
  choff : Nat
  deriving DecidableEq, Repr

/-- The channel hash of R32. -/
def hashFold (i : Nat) : Nat := bits i 8 0 ^^^ bits i 17 9 ^^^ bits i 26 18

/-- Forward address decode (R32, R34): none outside the two stack ranges. -/
def chanOf (l pa : Nat) : Option ChAddr :=
  match rangeOf l pa with
  | .ilv =>
    let g := pa >>> 8
    let i := g >>> 9
    some ⟨bits g 8 0 ^^^ hashFold i, i <<< 8 + pa % 256⟩
  | .apt s =>
    let o := pa - (aptBase + s * aptPitch)
    let h := o >>> 8
    some ⟨16 * s + h % 16, (56 - l) * 0x4000000 + (h >>> 4) <<< 8 + o % 256⟩
  | _ => none

/-- Inverse of `chanOf` (R32, R34). -/
def paOf (l : Nat) (c : ChAddr) : Nat :=
  let bound := (56 - l) * 0x4000000
  if c.choff < bound then
    let i := c.choff >>> 8
    (i <<< 9 + (c.gch ^^^ hashFold i) % 512) <<< 8 + c.choff % 256
  else
    aptBase + c.gch / 16 * aptPitch
      + ((c.choff - bound) >>> 8) <<< 12 + (c.gch % 16) <<< 8 + c.choff % 256

/-- Frame number of a channel byte (R35). -/
def ChAddr.frame (c : ChAddr) : Nat := c.choff >>> 16

/-- Base address of the hoist unit that an address lies in: 32 MiB of the interleaved range, 1 MiB of an aperture (R35, R36). -/
def hoistUnit (l pa : Nat) : Nat :=
  match rangeOf l pa with
  | .ilv => pa - pa % 0x2000000
  | .apt s => let b := aptBase + s * aptPitch; pa - (pa - b) % 0x100000
  | _ => pa

/-- Bytes of a hoist unit. -/
def hoistUnitSize (l pa : Nat) : Nat :=
  match rangeOf l pa with
  | .apt _ => 0x100000
  | _ => 0x2000000

end Sys2Proof.Machine
end

