-- ==== Sys2Proof/Machine/Rs.lean ====
section
/-! DEFINITION. The symbol code of a burst, RS(72,64) over GF(2^8): spec/10_memory_stacks.md, R234 to R236. A burst is a
number of 72 bytes, symbol j in byte j. Since the code is linear, a decoder sees only the difference of what is stored from a
codeword. -/
namespace Sys2Proof.Machine
namespace Rs

/-- Multiplication by α = 0x02 modulo 0x11D (R235). -/
def xtime (a : Nat) : Nat := if a < 128 then 2 * a else (2 * a) ^^^ 0x11D

/-- Product in the field; `fuel` is the number of bits of the second factor. -/
def mulGo (a b : Nat) : Nat → Nat
  | 0 => 0
  | n + 1 => (if b % 2 = 1 then a else 0) ^^^ mulGo (xtime a) (b / 2) n

def mul (a b : Nat) : Nat := mulGo a b 8

/-- `a^n`. -/
def pow (a : Nat) : Nat → Nat
  | 0 => 1
  | n + 1 => mul a (pow a n)

/-- Inverse: `a^254`. -/
def inv (a : Nat) : Nat :=
  let a2 := mul a a; let a3 := mul a2 a; let a6 := mul a3 a3; let a12 := mul a6 a6; let a15 := mul a12 a3
  let a30 := mul a15 a15; let a60 := mul a30 a30; let a120 := mul a60 a60; let a240 := mul a120 a120
  mul (mul a240 a12) a2

/-- Symbol `j` of a burst. -/
def sym (x j : Nat) : Nat := (x >>> (8 * j)) % 256

/-- The remainder register after symbol `s`: division by g(x), highest coefficient first. -/
def genCoeffs : List Nat := [255, 11, 81, 54, 239, 173, 200, 24]

/-- One step of the division by g(x): the register holds eight coefficients, highest first. -/
def divStep (reg : List Nat) (s : Nat) : List Nat :=
  let f := s ^^^ reg.headD 0
  (List.zip (reg.drop 1 ++ [0]) genCoeffs).map (fun p => p.1 ^^^ mul f p.2)

/-- The eight check bytes of 64 data bytes, check byte 0 first (R235). -/
def checks (data : Nat) : List Nat :=
  (List.range 64).foldl (fun r j => divStep r (sym data j)) (List.replicate 8 0)

/-- The 72 bytes of a burst as written (R234, R235). -/
def encode (data : Nat) : Nat :=
  data % 2 ^ 512 + ((checks data).zipIdx.foldl (fun a p => a + p.1 <<< (8 * p.2)) 0) <<< 512

/-- Locator of symbol `j`: α^(71 − j). -/
def loc (j : Nat) : Nat := pow 2 (71 - j)

/-- The value of a burst, or of a difference, at a field element: Horner from symbol 0. -/
def evalAt (e x : Nat) : Nat := (List.range 72).foldl (fun a j => mul a x ^^^ sym e j) 0

/-- The syndromes at α^0 to α^7. -/
def syndromes (e : Nat) : List Nat := (List.range 8).map (fun i => evalAt e (pow 2 i))

/-- Coefficients, lowest first: product with `1 − c·x`. -/
def mulLin (p : List Nat) (c : Nat) : List Nat :=
  (List.zip (p ++ [0]) (0 :: p)).map (fun q => q.1 ^^^ mul c q.2)

/-- Value of a polynomial, coefficients lowest first. -/
def evalPoly (p : List Nat) (x : Nat) : Nat := p.foldr (fun c a => c ^^^ mul x a) 0

/-- Sum of two polynomials. -/
def addPoly : List Nat → List Nat → List Nat
  | [], q => q
  | p, [] => p
  | a :: p, b :: q => (a ^^^ b) :: addPoly p q

/-- The state of the locator search. -/
structure Bm where
  lam : List Nat
  b   : List Nat
  l   : Nat

/-- One step of the search for the error locator, with `f` erasures, at step `r` (1 to 8). -/
def bmStep (s : List Nat) (f : Nat) (st : Bm) (r : Nat) : Bm :=
  let d := (List.range (r)).foldl (fun a j => a ^^^ mul (st.lam.getD j 0) (s.getD (r - 1 - j) 0)) 0
  let xb := 0 :: st.b
  if d = 0 then { st with b := xb }
  else
    let t := addPoly st.lam (xb.map (mul d))
    if 2 * st.l ≤ r + f - 1 then { lam := t, b := st.lam.map (mul (inv d)), l := r + f - st.l }
    else { lam := t, b := xb, l := st.l }

/-- What a read of a burst finds (R236, R238). -/
inductive Result where
  | clean
  | corrected (pattern : Nat)     -- the error pattern found
  | uncorrectable
  | poison
  deriving DecidableEq, Repr

/-- The poison pattern: each check byte XORed with 0xA5 (R238). -/
def poisonPattern : Nat := 0xA5A5A5A5A5A5A5A5 <<< 512

/-- The error pattern that explains the syndromes within `2e + f ≤ 8`, if there is one. -/
def solve (s : List Nat) (erased : List Nat) : Option Nat :=
  let f := erased.length
  let gam := erased.foldl (fun p j => mulLin p (loc j)) [1]
  let st := ((List.range (8 - f)).map (· + f + 1)).foldl (bmStep s f) { lam := gam, b := gam, l := f }
  let roots := (List.range 72).filter (fun j => evalPoly st.lam (inv (loc j)) = 0)
  let om := (List.range 8).map (fun i => (List.range (i + 1)).foldl (fun a j => a ^^^ mul (st.lam.getD j 0) (s.getD (i - j) 0)) 0)
  let der (x : Nat) : Nat := (List.range st.lam.length).foldl
    (fun a i => if i % 2 = 1 then a ^^^ mul (st.lam.getD i 0) (pow x (i - 1)) else a) 0
  let pat := roots.foldl (fun a j =>
    let x := loc j; let xi := inv x
    a + (mul x (mul (evalPoly om xi) (inv (der xi)))) <<< (8 * j)) 0
  let errs := (roots.filter (fun j => !erased.contains j ∧ sym pat j ≠ 0)).length
  if syndromes pat = s ∧ 2 * errs + f ≤ 8 then some pat else none

/-- The decoder of R236 on the difference `e` of a stored burst from a codeword, with the symbols of an erased lane. -/
def decode (e : Nat) (erased : List Nat) : Result :=
  let s := syndromes e
  if s = List.replicate 8 0 then .clean
  else if s = syndromes poisonPattern then .poison
  else match solve s erased with
    | some p => .corrected p
    | none => .uncorrectable

/-- The two symbols that lane `l` carries (R234). -/
def laneSyms (l : Nat) : List Nat := if l < 32 then [l, l + 32] else [64 + (l - 32), 68 + (l - 32)]

/-- The lane that carries symbol `j`. -/
def symLane (j : Nat) : Nat := if j < 64 then j % 32 else 32 + (j - 64) % 4

end Rs
end Sys2Proof.Machine
end

