-- ==== Sys2Proof/Machine/Ops.lean ====
section
/-! DEFINITION. The named operations over registers, memory, caches, interrupts, trace rings and error records that every
meaning is written with. -/
namespace Sys2Proof.Machine

/-! ## Free values -/

/-- A free natural number for the purpose `what`, and the state with the draw counted (log 6). -/
def State.draw (s : State) (what : Nat) : Nat × State := (Config.free what s.draws, { s with draws := s.draws + 1 })

/-! ## Registers (R6) -/

/-- The word stored for a register. -/
def State.getR (s : State) (r : Reg) (i : Nat) : BitVec 64 := Tab.get (r.resetWord i) s.regs (r.key i)

/-- The state with a register's word replaced. -/
def State.setR (s : State) (r : Reg) (i : Nat) (w : BitVec 64) : State :=
  { s with regs := Tab.set (r.resetWord i) s.regs (r.key i) w }

/-- A field of a register. -/
def State.fld (s : State) (f : Fld) (i : Nat) : Nat := bits (s.getR f.reg i).toNat f.hi f.lo

/-- A one-bit field. -/
def State.flag (s : State) (f : Fld) (i : Nat) : Bool := s.fld f i ≠ 0

/-- The state with a field replaced by the low bits of `v`. -/
def State.setFld (s : State) (f : Fld) (i v : Nat) : State :=
  s.setR f.reg i (BitVec.ofNat 64 (setBits (s.getR f.reg i).toNat f.hi f.lo v))

/-- The largest value of a field. -/
def Fld.top (f : Fld) : Nat := 2 ^ (f.hi + 1 - f.lo) - 1

/-- A saturating counter field raised by `n` (R445). -/
def State.incSat (s : State) (f : Fld) (i n : Nat) : State := s.setFld f i (satAdd (s.fld f i) n f.top)

/-- A wrapping counter field raised by `n` (R445). -/
def State.incWrap (s : State) (f : Fld) (i n : Nat) : State := s.setFld f i (s.fld f i + n)

/-- Sets the sticky numeric flags of a unit (R110, R111): flag bits [3:0] of its NUMFLAGS register. -/
def State.orFlags (s : State) (r : Reg) (i : Nat) (fl : NumFlags) : State :=
  s.setR r i (s.getR r i ||| BitVec.ofNat 64 fl.toNat)

/-! ## Memory -/

/-- Line of an address. -/
def lineOf (pa : Nat) : Nat := pa / 64

/-- The key of an agent's cached line. -/
def cacheKey (k line : Nat) : Nat := k * 2 ^ 42 + line

/-- A byte as the stacks hold it. -/
def State.rawByte (s : State) (pa : Nat) : Nat := (Tab.get Memory.blank s.mem pa).toNat

/-- The byte stored at an address, written without any side effect. -/
def State.setByte (s : State) (pa : Nat) (b : Nat) : State :=
  { s with mem := Tab.set Memory.blank s.mem pa (BitVec.ofNat 8 b) }

/-- `n` bytes from `pa`, little-endian, as the stacks hold them. -/
def State.rawMem (s : State) (pa n : Nat) : Nat :=
  (List.range n).foldr (fun k acc => s.rawByte (pa + k) + 256 * acc) 0

/-- `n` bytes from `pa` written into the stacks. -/
def State.putRaw (s : State) (pa : Nat) (v : Nat) : Nat → State
  | 0 => s
  | n + 1 => State.putRaw (s.setByte pa (v % 256)) (pa + 1) (v >>> 8) n

/-- A caching agent's copy of a line. -/
def State.copyOf (s : State) (k line : Nat) : CLine := Tab.get {} s.caches (cacheKey k line)

/-- The copy of a line in one of the states `p`, if an agent holds one. -/
def State.copyIn (s : State) (line : Nat) (p : LineState → Bool) : Option (Nat × CLine) :=
  if s.caches.isEmpty then none
  else (List.range 13).findSome? (fun k => if p (s.copyOf k line).st then some (k, s.copyOf k line) else none)

def LineState.dirty : LineState → Bool
  | .o | .m => true
  | _ => false

/-- Whether a state makes its holder the line's owner (R282). -/
def LineState.owns : LineState → Bool
  | .e | .o | .m => true
  | _ => false

/-- The dirty copy of a line, if an agent holds one (R278: M or O). -/
def State.dirtyCopy (s : State) (line : Nat) : Option (Nat × CLine) := s.copyIn line LineState.dirty

/-- The owner's copy of a line: E, O or M (R282). -/
def State.ownerCopy (s : State) (line : Nat) : Option (Nat × CLine) := s.copyIn line LineState.owns

def State.home (s : State) (line : Nat) : Home := Tab.get {} s.homes line
def State.setHome (s : State) (line : Nat) (x : Home) : State := { s with homes := Tab.set {} s.homes line x }

/-- Data that the transaction in progress on a line has taken from an owner and not yet passed on: the line's value, which no cache
and perhaps not memory holds (R281). -/
def State.collected (s : State) (line : Nat) : Option (Nat × Bool) :=
  match (s.home line).txn with
  | some t => if t.granted then none else t.data
  | none => none

/-- The collected data of a line is replaced by memory: a request that is ordered before the transaction has written the line. -/
def State.dropCollected (s : State) (line : Nat) : State :=
  match (s.home line).txn with
  | some t =>
    if t.granted ∨ t.data = none then s
    else s.setHome line { s.home line with txn := some { t with data := none, dirty := false } }
  | none => s

/-- Whether a spare DQ carries a lane of a channel (R253). -/
def State.laneSub (s : State) (gch lane : Nat) : Bool :=
  (s.flag F.CH_LANE_MAP_SUB0_EN gch && decide (s.fld F.CH_LANE_MAP_SUB0_LANE gch = lane))
    || (s.flag F.CH_LANE_MAP_SUB1_EN gch && decide (s.fld F.CH_LANE_MAP_SUB1_LANE gch = lane))

/-- Symbols of the lane that a channel marks for erasure; a marking on a substituted lane has no effect (R253). -/
def State.erasures (s : State) (gch : Nat) : List Nat :=
  let lane := s.fld F.CH_LANE_MAP_ERASE_LANE gch
  if s.flag F.CH_LANE_MAP_ERASE_EN gch ∧ ¬ s.laneSub gch lane then Rs.laneSyms lane else []

/-- What the code finds in the stored burst of a line (R236). -/
def State.burst (s : State) (line : Nat) : Rs.Result :=
  match Tab.find s.ecc line with
  | none => .clean
  | some e =>
    let er := match chanOf s.localGib (64 * line) with
      | some c => s.erasures c.gch
      | none => []
    Rs.decode e er

/-- The 64 data bytes that a read of the stored burst delivers: corrected, or as read. -/
def State.burstData (s : State) (line : Nat) : Nat :=
  let d := s.rawMem (64 * line) 64
  match Tab.find s.ecc line with
  | none => d
  | some e =>
    match s.burst line with
    | .corrected p => d ^^^ ((e ^^^ p) % 2 ^ 512)
    | _ => d ^^^ (e % 2 ^ 512)

/-- The 64 bytes that memory holds for a line, and whether they are poisoned. -/
def State.memLine (s : State) (line : Nat) : Nat × Bool :=
  (s.burstData line, match s.burst line with | .poison => true | .uncorrectable => true | _ => false)

/-- The line as a coherent read finds it, and whether it is poisoned (R282, R287): an owner's copy stands before memory, and so does
what the transaction in progress has taken from one. -/
def State.readLine (s : State) (line : Nat) : Nat × Bool :=
  match s.ownerCopy line with
  | some (_, c) => (c.data, c.poison)
  | none => (s.collected line).getD (s.memLine line)

/-- Whether memory holds every line as written: no stored burst differs from its codeword, no line is cached, no home is busy. -/
abbrev State.plain (s : State) : Prop := s.ecc.isEmpty ∧ s.caches.isEmpty ∧ s.homes.isEmpty

/-- Whether a coherent read of a line meets poison. -/
def State.badLine (s : State) (line : Nat) : Bool := (s.readLine line).2

/-- The first line of a span that reads poisoned. -/
def State.badIn (s : State) (pa n : Nat) : Option Nat :=
  if n = 0 ∨ s.plain then none
  else ((List.range (lineOf (pa + n - 1) + 1 - lineOf pa)).map (· + lineOf pa)).find? s.badLine

/-- One byte as a coherent read finds it. -/
def State.byteAt (s : State) (pa : Nat) : Nat :=
  if s.plain then s.rawByte pa
  else le (s.readLine (lineOf pa)).1 (pa % 64) 1

/-- `n` bytes from `pa`, little-endian, as a coherent read finds them. -/
def State.readMem (s : State) (pa n : Nat) : Nat :=
  (List.range n).foldr (fun k acc => s.byteAt (pa + k) + 256 * acc) 0

/-- Removes every cached copy of a line and its directory entry (R285). -/
def State.dropCopies (s : State) (line : Nat) : State :=
  let s := s.dropCollected line
  if s.caches.isEmpty ∧ s.dir.isEmpty then s
  else
    { s with caches := (List.range 13).foldl (fun t k => Tab.erase t (cacheKey k line)) s.caches,
             dir := Tab.erase s.dir line }

/-- The stored burst of a line set to 64 data bytes with a fresh codeword, or poisoned (R238, R239, R287). -/
def State.storeLine (s : State) (line data : Nat) (poison : Bool) : State :=
  let t := s.putRaw (64 * line) data 64
  { t with ecc := if poison then Tab.set 0 t.ecc line Rs.poisonPattern else Tab.erase t.ecc line }

/-- The byte mask of `n` bytes from byte `off` of a line. -/
def maskOf (off n : Nat) : Nat := (2 ^ n - 1) <<< off

/-- A line with the bytes of a mask replaced; the mask has one bit a byte. -/
def mergeBytes (old new mask : Nat) : Nat → Nat → Nat
  | 0, _ => 0
  | n + 1, k => ((if mask.testBit k then le new k 1 else le old k 1) <<< (8 * k)) + mergeBytes old new mask n (k + 1)

/-- A write of masked bytes of one line at its home (R239, R285): every cached copy goes, dirty data joining first unless the
write covers the line; a merge into a poisoned line is not applied. -/
def State.writeLine (s : State) (line mask data : Nat) : State :=
  if mask = 2 ^ 64 - 1 then (s.dropCopies line).storeLine line data false
  else
    let (old, bad) := s.readLine line
    let t := s.dropCopies line
    if bad then t.storeLine line old true
    else if s.plain then
      (List.range 64).foldl (fun u k => if mask.testBit k then u.setByte (64 * line + k) (le data k 1) else u) t
    else t.storeLine line (mergeBytes old data mask 64 0) false

/-- A whole line written at its home (R285, R239). -/
def State.putLine (s : State) (line data : Nat) : State := (s.dropCopies line).storeLine line data false

/-- `n` bytes written at `pa`, line by line; `fuel` bounds the lines. Merges into poisoned lines are not applied. -/
def State.putGo (s : State) (pa v n : Nat) : Nat → State
  | 0 => s
  | fuel + 1 =>
    if n = 0 then s
    else
      let off := pa % 64
      let k := min n (64 - off)
      State.putGo (s.writeLine (lineOf pa) (maskOf off k) ((v % 2 ^ (8 * k)) <<< (8 * off))) (pa + k) (v >>> (8 * k)) (n - k) fuel

/-- `n` bytes written at `pa`. -/
def State.putMem (s : State) (pa v n : Nat) : State := s.putGo pa v n (n + 1)

/-- `n` bytes from `pa` written with zeros, `pa` and `n` multiples of 64. -/
def State.zeroMem (s : State) (pa n : Nat) : State :=
  if s.plain ∧ Memory.blank = 0#8 then { s with mem := s.mem.filter (fun p => p.1 < pa ∨ pa + n ≤ p.1) }
  else (List.range (n / 64)).foldl (fun (t : State) k => t.putLine (lineOf pa + k) 0) s

/-! ## Time (R451, R452) -/

/-- The time base as the replica of region `r` (0 to 3, or 4 for H) shows it. -/
def State.now (s : State) (r : Nat) : Nat := ((s.time : Int) + Tab.get 0 s.replicas r).toNat

/-- Ring and replica number of a region code. -/
def ringOf (region : Nat) : Nat := if region < 4 then region else 4

/-! ## Message-signaled interrupts (R313, R314) -/

/-- An MSI to an IMSIC file: 0 to 63 machine level, 64 to 127 supervisor level. Identities 1 to 2,047 exist (R312). -/
def State.msi (s : State) (file eiid : Nat) : State :=
  if 1 ≤ eiid ∧ eiid ≤ 2047 then
    let f := Tab.get {} s.imsics file
    { s with imsics := Tab.set {} s.imsics file { f with pend := f.pend ||| 2 ^ eiid } }
  else s

/-- The level of an APLIC source (R314). Sources 12 to 19 hold the change of a port until software clears it. -/
def State.source (s : State) (n : Nat) : Bool :=
  match n with
  | 1 => s.fld F.ERR_RING_PTR_PROD 0 ≠ s.fld F.ERR_RING_PTR_CONS 0
  | 2 => s.flag F.HOP_EVT_LOW 0
  | 3 => (List.range 32).any (fun k => (s.getR .STK_THERM_EVT k).toNat ≠ 0)
  | 4 => (s.getR .GOV_EVT 0).toNat ≠ 0
  | 5 => s.fld F.OBS_BRAKE_STATE 0 = 3
  | 6 => (List.range 5).any (fun r =>
      s.fld F.OBS_TRC_BASE_MODE r = 1 ∧ s.fld F.OBS_TRC_CFG_THRESH r ≠ 0 ∧
      s.fld F.OBS_TRC_CFG_THRESH r ≤ (s.fld F.OBS_TRC_PTR_PROD r + 2 ^ 25 - s.fld F.OBS_TRC_PTR_CONS r) % 2 ^ 25)
  | 7 => s.flag F.AMR_FAULT_STATUS_VALID 0
  | 8 => (List.range 16).any (fun k => match Tab.get none s.holds k with | some h => h.state = 3 | none => false)
  | 9 => (List.range 16).any (fun k => match Tab.get none s.holds (16 + k) with | some h => h.state = 3 | none => false)
  | 10 => (List.range 16).any (fun k => match Tab.get none s.holds (32 + k) with | some h => h.state = 3 | none => false)
  | 11 => (List.range 16).any (fun k => match Tab.get none s.holds (48 + k) with | some h => h.state = 3 | none => false)
  | 20 => s.fld F.CT_SLOG_PTR_PROD 0 ≠ s.fld F.CT_SLOG_PTR_CONS 0
  | n => if 12 ≤ n ∧ n ≤ 19 then (Tab.get ({} : PortSt) s.ports (n - 12)).changed
         else n = 21 ∧ s.obs.numEvent

/-- An APLIC source has risen: its MSI is sent where the source is enabled and its domain sends interrupts; else it is pending. -/
def State.aplicRaise (s : State) (n : Nat) : State :=
  let a := Tab.get ({} : AplicSrc) s.aplic n
  if a.sm ≠ 6 then s
  else if a.enable ∧ s.aplicIe.testBit (b2n a.super) then s.msi ((if a.super then 64 else 0) + a.hart) a.eiid
  else { s with aplic := Tab.set {} s.aplic n { a with pend := true } }

/-- Raises an APLIC source that has risen since `old` (R314). -/
def State.wire (s old : State) (n : Nat) : State := if s.source n ∧ ¬ old.source n then s.aplicRaise n else s

/-! ## Unit codes (R455) -/

/-- Unit ID: region code in [11:8], unit code in [7:0]. -/
def unitId (region code : Nat) : Nat := region * 256 + code

def unitEngine (g : Nat) : Nat := unitId (g / 4) (g % 4)
def unitAcc (q : Nat) : Nat := unitId q 0x04
def unitVec (q : Nat) : Nat := unitId q 0x05
def unitAtt (q : Nat) : Nat := unitId q 0x06
/-- The data mover instance of a region code. -/
def unitMover (region : Nat) : Nat := if region < 4 then unitId region 0x07 else unitId 8 0x4A
/-- The controller of a region code: region controller, or device controller. -/
def unitCtl (region : Nat) : Nat := if region < 4 then unitId region 0x08 else unitId 8 0x48
def unitFabric (q : Nat) : Nat := unitId q 0x09
def unitStack (st : Nat) : Nat := unitId (st / 8) (0x10 + st % 8)
def unitUpd (st : Nat) : Nat := unitId (st / 8) (0x18 + st % 8)
def unitChan (g : Nat) : Nat := unitId (g / 128) (0x20 + g % 128)
def unitHart (h : Nat) : Nat := unitId 8 h
def unitL3 (k : Nat) : Nat := unitId 8 (0x40 + k)
def unitCmdProc : Nat := unitId 8 0x49
def unitBolter : Nat := unitId 8 0x4B
def unitTok : Nat := unitId 8 0x4C
def unitHopper : Nat := unitId 8 0x4D
def unitNet (n : Nat) : Nat := unitId 8 (0x4E + n)
def unitPort (p : Nat) : Nat := unitId 8 (0x50 + p)
def unitGov : Nat := unitId 8 0x58
def unitSec : Nat := unitId 8 0x59
def unitTime : Nat := unitId 8 0x5A
def unitTest : Nat := unitId 8 0x5B
def unitAmr : Nat := unitId 8 0x5C
def unitHubFabric : Nat := unitId 8 0x5D

/-- Unit ID of a direct agent. -/
def Agent.unit : Agent → Nat
  | .hart h => unitHart h.val
  | .devctl => unitCtl 8
  | .rgnctl r => unitCtl r.val
  | .netA => unitNet 0
  | .netB => unitNet 1
  | .debug | .ijtag => unitTest

/-- Whether an agent is firmware, or has its rights (R23, R490). -/
def Agent.firmware : Agent → Bool
  | .devctl | .rgnctl _ | .ijtag => true
  | _ => false

/-- Unit ID of the unit a block belongs to. -/
def Blk.unit (b : Blk) (i : Nat) : Nat :=
  match b with
  | .devctl => unitCtl 8 | .amr => unitAmr | .sec => unitSec | .gov => unitGov | .test => unitTest | .cmdproc => unitCmdProc
  | .eng => unitEngine i | .acc => unitAcc i | .vec => unitVec i | .att => unitAtt i | .dm => unitMover i | .rc => unitCtl i
  | .obs => unitTime | .ntel => unitTime | .upd => unitUpd i | .stk => unitStack i | .ch => unitChan i | .rep => unitStack i
  | .hst => unitStack i | .cf => unitHubFabric | .ha => unitFabric i | .cl => unitL3 i | .blt => unitBolter | .tok => unitTok
  | .hop => unitHopper | .port => unitPort i | .neta => unitNet 0 | .netb => unitNet 1

/-! ## Chity records (R454 to R457) -/

/-- Whether a unit's clock is one that the cap, thermal and droop stretches of the engines act on: an engine or an
attention-and-vector unit (R406, R410). -/
def engineClocked (unit : Nat) : Bool := unit / 256 < 4 && (unit % 256 < 4 || unit % 256 = 5 || unit % 256 = 6)

/-- Power domain of a unit (R402); 72 stands for the always-on domain. -/
def domainOf (unit : Nat) : Nat :=
  let r := unit / 256; let c := unit % 256
  if r < 4 then
    if c < 4 then 7 * r + c
    else if c = 5 ∨ c = 6 then 7 * r + 4
    else if c = 8 then 7 * r + 6
    else if 0x10 ≤ c ∧ c < 0x20 then 28 + 8 * r + c % 8
    else 7 * r + 5
  else if c < 0x40 then 60 + c / 8
  else if c < 0x48 then 60 + (c - 0x40)
  else if 0x4B ≤ c ∧ c < 0x4E then 70
  else if c = 0x4E ∨ (0x50 ≤ c ∧ c < 0x54) then 68
  else if c = 0x4F ∨ (0x54 ≤ c ∧ c < 0x58) then 69
  else if c = 0x48 ∨ (0x58 ≤ c ∧ c < 0x5C) then 72
  else 71

/-- Stretch k of a unit's clock (R406 to R410, R454). -/
def State.stretch (s : State) (unit : Nat) : Nat :=
  if s.pwr.droop.contains (domainOf unit) then 16
  else if engineClocked unit then s.fld F.GOV_STATUS_STRETCH 0 else 0

/-- The records of a trace ring that make up whole lines from PROD on, two records a line (R458): written line by line. -/
def State.ringLines (s : State) (r : Nat) : List Nat → State × List Nat
  | a :: b :: rest =>
    let base := s.fld F.OBS_TRC_BASE_BASE r <<< 6
    let size := 2 ^ s.fld F.OBS_TRC_BASE_SIZE_LOG2 r
    let p := s.fld F.OBS_TRC_PTR_PROD r
    ((s.putLine (lineOf (base + 32 * (p % size))) (a % 2 ^ 256 + (b % 2 ^ 256) <<< 256)).setFld F.OBS_TRC_PTR_PROD r ((p + 2) % 2 ^ 25)).ringLines r rest
  | rest => (s, rest)

/-- Writes the whole lines that a trace ring has gathered (R458). A half line, and what follows it, waits for TRACE_LINE_FLUSH. -/
def State.flushRing (s : State) (r : Nat) : State :=
  if s.fld F.OBS_TRC_PTR_PROD r % 2 = 1 then s
  else
    let q := Tab.get ({} : TraceRing) s.obs.rings r
    let (t, rest) := s.ringLines r q.queued
    ({ t with obs := { t.obs with rings := Tab.set {} t.obs.rings r { q with queued := rest } } }).wire s 6

/-- Emits a Chity record (R454, R457). `soft` marks TRACE_MARK and OBS_MARK. -/
def State.traceAs (s : State) (unit event layer op payload : Nat) (soft : Bool) : State :=
  let r := ringOf (unit / 256)
  if s.fld F.OBS_TRC_BASE_MODE r = 0 ∨ ¬ (s.fld F.OBS_TRC_CFG_CLASS_MASK r).testBit (event / 256) then
    s.incSat F.OBS_STATUS_SUPPRESSED 0 1
  else
    let q := Tab.get ({} : TraceRing) s.obs.rings r
    let n := Tab.get 0 s.obs.seqs unit
    let s := { s with obs := { s.obs with seqs := Tab.set 0 s.obs.seqs unit ((n + 1) % 256) } }
    let size := 2 ^ s.fld F.OBS_TRC_BASE_SIZE_LOG2 r
    let held := (s.fld F.OBS_TRC_PTR_PROD r + q.queued.length + 2 ^ 25 - s.fld F.OBS_TRC_PTR_CONS r) % 2 ^ 25
    if s.fld F.OBS_TRC_BASE_MODE r = 1 ∧ held = size then
      { s.incSat F.OBS_TRC_CFG_DROPS r 1 with obs := { s.obs with rings := Tab.set {} s.obs.rings r { q with lost := true } } }
    else
      let (cyc, s) := s.draw 1
      let bytes := put 0 8 (s.now r) + put 8 4 (unit % 4096 + event <<< 12 + (b2n q.lost) <<< 24 + (b2n soft) <<< 25 + (s.stretch unit) <<< 27)
        + put 0xC 2 layer + put 0xE 2 op + put 0x10 8 payload + put 0x18 6 cyc + put 0x1E 1 n + put 0x1F 1 0x10
      let s := { s with obs := { s.obs with rings := Tab.set {} s.obs.rings r { queued := q.queued ++ [bytes], lost := false } } }
      s.flushRing r

/-- Emits a record of the device itself. -/
def State.trace (s : State) (unit event payload : Nat) : State := s.traceAs unit event 0 0 payload false

/-- A unit's clock starts again (R453): CLOCK_RESUME with the time at which it stopped. -/
def State.clockResume (s : State) (unit : Nat) : State :=
  let t := Tab.get 0 s.obs.stopTimes unit
  if t = 0 then s
  else ({ s with obs := { s.obs with stopTimes := Tab.set 0 s.obs.stopTimes unit 0 } }).trace unit 0x010 (t - 1)

/-- A unit's clock stops. -/
def State.clockStop (s : State) (unit : Nat) : State :=
  { s with obs := { s.obs with stopTimes := Tab.set 0 s.obs.stopTimes unit (s.time + 1) } }

/-! ## Error records (R475 to R478) -/

/-- What an error record says beside its number and time (R475). -/
structure ErrRec where
  code   : Nat
  cls    : Nat                 -- 0 C, 1 D, 2 U, 3 F
  level  : Nat                 -- 0 cell, 1 block, 2 region, 3 chip
  unit   : Nat
  addr   : Nat := 0
  seq    : Nat := 0
  queue  : Nat := 0xFF
  action : Nat := 0
  status : Nat := 0
  detail : Nat := 0            -- 16 bytes

/-- The 64 bytes of a record (R475). -/
def ErrRec.image (e : ErrRec) (time count rseq : Nat) : Nat :=
  put 1 1 1 + put 2 1 e.cls + put 3 1 e.level + put 4 2 (e.unit % 4096) + put 6 2 e.code + put 8 8 time
    + put 0x10 8 (e.addr % 2 ^ 48) + put 0x18 4 e.seq + put 0x1C 1 e.queue + put 0x1D 1 e.action + put 0x1E 2 count
    + put 0x20 4 rseq + put 0x24 2 e.status + put 0x28 16 e.detail

/-- A record written to the ring at PROD, or dropped (R478). -/
def State.ringWrite (s : State) (bytes : Nat) : State :=
  let n := s.fld F.ERR_RING_BASE_SIZE_LOG2 0
  let cls := le bytes 2 1
  if n = 0 ∨ ¬ (s.fld F.ERR_RING_BASE_CLASS_MASK 0 ||| 8).testBit cls then s
  else
    let p := s.fld F.ERR_RING_PTR_PROD 0
    if (p + 2 ^ 24 - s.fld F.ERR_RING_PTR_CONS 0) % 2 ^ 24 = 2 ^ n then
      let t := s.incSat F.ERR_RING_PTR_DROPS 0 1
      { t with obs := { t.obs with ringLost := true } }
    else
      let img := if s.obs.ringLost then bytes ||| (1 <<< (8 * 0x37)) else bytes
      let t := s.putLine (lineOf (s.fld F.ERR_RING_BASE_BASE 0 <<< 6 + 64 * (p % 2 ^ n))) img
      let t := t.setFld F.ERR_RING_PTR_PROD 0 (p + 1)
      ({ t with obs := { t.obs with ringLost := false, ringed := t.obs.ringed ++ [le bytes 0x20 4] } }).wire s 1

/-- The error head takes a record (R478): per class, newest first, the 32 newest. -/
def headInsert (h : List (List Nat)) (cls bytes : Nat) : List (List Nat) :=
  h.zipIdx.map (fun p => if p.2 = cls then (bytes :: p.1).take 32 else p.1)

/-- The error record of a listed fault into the error head, and into the ring where `ring` says so (R475 to R478, R480); class C
is limited to one record per code and unit a second. -/
def State.record (s : State) (e : ErrRec) (ring : Bool) : State :=
  let key := e.code * 4096 + e.unit % 4096
  let lim := Tab.get ({} : Limit) s.obs.limits key
  if e.cls = 0 ∧ lim.used ∧ s.time < lim.at_ + 1000000000 then
    { s with obs := { s.obs with limits := Tab.set {} s.obs.limits key { lim with count := lim.count + 1 } } }
  else
    let old := s.fld F.ERR_STATUS_RSEQ 0
    let rseq := if old = 0xFFFFFFFF then 1 else old + 1
    let count := min 0xFFFF (1 + if e.cls = 0 then lim.count else 0)
    let bytes := e.image (s.now (ringOf (e.unit / 256))) count rseq
    let s := s.setFld F.ERR_STATUS_RSEQ 0 rseq
    let o := { s.obs with head := headInsert s.obs.head e.cls bytes,
                          limits := if e.cls = 0 then Tab.set {} s.obs.limits key { at_ := s.time, count := 0, used := true } else s.obs.limits }
    let s := { s with obs := o }
    if ring then s.ringWrite bytes else s

/-- Writes the error record of a listed fault. -/
def State.report (s : State) (e : ErrRec) : State := s.record e true

/-- A chip-level fault (R480): the fault output, the class F record in the error head, and nothing issues from then on; a Brake
and a Freeze are abandoned (R469). -/
def State.fatal (s : State) (code unit addr detail : Nat) : State :=
  if s.pwr.phase = .fatal ∨ s.pwr.phase = .off ∨ s.pwr.phase = .held ∨ s.pwr.phase = .holdup then s
  else
    let s := s.record { code := code, cls := 3, level := 3, unit := unit, addr := addr, action := 6, detail := detail } false
    let s := (s.setFld F.OBS_BRAKE_STATE 0 0).setFld F.OBS_FRZ_STATE 0 0
    { s with pwr := { s.pwr with phase := .fatal, faultOut := true }, obs := { s.obs with brake := {} } }

/-! ## Refused accesses (R10, R31) -/

/-- An access that R10 refuses: MMIO_ACCESS, and a count where a write is dropped. -/
def State.mmioRefuse (s : State) (pa : Nat) (unit : Nat) (write : Bool) : State :=
  let t := s.report { code := 0x0001, cls := 2, level := 1, unit := unit, addr := pa, action := 0, detail := b2n write }
  if write then t.incSat F.ERR_STATUS_MMIO_DROPS 0 1 else t

/-- Captures a fault on an unpopulated address (R31, R44). `kind` is 0 for a read or fetch, 1 for a write. -/
def State.unpopulated (s : State) (unit addr kind : Nat) : State :=
  let c := satAdd (s.fld F.AMR_FAULT_STATUS_COUNT 0) 1 0xFFFF
  let t :=
    if s.flag F.AMR_FAULT_STATUS_VALID 0 then
      (s.setFld F.AMR_FAULT_STATUS_COUNT 0 c).setFld F.AMR_FAULT_STATUS_OVF 0 1
    else
      (((((s.setFld F.AMR_FAULT_STATUS_COUNT 0 c).setFld F.AMR_FAULT_STATUS_SRC_REGION 0 (unit / 256)).setFld
        F.AMR_FAULT_STATUS_SRC_UNIT 0 (unit % 256)).setFld F.AMR_FAULT_STATUS_KIND 0 kind).setFld
        F.AMR_FAULT_STATUS_VALID 0 1).setFld F.AMR_FAULT_ADDR_ADDR 0 addr
  (t.wire s 7).report { code := 0x0002, cls := 2, level := 1, unit := unit, addr := addr, detail := kind }

/-! ## Counters (R445 to R448) -/

/-- Adds to an always-on counter (index 0 to 52). -/
def State.aon (s : State) (x n : Nat) : State :=
  { s with counters := Tab.set 0 s.counters x ((Tab.get 0 s.counters x + n) % 2 ^ 64) }

/-- Adds to a compatibility counter (index 0 to 37). -/
def State.compat (s : State) (x n : Nat) : State := s.aon (64 + x) n

/-- Adds to a profiling counter, which wraps at 48 bits and then sets OVF and, with EVT set, writes PROF_OVF (R445). -/
def State.profAdd (s : State) (k n : Nat) : State :=
  let c := s.fld F.OBS_PROF_COUNT k + n
  let t := s.setFld F.OBS_PROF_COUNT k c
  if c < 2 ^ 48 then t
  else
    let t := t.setFld F.OBS_PROF_SEL_OVF k 1
    if t.flag F.OBS_PROF_SEL_EVT k then t.trace (if k < 64 then unitCtl (k / 16) else unitTime) 0xB06 k else t

/-- Counts `n` events of a signal of a unit in every profiling counter that selects it (R445). -/
def State.prof (s : State) (unit signal n : Nat) : State :=
  (List.range 16).foldl (fun (t : State) i =>
    let k := 16 * ringOf (unit / 256) + i
    if t.flag F.OBS_PROF_SEL_EN k ∧ t.fld F.OBS_PROF_SEL_UNIT k = unit ∧ t.fld F.OBS_PROF_SEL_SIGNAL k = signal then t.profAdd k n else t) s

/-! ## Units in tables -/

def State.queue (s : State) (q : Nat) : QueueSt := Tab.get {} s.queues q
def State.setQueue (s : State) (q : Nat) (x : QueueSt) : State := { s with queues := Tab.set {} s.queues q x }
def State.engine (s : State) (g : Nat) : Engine := Tab.get {} s.engines g
def State.setEngine (s : State) (g : Nat) (x : Engine) : State := { s with engines := Tab.set {} s.engines g x }
def State.acc (s : State) (q : Nat) : AccUnit := Tab.get {} s.accs q
def State.setAcc (s : State) (q : Nat) (x : AccUnit) : State := { s with accs := Tab.set {} s.accs q x }
def State.vec (s : State) (q : Nat) : VecUnit := Tab.get {} s.vecs q
def State.setVec (s : State) (q : Nat) (x : VecUnit) : State := { s with vecs := Tab.set {} s.vecs q x }
def State.upd (s : State) (st : Nat) : UpdUnit := Tab.get {} s.upds st
def State.setUpd (s : State) (st : Nat) (x : UpdUnit) : State := { s with upds := Tab.set {} s.upds st x }
def State.chan (s : State) (g : Nat) : Chan := Tab.get {} s.chans g
def State.setChan (s : State) (g : Nat) (x : Chan) : State := { s with chans := Tab.set {} s.chans g x }
def State.stack (s : State) (st : Nat) : Stack := Tab.get {} s.stks st
def State.setStack (s : State) (st : Nat) (x : Stack) : State := { s with stks := Tab.set {} s.stks st x }
def State.hoistChan (s : State) (g : Nat) : HoistChan := Tab.get {} s.hoistCh g
def State.setHoistChan (s : State) (g : Nat) (x : HoistChan) : State := { s with hoistCh := Tab.set {} s.hoistCh g x }
def State.hoist (s : State) (st : Nat) : Hoist := Tab.get {} s.hoists st
def State.setHoist (s : State) (st : Nat) (x : Hoist) : State := { s with hoists := Tab.set {} s.hoists st x }
def State.hold (s : State) (r k : Nat) : Option Hold := Tab.get none s.holds (16 * r + k)
def State.setHold (s : State) (r k : Nat) (x : Option Hold) : State := { s with holds := Tab.set none s.holds (16 * r + k) x }
def State.hart (s : State) (h : Nat) : Hart := Tab.get {} s.harts h
def State.setHart (s : State) (h : Nat) (x : Hart) : State := { s with harts := Tab.set {} s.harts h x }
def State.port (s : State) (p : Nat) : PortSt := Tab.get {} s.ports p
def State.setPort (s : State) (p : Nat) (x : PortSt) : State := { s with ports := Tab.set {} s.ports p x }
def State.net (s : State) (n : Nat) : NetSt := Tab.get {} s.nets n
def State.setNet (s : State) (n : Nat) (x : NetSt) : State := { s with nets := Tab.set {} s.nets n x }

/-- Whether a Freeze is in force (R470). -/
def State.frozen (s : State) : Bool := s.fld F.OBS_FRZ_STATE 0 ≠ 0

/-- Whether a frame comes from a network engine's transmit path, which a Freeze stops (R470); PFC and the recovery protocol do not. -/
def TxFrame.held : TxFrame → Bool
  | .pfc .. | .announce .. | .recoveryAck .. | .recoveryResult .. => false
  | _ => true

/-- Whether a domain is on (R402); domain 72, the always-on domain, is. -/
def State.domOn (s : State) (d : Nat) : Bool :=
  if d < 64 then (s.fld F.GOV_DOM_ON_LO_ON 0).testBit d else if d < 72 then (s.fld F.GOV_DOM_ON_HI_ON 0).testBit (d - 64) else true

/-- Network of a port: 0 A, 1 B (R346). -/
def netOf (p : Nat) : Nat := p / 4

def State.ipv6 (s : State) (n : Nat) : Nat := s.fld F.NET_IPV6_HI_ADDR n <<< 64 + s.fld F.NET_IPV6_LO_ADDR n

/-- The SerDes domain of a port (R402). -/
def netDom (p : Nat) : Nat := 68 + netOf p

/-- A network's own address of a version: the source address on its ports (R347). -/
def State.ownIp (s : State) (n : Nat) (v6 : Bool) : Nat := if v6 then s.ipv6 n else s.fld F.NET_IPV4_ADDR n

/-- Port that a frame leaves on. -/
def TxFrame.port : TxFrame → Nat
  | .arpReply p .. | .naReply p .. | .gratuitous p .. | .echoReply p .. | .pfc p .. | .ptp p .. | .roce p .. | .roceAck p .. | .roceNak p ..
  | .coll p .. | .announce p .. | .recoveryAck p .. | .recoveryResult p .. => p

/-- The UDP payload of a collective frame: the 32-byte header of R372, then its payload. -/
def CFrame.bytes (f : CFrame) : Nat :=
  put 0 1 (f.major <<< 4) + put 1 1 f.typ + put 2 1 (f.vc % 8 + 8 * b2n f.sat + 16 * b2n f.last) + put 4 4 f.gid + put 8 2 f.src + put 0xA 2 f.dst
    + put 0xC 4 f.redId + put 0x10 8 f.step + put 0x18 4 f.seq + put 0x1C 4 f.index + (f.data % 2 ^ (8 * f.plen)) <<< 256

/-- Sum of the 16-bit big-endian words of `n` bytes, and of a number of that many words. -/
def sumBytes (v n : Nat) : Nat := ((List.range (ceilDiv n 2)).map (fun k => le v (2 * k) 1 * 256 + le v (2 * k + 1) 1)).sum
def sumWords (v words : Nat) : Nat := ((List.range words).map (fun k => v / 65536 ^ k % 65536)).sum

/-- The UDP checksum of RFC 768 over `n` bytes of payload between two IP addresses of `w` 16-bit words (R372; PRESUMED, log 65). -/
def udpSum (w src dst sport dport payload n : Nat) : Nat :=
  let x := sumWords src w + sumWords dst w + 17 + 2 * (8 + n) + sport + dport + sumBytes payload n
  let y := x % 65536 + x / 65536
  let z := 65535 - (y % 65536 + y / 65536)
  if z = 0 then 65535 else z

/-- A frame with its headers (R347 to R350, R372). The member entry of a collective frame's receiver gives its MAC and IP address (R369). -/
def State.framed (s : State) (f : TxFrame) : Sent :=
  let p := TxFrame.port f
  let n := netOf p
  let h : TxHdr := { srcMac := s.fld F.PORT_MAC_MAC p, vid := s.fld F.NET_CFG_VID n, pcp := Config.otherPcp }
  let hdr : TxHdr := match f with
    | .arpReply _ _ mac => { h with dstMac := mac }
    | .naReply _ ip mac => { h with dstMac := mac, ip := some (true, s.ipv6 n, ip) }
    | .gratuitous .. => { h with dstMac := 0xFFFFFFFFFFFF }
    | .echoReply _ ip mac _ _ _ v6 => { h with dstMac := mac, ip := some (v6, s.ownIp n v6, ip) }
    | .pfc .. => { h with dstMac := 0x0180C2000001 }
    | .ptp .. => { h with dstMac := 0x011B19000000, pcp := s.fld F.NET_CFG_PTP_PCP n }
    | .roce .. | .roceAck .. | .roceNak .. => { h with pcp := s.fld F.NET_CFG_ROCE_PCP n }
    | .coll _ pcp f =>
      let m := match s.coll.groups.find? (fun g => match g.2 with | some g => decide (le g.entry 4 4 = f.gid) | none => false) with
        | some (_, some g) => le g.members (32 * f.dst) 32
        | _ => 0
      let v6 := bit (le m 6 1) 0
      let src := s.ownIp n v6
      let dst := if v6 then swapBytes (le m 8 16) 16 else swapBytes (le m 8 4) 4
      let port := s.fld F.CT_CFG_UDP_PORT 0
      { h with dstMac := swapBytes (le m 0 6) 6, pcp := pcp, ip := some (v6, src, dst), udp := some (Config.collSport, port),
               sum := udpSum (if v6 then 8 else 2) src dst Config.collSport port (CFrame.bytes f) (32 + f.plen) }
    | .announce .. | .recoveryAck .. | .recoveryResult .. => h
  { frame := f, hdr := hdr }

/-- A RoCEv2 packet of a queue pair with its headers: the next hop, the address and the source port come from the context (R353, R354). -/
def State.framedQp (s : State) (n q : Nat) (f : TxFrame) : Sent :=
  let x := s.framed f
  let ctx := (Tab.get {} (s.net n).qps q).ctx
  let v6 := bit (le ctx 3 1) 0
  let dst := if v6 then swapBytes (le ctx 0x18 16) 16 else swapBytes (le ctx 0x18 4) 4
  { x with hdr := { x.hdr with dstMac := swapBytes (le ctx 0x10 6) 6, ip := some (v6, s.ownIp n v6, dst), udp := some (le ctx 0x16 2, 4791) } }

/-- Whether a frame waits at its port: its priority is paused, or an earlier frame of it waits (R351). PFC frames themselves do not. -/
def State.pausedAt (s : State) (x : Sent) : Bool :=
  let p := s.port (TxFrame.port x.frame)
  match x.frame with
  | .pfc .. => false
  | _ => decide (s.time < Tab.get 0 p.pausedTill x.hdr.pcp) || p.waiting.any (fun y => decide (y.hdr.pcp = x.hdr.pcp))

/-- A frame goes on the wire, unless a Freeze or a pause holds it. -/
def State.emit (s : State) (x : Sent) : State :=
  if s.frozen && x.frame.held then { s with obs := { s.obs with txHeld := s.obs.txHeld ++ [x] } }
  else if s.pausedAt x then
    let p := TxFrame.port x.frame
    s.setPort p { s.port p with waiting := (s.port p).waiting ++ [x] }
  else { s with tx := s.tx ++ [x] }

/-- A frame is sent with the headers that the registers give it. -/
def State.send (s : State) (f : TxFrame) : State := s.emit (s.framed f)

/-- The frames of a port whose priority is paused no longer leave, in their order (R351). -/
def State.unpause (s : State) (p : Nat) : State :=
  let x := s.port p
  let out (y : Sent) : Bool := decide (Tab.get 0 x.pausedTill y.hdr.pcp ≤ s.time)
  (x.waiting.filter out).foldl State.emit (s.setPort p { x with waiting := x.waiting.filter (fun y => ! out y) })

/-! ## Frames received (R347, R351) -/

/-- Whether a destination MAC is one that a port accepts (R347). The IPv6 multicast addresses joined are the solicited-node address of the
network's own and those of PTP over IPv6 (PRESUMED, log 65). -/
def State.macOk (s : State) (p : Nat) (m : Nat) : Bool :=
  let ip6 := s.ipv6 (netOf p)
  decide (m = s.fld F.PORT_MAC_MAC p ∨ m = 0xFFFFFFFFFFFF ∨ m = 0x011B19000000 ∨ m = 0x0180C200000E ∨ m = 0x333300000181 ∨ m = 0x33330000006B
    ∨ (ip6 ≠ 0 ∧ m = 0x3333FF000000 + ip6 % 2 ^ 24) ∨ (p < 4 ∧ m = 0x0180C2000001))

/-- Priority that a frame is received with: untagged frames have 0. -/
def RxHdr.prio (h : RxHdr) : Nat := match h.tag with | some (_, pcp) => pcp | none => 0

/-- Whether a lossy frame finds the receive buffer of a port full (R351). -/
def State.bufferFull (s : State) (p : Nat) : Bool :=
  decide (p < 4 ∧ 4194304 ≤ ((List.range 8).map (fun k => Tab.get 0 (s.port p).buffered k)).sum)

/-- A frame at a port: `k` takes it where R347 accepts it and its priority has room; otherwise it is discarded and counted. -/
def State.rxFrame (s : State) (p : Nat) (h : RxHdr) (k : State → State) : State :=
  let mac : Bool := match h.dst with | some m => s.macOk p m | none => true
  let tag : Bool := match h.tag with | some (vid, _) => decide (vid = 0 ∨ vid = s.fld F.NET_CFG_VID (netOf p)) | none => true
  if 9216 < h.len then s.incSat F.PORT_DROPS_OVERSIZE p 1
  else if ! mac || ! tag then s.incSat F.PORT_DROPS_FILTER p 1
  else if ¬ (s.fld F.PORT_PFC_EN p).testBit (RxHdr.prio h) ∧ s.bufferFull p then s.incSat F.PORT_DROPS_OVERFLOW p 1
  else k s

/-- A frame of a UDP transport: one for another port is of a protocol that no chapter defines, and one whose checksum does not hold is
discarded (R348, R353, R372); R348 counts the first, and the spec no count for the second (log 65). -/
def State.rxUdp (s : State) (p : Nat) (h : RxHdr) (dport : Nat) (k : State → State) : State :=
  s.rxFrame p h (fun s =>
    if h.dport ≠ none ∧ h.dport ≠ some dport then s.incSat F.NET_DROPS_PROTO (netOf p) 1
    else if ! h.sumOk then s
    else k s)

/-- Whether a Brake is in force: CUTTING or BRAKED (R462). -/
def State.braking (s : State) : Bool := 2 ≤ s.fld F.OBS_BRAKE_STATE 0

/-- Whether the device runs and software access is granted: no hold-up, reset, fatal error or start is in progress. -/
def State.running (s : State) : Bool := s.pwr.phase = .running

/-- The block idles: one nanosecond of REFCLK passes (log 1), by which the time base counts 1 ns and the fraction that NET_TIME_ADJ.FREQ slews it
by (R367); it does not count while REFCLK is absent (R417). -/
def tick (s : State) : State :=
  let x := s.pwr.timeFrac + (2 ^ 32 + signed (s.fld F.NET_TIME_ADJ_FREQ 0) 32).toNat
  if s.pwr.refclk then { s with time := s.time + x / 2 ^ 32, pwr := { s.pwr with timeFrac := x % 2 ^ 32 } } else s

/-! ## Commands in flight -/

/-- The command of a reference. -/
def State.cmd (s : State) (r : CmdRef) : Option Cmd := s.cmds.find? (fun c => c.ref = r)

/-- The state with the command of `c`'s reference replaced by `c`. -/
def State.setCmd (s : State) (c : Cmd) : State :=
  { s with cmds := s.cmds.map (fun d => if d.ref = c.ref then c else d) }

/-- A change to one command. -/
def State.modCmd (s : State) (r : CmdRef) (f : Cmd → Cmd) : State :=
  { s with cmds := s.cmds.map (fun d => if d.ref = r then f d else d) }

end Sys2Proof.Machine
end

