-- ==== Sys2Proof/Machine/Burst.lean ====
section
/-! DEFINITION. One burst of a channel: where it lies among the dies (R230, R231, R255, R263), and what a read of it does
(R237, R238, R240). -/
namespace Sys2Proof.Machine

/-- Emits a record whose payload the spec does not state: a free value (log 6). -/
def State.traceFree (s : State) (unit event : Nat) : State :=
  let (v, s) := s.draw 3
  s.trace unit event v

/-- The slot that holds a frame (R255). -/
def State.slotOf (s : State) (gch frame : Nat) : Nat := (((s.hoistChan gch).remap.find? (fun p => p.1 = frame)).map (·.2)).getD frame

/-- The slot of one burst of a frame, with the cursor of a swap in progress (R263). -/
def State.slotOfBurst (s : State) (gch frame b : Nat) : Nat :=
  match (s.hoistChan gch).swap with
  | some w =>
    if b < w.cursor ∧ frame = w.slow then s.slotOf gch w.victim
    else if b < w.cursor ∧ frame = w.victim then s.slotOf gch w.slow
    else s.slotOf gch frame
  | none => s.slotOf gch frame

/-- A place among the dies (R231). -/
structure Place where
  die  : Nat
  bank : Nat
  row  : Nat
  col  : Nat
  deriving DecidableEq, Repr

/-- Burst `b` of a slot (R231). -/
def placeOf (slot b : Nat) : Place :=
  let die := if slot < 0x2000 then slot >>> 11 else 4 + ((slot - 0x2000) >>> 12)
  let ds := if slot < 0x2000 then slot % 0x800 else (slot - 0x2000) % 0x1000
  { die := die, bank := (b >>> 4) % 32, row := 2 * ds + b >>> 9, col := b % 16 }

/-- Channel, channel offset and place of a line of the stacks. -/
def State.placeAt (s : State) (line : Nat) : Option (ChAddr × Place) :=
  (chanOf s.localGib (64 * line)).map (fun c =>
    let b := (c.choff % 0x10000) >>> 6
    (c, placeOf (s.slotOfBurst c.gch c.frame b) b))

/-- The stack whose home orders a line: the stack that holds it. -/
def State.homeOf (s : State) (line : Nat) : Nat := match chanOf s.localGib (64 * line) with | some c => c.gch / 16 | none => 0

/-- Symbols in error of a 72-byte difference. -/
def badSyms (e : Nat) : List Nat := (List.range 72).filter (fun j => Rs.sym e j ≠ 0)

/-- Counts the corrected symbols of a correction pattern against their lanes; a lane that reaches LANE_TH within one second is
reported (R237). -/
def State.countLanes (s : State) (gch : Nat) (pat : Nat) : State :=
  let th := s.fld F.CH_ECC_CFG_LANE_TH gch
  let c := s.chan gch
  let hit := (badSyms pat).map Rs.symLane
  let recent (l : Nat) : List Nat := (Tab.get [] c.lanes l).filter (fun t => decide (s.time < t + 1000000000))
  let lanes := hit.eraseDups.foldl (fun (t : Tab (List Nat)) l => Tab.set [] t l (recent l ++ List.replicate (hit.count l) s.time)) c.lanes
  let s := s.setChan gch { c with lanes := lanes }
  let hot := hit.eraseDups.filter (fun l => decide ((recent l).length < th ∧ th ≤ (recent l).length + hit.count l))
  hot.foldl (fun (t : State) l =>
    let t := t.setFld F.CH_ECC_COUNT_LANE_SUSPECT gch l
    let t := t.trace (unitChan gch) 0x620 (gch % 2 ^ 16 + l <<< 16)
    t.report { code := 0x0201, cls := 0, level := 0, unit := unitChan gch, action := 1, detail := put 0 2 gch + put 2 2 l }) s

/-- Captures an uncorrectable burst in CH_ECC_INFO (R238). -/
def State.captureUe (s : State) (gch : Nat) (p : Place) (src : Nat) : State :=
  if s.flag F.CH_ECC_INFO_VALID gch then s.setFld F.CH_ECC_INFO_OVF gch 1
  else
    (((((s.setFld F.CH_ECC_INFO_DIE gch p.die).setFld F.CH_ECC_INFO_BANK gch p.bank).setFld F.CH_ECC_INFO_ROW gch p.row).setFld
      F.CH_ECC_INFO_COL gch p.col).setFld F.CH_ECC_INFO_SOURCE gch src).setFld F.CH_ECC_INFO_VALID gch 1

/-- A second uncorrectable burst within CH_UE_WINDOW moves the channel to FAILING (R240). -/
def State.ueWindow (s : State) (gch line : Nat) : State :=
  let c := s.chan gch
  let w := s.fld F.CH_UE_WINDOW_SECONDS gch
  let hit : Bool := decide (w ≠ 0 ∧ s.fld F.CH_STATE_STATE gch = 0) && (match c.firstUe with
    | some (l, t) => decide (l ≠ line ∧ s.time ≤ t + w * 1000000000)
    | none => false)
  let s := s.setChan gch { c with firstUe := some (line, s.time) }
  if hit then
    let t := (s.setFld F.CH_STATE_STATE gch 1).traceFree (unitChan gch) 0x621
    t.report { code := 0x0203, cls := 1, level := 2, unit := unitChan gch, detail := put 0 2 gch }
  else s

/-- What a read of a line's stored burst does beside delivering data: source 0 demand, 1 scrub, 2 repair copy. -/
def State.readBurst (s : State) (line src : Nat) : State :=
  match Tab.find s.ecc line, s.placeAt line with
  | some _, some (ca, p) =>
    let g := ca.gch
    match s.burst line with
    | .clean => s
    | .corrected pat =>
      let s := (s.incSat F.CH_ECC_COUNT_CORR g 1).aon 49 1
      let s := s.countLanes g pat
      let c := s.chan g
      if c.queue.any (fun q => decide (q.line = line) && (match q.op with | .writeBack _ => true | _ => false)) then s
      else s.setChan g { c with queue := c.queue ++ [{ cls := .back, line := line, op := .writeBack (s.burstData line) }] }
    | .poison => s.incSat F.CH_ECC_COUNT_POISON_RD g 1
    | .uncorrectable =>
      let s := s.storeLine line (s.burstData line) true
      let s := (s.incSat F.CH_ECC_COUNT_UNCORR g 1).aon 50 1
      let s := s.captureUe g p src
      let s := s.report { code := 0x0202, cls := 1, level := 2, unit := unitChan g, addr := 64 * line, action := 4,
                          detail := put 0 2 g + put 2 2 p.die + put 4 2 p.bank + put 6 2 p.row + put 8 2 p.col + put 10 2 src }
      s.ueWindow g line
  | _, _ => s

/-- Whether a coherent read of a line reads memory: no owner supplies it, and no transaction has taken its data (R282). -/
def State.readsMem (s : State) (line : Nat) : Bool := (s.ownerCopy line).isNone && (s.collected line).isNone

/-- Whether a line lies in one of the spans of address and length. -/
def inSpans (spans : List (Nat × Nat)) (line : Nat) : Bool :=
  spans.any (fun sp => decide (sp.2 ≠ 0 ∧ lineOf sp.1 ≤ line ∧ line ≤ lineOf (sp.1 + sp.2 - 1)))

/-- The bursts of spans that hold errors, and that no owner supplies, are read (R237, R238). -/
def State.readBursts (s : State) (spans : List (Nat × Nat)) : State :=
  s.ecc.foldl (fun (t : State) p => if inSpans spans p.1 && t.readsMem p.1 then t.readBurst p.1 0 else t) s

/-- The demand reads of spans, by ReadOnce; a line that an owner forwards is counted at its home (R282, R299). -/
def State.demand (s : State) (spans : List (Nat × Nat)) : State :=
  let t := s.readBursts spans
  s.caches.foldl (fun (t : State) p =>
    if p.2.st.owns && inSpans spans (p.1 % 2 ^ 42) then t.incWrap F.HA_FORWARD_COUNT (t.homeOf (p.1 % 2 ^ 42)) 1 else t) t

/-! ## Checked writes -/

/-- Before masked bytes of a line are merged into it: scrub reads that reached its channel earlier take effect (R241, R243). -/
def State.scrubFirst (s : State) (line : Nat) : State :=
  if s.chans.isEmpty then s
  else match chanOf s.localGib (64 * line) with
    | none => s
    | some ca =>
      let c := s.chan ca.gch
      let mine (q : BurstReq) : Bool := decide (q.line = line) && q.op.isScrub
      match c.queue.filter mine with
      | [] => s
      | qs =>
        let t := s.setChan ca.gch { c with queue := c.queue.filter (fun q => ! mine q) }
        let t := t.readBurst line 1
        if qs.any (fun q => decide (q.op = .scrub true)) then t.incWrap F.CH_SCRUB_PASSES ca.gch 1 else t

/-- A merge into a line that reads poisoned is recorded (R239). -/
def State.mergeNote (s : State) (line : Nat) : State :=
  if s.badLine line then
    let u := match chanOf s.localGib (64 * line) with
      | some c => unitChan c.gch
      | none => unitAmr
    s.report { code := 0x0204, cls := 1, level := 2, unit := u, addr := 64 * line, action := 4 }
  else s

/-- What a write of `n` bytes at `pa` does beside storing: a line that it covers in part and that memory supplies is read first (R239),
and a line whose merge meets poison is recorded. -/
def State.mergeRecords (s : State) (pa n : Nat) : State :=
  if n = 0 ∨ s.plain ∧ s.chans.isEmpty then s
  else
    let lines := (List.range (lineOf (pa + n - 1) + 1 - lineOf pa)).map (· + lineOf pa)
    lines.foldl (fun (t : State) ln =>
      let t := t.scrubFirst ln
      let whole := pa ≤ 64 * ln ∧ 64 * ln + 64 ≤ pa + n
      if whole then t
      else
        let t := if t.readsMem ln then t.readBurst ln 0 else t
        t.mergeNote ln) s

/-- `n` bytes written at `pa` as a device access: a merge into poison is not applied and is recorded (R239, R285). -/
def State.writeMem (s : State) (pa v n : Nat) : State := (s.mergeRecords pa n).putMem pa v n

/-- An atomic unsigned 64-bit add at the home of an address (R286): its read is the one of the merge. -/
def State.add64 (s : State) (pa v : Nat) : State :=
  if v = 0 then s
  else
    let t := s.mergeRecords pa 8
    t.putMem pa ((t.readMem pa 8 + v) % 2 ^ 64) 8

/-- The atomic unsigned 32-bit MAX at the home of an address (R151, R286). -/
def State.max32 (s : State) (pa v : Nat) : State :=
  let t := s.mergeRecords pa 4
  t.putMem pa (max (t.readMem pa 4) (v % 2 ^ 32)) 4

end Sys2Proof.Machine
end

