-- ==== Sys2Proof/Machine/Operands.lean ====
section
/-! DEFINITION. The operand forms of command packets: fields, tensor descriptors (R69, R70), rows and elements (R93 to R97),
scale table entries (R188, R189), and the address rules that an operand meets (R31, R41, R43, R506). -/
namespace Sys2Proof.Machine

/-! ## Packet fields (R58) -/

def Cmd.f (c : Cmd) (off size : Nat) : Nat := le c.pkt off size
def Cmd.fb (c : Cmd) (off hi lo : Nat) : Nat := leBits c.pkt off hi lo
/-- Opcode: CLASS and FUNC. -/
def Cmd.opcode (c : Cmd) : Nat := le c.pkt 2 2
def Cmd.layer (c : Cmd) : Nat := le c.pkt 4 2
def Cmd.operator (c : Cmd) : Nat := le c.pkt 6 2
def Cmd.seqNo (c : Cmd) : Nat := le c.pkt 8 4
def Cmd.flags (c : Cmd) : Nat := le c.pkt 0xC 2
def Cmd.quiet (c : Cmd) : Bool := c.flags.testBit 0
def Cmd.barrier (c : Cmd) : Bool := c.flags.testBit 1
def Cmd.irq (c : Cmd) : Bool := c.flags.testBit 2
def Cmd.nowait (c : Cmd) : Bool := c.flags.testBit 3
def Cmd.resume (c : Cmd) : Bool := c.flags.testBit 4
def Cmd.resumeSlot (c : Cmd) : Nat := bits c.flags 6 5

/-- Region code that services a queue (R46). The runs of a repair (R271), which no queue carries, stand at the numbers from 256 on,
one for each region. -/
def State.regionOf (s : State) (q : Nat) : Nat := if 256 ≤ q then q - 256 else s.fld F.Q_CFG_REGION q

/-! ## Tensor descriptors (R69) -/

/-- A tensor descriptor. -/
structure Td where
  off   : Nat          -- its byte offset in the packet
  base  : Nat
  rank  : Nat
  fmtc  : Nat
  ovp   : Nat
  scale : Nat
  ext   : List Nat     -- EXT0 to EXT3
  str   : List Nat     -- strides of dimensions 1 to 3, in bytes
  deriving DecidableEq, Repr

/-- The descriptor at an offset of a packet. -/
def tdAt (pkt off : Nat) : Td :=
  { off := off, base := leBits pkt off 47 0, rank := leBits pkt (off + 8) 6 4, fmtc := leBits pkt (off + 8) 3 0,
    ovp := leBits pkt (off + 9) 1 0, scale := le pkt (off + 0xA) 2,
    ext := (List.range 4).map (fun k => le pkt (off + 0xC + 4 * k) 4),
    str := (List.range 3).map (fun k => 64 * le pkt (off + 0x20 + 4 * k) 4) }

namespace Td

def fmt (d : Td) : Fmt := (Fmt.ofCode d.fmtc).getD .fp32
def e (d : Td) (k : Nat) : Nat := d.ext.getD k 1
def strd (d : Td) (k : Nat) : Nat := d.str.getD (k - 1) 0
/-- Number of elements. -/
def count (d : Td) : Nat := d.e 0 * d.e 1 * d.e 2 * d.e 3
/-- Bytes of one row along dimension 0 (R93). -/
def rowLen (d : Td) : Nat := d.fmt.rowBytes (d.e 0)
/-- Address of the row of indices 1 to 3. -/
def rowAddr (d : Td) (i j k : Nat) : Nat := d.base + i * d.strd 1 + j * d.strd 2 + k * d.strd 3
/-- Bytes from BASE to the end of the operand's span (R70). -/
def spanLen (d : Td) : Nat :=
  (d.e 1 - 1) * d.strd 1 + (d.e 2 - 1) * d.strd 2 + (d.e 3 - 1) * d.strd 3 + d.rowLen
/-- The indices of its rows, dimension 1 fastest. -/
def rows (d : Td) : List (Nat × Nat × Nat) :=
  (List.range (d.e 3)).flatMap (fun k => (List.range (d.e 2)).flatMap (fun j => (List.range (d.e 1)).map (fun i => (i, j, k))))
/-- The number of a row in element order across the tensor. -/
def rowIndex (d : Td) (i j k : Nat) : Nat := (k * d.e 2 + j) * d.e 1 + i
/-- Linear number of an element in element order across the tensor. -/
def lin (d : Td) (i0 i j k : Nat) : Nat := d.rowIndex i j k * d.e 0 + i0

end Td

/-! ## Scale entries (R188, R189) -/

/-- The scale of a chunk of an operand, from the entries the command read at issue: INT8 by its FP32 scale, WB8 by a power of
two (R97). -/
def Cmd.scaleOf (c : Cmd) (d : Td) (chunk : Nat) : Val :=
  match d.fmt with
  | .int8 =>
    if d.scale = 0xFFFF then .one
    else match c.scales.find? (fun p => p.1 = d.scale) with
      | some (_, l0, _) => fp32Val (le l0 8 4)
      | none => .one
  | .wb8 =>
    match c.scales.find? (fun p => p.1 = d.scale) with
    | some (_, l0, exps) =>
      .pow2 (if leBits l0 0x20 47 0 = 0 then signed (le l0 8 1) 8 else signed (le exps chunk 1) 8)
    | none => .one
  | _ => .one

/-- The chunk or block number within the tensor that a scale is taken for. -/
def Td.chunkOf (d : Td) (i0 i j k : Nat) : Nat := d.lin i0 i j k / 4096

/-- An element of a row already read. -/
def Cmd.elemIn (c : Cmd) (d : Td) (row i0 i j k : Nat) : Elem := d.fmt.decodeAt row (d.e 0) i0 (c.scaleOf d (d.chunkOf i0 i j k))

/-- A row of an operand, as bytes. -/
def State.rowOf (s : State) (d : Td) (i j k : Nat) : Nat := s.readMem (d.rowAddr i j k) d.rowLen

/-- All elements of a row, decoded. -/
def State.rowElems (s : State) (c : Cmd) (d : Td) (i j k : Nat) : List Elem :=
  let r := s.rowOf d i j k
  (List.range (d.e 0)).map (fun i0 => c.elemIn d r i0 i j k)

/-- One element of an operand. -/
def State.elemOf (s : State) (c : Cmd) (d : Td) (i0 i j k : Nat) : Elem := c.elemIn d (s.rowOf d i j k) i0 i j k

/-- Adds census counts of a command under a key (R190). -/
def Cmd.addCounts (c : Cmd) (key : Nat) (n : Counts) : Cmd :=
  if n = {} then c else { c with counts := Tab.set {} c.counts key ((Tab.get {} c.counts key).add n) }

/-- Counts the elements decoded from an operand (R190, R191). -/
def Cmd.countElems (c : Cmd) (f : Fmt) (es : List Elem) : Cmd :=
  c.addCounts f.code (es.foldl (fun a x => a.bump x.cls) {})

/-- One encoded row of a destination with its flags and counts. -/
def Cmd.encodeRowOf (c : Cmd) (d : Td) (i j k : Nat) (xs : List Val) : Nat × NumFlags × Counts :=
  d.fmt.encodeRow d.ovp (fun b => c.scaleOf d ((d.lin 0 i j k + b * d.fmt.blockLen) / 4096)) xs

/-! ## Address rules -/

/-- The state of the channel that serves an address: TEST and RETIRED channels serve no address (R487). -/
def State.holeAt (s : State) (pa : Nat) : Bool :=
  match chanOf s.localGib pa with
  | some c => 2 ≤ s.fld F.CH_STATE_STATE c.gch
  | none => false

/-- Whether any channel is in TEST or RETIRED. -/
def State.anyHole (s : State) : Bool := (List.range 512).any (fun g => decide (2 ≤ s.fld F.CH_STATE_STATE g))

/-- The first granule of a span that a missing channel would serve. -/
def State.holeIn (s : State) (pa n : Nat) : Option Nat :=
  if s.anyHole then
    ((List.range ((pa + n - 1) / 256 + 1 - pa / 256)).map (fun k => max pa (256 * (pa / 256 + k)))).find? s.holeAt
  else none

/-- The permitted ranges of the agent view table (R41). -/
inductive View where
  | compute          -- engines, vector unit, attention unit: interleaved range and region scratch
  | mover            -- data mover and reduction trees: also the stack-local apertures
  | ilv              -- the interleaved range alone
  | words            -- WAIT and SIGNAL: interleaved range or an aperture (R66)
  | apt (s : Nat)    -- one aperture (R42)
  | apts             -- any aperture (R71)
  | aptsOf (q : Nat) -- the apertures of region q's stacks (R49)
  deriving DecidableEq, Repr

/-- Whether a range is permitted. -/
def View.allows (v : View) (r : Range) : Bool :=
  match v, r with
  | .compute, .ilv => true
  | .compute, .scratch _ => true
  | .mover, .ilv => true
  | .mover, .scratch _ => true
  | .mover, .apt _ => true
  | .ilv, .ilv => true
  | .words, .ilv => true
  | .words, .apt _ => true
  | .apt s, .apt t => s = t
  | .apts, .apt _ => true
  | .aptsOf q, .apt t => t / 8 = q
  | _, _ => false

/-- The address that a failing operand span reports (R31, R41, R43, R506): none when the span is permitted and populated. A span that
both crosses the end of its range and meets a TEST or RETIRED channel reports the end of the range (log 57). -/
def State.spanFault (s : State) (v : View) (pa n : Nat) : Option Nat :=
  let l := s.localGib
  if n = 0 then none
  else if ¬ v.allows (rangeOf l pa) then some pa
  else if rangeEnd l pa < pa + n then some (rangeEnd l pa)
  else s.holeIn pa n

/-- The whole of a span that overlaps another: the lowest shared address (R72). -/
def Td.overlap (a b : Td) : Option Nat := overlapAt a.base a.spanLen b.base b.spanLen

/-- The lower of two optional addresses. -/
def lowerOf (a b : Option Nat) : Option Nat :=
  match a, b with
  | some x, some y => some (min x y)
  | some x, none => some x
  | none, y => y

/-! ## Checks of a packet (R62) -/

/-- Failing fields of a packet by check: pairs of byte offset and DETAIL. -/
structure Checks where
  length   : List (Nat × Nat) := []
  reserved : List (Nat × Nat) := []
  format   : List (Nat × Nat) := []
  limit    : List (Nat × Nat) := []
  address  : List (Nat × Nat) := []
  deriving DecidableEq, Repr

def Checks.app (a b : Checks) : Checks :=
  { length := a.length ++ b.length, reserved := a.reserved ++ b.reserved, format := a.format ++ b.format,
    limit := a.limit ++ b.limit, address := a.address ++ b.address }

def Checks.all (xs : List Checks) : Checks := xs.foldl Checks.app {}

/-- The entry at the lowest byte offset. -/
def lowestOff : List (Nat × Nat) → Option (Nat × Nat)
  | [] => none
  | p :: ps => match lowestOff ps with
    | none => some p
    | some q => if q.1 < p.1 then some q else some p

/-- The code and DETAIL of the first check that fails, in the order of R62. -/
def Checks.first (c : Checks) : Option (Nat × Nat) :=
  match lowestOff c.length with
  | some p => some (0x0105, p.2)
  | none => match lowestOff c.reserved with
    | some p => some (0x0102, p.2)
    | none => match lowestOff c.format with
      | some p => some (0x0103, p.2)
      | none => match lowestOff c.limit with
        | some p => some (0x0402, p.2)
        | none => match lowestOff c.address with
          | some p => some (0x0104, p.2)
          | none => none

def failLen (b : Bool) (off : Nat) : Checks := if b then { length := [(off, off)] } else {}
def failLenD (b : Bool) (off d : Nat) : Checks := if b then { length := [(off, d)] } else {}
def failRsv (b : Bool) (off : Nat) : Checks := if b then { reserved := [(off, off)] } else {}
def failFmt (b : Bool) (off : Nat) : Checks := if b then { format := [(off, off)] } else {}
def failLim (b : Bool) (off : Nat) : Checks := if b then { limit := [(off, off)] } else {}
def failAdr (b : Bool) (off d : Nat) : Checks := if b then { address := [(off, d)] } else {}
def failAdrO (o : Option Nat) (off : Nat) : Checks := match o with | some d => { address := [(off, d)] } | none => {}

/-- Bytes `off` to `off + n - 1` must be zero: the first that is not is reported (R62). -/
def mustZero (pkt off n : Nat) : Checks :=
  if le pkt off n = 0 then {}
  else match lowest n (fun k => decide (le pkt (off + k) 1 ≠ 0)) with
    | some k => { reserved := [(off + k, off + k)] }
    | none => {}

/-- Bits `hi` to `lo` of the field at `off` must be zero; the first offending byte is reported. -/
def bitsZero (pkt off hi lo : Nat) : Checks :=
  let v := leBits pkt off hi lo <<< lo
  if v = 0 then {}
  else match lowest 8 (fun k => decide ((v >>> (8 * k)) % 256 ≠ 0)) with
    | some k => { reserved := [(off + k, off + k)] }
    | none => {}

/-- The packet with the bytes of a field cleared. -/
def clearBytes (pkt : Nat) (p : Nat × Nat) : Nat := setBits pkt (8 * (p.1 + p.2) - 1) (8 * p.1) 0

/-- Every byte of the body that no field of `used` (offset and size) covers must be zero. -/
def unlisted (c : Cmd) (used : List (Nat × Nat)) : Checks := mustZero (used.foldl clearBytes c.pkt) 0x10 (64 * c.len - 24)

/-- LEN must be `n` (R62). -/
def lenIs (c : Cmd) (n : Nat) : Checks := failLen (c.len ≠ n) 0x0E

/-- The 48-bit address field at an offset: bits [63:48] are reserved. -/
def addrRsv (pkt off : Nat) : Checks := bitsZero pkt off 63 48

/-- Every check that a descriptor carries by itself (R69, R70, R93, R97): `src` for a source, `ok` the formats its opcode
admits. -/
def tdChecks (pkt : Nat) (src : Bool) (ok : Fmt → Bool) (d : Td) : Checks :=
  let o := d.off
  let rankBad := d.rank = 0 ∨ 4 < d.rank
  Checks.all [
    failLen rankBad (o + 8),
    Checks.all ((List.range 4).map (fun k =>
      failLen (d.e k = 0 ∨ (¬ rankBad ∧ d.rank ≤ k ∧ d.e k ≠ 1)) (o + 0xC + 4 * k))),
    bitsZero pkt o 63 48, bitsZero pkt (o + 8) 7 7, bitsZero pkt (o + 9) 7 2,
    failRsv (if src then d.ovp ≠ 0 else d.ovp = 3) (o + 9),
    mustZero pkt (o + 0x1C) 4, mustZero pkt (o + 0x2C) 4,
    match Fmt.ofCode d.fmtc with
    | none => failFmt true o
    | some f =>
      Checks.all [
        failFmt (¬ ok f) o,
        failFmt (d.e 0 % f.blockLen ≠ 0) o,
        failFmt (match f with | .int8 => false | .wb8 => d.scale = 0xFFFF | _ => d.scale ≠ 0xFFFF) o,
        failLen (f.isBlock ∧ 2 ≤ d.rank ∧ d.strd 1 < f.rowBytes (d.e 0)) (o + 0x20),
        failAdr (if f.isBlock then d.base % 64 ≠ 0 else d.base % (f.elemBits / 8) ≠ 0) o d.base]]

/-- An address field: bits [63:48] zero, aligned, and its span in the permitted view (R506). One that is misaligned and beyond its range
reports the misaligned address (log 57). -/
def State.addrCheck (s : State) (v : View) (c : Cmd) (off align n : Nat) : Checks :=
  let a := c.fb off 47 0
  Checks.app (addrRsv c.pkt off) (if a % align ≠ 0 then failAdr true off a else failAdrO (s.spanFault v a n) off)

/-- The range check of a descriptor's span. -/
def State.tdRange (s : State) (v : View) (d : Td) : Checks := failAdrO (s.spanFault v d.base d.spanLen) d.off

/-- The numerics telemetry registers as they stand, which a command takes at its issue (R187). -/
def State.ntelNow (s : State) : Ntel :=
  { scaleBase := s.fld F.NTEL_SCALE_BASE 0 <<< 7
    scaleCount := s.fld F.NTEL_SCALE_COUNT 0
    censusBase := s.fld F.NTEL_CENSUS_BASE 0 <<< 6
    layersLog2 := s.fld F.NTEL_CENSUS_LAYERS_LOG2 0
    uwBase := s.fld F.NTEL_UW_BASE 0 <<< 6
    uwThresh := s.fld F.NTEL_UW_THRESH_THRESH 0 }

/-- Layers of the census and update statistics tables (R190, R201). -/
def Ntel.layers (n : Ntel) : Nat := 2 ^ n.layersLog2
/-- Address of a scale table entry (R188). -/
def Ntel.scaleAddr (n : Ntel) (i : Nat) : Nat := n.scaleBase + 128 * i
/-- Address of a census row (R190). -/
def Ntel.censusRow (n : Ntel) (layer fmt : Nat) : Nat := n.censusBase + (16 * layer + fmt) * 64
/-- Address of an update statistics row (R201). -/
def Ntel.uwRow (n : Ntel) (layer : Nat) : Nat := n.uwBase + layer * 0x240

/-- What reading a scale table entry at issue reads: its line 0 and, of a chunk exponent entry, `n` exponents (R188, R189). -/
def State.entrySpans (s : State) (i n : Nat) : List (Nat × Nat) :=
  let a := s.ntelNow.scaleAddr i
  let l0 := s.readMem a 64
  (a, 64) :: if le l0 2 1 = 2 ∧ leBits l0 0x20 47 0 ≠ 0 then [(leBits l0 0x20 47 0, n)] else []

/-- What the scale entry of an operand reads at issue. -/
def State.scaleSpans (s : State) (d : Td) : List (Nat × Nat) :=
  match d.fmt with
  | .int8 | .wb8 =>
    if d.scale = 0xFFFF ∨ s.ntelNow.scaleCount ≤ d.scale then []
    else s.entrySpans d.scale (le (s.readMem (s.ntelNow.scaleAddr d.scale) 64) 0x30 4)
  | _ => []

/-- The scale table entry an operand names, when the command reads it at issue (R189): its line 0 and its exponent array; or the
operand is refused. -/
def State.scaleEntry (s : State) (d : Td) : Option (Nat × Nat × Nat) × Bool :=
  match d.fmt with
  | .int8 | .wb8 =>
    if d.scale = 0xFFFF then (none, decide (d.fmt = .wb8))
    else if s.ntelNow.scaleCount ≤ d.scale then (none, true)
    else
      let l0 := s.readMem (s.ntelNow.scaleAddr d.scale) 64
      let kind := le l0 2 1
      let want := if d.fmt = .int8 then 1 else 2
      let sc := fp32Val (le l0 8 4)
      let ce := leBits l0 0x20 47 0
      let chunks := le l0 0x30 4
      if kind ≠ want ∨ le l0 1 1 ≠ 1 then (none, true)
      else if kind = 1 ∧ (sc.isZero ∨ ¬ sc.isFin) then (none, true)
      else if kind = 2 ∧ ce ≠ 0 ∧ 4096 * chunks < d.count then (none, true)
      else (some (d.scale, l0, if kind = 2 ∧ ce ≠ 0 then s.readMem ce chunks else 0), false)
  | _ => (none, false)

/-! ## Operand spans and hot stacks (R247, R248, R269) -/

/-- Offsets of the descriptors in a command's body. -/
def tdOffsets (op : Nat) : List Nat :=
  match op with
  | 0x1001 | 0x1002 | 0x1006 | 0x2004 | 0x3003 | 0x3006 => [0x10, 0x40]
  | 0x1003 | 0x7001 => [0x40]
  | 0x1004 | 0x1005 => [0x10, 0x40, 0x80]
  | 0x2001 | 0x2002 | 0x2003 => [0x10, 0x40, 0x70, 0xA0]
  | 0x3001 | 0x3004 => [0x10, 0x40, 0x70]
  | 0x3002 => [0x10, 0x40, 0x70, 0xA0, 0xD0, 0x100]
  | 0x4001 => [0x10, 0x40, 0x70, 0xA0, 0xD0]
  | 0x4002 => [0x10, 0x40, 0x70, 0xA0, 0xD0, 0x100, 0x130, 0x160, 0x190]
  | 0x4003 => [0x20, 0x50]
  | 0x5001 | 0x5002 | 0x5003 => [0x10, 0x40, 0x70, 0xA0, 0xD0]
  | 0x5004 => [0x10]
  | 0x6001 | 0x6002 | 0x6003 | 0x6004 | 0x6005 => [0x10, 0x40]
  | _ => []

/-- Bytes of the snapshot block of a SET (R448). -/
def snapLen (set_ : Nat) : Nat := 64 + 8 * (53 * b2n (set_.testBit 0) + 80 * b2n (set_.testBit 1) + 38 * b2n (set_.testBit 2))

/-- Bytes of the mask of a class 0x2 command (R129). -/
def Cmd.maskLen (c : Cmd) : Nat :=
  let d := tdAt c.pkt 0x70
  let g := ceilDiv (d.e 1) 128
  match c.f 0xD8 1 with
  | 1 => ceilDiv g 8
  | 2 => ceilDiv (g * ceilDiv (d.e 0) 512) 8
  | _ => 0

/-- Address fields of a command's body with the bytes that they name; a length of 0 names nothing. -/
def Cmd.addrSpans (c : Cmd) : List (Nat × Nat) :=
  let at_ (off n : Nat) : Nat × Nat := (c.fb off 47 0, n)
  let opt (off n : Nat) : Nat × Nat := (c.fb off 47 0, if c.fb off 47 0 = 0 then 0 else n)
  match c.opcode with
  | 0x0002 | 0x0003 => [at_ 0x10 8]
  | 0x0004 => [at_ 0x10 256]
  | 0x2002 | 0x2003 => [at_ 0xE0 c.maskLen]
  | 0x3005 => [at_ 0x10 8320]
  | 0x4001 => let q := tdAt c.pkt 0x10; [opt 0x118 (4 * q.e 3 * q.e 1), opt 0x120 (8 * q.e 3)]
  | 0x4002 => let q := tdAt c.pkt 0x10; [opt 0x1D8 (4 * q.e 3 * q.e 1)]
  | 0x4003 | 0x4005 => [at_ 0x10 64]
  | 0x4004 => [at_ 0x10 64, at_ 0x18 64]
  | 0x4006 => [at_ 0x28 (16 * c.f 0x20 4)]
  | 0x7001 => [at_ 0x10 128, at_ 0x18 64]
  | 0x7002 => [at_ 0x10 (c.f 0x18 4), at_ 0x20 (4 * c.f 0x28 4), opt 0x30 16]
  | 0x7003 => [at_ 0x10 64]
  | 0x7004 => [at_ 0x10 (8 * c.f 0x18 4)]
  | 0x7005 => if c.f 0x10 1 = 0 then [at_ 0x18 32] else []
  | 0x8001 | 0x8002 | 0x8003 | 0x8004 => [at_ 0x10 (c.f 0x18 8)]
  | 0x8005 =>
    if c.f 0x10 1 = 0 then
      [at_ 0x18 (c.f 0x20 4 * c.f 0x24 4 * (if aptBase ≤ c.fb 0x18 47 0 then 0x100000 else 0x2000000))]
    else []
  | 0xA002 => [at_ 0x30 768]
  | 0xA003 => [at_ 0x10 (c.f 0x18 4)]
  | 0xA004 => match c.f 0x10 1 with | 0 => [at_ 0x18 64] | 1 => [at_ 0x18 384] | _ => []
  | 0xB003 => [at_ 0x10 (snapLen (c.f 0x18 1))]
  | 0xB005 => [at_ 0x18 64]
  | _ => []

/-- The operand spans that a command names in its body. -/
def Cmd.operandSpans (c : Cmd) : List (Nat × Nat) :=
  (((tdOffsets c.opcode).map (fun o => let d := tdAt c.pkt o; (d.base, d.spanLen))) ++ c.addrSpans).filter (fun p => p.2 ≠ 0)

/-- Whether a stack holds a byte of a span. A span of 1,024 granules of the interleaved range lies on every stack (R32). -/
def State.onStack (s : State) (st pa n : Nat) : Bool :=
  match rangeOf s.localGib pa with
  | .ilv => decide (0x40000 ≤ n) || (List.range ((pa + n - 1) / 256 + 1 - pa / 256)).any (fun k =>
      match chanOf s.localGib (256 * (pa / 256 + k)) with | some c => decide (c.gch / 16 = st) | none => false)
  | .apt t => decide (t = st)
  | _ => false

/-- The lowest stack at or above a temperature grade that holds a byte of the spans. -/
def State.hotStack (s : State) (grade : Nat) (spans : List (Nat × Nat)) : Option Nat :=
  (List.range 32).find? (fun st => decide (grade ≤ s.fld F.STK_THERM_GRADE st) && spans.any (fun p => s.onStack st p.1 p.2))

/-- Whether a stack that holds a byte of the spans is in protective self-refresh: requests of every class wait there (R248). -/
def State.asleep (s : State) (spans : List (Nat × Nat)) : Bool := (s.hotStack 4 spans).isSome

/-- Whether a command's requests are BULK or BACK (R242): collectives are COLL, WAIT and SIGNAL CRIT. -/
def Cmd.bulk (c : Cmd) : Bool := decide (c.opcode / 4096 ≠ 6 ∧ c.opcode ≠ 0x0002 ∧ c.opcode ≠ 0x0003)

/-- Whether a command's requests wait on a hot stack: BULK and BACK at CRITICAL, every class in protective self-refresh (R247, R248).
A hint itself makes no request: its swaps pause. A collective and a SLICE_FETCH start, and single transfers of theirs wait (R389). -/
def State.stalled (s : State) (c : Cmd) : Bool :=
  decide (c.opcode / 4096 ≠ 8 ∧ ¬ (0x6001 ≤ c.opcode ∧ c.opcode ≤ 0x6005) ∧ c.opcode ≠ 0x6009) && (s.hotStack (if c.bulk then 3 else 4) c.operandSpans).isSome

end Sys2Proof.Machine
end

