-- ==== Sys2Proof/Machine/Cmds.lean ====
section
/-! DEFINITION. What every meaning of a command does to the command itself: ending it with a status (R75, R76), noting what was
absorbed, and the checks on where it stands. -/
namespace Sys2Proof.Machine

/-- Ends a command with a status and DETAIL: the first ending condition stands (R76). -/
def State.finish (s : State) (r : CmdRef) (status detail : Nat) : State :=
  s.modCmd r (fun c => if c.phase = .ended ∨ c.phase = .completed then c
    else { c with phase := .ended, status := status, detail := detail })

/-- Records that a command has written to a destination (PARTIAL, R74). -/
def State.wrote (s : State) (r : CmdRef) : State := s.modCmd r (fun c => { c with wrote := true })

/-- Notes an absorbed condition (R75). -/
def State.noteCmd (s : State) (r : CmdRef) (code : Nat) : State := s.modCmd r (fun c => if c.notes.contains code then c else { c with notes := code :: c.notes })

/-- Sets the phase of a command. -/
def State.phaseCmd (s : State) (r : CmdRef) (p : Phase) : State := s.modCmd r (fun c => { c with phase := p })

/-- Whether a unit that QUARANTINE takes out still has work: the tile, the sample or the slice in progress (R484). -/
def State.unitBusy (s : State) (u lane : Nat) : Bool :=
  let r := u / 256; let c := u % 256
  if r < 4 then
    if c < 4 then
      let e := s.engine (4 * r + c)
      e.compute.isSome || e.drain.isSome || e.saving.isSome
    else
      let w := s.upd (8 * r + c % 8)
      decide (w.slices ≠ [] ∨ w.adds ≠ [])
  else if u = unitBolter then (Tab.get none s.input.vlanes lane).isSome
  else if u = unitTok then (Tab.get none s.input.tlanes lane).isSome
  else false

/-- Ends each QUARANTINE whose unit has finished its work; a RESTORE of an update unit returns the unit to service then (R484). -/
def State.settleQuars (s : State) : State :=
  s.cmds.foldl (fun (t : State) c =>
    let u := c.f 0x10 2
    if c.opcode = 0x9002 ∧ c.phase = .running ∧ ¬ t.unitBusy u (c.f 0x12 1) then
      (if c.f 0x13 1 = 1 then t.setFld F.UPD_CTL_MODE (8 * (u / 256) + u % 8) 0 else t).finish c.ref 0 0
    else t) s

/-- A command waits on a hot stack: it ends with note 0x0600 if nothing else is reported (R248). -/
def State.stall (s : State) (c : Cmd) : State := if c.bulk then s.noteCmd c.ref 0x0600 else s

/-- Whether a home that a request to the spans would reach has a transaction in progress on the line: the request waits its turn (R281). -/
def State.homeWaits (s : State) (spans : List (Nat × Nat)) : Bool := s.homes.any (fun p => p.2.txn.isSome && inSpans spans p.1)

/-- Runs a command's effect: the command exists, has issued to its unit with the opcode named, and is not held by a poison hold.
Otherwise the event does not occur (log 2). A command whose requests wait on a hot stack waits, and so does one whose operands
touch a line on which a home has a transaction in progress (R276, R281). -/
def State.run (s : State) (r : CmdRef) (opcode : Nat) (k : Cmd → State) : State :=
  match s.cmd r with
  | some c =>
    if c.opcode = opcode ∧ c.phase = .issued ∧ ¬ c.held ∧ s.running then (if s.stalled c then s.stall c else if s.homeWaits c.operandSpans then s else k c) else s
  | none => s

/-! ## Which command a unit takes (R47) -/

/-- Round-robin order within a priority level (R47): `last` is one more than the queue served last at it, and 0 before any: then the order
starts at queue 0 (log 55). -/
def rrKey (last q : Nat) : Nat := (q + 256 - last) % 256

/-- The command of the lowest priority level present, in round-robin order of queues; `unit` names the served unit (R47). -/
def State.pick (s : State) (unit : Nat) (cs : List Cmd) : Option Cmd :=
  (List.range 4).findSome? (fun p =>
    let lv := cs.filter (fun c => s.fld F.Q_CFG_PRIO c.ref.q = p)
    let last := Tab.get 0 s.lastAt (4 * unit + p)
    lv.foldl (fun (best : Option Cmd) c =>
      match best with
      | none => some c
      | some b => if rrKey last c.ref.q < rrKey last b.ref.q then some c else some b) none)

/-- Notes the queue served at its level (R47). -/
def State.served (s : State) (unit : Nat) (r : CmdRef) : State :=
  { s with lastAt := Tab.set 0 s.lastAt (4 * unit + s.fld F.Q_CFG_PRIO r.q) (r.q + 1) }

/-- The unit that runs a command whole and that commands of several queues contend for: the data movers, the reduction trees, the vector
and the attention units, and for GRAD_CLEAR the update unit of its stack. Engines take items; the other units keep orders of their own. -/
def State.unitOf (s : State) (c : Cmd) : Option Nat :=
  let q := s.regionOf c.ref.q
  if c.opcode / 4096 = 1 then some (unitMover q)
  else if c.opcode = 0x2004 then some (unitAcc q)
  else if c.opcode / 4096 = 3 then some (unitVec q)
  else if c.opcode / 4096 = 4 then some (unitAtt q)
  else if c.opcode = 0x5004 then
    match rangeOf s.localGib (tdAt c.pkt 0x10).base with
    | .apt st => some (unitUpd st)
    | _ => none
  else none

/-- Whether a command's queue has the turn at the unit that runs it. -/
def State.turn (s : State) (c : Cmd) : Bool :=
  match s.unitOf c with
  | none => true
  | some u =>
    match s.pick u (s.cmds.filter (fun x => decide (x.phase = .issued ∧ ¬ x.held ∧ s.unitOf x = some u) && ! s.stalled x)) with
    | some x => decide (x.ref.q = c.ref.q)
    | none => true

/-- The state with the command's queue as the last one its unit served. -/
def State.tookTurn (s : State) (c : Cmd) : State := match s.unitOf c with | some u => s.served u c.ref | none => s

/-- As `run`, for a unit that a Freeze stops (R470), when it is the turn of the command's queue there (R47). -/
def State.runUnit (s : State) (r : CmdRef) (opcode : Nat) (k : Cmd → State) : State :=
  if s.frozen then s else s.run r opcode (fun c => if s.turn c then (k c).tookTurn c else s)

/-- Counts operations of a command (R449). -/
def State.account (s : State) (r : CmdRef) (f : Acct → Acct) : State := s.modCmd r (fun c => { c with acct := f c.acct })

/-- The outcome of every meaning that completes its step. -/
abbrev ok (s : State) : Host.Outcome State Fault Refusal := .next s

/-- A command meets poisoned data (R238, R268): it ends with POISON at the poisoned line, unless its unit is under a hold, when
it waits there (R269). -/
def State.poisoned (s : State) (r : CmdRef) (pa : Nat) : State := s.finish r 0x0300 pa

/-- The first poisoned line among spans of address and length. -/
def State.firstBad (s : State) (spans : List (Nat × Nat)) : Option Nat :=
  (spans.findSome? (fun p => s.badIn p.1 p.2)).map (64 * ·)

/-! ## The way that data takes (R16, R17, R448) -/

/-- The path from one region code to another (R17): die-to-die links in the order of R16, each with whether it is taken toward the higher
region code. Ring neighbours take their ring link, H takes the hub link, and opposite regions go through H. -/
def linkPath (a b : Nat) : List (Nat × Bool) :=
  if a = b ∨ 4 ≤ a ∧ 4 ≤ b then []
  else if 4 ≤ a then [(4 + b, false)]
  else if 4 ≤ b then [(4 + a, true)]
  else if (a + 1) % 4 = b then [(a, decide (a < b))]
  else if (b + 1) % 4 = a then [(b, decide (a < b))]
  else [(4 + a, true), (4 + b, false)]

/-- The region code of the die that holds an address. -/
def State.regionAt (s : State) (pa : Nat) : Option Nat :=
  match rangeOf s.localGib pa with
  | .scratch q => some q
  | _ => (chanOf s.localGib pa).map (fun c => c.gch / 128)

/-- `n` data bytes travel from one region to another: each link of the path counts them (R448). -/
def State.travel (s : State) (src dst n : Nat) : State :=
  (linkPath src dst).foldl (fun (t : State) l => t.compat (6 + 2 * l.1 + b2n (! l.2)) n) s

/-- The bytes of spans travel between the region that holds them and the region `here` of the unit that reads (`inward`) or writes
them. -/
def State.carry (s : State) (here : Nat) (inward : Bool) (spans : List (Nat × Nat)) : State :=
  spans.foldl (fun (t : State) p =>
    if p.2 = 0 then t
    else (List.range (lineOf (p.1 + p.2 - 1) + 1 - lineOf p.1)).foldl (fun (t : State) k =>
      let a := max p.1 (64 * (lineOf p.1 + k))
      let n := min (p.1 + p.2) (64 * (lineOf p.1 + k + 1)) - a
      match t.regionAt a with
      | some q => if inward then t.travel q here n else t.travel here q n
      | none => t) t) s

/-- A command's reads of the given spans: the data comes to the region that services its queue. -/
def State.fetchSpans (s : State) (r : CmdRef) (spans : List (Nat × Nat)) : State := (s.demand spans).carry (s.regionOf r.q) true spans

/-- The command processor and the networks read spans of memory by ReadOnce (R48, R361): the data comes to H. -/
def State.hubReads (s : State) (spans : List (Nat × Nat)) : State := (s.demand spans).carry 8 true spans

/-- `n` bytes written at `pa` by a unit of H. -/
def State.hubWrites (s : State) (pa v n : Nat) : State := (s.writeMem pa v n).carry 8 false [(pa, n)]

/-- A command's effect `k` after its reads of the given spans (R237, R238): poison ends it before its effect. -/
def State.readingThen (s : State) (r : CmdRef) (spans : List (Nat × Nat)) (k : State → State) : State :=
  let t := s.fetchSpans r spans
  match t.firstBad spans with
  | some pa => t.poisoned r pa
  | none => k t

/-- The spans of a tensor's rows. -/
def Td.spans (d : Td) : List (Nat × Nat) := d.rows.map (fun p => (d.rowAddr p.1 p.2.1 p.2.2, d.rowLen))

/-- Writes part of a row of a destination: the elements from `n0` on, `n0` a multiple of the block length (R93). Padding is
written with the last part. -/
def State.writePart (s : State) (c : Cmd) (d : Td) (i j k n0 : Nat) (xs : List Val) : State × NumFlags × Counts :=
  let f := d.fmt
  let b0 := d.lin n0 i j k / f.blockLen
  let (img, fl, cn) := f.encodeRow d.ovp (fun b => c.scaleOf d ((b0 + b) * f.blockLen / 4096)) xs
  let a := d.rowAddr i j k
  let n := xs.length
  let eb := n * f.elemBits / 8
  let s1 := s.writeMem (a + n0 * f.elemBits / 8) (img % 2 ^ (8 * eb)) eb
  let s2 :=
    if f.rowed then
      let nb := n / f.blockLen
      let so := f.scaleOff (d.e 0)
      let tot := d.e 0 / f.blockLen
      let sb := nb * f.scaleBytes
      let t := s1.writeMem (a + so + n0 / f.blockLen * f.scaleBytes) (le img eb sb) sb
      let t := if f = .vb4 then t.writeMem (a + so + tot + 3 * (n0 / f.blockLen)) (le img (eb + sb) (3 * nb)) (3 * nb) else t
      let used := so + tot * (f.scaleBytes + if f = .vb4 then 3 else 0)
      if n0 + n = d.e 0 then t.writeMem (a + used) 0 (d.rowLen - used) else t
    else s1
  (s2.carry (s.regionOf c.ref.q) false [(a + n0 * f.elemBits / 8, eb)], fl, cn)

/-- Writes a whole row of values of a destination and counts the converted elements (R190: key 16 + code). -/
def State.writeRow (s : State) (r : CmdRef) (c : Cmd) (d : Td) (i j k : Nat) (xs : List Val) : State × NumFlags :=
  let (t, fl, cn) := s.writePart c d i j k 0 xs
  ((t.modCmd r (fun x => { (x.addCounts (16 + d.fmt.code) cn) with wrote := true })), fl)

/-- One level of a balanced pairwise tree with its flags. -/
def pairUp (op : Val → Val → Val × NumFlags) : List Val → List Val × NumFlags
  | x :: y :: rest =>
    let (v, f) := op x y
    let (vs, g) := pairUp op rest
    (v :: vs, f.or g)
  | xs => (xs, {})

/-- The fixed tree of R144 over the values, an odd last one passing up; `fuel` bounds the levels. -/
def fixedTree (op : Val → Val → Val × NumFlags) : Nat → List Val → Val × NumFlags
  | 0, xs => (xs.headD .zero, {})
  | n + 1, xs =>
    match xs with
    | [] => (.zero, {})
    | [v] => (v, {})
    | _ =>
      let (ys, f) := pairUp op xs
      let (v, g) := fixedTree op n ys
      (v, f.or g)

/-- Values computed with flags, and the flags together. -/
def gather (xs : List (Val × NumFlags)) : List Val × NumFlags := (xs.map (·.1), xs.foldl (fun (a : NumFlags) p => a.or p.2) {})

/-- Values taken into W64, with the flags of the roundings: an infinity saturates there (R102). -/
def intoW64 (vs : List Val) : List Val × NumFlags := gather (vs.map formW64.round)

/-- The FP32 bits of an amax (R151): R107 with OVP INF, NaN giving 0x7FC0_0000; the conversion's flags. -/
def amaxBits (v : Val) : Nat × NumFlags :=
  let c := (Target.float fFp32).convert v 2 none
  (c.raw, c.fl)

/-- The word that an AMAX_IDX names (R151). -/
def State.amaxWord (s : State) (region idx : Nat) : Nat := s.fld F.ACC_AMAX_BASE_BASE region <<< 6 + 4 * idx

end Sys2Proof.Machine
end

