-- ==== Sys2Proof/Machine/Engine.lean ====
section
/-! DEFINITION. The Millstone engines and the accumulation unit: spec/05_millstone_engines.md and spec/06_accumulation.md, R112
to R158. One K step of one weight tile is one command of the block (KSTEP_END); so is each drain of a Millpond half. -/
namespace Sys2Proof.Machine

/-! ## Geometry of a class 0x2 command -/

/-- The convolution parameters (R132). -/
structure ConvP where
  dir : Nat
  fs  : Nat
  r : Nat
  s : Nat
  u : Nat
  sw : Nat
  sh : Nat
  sf : Nat
  pw : Nat
  ph : Nat
  pf : Nat
  dw : Nat
  dh : Nat
  df : Nat
  deriving DecidableEq, Repr

def convP (pkt : Nat) : ConvP :=
  { dir := le pkt 0x100 1, fs := le pkt 0x102 2, r := le pkt 0x104 1, s := le pkt 0x105 1, u := le pkt 0x106 1,
    sw := le pkt 0x108 1, sh := le pkt 0x109 1, sf := le pkt 0x10A 1, pw := le pkt 0x10C 1, ph := le pkt 0x10D 1, pf := le pkt 0x10E 1,
    dw := le pkt 0x110 1, dh := le pkt 0x111 1, df := le pkt 0x112 1 }

/-- The extent of a convolution's output in one dimension (R133), as an integer: below 1 the packet is refused. -/
def convOut (w p d r st : Nat) : Int :=
  if st = 0 then 0 else ((w : Int) + 2 * p - d * (r - 1) - 1) / st + 1

/-- The operand classes of R113. -/
def Fmt.is8 (f : Fmt) : Bool := match f with | .e4m3 | .e5m2 | .mxfp8 | .mxfp6e3m2 | .mxfp6e2m3 | .int8 => true | _ => false
def Fmt.is16 (f : Fmt) : Bool := match f with | .bf16 | .fp16 => true | _ => false
def Fmt.is4 (f : Fmt) : Bool := match f with | .mxfp4 | .vb4 => true | _ => false

/-- Leaves of a cell per pass (R113). -/
def leavesPerCell (a b : Fmt) (passes : Nat) : Nat :=
  if 2 ≤ passes then 2
  else if a.is4 ∧ b = .vt2 then 4
  else if (a.is4 ∧ b.is4) ∨ (a.is8 ∧ b = .vt2) then 2
  else 1

/-- Tile depth KT (R113). -/
def tileDepth (a b : Fmt) (passes : Nat) : Nat := if 2 ≤ passes then 128 else 128 * leavesPerCell a b passes

/-- What the fields of a class 0x2 command amount to. -/
structure Geo where
  op : Nat
  a : Td
  b : Td
  d : Td
  e : Td
  transA : Bool
  transB : Bool
  passes : Nat
  s : Nat            -- shares
  mask : Nat         -- ENG_MASK
  epi : Nat
  amax : Nat
  maskMode : Nat
  dmode : Nat
  cv : ConvP
  m : Nat
  n : Nat
  k : Nat
  nb : Nat           -- batches
  deriving DecidableEq, Repr

namespace Geo

def kt (g : Geo) : Nat := tileDepth g.a.fmt g.b.fmt g.passes
def nk (g : Geo) : Nat := ceilDiv g.k g.kt
def cnt (g : Geo) : Nat := ceilDiv g.nk g.s
def nc (g : Geo) : Nat := ceilDiv g.k (2 ^ 24)
def mt (g : Geo) : Nat := if g.m ≤ 4096 then g.m else 2048
def nm (g : Geo) : Nat := ceilDiv g.m g.mt
def nt (g : Geo) : Nat := ceilDiv g.n 512
def items (g : Geo) : Nat := g.nb * g.nm * g.nt * g.s
/-- Output tile of an item. -/
def tile (g : Geo) (item : Nat) : Nat := item / g.s
def share (g : Geo) (item : Nat) : Nat := item % g.s
def ntile (g : Geo) (tile : Nat) : Nat := tile % g.nt
def mtile (g : Geo) (tile : Nat) : Nat := tile / g.nt % g.nm
def batch (g : Geo) (tile : Nat) : Nat := tile / g.nt / g.nm
/-- Rows of an output tile, and its columns. -/
def rowsOf (g : Geo) (tile : Nat) : Nat := min g.mt (g.m - g.mtile tile * g.mt)
def colsOf (g : Geo) (tile : Nat) : Nat := min 512 (g.n - 512 * g.ntile tile)
/-- First and end weight tile of a share or chunk (R126, R142). -/
def range (g : Geo) (item chunk : Nat) : Nat × Nat :=
  if g.nc ≤ 1 then
    let i := g.share item
    (min (i * g.cnt) g.nk, min ((i + 1) * g.cnt) g.nk)
  else
    let per := 2 ^ 24 / g.kt
    (chunk * per, min ((chunk + 1) * per) g.nk)
/-- Frames an output tile needs (R146). -/
def frames (g : Geo) : Nat := if g.s = 4 then 2 else if g.s = 2 then 1 else if g.nc ≤ 1 then 0 else 1
/-- Whether values are held in W64 (R149). -/
def wide (g : Geo) : Bool := decide (1 < g.s) || decide (1 < g.nc)

/-- Extents of the convolution output. -/
def wo (g : Geo) : Nat := (if g.cv.dir = 0 then g.d else if g.cv.dir = 1 then g.a else g.b).e 1
def ho (g : Geo) : Nat := (if g.cv.dir = 0 then g.d else if g.cv.dir = 1 then g.a else g.b).e 2
def fo (g : Geo) : Nat :=
  let x := if g.cv.dir = 1 then g.d else g.a
  let y := if g.cv.dir = 0 then g.d else if g.cv.dir = 1 then g.a else g.b
  y.e 3 / (x.e 3 / g.cv.fs)

/-- Indices 1 to 3 of the row of D (and of E) that row `m` of batch `b` is. -/
def dRow (g : Geo) (b m : Nat) : Nat × Nat × Nat :=
  if g.op = 0x2001 then (m, b, 0)
  else if g.op = 0x2003 ∧ g.cv.dir ≠ 2 then (m % g.d.e 1, m / g.d.e 1 % g.d.e 2, m / g.d.e 1 / g.d.e 2)
  else (m, 0, 0)

end Geo

/-- The geometry of a command. -/
def Cmd.geo (c : Cmd) : Geo :=
  let p := c.pkt
  let a := tdAt p 0x10; let b := tdAt p 0x40; let d := tdAt p 0x70; let e := tdAt p 0xA0
  let op := c.opcode
  let cv := convP p
  let ta := (le p 0xD0 1).testBit 2; let tb := (le p 0xD0 1).testBit 3
  let (m, n, k, nb) :=
    if op = 0x2001 then
      (if ta then a.e 0 else a.e 1, if tb then b.e 1 else b.e 0, if ta then a.e 1 else a.e 0, if a.rank = 3 then a.e 2 else 1)
    else if op = 0x2002 then (a.e 0, b.e 0, a.e 1, 1)
    else if cv.dir = 2 then (d.e 1, d.e 0, b.e 1 * b.e 2 * b.e 3, 1)
    else if cv.dir = 1 then (d.e 1 * d.e 2 * d.e 3, d.e 0, a.e 0 * cv.r * cv.s * cv.u, 1)
    else (d.e 1 * d.e 2 * d.e 3, d.e 0, b.e 1, 1)
  { op := op, a := a, b := b, d := d, e := e, transA := ta, transB := tb, passes := bits (le p 0xD0 1) 1 0,
    s := 2 ^ bits (le p 0xD0 1) 5 4, mask := le p 0xD1 1 % 16, epi := le p 0xD5 1, amax := le p 0xD6 2,
    maskMode := if op = 0x2001 then 0 else le p 0xD8 1, dmode := if op = 0x2001 then 0 else le p 0xD9 1,
    cv := cv, m := m, n := n, k := k, nb := nb }

/-! ## Masks (R129, R130) -/

/-- Whether the element of row `m` and the columns of N tile `nt` is computed. -/
def Geo.computed (g : Geo) (mask m nt : Nat) : Bool :=
  match g.maskMode with
  | 1 => mask.testBit (m / 128)
  | 2 => mask.testBit (m / 128 * ceilDiv g.n 512 + nt)
  | _ => true

/-- Whether an output tile has any computed element. -/
def Geo.tileLive (g : Geo) (mask tile : Nat) : Bool :=
  if g.maskMode = 0 then true
  else (List.range (g.rowsOf tile)).any (fun i => g.computed mask (g.mtile tile * g.mt + i) (g.ntile tile))

/-! ## Operand loading (R119, R128, R132 to R134) -/

/-- An operand element as the array sees it before OPF22: an INT8 scale waits for the drain (R122). -/
def State.loadElem (s : State) (c : Cmd) (d : Td) (i0 i j k : Nat) : Val :=
  (d.fmt.decodeAt (s.rowOf d i j k) (d.e 0) i0 (if d.fmt = .int8 then .one else c.scaleOf d (d.chunkOf i0 i j k))).val

/-- Indices of the input element of a convolution that an output position sees (R134). -/
def Geo.convAt (g : Geo) (x : Td) (kk mo : Nat) : Option (Nat × Nat × Nat × Nat) :=
  let cv := g.cv
  let ch := kk % x.e 0; let r := kk / x.e 0 % cv.r; let t := kk / x.e 0 / cv.r % cv.s; let u := kk / x.e 0 / cv.r / cv.s
  let wo := mo % g.wo; let ho := mo / g.wo % g.ho; let fo := mo / g.wo / g.ho % g.fo; let smp := mo / g.wo / g.ho / g.fo
  let w : Int := (wo * cv.sw : Nat) - cv.pw + (r * cv.dw : Nat)
  let h : Int := (ho * cv.sh : Nat) - cv.ph + (t * cv.dh : Nat)
  let f : Int := (fo * cv.sf : Nat) - cv.pf + (u * cv.df : Nat)
  if 0 ≤ w ∧ w < x.e 1 ∧ 0 ≤ h ∧ h < x.e 2 ∧ 0 ≤ f ∧ f < cv.fs then
    some (ch, w.toNat, h.toNat, smp * cv.fs + f.toNat)
  else none

/-- Indices of the dY element of the data gradient (R134). -/
def Geo.gradAt (g : Geo) (y x : Td) (j mi : Nat) : Option (Nat × Nat × Nat × Nat) :=
  let cv := g.cv
  let n := j % y.e 0; let r := j / y.e 0 % cv.r; let t := j / y.e 0 / cv.r % cv.s; let u := j / y.e 0 / cv.r / cv.s
  let w := mi % x.e 1; let h := mi / x.e 1 % x.e 2; let ff := mi / x.e 1 / x.e 2
  let smp := ff / cv.fs; let f := ff % cv.fs
  let qw : Int := (w + cv.pw : Nat) - (r * cv.dw : Nat)
  let qh : Int := (h + cv.ph : Nat) - (t * cv.dh : Nat)
  let qf : Int := (f + cv.pf : Nat) - (u * cv.df : Nat)
  let good (q : Int) (st lim : Nat) : Bool := decide (q % st = 0 ∧ 0 ≤ q / st ∧ q / st < lim)
  if good qw cv.sw g.wo ∧ good qh cv.sh g.ho ∧ good qf cv.sf g.fo then
    some (n, (qw / cv.sw).toNat, (qh / cv.sh).toNat, smp * g.fo + (qf / cv.sf).toNat)
  else none

/-- Indices of element (row m, reduction index k) of operand A of batch `b`: none is an exact +0 (R119, R128, R134). -/
def Geo.aAt (g : Geo) (b m k : Nat) : Option (Nat × Nat × Nat × Nat) :=
  if g.op = 0x2001 then some (if g.transA then (m, k, b, 0) else (k, m, b, 0))
  else if g.op = 0x2002 then some (m, k, 0, 0)
  else match g.cv.dir with
    | 0 => g.convAt g.a k m
    | 1 => g.gradAt g.a g.d k m
    | _ => g.convAt g.a m k

/-- Indices of element (reduction index k, column n) of operand B. -/
def Geo.bAt (g : Geo) (b k n : Nat) : Nat × Nat × Nat × Nat :=
  if g.op = 0x2001 then
    let bb := if g.b.rank = 3 then b else 0
    (if g.transB then (k, n, bb, 0) else (n, k, bb, 0))
  else if g.op = 0x2002 then (n, k, 0, 0)
  else match g.cv.dir with
    | 0 => (n, k, 0, 0)
    | 1 =>                                    -- the filter, read transposed
      let co := g.a.e 0
      (k % co, n + g.d.e 0 * (k / co), 0, 0)
    | _ =>
      let y := g.b
      (n, k % y.e 1, k / y.e 1 % y.e 2, k / y.e 1 / y.e 2)

/-- Element (row m, reduction index k) of operand A of batch `b`. -/
def State.opA (s : State) (c : Cmd) (g : Geo) (b m k : Nat) : Val :=
  match g.aAt b m k with
  | some (i0, i, j, l) => s.loadElem c g.a i0 i j l
  | none => .zero

/-- Element (reduction index k, column n) of operand B. -/
def State.opB (s : State) (c : Cmd) (g : Geo) (b k n : Nat) : Val :=
  let (i0, i, j, l) := g.bAt b k n
  s.loadElem c g.b i0 i j l

/-- The bytes that hold an element: its own, its block's scale and, in VB4, its block's shift fields (R93 to R96). -/
def Td.elemSpans (d : Td) (i0 i j k : Nat) : List (Nat × Nat) :=
  let f := d.fmt
  let a := d.rowAddr i j k
  let bit := i0 * f.elemBits
  let own := (a + bit / 8, (bit % 8 + f.elemBits + 7) / 8)
  if f.rowed then
    let so := a + f.scaleOff (d.e 0)
    let nb := i0 / f.blockLen
    let sc := (so + nb * f.scaleBytes, f.scaleBytes)
    if f = .vb4 then [own, sc, (so + d.e 0 / f.blockLen * f.scaleBytes + 3 * nb, 3)] else [own, sc]
  else [own]

/-! ## One weight tile (R124, R117) -/

/-- The pieces of an operand: an FP32 operand's three, or the value itself (R99). -/
def pieces (isFp32 : Bool) (v : Val) : Val × Val × Val :=
  if isFp32 then
    let (h, m, l) := split3 v
    (toOperand h, toOperand m, toOperand l)
  else (toOperand v, .zero, .zero)

/-- The exact products that one cell forms for one reduction index in a pass (R117). -/
def cellProducts (passes q : Nat) (a b : Val × Val × Val) : List (Val × Bool) :=
  if passes ≤ 1 then [a.1.mul b.1]
  else match q with
    | 1 => [a.1.mul b.1, a.2.1.mul b.2.1]
    | 2 => [a.1.mul b.2.1, a.2.1.mul b.1]
    | _ => [a.1.mul b.2.2, a.2.2.mul b.1]

/-- A leaf: the exact product, then R102. -/
def leaf (p : Val × Bool) : Val × NumFlags :=
  let (v, f) := formAcc.round p.1
  (v, f.or (nvFlag p.2))

/-- The column tree over the leaves of one pass: balanced, in ACC40 (R124). -/
def columnTree (leaves : List (Val × NumFlags)) : Val × NumFlags :=
  let fl : NumFlags := leaves.foldl (fun (a : NumFlags) p => a.or p.2) {}
  let (v, g) := fixedTree formAcc.add 16 (leaves.map (·.1))
  (v, fl.or g)

/-- The tree result of weight tile `t` in pass `q` for one output element. -/
def State.tileSum (s : State) (c : Cmd) (g : Geo) (b m n t q : Nat) : Val × NumFlags :=
  let per := if 2 ≤ g.passes then 2 else 1
  let af := g.a.fmt = .fp32; let bf := g.b.fmt = .fp32
  columnTree ((List.range g.kt).flatMap (fun i =>
    let k := t * g.kt + i
    if g.k ≤ k then List.replicate per (.zero, {})
    else (cellProducts g.passes q (pieces af (s.opA c g b m k)) (pieces bf (s.opB c g b k n))).map leaf))

/-- One K step on one output element: every pass of the weight tile added in turn; `acc` is none before the first. -/
def State.kstepElem (s : State) (c : Cmd) (g : Geo) (b m n t : Nat) (acc : Option Val) : Val × NumFlags :=
  let r := (List.range g.passes).foldl (fun (st : Option Val × NumFlags) q =>
    let (v, f) := s.tileSum c g b m n t (q + 1)
    match st.1 with
    | none => (some v, st.2.or f)
    | some x => let (y, h) := formAcc.add x v; (some y, st.2.or (f.or h))) (acc, {})
  (r.1.getD .zero, r.2)

/-! ## Engines and their commands -/

/-- Physical engine of a logical engine of a region (R482): none where it has none. -/
def State.physOf (s : State) (region l : Nat) : Option Nat :=
  let f := match l with | 0 => F.RC_ENGMAP_L0 | 1 => F.RC_ENGMAP_L1 | 2 => F.RC_ENGMAP_L2 | _ => F.RC_ENGMAP_L3
  let p := s.fld f region
  if p < 4 then some p else none

/-- Logical engine that a physical engine serves. -/
def State.logicalOf (s : State) (g : Nat) : Option Nat := (List.range 4).find? (fun l => s.physOf (g / 4) l = some (g % 4))

/-- The map of R482 written for a quarantine set: in-service engines in rising order. -/
def State.setEngMap (s : State) (region quar : Nat) : State :=
  let inSvc := (List.range 4).filter (fun p => ¬ quar.testBit p)
  let at_ (l : Nat) : Nat := inSvc.getD l 0xF
  s.setR .RC_ENGMAP region (BitVec.ofNat 64 (quar <<< 16 + at_ 3 <<< 12 + at_ 2 <<< 8 + at_ 1 <<< 4 + at_ 0))

/-- Takes an engine out of service (R481, R482) and writes the record of R476; `cause` 1 residue, 2 Millpond, 3 KAT, 4 command. -/
def State.quarantineEngine (s : State) (g cause : Nat) (r : Option CmdRef) (status : Nat) : State :=
  let region := g / 4
  let q := s.fld F.RC_ENGMAP_QUAR region ||| 2 ^ (g % 4)
  let s := s.setEngMap region q
  let s := { s with obs := { s.obs with katPassed := s.obs.katPassed.filter (· ≠ g) } }
  let sq := match r.bind s.cmd with | some c => c.seqNo | none => 0
  s.report { code := 0x0102, cls := 2, level := 1, unit := unitEngine g, seq := sq,
             queue := match r with | some x => x.q | none => 0xFF, action := 3, status := status, detail := g + cause <<< 16 }

/-- The matrix work of a command in progress. -/
def Cmd.mat (c : Cmd) : MatWork := match c.work with | .mat w => w | _ => {}

/-- A change to the matrix work of a command. -/
def State.modMat (s : State) (r : CmdRef) (f : MatWork → MatWork) : State :=
  s.modCmd r (fun c => { c with work := .mat (f c.mat) })

/-- Whether an item of a command is on an engine of a region. -/
def State.onEngines (s : State) (region : Nat) (r : CmdRef) : Bool :=
  (List.range 4).any (fun m =>
    let e := s.engine (4 * region + m)
    (match e.compute with | some i => i.cmd = r | none => false) || (match e.drain with | some i => i.cmd = r | none => false))

/-- Frees a command's engines that hold no item of it. -/
def State.releaseEngines (s : State) (region : Nat) (r : CmdRef) : State :=
  (List.range 4).foldl (fun (t : State) m =>
    let g := 4 * region + m
    let e := t.engine g
    if e.cmd = some r then t.setEngine g { e with cmd := none, retrying := false } else t) s

/-- Adds one FP32 result element to E, under R107 with OVP INF (R150). -/
def State.writeE (s : State) (c : Cmd) (g : Geo) (row : Nat × Nat × Nat) (v : Val) : State × NumFlags :=
  let d := { g.e with ovp := 2 }
  let (t, fl, cn) := s.writePart c d row.1 row.2.1 row.2.2 0 [v]
  (t.modCmd c.ref (fun x => (x.addCounts (16 + 0) cn)), fl)

/-- ROWMAX and ROWSUM written to E once every tile is done (R150): the blocks of a row in N-tile order. -/
def State.finishRows (s : State) (region : Nat) (c : Cmd) (g : Geo) : State :=
  if g.epi = 3 ∨ g.epi = 4 then
    (List.range (g.nb * g.m)).foldl (fun (t : State) row =>
      let blocks := (List.range g.nt).filterMap (fun j => Tab.find c.mat.rowAcc (row * g.nt + j))
      match blocks with
      | [] => t
      | v :: vs =>
        let (x, fl) := vs.foldl (fun (a : Val × NumFlags) b =>
          if g.epi = 3 then (if a.1.isNan || b.isNan then .nan else if a.1.lt b || (a.1.isZero && b.isZero && a.1.neg?) then b else a.1, a.2)
          else let (y, f) := formW64.add a.1 b; (y, a.2.or f)) (v, {})
        let (u, f2) := t.writeE c g (g.dRow (row / g.m) (row % g.m)) x
        (u.orFlags .ACC_NUMFLAGS region (fl.or f2))) s
  else s

/-- Whether an element of D, by batch, row and N tile, was computed and has left: its output tile is done. -/
def Geo.live (g : Geo) (w : MatWork) (b m nt : Nat) : Bool :=
  g.computed w.mask m nt && w.done.contains ((b * g.nm + m / g.mt) * g.nt + nt)

/-- The elements of A, B and E that the elements of D computed take in are counted, each once (R111, R130, R190, log 41). A command that
ends early counts those of the output tiles that it has drained (R191). -/
def State.countOperands (s : State) (c : Cmd) (g : Geo) : State :=
  let w := c.mat
  let rowLive (b m : Nat) : Bool := (List.range g.nt).any (fun j => g.live w b m j)
  let colLive (b n : Nat) : Bool := (List.range g.m).any (fun m => g.live w b m (n / 512))
  let inA (i0 i j k : Nat) : Bool :=
    if g.op = 0x2001 then rowLive j (if g.transA then i0 else i)
    else if g.op = 0x2002 then rowLive 0 i0
    else (List.range g.m).any (fun m => rowLive 0 m && (List.range g.k).any (fun q => decide (g.aAt 0 m q = some (i0, i, j, k))))
  let inB (i0 i j _k : Nat) : Bool :=
    if g.op = 0x2001 then
      let n := if g.transB then i else i0
      if g.b.rank = 3 then colLive j n else (List.range g.nb).any (fun b => colLive b n)
    else if g.op = 0x2003 ∧ g.cv.dir = 1 then colLive 0 (i % g.d.e 0)
    else colLive 0 i0
  let one (d : Td) (sel : Nat → Nat → Nat → Nat → Bool) (t : State) : State :=
    d.rows.foldl (fun (t : State) p =>
      let es := ((s.rowElems c d p.1 p.2.1 p.2.2).zipIdx.filter (fun x => sel x.2 p.1 p.2.1 p.2.2)).map (·.1)
      t.modCmd c.ref (fun x => x.countElems d.fmt es)) t
  let t := one g.b inB (one g.a inA s)
  if g.epi = 1 ∨ g.epi = 2 then
    (List.range (g.nb * g.m)).foldl (fun (t : State) row =>
      let b := row / g.m; let m := row % g.m
      let (i, j, k) := g.dRow b m
      let es := ((s.rowElems c g.e i j k).zipIdx.filter (fun x => g.live w b m (x.2 / 512))).map (·.1)
      t.modCmd c.ref (fun x => x.countElems g.e.fmt es)) t
  else t

/-- Multiply-accumulates of a command by rate (R449): those of R124 for K within range, for the elements it computed and drained. -/
def Cmd.macs (c : Cmd) (g : Geo) (a : Acct) : Acct :=
  let outs := c.mat.done.foldl (fun acc t =>
    acc + ((List.range (g.rowsOf t)).filter (fun i => g.computed c.mat.mask (g.mtile t * g.mt + i) (g.ntile t))).length * g.colsOf t) 0
  let n := outs * g.k
  if g.a.fmt = .fp32 ∨ g.b.fmt = .fp32 then { a with macFp32 := a.macFp32 + n }
  else match leavesPerCell g.a.fmt g.b.fmt g.passes with
    | 4 => { a with macQuad := a.macQuad + n }
    | 2 => { a with macDouble := a.macDouble + n }
    | _ => { a with macFull := a.macFull + n }

/-- What a class 0x2 command leaves however it ends (R151, R191, R449): its operand counts, its multiply-accumulates, and the MAX of the
elements it has written into its amax word. The conversion's flags go to the engine that drained last (R508, log 41). -/
def State.matTotals (s : State) (region : Nat) (c : Cmd) (g : Geo) : State :=
  let w := c.mat
  let s := if w.done = [] then s else (s.countOperands c g).account c.ref (c.macs g)
  if g.amax = 0xFFFF then s
  else
    let (b, fl) := amaxBits w.amax
    (s.max32 (s.amaxWord region g.amax) b).orFlags .ENG_NUMFLAGS w.drainer fl

/-- Releases the frames and frame requests of a command (R146). -/
def State.releaseFrames (s : State) (region : Nat) (r : CmdRef) : State :=
  let a := s.acc region
  s.setAcc region { a with
    frames := a.frames.filter (fun f => f.cmd ≠ r)
    waiting := a.waiting.filter (fun p => p.1 ≠ r) }

/-- Address of a save slot (R83). -/
def State.slotAddr (s : State) (q k : Nat) : Nat := s.fld F.Q_CTX_BASE_BASE q <<< 16 + k * 0xA10000

/-- Sets Q_STATE.SAVED from the slots that hold a command. -/
def State.markSaved (s : State) (q : Nat) : State := s.setFld F.Q_STATE_SAVED q (b2n ((s.queue q).slots ≠ []))

/-- Whether a slot belongs to a command in progress. The slots of an abandoned command belong to none: they stay until its RESUME
(R85). -/
def Slot.ofCmd (x : Slot) (r : CmdRef) : Bool := decide (x.ref = r ∧ x.kept = none)

/-- Frees the save slots of a command that has ended. -/
def State.freeSlots (s : State) (r : CmdRef) : State :=
  let qs := s.queue r.q
  if qs.slots.any (fun p => p.2.ofCmd r) then
    let s := (qs.slots.filter (fun p => p.2.ofCmd r)).foldl (fun (t : State) p => t.putMem (t.slotAddr r.q p.1 + 2) 0 1) s
    (s.setQueue r.q { qs with slots := qs.slots.filter (fun p => ¬ p.2.ofCmd r) }).markSaved r.q
  else s

/-- Whether no logical engine of a mask has a physical engine (R482). -/
def State.maskLost (s : State) (region mask : Nat) : Bool := (List.range 4).all (fun l => ¬ mask.testBit l || (s.physOf region l).isNone)

/-- Output tiles of a command that hold frames. -/
def AccUnit.tilesOf (a : AccUnit) (r : CmdRef) : List Nat :=
  ((a.frames.filter (fun f => f.cmd = r)).map (·.tile)).eraseDups

/-- The 4,096-byte header of a save slot (R155), sealed. -/
def slotHeader (kind logical seq q region flags item mt kstep body cursor : Nat) (pending : List Nat) (secondary : List Nat) : Nat :=
  let h := put 1 1 1 + put 2 1 kind + put 3 1 logical + put 4 4 seq + put 8 1 q + put 9 1 region + put 0xA 1 flags + put 0x10 8 item
    + put 0x18 2 mt + put 0x1C 4 kstep + put 0x40 320 body
    + (if kind = 1 then
        put 0x180 8 cursor + put 0x188 1 pending.length
          + (List.range 4).foldl (fun a k => a + put (0x189 + k) 1 (secondary.getD k 0xFF)) 0
          + (pending.take 32).zipIdx.foldl (fun a p => a + put (0x190 + 8 * p.2) 8 p.1) 0
      else 0)
  h + put 0xFFC 4 (crc32c h 0xFFC)

/-- The secondary slots of a command, given its primary slot. -/
def MatWork.secondaries (w : MatWork) : List Nat := (w.saved.map (·.1)).filter (fun k => w.primary ≠ some k)

/-- Items of a command below CURSOR that are neither complete nor saved (R155): those to run again, and those on engines but for the
one that engine `but` is saving. -/
def State.openItems (s : State) (region : Nat) (r : CmdRef) (w : MatWork) (but : Option Nat) : List Nat :=
  (w.pending ++ (List.range 4).flatMap (fun m =>
    let g := 4 * region + m
    let e := s.engine g
    let of (x : Option Item) : List Nat := match x with | some i => if i.cmd = r then [i.index] else [] | none => []
    (if but = some g then [] else of e.compute) ++ of e.drain)).eraseDups

/-- Writes the primary slot's header again from the command's progress, with the items `pend` as PENDING. One whose save has not ended has
no header yet: its own save writes it. -/
def State.rewritePrimary (s : State) (c : Cmd) (pend : List Nat) : State :=
  match c.mat.primary.filter (fun k => c.mat.saved.any (fun v => v.1 = k)) with
  | none => s
  | some k =>
    let a := s.slotAddr c.ref.q k
    let old := s.readMem a 0x1000
    s.putMem a (slotHeader 1 (le old 3 1) c.seqNo c.ref.q (le old 9 1) (le old 0xA 1) (le old 0x10 8) (le old 0x18 2) (le old 0x1C 4)
      (le old 0x40 320) c.mat.cursor pend c.mat.secondaries) 0x1000

/-- RESTART_ITEM set in the header of each saved slot whose item belongs to one of the tiles. -/
def State.restartSaved (s : State) (r : CmdRef) (c : Cmd) (tiles : List Nat) : State :=
  c.mat.saved.foldl (fun (t : State) v =>
    if tiles.contains (c.geo.tile v.2.1) then
      let a := t.slotAddr r.q v.1
      let old := t.readMem a 0x1000
      let fl := le old 0xA 1 ||| 1
      let h := old % 2 ^ (8 * 0xFFC) - put 0xA 1 (le old 0xA 1) + put 0xA 1 fl
      t.putMem a (h + put 0xFFC 4 (crc32c h 0xFFC)) 0x1000
    else t) s

/-- The end of an abandoned command once its engines have stopped (R80, R157): every item of a tile whose frames are held enters PENDING,
the frames go, the headers are written again, and the reply names the primary slot. What the slots have no field for, the flags of
the items' attempts and the row results, stays with the command processor's record of the slots (log 54). -/
def State.endAbandoned (s : State) (c : Cmd) : State :=
  let r := c.ref
  let region := s.regionOf r.q
  let g := c.geo
  let held := (s.acc region).tilesOf r
  let s := s.restartSaved r c held
  let ofHeld := held.flatMap (fun t => (List.range g.s).map (fun i => t * g.s + i))
  let pend := (s.openItems region r c.mat none
    ++ ofHeld.filter (fun i => i < c.mat.cursor ∧ ¬ c.mat.saved.any (fun v => v.2.1 = i))).eraseDups
  let k := c.mat.primary.getD ((c.mat.saved.head?.map (·.1)).getD 0)
  let w := { c.mat with pending := pend, primary := some k }
  let s := (s.modMat r (fun _ => w)).releaseFrames region r
  let s := s.rewritePrimary { c with work := .mat w } pend
  let qs := s.queue r.q
  let keep (p : Nat × Slot) : Nat × Slot :=
    if p.2.ofCmd r then (p.1, { p.2 with kept := some k, rowAcc := if p.1 = k then w.rowAcc else p.2.rowAcc }) else p
  let s := s.setQueue r.q { qs with slots := qs.slots.map keep }
  let s := (s.matTotals region c g).releaseEngines region r
  let brake := qs.slots.any (fun p => p.2.ofCmd r ∧ p.2.brake)
  s.finish r (if brake then 0x0701 else 0x0700) (s.slotAddr r.q k)

/-- A class 0x2 command ends, its slots, frames and engines free. -/
def State.endMat (s : State) (region : Nat) (c : Cmd) (status detail : Nat) : State :=
  let s := s.matTotals region c c.geo
  (((s.freeSlots c.ref).releaseFrames region c.ref).releaseEngines region c.ref).finish c.ref status detail

/-- Whether a class 0x2 command has nothing left: every item dispatched, drained and added (R156); or, after a failure or when it is
abandoned, every engine has stopped. Then it ends, with its row results, its amax and its operation counts. -/
def State.settleMat (s : State) (r : CmdRef) : State :=
  match s.cmd r with
  | none => s
  | some c =>
    if c.phase ≠ .running then s
    else
      let g := c.geo; let w := c.mat; let region := s.regionOf r.q
      if s.onEngines region r ∨ w.lines ≠ 0 then s
      else if w.failed then s.endMat region c c.status c.detail
      else if w.leaving then s.endAbandoned c
      else if g.items ≤ w.cursor ∧ w.pending = [] ∧ w.saved = [] ∧ ¬ (s.acc region).frames.any (fun f => f.cmd = r) then
        (s.finishRows region c g).endMat region c 0 0
      else if s.maskLost region g.mask then s.endMat region c 0x0104 g.mask
      else s

/-- Looks at every class 0x2 command in progress of a region after its engine map has changed (R482). -/
def State.settleLost (s : State) (region : Nat) : State :=
  s.cmds.foldl (fun (t : State) c =>
    if c.phase = .running ∧ c.opcode / 4096 = 2 ∧ t.regionOf c.ref.q = region then t.settleMat c.ref else t) s

/-- Ends a command in progress: its engines stop at their next boundary (R137). Of two second mismatches in one cycle the lower engine
stands in DETAIL (R138). -/
def State.failMat (s : State) (r : CmdRef) (status detail : Nat) : State :=
  (s.modCmd r (fun c =>
    if c.mat.failed then
      if c.mat.failAt = s.time ∧ c.status = 0x0301 ∧ status = 0x0301 then { c with detail := min c.detail detail } else c
    else { c with
      status := status
      detail := detail
      work := .mat { c.mat with failed := true, failAt := s.time, pending := [] } })).settleMat r

/-- Abandons a saved command: its engines stop at their next boundary (R157). -/
def State.abandon (s : State) (r : CmdRef) : State := (s.modMat r (fun w => { w with leaving := true })).settleMat r

/-- A class 0x2 command's reads (R237, R238, R268): poison ends it, its engines stopping at their next boundary. -/
def State.readingMat (s : State) (r : CmdRef) (spans : List (Nat × Nat)) (k : State → State) : State :=
  let t := s.fetchSpans r spans
  match t.firstBad spans with
  | some pa => t.failMat r 0x0300 pa
  | none => k t

/-- The bytes of the mask that a command still has to read. -/
def Cmd.maskSpans (c : Cmd) : List (Nat × Nat) :=
  if c.maskLen = 0 ∨ c.opcode = 0x2001 ∨ c.mat.masked then [] else [(c.fb 0xE0 47 0, c.maskLen)]

/-- The mask is read, once (R129): as the command issues, or, for one held then, when its hold ends (R269). -/
def State.readMask (s : State) (c : Cmd) (k : State → State) : State :=
  s.readingThen c.ref c.maskSpans (fun s =>
    k (match c.maskSpans with
      | (a, n) :: _ =>
        let m := s.readMem a n
        s.modMat c.ref (fun w => { w with mask := m, masked := true })
      | [] => s))

/-- MATMUL, MATMUL_WGRAD and CONV begin: their items wait for engines (R126). -/
def startMat (r : CmdRef) (opcode : Nat) (s : State) : State :=
  s.runUnit r opcode (fun c => s.readMask c (fun s => (s.phaseCmd r .running).settleMat r))

/-- MATMUL (R119). -/
def execMatmul (r : CmdRef) (s : State) : Host.Outcome State Fault Refusal := ok (startMat r 0x2001 s)
/-- MATMUL_WGRAD (R128). -/
def execMatmulWgrad (r : CmdRef) (s : State) : Host.Outcome State Fault Refusal := ok (startMat r 0x2002 s)
/-- CONV (R132 to R134). -/
def execConv (r : CmdRef) (s : State) : Host.Outcome State Fault Refusal := ok (startMat r 0x2003 s)

/-! ## Frames (R146) -/

/-- Spillway rows in no frame, as segments. -/
def AccUnit.freeSegs (a : AccUnit) : List (Nat × Nat) :=
  let used := (a.frames.flatMap (·.segs))
  let bounds := (List.range 8193).filter (fun x => x = 0 ∨ x = 8192 ∨ used.any (fun g => g.1 = x ∨ g.1 + g.2 = x))
  (List.zip bounds (bounds.drop 1)).filterMap (fun p =>
    if used.any (fun g => g.1 ≤ p.1 ∧ p.1 < g.1 + g.2) then none else some (p.1, p.2 - p.1))

def AccUnit.usedRows (a : AccUnit) : Nat := a.frames.foldl (fun n f => n + f.rows) 0
def AccUnit.freeRows (a : AccUnit) : Nat := 8192 - a.usedRows

/-- The Spillway row that row `i` of some segments is. -/
def segRow : List (Nat × Nat) → Nat → Nat
  | [], i => i
  | (b, l) :: rest, i => if i < l then b + i else segRow rest (i - l)

/-- Where the value of a row and column of a frame stands in the Spillway. -/
def Frame.key (f : Frame) (row col : Nat) : Nat := 512 * segRow f.segs row + col

/-- The W64 value of a row and column of a frame. -/
def AccUnit.val (a : AccUnit) (f : Frame) (row col : Nat) : Val := w64Decode (Tab.get 0#64 a.rows (f.key row col)).toNat

/-- The first `n` free rows as segments. -/
def takeSegs : List (Nat × Nat) → Nat → List (Nat × Nat)
  | [], _ => []
  | (b, l) :: rest, n => if n = 0 then [] else if n ≤ l then [(b, n)] else (b, l) :: takeSegs rest (n - l)

/-- Gives an output tile its frames. -/
def AccUnit.grant (a : AccUnit) (r : CmdRef) (tile rows frames : Nat) : AccUnit :=
  (List.range frames).foldl (fun (u : AccUnit) k =>
    { u with frames := u.frames ++ [{ cmd := r, tile := tile, which := k, rows := rows, segs := takeSegs u.freeSegs rows }] }) a

/-- Whether a tile's frames can be granted now. -/
def AccUnit.canGrant (a : AccUnit) (r : CmdRef) (rows frames : Nat) : Bool :=
  decide (frames * rows ≤ a.freeRows) && decide ((a.tilesOf r).length < 4)

/-- The frames of an output tile that an item of it needs to run (R146): the state with them held, or with its request waiting. -/
def State.withFrames (s : State) (region : Nat) (c : Cmd) (tile : Nat) : State × Bool :=
  let a := s.acc region
  let g := c.geo
  if g.frames = 0 ∨ a.frames.any (fun f => f.cmd = c.ref ∧ f.tile = tile) then (s, true)
  else if a.waiting = [] ∧ a.canGrant c.ref (g.rowsOf tile) g.frames then
    (s.setAcc region (a.grant c.ref tile (g.rowsOf tile) g.frames), true)
  else if a.waiting.contains (c.ref, tile) then (s, false)
  else (s.setAcc region { a with waiting := a.waiting ++ [(c.ref, tile)] }, false)

/-- FRAME_GRANT: the request at the front is granted when enough rows are free (R146). -/
def execFrameGrant (region : Fin 4) (s : State) : Host.Outcome State Fault Refusal :=
  let a := s.acc region
  match a.waiting with
  | [] => ok s
  | (r, tile) :: rest =>
    match s.cmd r with
    | none => ok (s.setAcc region { a with waiting := rest })
    | some c =>
      let g := c.geo
      if s.frozen ∨ ¬ a.canGrant r (g.rowsOf tile) g.frames then ok s
      else ok (s.setAcc region (({ a with waiting := rest }).grant r tile (g.rowsOf tile) g.frames))

/-! ## Dispatch (R47, R126, R127) -/

/-- The next item of a command that an engine can take: an item to run again first, then the cursor. -/
def Cmd.nextItem (c : Cmd) : Option Nat :=
  let w := c.mat
  if w.failed ∨ w.leaving then none
  else match w.pending with
    | i :: _ => some i
    | [] => if w.cursor < c.geo.items then some w.cursor else none

/-- The first free slot of a queue. -/
def State.freeSlot (s : State) (q : Nat) : Option Nat :=
  (List.range (s.fld F.Q_CFG_CTX_SLOTS q)).find? (fun k => ¬ (s.queue q).slots.any (fun p => p.1 = k))

/-- Whether a command's queue makes it preemptible (R82). -/
def State.preemptible (s : State) (q : Nat) : Bool :=
  decide (2 ≤ s.fld F.Q_CFG_PRIO q) && decide (1 ≤ s.fld F.Q_CFG_CTX_SLOTS q)

/-- Whether a Brake stops a class 0x2 command at its next tile boundary (R463): it is preemptible, and a save slot is free or holds an
item of it already. -/
def State.brakeStops (s : State) (c : Cmd) : Bool :=
  s.preemptible c.ref.q && (decide (c.mat.saved ≠ []) || (s.freeSlot c.ref.q).isSome)

/-- Whether a command is ready for an engine of a region: running, naming the logical engine, with an item that does not wait
for frames (R146). -/
def State.readyFor (s : State) (region l : Nat) (c : Cmd) : Bool :=
  c.phase = .running && ¬ c.held && s.regionOf c.ref.q = region && c.opcode / 4096 = 2 && (match c.work with | .mat _ => true | _ => false)
    && c.geo.mask.testBit l && ¬ (s.braking && s.brakeStops c)
    && (match c.nextItem with
        | some i => ¬ (s.acc region).waiting.contains (c.ref, c.geo.tile i)
        | none => false)

/-- Whether an engine is in service. -/
def State.inService (s : State) (g : Nat) : Bool := ¬ (s.fld F.RC_ENGMAP_QUAR (g / 4)).testBit (g % 4)

/-- Whether an engine has a command in progress: it works on an item, or the command it holds has a tile left for it that does not wait for
frames (R127, R146). -/
def State.engineBusy (s : State) (g : Nat) : Bool :=
  let e := s.engine g
  e.compute.isSome || e.drain.isSome || (match e.cmd.bind s.cmd with
    | some c => decide (c.phase = .running) && (match c.nextItem with
      | some i => ! (s.acc (g / 4)).waiting.contains (c.ref, c.geo.tile i)
      | none => false)
    | none => false)

/-- The item leaves the list of items to dispatch. -/
def State.takeItem (s : State) (r : CmdRef) (i : Nat) : State :=
  s.modMat r (fun w => if w.pending.head? = some i then { w with pending := w.pending.drop 1 } else { w with cursor := w.cursor + 1 })

/-- Whether a saved item of a command is one of logical engine `l` whose output tile does not wait for frames: such a tile does not count
as waiting for an engine (R146). -/
def State.awaitsEngine (s : State) (region l : Nat) (c : Cmd) (v : Nat × Nat × Nat) : Bool :=
  decide (v.2.2 = l) && ! (s.acc region).waiting.contains (c.ref, c.geo.tile v.2.1)

/-- Commands with an item saved from logical engine `l` of a region that may resume on it (R84). -/
def State.savedFor (s : State) (region l : Nat) : List Cmd :=
  s.cmds.filter (fun c => c.phase = .running ∧ s.regionOf c.ref.q = region ∧ c.mat.saved.any (s.awaitsEngine region l c) ∧ ¬ c.mat.failed
    ∧ ¬ c.mat.leaving ∧ s.fld F.Q_STATE_STATE c.ref.q ≠ 6)

/-! ### Weight tile buffers (R112, R116) -/

/-- The weight tile of an item's next K step. -/
def Geo.tileOf (g : Geo) (i : Item) : Nat := (g.range i.index i.chunk).1 + i.kstep

/-- The reduction indices of a weight tile within range, as offsets in the tile. -/
def Geo.tileKs (g : Geo) (t : Nat) : List Nat := List.range (min g.kt (g.k - t * g.kt))

/-- The end of an item's weight tiles. -/
def Geo.tileEnd (g : Geo) (i : Item) : Nat := (g.range i.index (g.nc - 1)).2

/-- The elements of B that a weight tile buffer holds for tile `t` of an item. -/
def State.weightTile (s : State) (c : Cmd) (g : Geo) (i : Item) (t : Nat) : Tab Val :=
  let tile := g.tile i.index
  (g.tileKs t).flatMap (fun q => (List.range (g.colsOf tile)).map (fun col =>
    (512 * q + col, s.opB c g (g.batch tile) (t * g.kt + q) (512 * g.ntile tile + col))))

/-- The buffers of an engine whose item goes on with tile `t`: that tile becomes active in the buffer that `y` names, and the other one
loads the item's next tile, if it has one. -/
def State.turnBuffers (s : State) (g : Nat) (c : Cmd) (y : Bool) (i : Item) (t : Nat) : State :=
  let geo := c.geo
  let e := s.engine g
  let now := if t < geo.tileEnd i then s.weightTile c geo i t else []
  let next (old : Tab Val) : Tab Val := if t + 1 < geo.tileEnd i then s.weightTile c geo i (t + 1) else old
  s.setEngine g (if y then { e with activeY := true, wY := now, wX := next e.wX } else { e with activeY := false, wX := now, wY := next e.wY })

/-- An engine loads an item's first tile: into X after it has been idle, else into the buffer that was not active (R116). -/
def State.loadBuffers (s : State) (g : Nat) (c : Cmd) (idle : Bool) : State :=
  match (s.engine g).compute with
  | some i => s.turnBuffers g c (! idle && ! (s.engine g).activeY) i (c.geo.tileOf i)
  | none => s

/-- The 40 row bits of a Millpond word after a change of the spare bit from `old` to `new` (each 0 for none, or one more than the bit that
it replaces): the word's cells are not converted (R158). The cell of bit `old` shows what it held, the cell of bit `new` is no longer read,
and the spare cell that is read for it held bit `old`; what a cell not in use held is in the bits of `free`. -/
def respareWord (old new free w : Nat) : Nat :=
  let spare := if old = 0 then free % 2 else bits w (old - 1) (old - 1)
  let w := if old = 0 then w else setBits w (old - 1) (old - 1) (free / 2 % 2)
  (if new = 0 then w else setBits w (new - 1) (new - 1) spare) % 2 ^ 40

/-- MP_SPARE takes effect at an engine (R158). -/
def State.respare (s : State) (g : Nat) : State :=
  let e := s.engine g
  let sp := if s.flag F.MP_SPARE_EN g then s.fld F.MP_SPARE_BIT g + 1 else 0
  if sp = e.spare then s
  else
    let (v, s) := s.draw 14
    s.setEngine g { e with
      spare := sp
      millpond := e.millpond.map (fun p => (p.1, BitVec.ofNat 40 (respareWord e.spare sp (v / 4 ^ p.1) p.2.toNat))) }

/-- An engine takes an item of a command: at a new command MP_SPARE takes effect (R158), and the item's first tile is loaded (R112). -/
def State.loadItem (s : State) (g : Nat) (c : Cmd) (i : Item) : State :=
  let new : Bool := decide ((s.engine g).cmd ≠ some c.ref)
  let s := if new then s.respare g else s
  let e := s.engine g
  (s.setEngine g { e with cmd := some c.ref, compute := some i, worked := true, retrying := ! new && e.retrying }).loadBuffers g c (decide (e.drain = none))

/-- TILE_DISPATCH: an output tile's item goes to a free engine (R127), after the saved commands of its level or a higher one (R84). A tile
that needs frames asks for them, and goes only once they are granted (R146). A tile with every group masked takes no time: it is passed
over. With no drain in progress the engine has been idle, and its item takes rows 0 upward (R141). -/
def execTileDispatch (e : Fin 16) (s : State) : Host.Outcome State Fault Refusal :=
  let g := e.val
  let region := g / 4
  let eng := s.engine g
  if s.frozen ∨ ¬ s.running ∨ ¬ s.inService g ∨ eng.compute.isSome ∨ eng.saving.isSome then ok s
  else
    match s.logicalOf g with
    | none => ok s
    | some l =>
      let ready := s.cmds.filter (s.readyFor region l)
      let mine := ready.filter (fun c => eng.cmd = some c.ref)
      let busyOther := eng.drain.isSome ∧ mine = []
      let free := ready.filter (fun c => s.braking ∨ ¬ (s.savedFor region l).any (fun x =>
        decide (s.fld F.Q_CFG_PRIO x.ref.q ≤ s.fld F.Q_CFG_PRIO c.ref.q)))
      match (if mine ≠ [] then mine.head? else if busyOther then none else s.pick (unitEngine g) free) with
      | none => ok s
      | some c =>
        match c.nextItem with
        | none => ok s
        | some i =>
          let geo := c.geo
          let tile := geo.tile i
          if ¬ geo.tileLive c.mat.mask tile then ok ((s.takeItem c.ref i).settleMat c.ref)
          else
            let big := decide (2048 < geo.rowsOf tile)
            if big ∧ eng.drain.isSome then ok s
            else
              let (s, held) := s.withFrames region c tile
              if ¬ held then ok s
              else
                let half := match eng.drain with | some d => 2048 - d.half | none => 0
                let item : Item := { cmd := c.ref, index := i, half := half }
                let s := ((s.takeItem c.ref i).loadItem g c item).served (unitEngine g) c.ref
                ok (s.traceAs (unitEngine g) 0x200 c.layer c.operator i false)

/-! ## Storage and residue events (R136, R137, R153, R154) -/

/-- Captures a mismatch in ENG_ERR_INFO (R139). -/
def State.captureMismatch (s : State) (g : Nat) (r : Option CmdRef) (column stage : Nat) : State :=
  if s.flag F.ENG_ERR_INFO_VALID g then s.setFld F.ENG_ERR_INFO_OVF g 1
  else
    let sq := match r.bind s.cmd with | some c => c.seqNo | none => 0
    let q := match r with | some x => x.q | none => 0
    s.setR .ENG_ERR_INFO g (BitVec.ofNat 64 (sq <<< 32 + q <<< 24 + (column % 512) <<< 15 + (stage % 8) <<< 12
      + (s.fld F.ENG_ERR_INFO_OVF g) <<< 1 + 1))

/-- The frames of a tile hold nothing that has arrived: its items start again. -/
def State.resetTile (s : State) (region : Nat) (r : CmdRef) (tile : Nat) : State :=
  let a := s.acc region
  s.setAcc region { a with frames := a.frames.map (fun f => if f.cmd = r ∧ f.tile = tile then { f with arrived := [] } else f) }

/-- The item in progress on an engine starts again (R136): its rows, its flags and, for a chunked tile, its frame. -/
def State.restartItem (s : State) (g : Nat) : State :=
  let e := s.engine g
  match e.compute with
  | none => s
  | some i =>
    let s := s.setEngine g { e with compute := some { cmd := i.cmd, index := i.index, half := i.half }, retrying := true }
    match s.cmd i.cmd with
    | some c =>
      let s := s.loadBuffers g c false
      if 1 < c.geo.nc then s.resetTile (g / 4) i.cmd (c.geo.tile i.index) else s
    | none => s

/-- An engine drops the item it computes. -/
def State.dropCompute (s : State) (g : Nat) : State := s.setEngine g { s.engine g with compute := none }

/-- An item of a command is to run again from its start. -/
def State.runAgain (s : State) (r : CmdRef) (i : Nat) : State := s.modMat r (fun w => { w with pending := i :: w.pending })

/-- Whether an event is a residue mismatch, a parity error or an uncorrectable Millpond word. -/
def badEvent : ArrayEvent → Bool
  | .residue _ _ | .parity _ _ | .millUncorrectable => true
  | _ => false

/-- Counts and captures such an event on an engine (R138, R139, R153): stages 0 to 2 are the array's, 3 and 4 those of parity. -/
def State.countMismatch (s : State) (g : Nat) (r : CmdRef) (second : Bool) (ev : ArrayEvent) : State :=
  let tally (s : State) : State :=
    if second then s.incSat F.ENG_ERR_COUNT_SECOND g 1 else (s.incSat F.ENG_ERR_COUNT_FIRST g 1).aon 51 1
  match ev with
  | .residue col st => (tally s).captureMismatch g (some r) col (min st 2)
  | .parity col st => (tally (s.incSat F.ENG_ERR_COUNT_PARITY g 1)).captureMismatch g (some r) col (if st = 4 then 4 else 3)
  | .millUncorrectable => s.incSat F.MP_ECC_UNCORR g 1
  | _ => s

/-- Such an event while an engine works for a command: the first on the engine in the command spends its retry and is noted, the second
quarantines the engine and ends the command (R136, R137, R153). The caller lets the item run again. -/
def State.engineEvent (s : State) (g : Nat) (c : Cmd) (ev : ArrayEvent) : State :=
  let r := c.ref
  let milli := decide (ev = .millUncorrectable)
  let second := c.mat.retried.contains g
  let s := s.countMismatch g r second ev
  if ¬ second then
    let s := s.modMat r (fun w => { w with retried := g :: w.retried })
    if c.mat.failed then s
    else
      let s := match ev with
        | .residue col st | .parity col st =>
          s.report { code := 0x0101, cls := 0, level := 1, unit := unitEngine g, seq := c.seqNo, queue := r.q, action := 2,
                     detail := col % 65536 + (st % 256) <<< 16 }
        | _ => s
      s.noteCmd r (if milli then 0x0302 else 0x0301)
  else
    let status := if milli then 0x0302 else 0x0301
    let s := s.quarantineEngine g (if milli then 2 else 1) (some r) status
    (s.failMat r status (if milli then unitEngine g else g)).settleLost (g / 4)

/-- An uncorrectable Spillway value (R154): the tile's frames are discarded and its items rerun; a second one in the command
ends it. -/
def State.spillwayEvent (s : State) (region row : Nat) : State :=
  let a := s.acc region
  let s := s.incSat F.ACC_ERR_COUNT_SPW_UNCORR region 1
  match a.frames.find? (fun f => f.segs.any (fun g => g.1 ≤ row ∧ row < g.1 + g.2)) with
  | none => s
  | some f =>
    match s.cmd f.cmd with
    | none => s
    | some c =>
      let s := if s.flag F.ACC_ERR_INFO_VALID region then s.setFld F.ACC_ERR_INFO_OVF region 1
        else s.setR .ACC_ERR_INFO region (BitVec.ofNat 64 (c.seqNo <<< 32 + f.cmd.q <<< 24 + (row % 8192) <<< 11
          + (s.fld F.ACC_ERR_INFO_OVF region) <<< 1 + 1))
      let s := s.report { code := 0x0103, cls := 2, level := 1, unit := unitAcc region, seq := c.seqNo, queue := f.cmd.q,
                          action := if c.mat.spwErr = 0 then 2 else 5, status := if c.mat.spwErr = 0 then 0 else 0x0302, detail := row }
      if c.mat.spwErr ≠ 0 then s.failMat f.cmd 0x0302 (unitAcc region)
      else
        let g := c.geo
        let s := s.resetTile region f.cmd f.tile
        let items := (List.range g.s).map (fun i => f.tile * g.s + i)
        let s := (List.range 4).foldl (fun (t : State) m =>
          let e := t.engine (4 * region + m)
          let t := match e.compute with
            | some i => if i.cmd = f.cmd ∧ g.tile i.index = f.tile then
                t.setEngine (4 * region + m) { e with compute := some { cmd := i.cmd, index := i.index, half := i.half } } else t
            | none => t
          let e := t.engine (4 * region + m)
          match e.drain with
          | some i => if i.cmd = f.cmd ∧ g.tile i.index = f.tile then t.setEngine (4 * region + m) { e with drain := none } else t
          | none => t) s
        let on (i : Nat) : Bool := (List.range 4).any (fun m => match (s.engine (4 * region + m)).compute with
          | some x => x.cmd = f.cmd ∧ x.index = i | none => false)
        let again := items.filter (fun i => ¬ on i ∧ i < c.mat.cursor ∧ ¬ c.mat.pending.contains i ∧ ¬ c.mat.saved.any (fun v => v.2.1 = i))
        let s := s.restartSaved f.cmd c [f.tile]
        ((s.modMat f.cmd (fun w => { w with spwErr := 1, pending := w.pending ++ again })).noteCmd f.cmd 0x0302).settleMat f.cmd

/-- The events that leave the work in place: corrected words. -/
def State.correctedEvent (s : State) (g : Nat) (ev : ArrayEvent) : State :=
  match ev with
  | .millCorrected n => s.incSat F.MP_ECC_CORR g n
  | .spillCorrected n => s.incSat F.ACC_ERR_COUNT_SPW_CORR (g / 4) n
  | _ => s

/-! ## K steps (R124, R127, R143) -/

/-- The Millpond word of a tile row and column. -/
def pondKey (half row col : Nat) : Nat := 512 * (half + row) + col

/-- The computed rows and all columns of an item's tile. -/
def Cmd.cellsOf (c : Cmd) (geo : Geo) (tile : Nat) : List (Nat × Nat) :=
  (List.range (geo.rowsOf tile)).flatMap (fun row =>
    if geo.computed c.mat.mask (geo.mtile tile * geo.mt + row) (geo.ntile tile) then (List.range (geo.colsOf tile)).map (fun col => (row, col))
    else [])

/-- The bytes that one K step reads: the rows of A that are not skipped, and the weight tile (R112, R130). -/
def Cmd.kstepSpans (c : Cmd) (g : Geo) (i : Item) : List (Nat × Nat) :=
  let tile := g.tile i.index
  let t := g.tileOf i
  let b := g.batch tile
  let rows := (List.range (g.rowsOf tile)).filter (fun row => g.computed c.mat.mask (g.mtile tile * g.mt + row) (g.ntile tile))
  (g.tileKs t).flatMap (fun q =>
    let k := t * g.kt + q
    rows.flatMap (fun row => match g.aAt b (g.mtile tile * g.mt + row) k with
      | some (i0, i, j, l) => g.a.elemSpans i0 i j l
      | none => [])
    ++ (List.range (g.colsOf tile)).flatMap (fun col =>
      let (i0, i, j, l) := g.bAt b k (512 * g.ntile tile + col)
      g.b.elemSpans i0 i j l))

/-- Runs one K step of an engine's item over every computed element. With a tile still to run, the buffer that holds it becomes active and
the other one loads the tile after it (R112, R116). -/
def State.runKstep (s : State) (g : Nat) (c : Cmd) (geo : Geo) (i : Item) : State :=
  let tile := geo.tile i.index
  let t := geo.tileOf i
  let e := s.engine g
  let nt := geo.ntile tile
  let (pond, fl) := (c.cellsOf geo tile).foldl (fun (st : Tab (BitVec 40) × NumFlags) rc =>
    let key := pondKey i.half rc.1 rc.2
    let acc := if i.begun then some (accDecode (Tab.get 0#40 st.1 key).toNat) else none
    let (v, f) := s.kstepElem c geo (geo.batch tile) (geo.mtile tile * geo.mt + rc.1) (512 * nt + rc.2) t acc
    (Tab.insert st.1 key (BitVec.ofNat 40 (accEncode v)), st.2.or f)) (e.millpond, {})
  let s := s.setEngine g { e with millpond := pond, compute := some { i with kstep := i.kstep + 1, begun := true, atEnd := true, fl := i.fl.or fl } }
  if t + 1 < geo.tileEnd i then s.turnBuffers g c (! e.activeY) i (t + 1) else s

/-- The scale applied at a transfer out of the Millpond (R122), in ACC40, with the flags of its own rounding. -/
def Cmd.drainScale (c : Cmd) (g : Geo) : Option (Val × NumFlags) :=
  if g.a.fmt = .int8 ∨ g.b.fmt = .int8 then
    let sa := if g.a.fmt = .int8 then c.scaleOf g.a 0 else .one
    let sb := if g.b.fmt = .int8 then c.scaleOf g.b 0 else .one
    some (formAcc.mul sa sb)
  else none

/-- A value as it leaves the Millpond: scaled in ACC40 where an operand is INT8. -/
def Cmd.transfer (c : Cmd) (g : Geo) (x : Val) : Val × NumFlags :=
  match c.drainScale g with
  | none => (x, {})
  | some (sc, f) => let (v, h) := formAcc.mul x sc; (v, f.or h)

/-- A row and column of an item's Millpond rows, as it leaves: an item that has run no K step holds +0 (R124, R126). -/
def State.pondOut (s : State) (g : Nat) (c : Cmd) (geo : Geo) (i : Item) (row col : Nat) : Val × NumFlags :=
  c.transfer geo (if i.begun then accDecode (Tab.get 0#40 (s.engine g).millpond (pondKey i.half row col)).toNat else .zero)

/-- Adds an item's rows into a frame: copied where nothing has arrived, else added with rne64 (R142, R143, R147). -/
def State.intoFrame (s : State) (g : Nat) (c : Cmd) (geo : Geo) (i : Item) (which tag : Nat) : State × NumFlags × NumFlags :=
  let region := g / 4
  let a := s.acc region
  let tile := geo.tile i.index
  match a.frames.find? (fun f => f.cmd = c.ref ∧ f.tile = tile ∧ f.which = which) with
  | none => (s, {}, {})
  | some f =>
    let (vals, fe, fa) := (c.cellsOf geo tile).foldl (fun (st : Tab (BitVec 64) × NumFlags × NumFlags) rc =>
      let (x, f1) := s.pondOut g c geo i rc.1 rc.2
      let (w, f2) := accToW64 x
      let key := f.key rc.1 rc.2
      let (y, f3) := if f.arrived = [] then (w, {}) else formW64.add (w64Decode (Tab.get 0#64 st.1 key).toNat) w
      (Tab.set 0#64 st.1 key (BitVec.ofNat 64 (w64Encode y)), st.2.1.or (f1.or f2), st.2.2.or f3)) (a.rows, {}, {})
    let f' := { f with arrived := f.arrived ++ [tag] }
    let a' := { a with
      frames := a.frames.map (fun x => if x.cmd = c.ref ∧ x.tile = tile ∧ x.which = which then f' else x)
      rows := vals }
    (s.setAcc region a', fe, fa)

/-- The next chunk of a tile whose chunk is done in the Millpond, or the tile's drain after the last one (R141, R142); `n` is the K steps of the
chunk. -/
def State.kstepNext (s : State) (g : Nat) (c : Cmd) (geo : Geo) (n : Nat) : State :=
  match (s.engine g).compute with
  | none => s
  | some j =>
    if j.kstep < n then s
    else if j.chunk + 1 < geo.nc then
      let (s, fe, fa) := s.intoFrame g c geo j 0 j.chunk
      s.setEngine g { s.engine g with compute := some { j with
        chunk := j.chunk + 1
        kstep := 0
        begun := false
        fl := j.fl.or fe
        fa := j.fa.or fa } }
    else s.setEngine g { s.engine g with compute := none, drain := some j }

/-- The end of a K step that no error strikes: the step's sums enter the Millpond, and at the end of a chunk or an item its rows leave
(R124, R127, R143). Flags wait with the item until its attempt completes (R111). -/
def State.kstepDone (s : State) (g : Nat) (c : Cmd) (geo : Geo) (i : Item) : State :=
  let n := (geo.range i.index i.chunk).2 - (geo.range i.index i.chunk).1
  let t := if i.kstep < n then (s.runKstep g c geo i).prof (unitEngine g) 4 1 else s
  t.kstepNext g c geo n

/-- KSTEP_END: an engine finishes a K step and reaches a tile boundary (R127), at which errors, stops and chunk spills act. No
boundary comes while a drain in the other half still runs (R141). The lines that the step reads are tested as it reads them (R268). -/
def runKstepEnd (e : Fin 16) (ev : ArrayEvent) (s : State) : Host.Outcome State Fault Refusal :=
  let g := e.val
  let eng := s.engine g
  match eng.compute with
  | none => ok s
  | some i =>
    if s.frozen ∨ ¬ s.running ∨ eng.drain.isSome ∨ eng.saving.isSome then ok s
    else
      match s.cmd i.cmd with
      | none => ok (s.dropCompute g)
      | some c =>
        let geo := c.geo
        if c.held then ok s
        else if ¬ c.mat.failed ∧ s.stalled c then ok (s.stall c)
        else if s.homeWaits (c.kstepSpans geo i) then ok s
        else if badEvent ev then
          let first : Bool := ! c.mat.retried.contains g
          let s := if first then s else s.dropCompute g
          let s := s.engineEvent g c ev
          ok (if first ∧ ¬ c.mat.failed then s.restartItem g else (s.dropCompute g).settleMat i.cmd)
        else match ev with
        | .spillUncorrectable row => ok (s.spillwayEvent (g / 4) row)
        | _ =>
          let s := s.correctedEvent g ev
          if c.mat.failed then ok ((s.dropCompute g).settleMat i.cmd)
          else if c.mat.leaving then ok (((s.dropCompute g).runAgain i.cmd i.index).settleMat i.cmd)
          else ok (s.readingMat i.cmd (c.kstepSpans geo i) (fun s => s.kstepDone g c geo i))

/-- KSTEP_END (R127): a QUARANTINE that waited for the engine may end with it. -/
def execKstepEnd (e : Fin 16) (ev : ArrayEvent) (s : State) : Host.Outcome State Fault Refusal :=
  match runKstepEnd e ev s with
  | .next t => ok t.settleQuars
  | o => o

/-! ## Drains (R141, R145, R147, R149 to R151) -/

/-- The epilogue on a row of final values (R149, R150): ADD and MUL with the row of E, in the form of the values. An infinite element of
E saturates as it enters that form, with its OF (R102, log 41). -/
def State.epilogue (s : State) (c : Cmd) (g : Geo) (row : Nat × Nat × Nat) (n0 : Nat) (vs : List Val) : List Val × NumFlags :=
  let form := if g.wide then formW64 else formAcc
  if g.epi = 1 ∨ g.epi = 2 then
    let er := s.rowOf g.e row.1 row.2.1 row.2.2
    let rs := vs.zipIdx.map (fun p =>
      let x := (c.elemIn g.e er (n0 + p.2) row.1 row.2.1 row.2.2).val
      let (y, f0) := form.round x
      let (z, f) := if g.epi = 1 then form.add p.1 y else form.mul p.1 y
      (z, f0.or f))
    (rs.map (·.1), rs.foldl (fun (a : NumFlags) p => a.or p.2) {})
  else (vs, {})

/-- ROWMAX and ROWSUM of one 512-column block (R150). -/
def rowBlock (epi : Nat) (vs : List Val) : Val × NumFlags :=
  if epi = 3 then
    (vs.foldl (fun (a : Option Val) v => match a with
      | none => some v
      | some x => some (if x.isNan || v.isNan then .nan else if x.lt v || (x.isZero && v.isZero && x.neg?) then v else x)) none |>.getD .zero, {})
  else
    let (ws, f) := intoW64 (vs ++ List.replicate (512 - vs.length) Val.zero)
    let (v, h) := fixedTree formW64.add 10 ws
    (v, f.or h)

/-- Lines handed to the update unit of the stack that holds an address (R73, R131). -/
def State.pushLines (s : State) (r : CmdRef) (seed step tid ovp : Nat) (elems : List (Nat × Nat × Val)) : State × Nat :=
  let byLine := (elems.map (fun x => lineOf x.1)).eraseDups
  (byLine.foldl (fun (t : State) ln =>
    match rangeOf t.localGib (64 * ln) with
    | .apt st =>
      let u := t.upd st
      t.setUpd st { u with adds := u.adds ++ [AccLine.mk r seed step tid (elems.filter (fun x => lineOf x.1 = ln)) ovp] }
    | _ => t) s, byLine.length)

/-- An engine command hands elements over (R131): STEP, JOB_SEED and TENSOR_ID stand at `seedOff` of its packet. -/
def State.handLines (s : State) (r : CmdRef) (c : Cmd) (seedOff ovp : Nat) (elems : List (Nat × Nat × Val)) : State :=
  let (s, n) := s.pushLines r (le c.pkt (seedOff + 8) 8) (le c.pkt seedOff 8) (le c.pkt (seedOff + 16) 4) ovp elems
  s.modCmd r (fun x => match x.work with
    | .mat w => { x with work := .mat { w with lines := w.lines + n } }
    | _ => x)

/-- The final values of a row of an output tile leave: epilogue, row results, amax, then conversion to D or hand-over (R145,
R149 to R152). Answers the flags of the conversion and of the epilogue. -/
def State.emitRow (s : State) (c : Cmd) (g : Geo) (tile row : Nat) (vs : List Val) : State × NumFlags × NumFlags :=
  let m := g.mtile tile * g.mt + row
  let b := g.batch tile
  let nt := g.ntile tile
  let ix := g.dRow b m
  let (ws, fe) := s.epilogue c g ix (512 * nt) vs
  let (s, fe) := if g.epi = 3 ∨ g.epi = 4 then
      let (v, f) := rowBlock g.epi ws
      (s.modMat c.ref (fun w => { w with rowAcc := Tab.insert w.rowAcc ((b * g.m + m) * g.nt + nt) v }), fe.or f)
    else (s, fe)
  let s := if g.amax = 0xFFFF then s else s.modMat c.ref (fun w => { w with amax := ws.foldl (fun a v => a.maxv v.abs) w.amax })
  if g.dmode = 1 then
    let elems := ws.zipIdx.map (fun p => (g.d.rowAddr ix.1 ix.2.1 ix.2.2 + 4 * (512 * nt + p.2), g.d.lin (512 * nt + p.2) ix.1 ix.2.1 ix.2.2, p.1))
    ((s.handLines c.ref c 0xE8 g.d.ovp elems).account c.ref (fun a => { a with accElems := a.accElems + ws.length }), {}, fe)
  else
    let (s, fc, cn) := s.writePart c g.d ix.1 ix.2.1 ix.2.2 (512 * nt) ws
    (s.modCmd c.ref (fun x => { (x.addCounts (16 + g.d.fmt.code) cn) with wrote := true }), fc, fe)

/-- Every row of a tile leaves with the values `f` gives. -/
def State.emitTile (s : State) (c : Cmd) (g : Geo) (tile : Nat) (f : Nat → Nat → Val) : State × NumFlags × NumFlags :=
  ((List.range (g.rowsOf tile)).filter (fun row => g.computed c.mat.mask (g.mtile tile * g.mt + row) (g.ntile tile))).foldl
    (fun (st : State × NumFlags × NumFlags) row =>
      let (t, fc, fe) := st.1.emitRow c g tile row ((List.range (g.colsOf tile)).map (f row))
      (t, st.2.1.or fc, st.2.2.or fe)) (s, {}, {})

/-- The frame of an output tile. -/
def State.frameOf (s : State) (region : Nat) (r : CmdRef) (tile which : Nat) : Option Frame :=
  (s.acc region).frames.find? (fun f => f.cmd = r ∧ f.tile = tile ∧ f.which = which)

/-- The bytes of E that the epilogue of an output tile reads. -/
def Cmd.epiSpans (c : Cmd) (g : Geo) (tile : Nat) : List (Nat × Nat) :=
  if g.epi = 1 ∨ g.epi = 2 then
    (c.cellsOf g tile).flatMap (fun rc =>
      let (i, j, k) := g.dRow (g.batch tile) (g.mtile tile * g.mt + rc.1)
      g.e.elemSpans (512 * g.ntile tile + rc.2) i j k)
  else []

/-- The final values of an output tile leave, after the reads of E: `f` gives them and `fr` the flags of forming them for each of the two
registers. The tile is done and its frames go (R145 to R151). -/
def State.finishTile (s : State) (g : Nat) (c : Cmd) (geo : Geo) (tile : Nat) (f : Nat → Nat → Val) (fe fa : NumFlags) : State :=
  let region := g / 4
  let r := c.ref
  s.readingMat r (c.epiSpans geo tile) (fun s =>
    let (s, h1, h2) := s.emitTile c geo tile f
    let s := s.modMat r (fun w => { w with done := w.done ++ [tile] })
    let a := s.acc region
    let s := if geo.frames = 0 then s
      else s.setAcc region { a with frames := a.frames.filter (fun x => ¬ (x.cmd = r ∧ x.tile = tile)) }
    ((s.orFlags .ENG_NUMFLAGS g (fe.or h1)).orFlags .ACC_NUMFLAGS region (fa.or h2)).settleMat r)

/-- A drain that no error strikes (R141 to R151): straight to D, or into a frame, and, when the tile's frames are full, through the root
to D. -/
def State.drainItem (s : State) (g : Nat) (c : Cmd) (geo : Geo) (i : Item) : State :=
  let region := g / 4
  let r := c.ref
  let tile := geo.tile i.index
  let orAll (f : Nat → Nat → NumFlags) : NumFlags := (c.cellsOf geo tile).foldl (fun a rc => a.or (f rc.1 rc.2)) {}
  if ¬ geo.wide then
    let out := fun row col => s.pondOut g c geo i row col
    s.finishTile g c geo tile (fun row col => (out row col).1) (i.fl.or (orAll (fun row col => (out row col).2))) i.fa
  else
    let which := if geo.s = 4 then geo.share i.index / 2 else 0
    let (s, f1, f2) := s.intoFrame g c geo i which (if 1 < geo.nc then i.chunk else geo.share i.index)
    let fe := i.fl.or f1
    let fa := i.fa.or f2
    let u := s.acc region
    let need := if 1 < geo.nc then geo.nc else if geo.s = 4 then 2 else geo.s
    let full (x : Frame) : Bool := decide (x.arrived.length = need)
    let rest := ((s.orFlags .ENG_NUMFLAGS g fe).orFlags .ACC_NUMFLAGS region fa).settleMat r
    match s.frameOf region r tile 0, s.frameOf region r tile 1 with
    | some x, some y =>
      let sum := fun row col => formW64.add (u.val x row col) (u.val y row col)
      if full x ∧ full y then s.finishTile g c geo tile (fun row col => (sum row col).1) fe (fa.or (orAll (fun row col => (sum row col).2)))
      else rest
    | some x, none => if full x then s.finishTile g c geo tile (u.val x) fe fa else rest
    | _, _ => rest

/-- TILE_DRAIN: a Millpond half drains through epilogue and conversion to D, to a frame, or to the data mover (R141 to R151). -/
def runTileDrain (e : Fin 16) (ev : ArrayEvent) (s : State) : Host.Outcome State Fault Refusal :=
  let g := e.val
  let eng := s.engine g
  match eng.drain with
  | none => ok s
  | some i =>
    if s.frozen ∨ ¬ s.running then ok s
    else match s.cmd i.cmd with
    | none => ok (s.setEngine g { eng with drain := none })
    | some c =>
      let geo := c.geo
      let r := i.cmd
      if s.stalled c then ok (s.stall c)
      else if s.homeWaits c.operandSpans then ok s
      else match ev with
      | .millUncorrectable =>
        let s := s.setEngine g { eng with drain := none, retrying := true }
        let s := s.engineEvent g c ev
        ok (if c.mat.retried.contains g ∨ c.mat.failed then s.settleMat r
          else ((if 1 < geo.nc then s.resetTile (g / 4) r (geo.tile i.index) else s).runAgain r i.index).settleMat r)
      | .spillUncorrectable row => ok (s.spillwayEvent (g / 4) row)
      | _ =>
        let s := s.correctedEvent g ev
        let s := s.setEngine g { s.engine g with drain := none, retrying := false }
        let s := s.modMat r (fun w => { w with drainer := g })
        let s := (s.traceAs (unitEngine g) 0x201 c.layer c.operator (i.index + i.chunk <<< 48) false).prof (unitEngine g) 5 1
        ok (s.drainItem g c geo i)

/-- TILE_DRAIN (R141): a QUARANTINE that waited for the engine may end with it. -/
def execTileDrain (e : Fin 16) (ev : ArrayEvent) (s : State) : Host.Outcome State Fault Refusal :=
  match runTileDrain e ev s with
  | .next t => ok t.settleQuars
  | o => o

/-! ## Save and restore (R82 to R85, R155, R156) -/

/-- PREEMPTION: at a tile boundary, of the retry where one is in progress (R138), with a command of priority 0 or 1 ready for the engine or a Brake in force, the item's save
into a free slot begins (R82, R84). -/
def execPreemption (e : Fin 16) (s : State) : Host.Outcome State Fault Refusal :=
  let g := e.val
  let region := g / 4
  let eng := s.engine g
  match eng.compute with
  | none => ok s
  | some i =>
    let l := (s.logicalOf g).getD 4
    let waiting := s.cmds.any (fun c => s.readyFor region l c ∧ s.fld F.Q_CFG_PRIO c.ref.q ≤ 1)
    if s.frozen ∨ ¬ s.running ∨ ¬ i.atEnd ∨ eng.drain.isSome ∨ eng.saving.isSome ∨ ¬ s.preemptible i.cmd.q ∨ ¬ (waiting ∨ s.braking) then ok s
    else match s.cmd i.cmd, s.freeSlot i.cmd.q with
    | some c, some k =>
      if c.mat.failed ∨ c.mat.leaving then ok s
      else
        let s := s.setEngine g { eng with saving := some k }
        let qs := s.queue i.cmd.q
        let sl : Slot := { ref := i.cmd, pkt := c.pkt, len := c.len, region := region, brake := s.braking, engine := l,
                           item := i.index + i.chunk <<< 48 }
        let s := s.setQueue i.cmd.q { qs with slots := qs.slots ++ [(k, sl)] }
        let s := s.modMat i.cmd (fun w => { w with primary := some (w.primary.getD k) })
        ok ((s.markSaved i.cmd.q).prof (unitEngine g) 6 1)
    | _, _ => ok s

/-- The end of a save (R155, R156): the image and then the header of the item are written, and the engine is free. An
uncorrectable word met during the save sets RESTART_ITEM and counts as the engine's event. -/
def State.saveComplete (s : State) (g : Nat) (ev : ArrayEvent) : State :=
  let eng := s.engine g
  match eng.saving, eng.compute with
  | some k, some i =>
    if s.frozen ∨ ¬ s.running then s
    else match s.cmd i.cmd with
    | none => s.setEngine g { eng with saving := none, compute := none }
    | some c =>
      let r := i.cmd
      let bad := decide (ev = .millUncorrectable)
      let used := c.mat.retried.contains g
      let qs := s.queue r.q
      if bad ∧ (used ∨ c.mat.failed) then
        let s := (s.setQueue r.q { qs with slots := qs.slots.filter (fun p => p.1 ≠ k) }).markSaved r.q
        ((s.setEngine g { eng with saving := none, compute := none }).engineEvent g c ev).settleMat r
      else
        let s := if bad then s.engineEvent g c ev else s.correctedEvent g ev
        let geo := c.geo
        let mt := geo.rowsOf (geo.tile i.index)
        let a := s.slotAddr r.q k
        let s := (List.range mt).foldl (fun (t : State) row =>
          let img := (List.range 512).foldr (fun col acc => (Tab.get 0#40 eng.millpond (pondKey i.half row col)).toNat + acc <<< 40) 0
          t.putMem (a + 0x10000 + 2560 * row) img 2560) s
        let s := s.zeroMem (a + 0x1000) 61440
        let l := (s.logicalOf g).getD 0
        let primary := c.mat.primary.getD k
        let s := s.modMat r (fun w => { w with saved := w.saved ++ [(k, i.index, l)], primary := some primary })
        let kept := fun (x : Slot) => if bad then x else { x with fl := i.fl, fa := i.fa }
        let s := s.setQueue r.q { qs with slots := qs.slots.map (fun p => if p.1 = k then (p.1, kept p.2) else p) }
        let w := match s.cmd r with | some x => x.mat | none => {}
        let pend := s.openItems (g / 4) r w (some g)
        let hdr := slotHeader (if primary = k then 1 else 2) l c.seqNo r.q (g / 4) (b2n bad + 2 * b2n (used || bad)) (i.index + i.chunk <<< 48) mt
          i.kstep (c.pkt % 2 ^ 2560) w.cursor pend w.secondaries
        let s := s.putMem a hdr 0x1000
        let s := match s.cmd r with | some x => if primary = k then s else s.rewritePrimary x pend | none => s
        (s.setEngine g { eng with saving := none, compute := none, cmd := none, retrying := false }).settleMat r
  | _, _ => s

/-- The Millpond rows of an item as its slot's image holds them, in rows 0 upward. -/
def State.restoreRows (s : State) (a mt : Nat) (pond : Tab (BitVec 40)) : Tab (BitVec 40) :=
  (List.range mt).foldl (fun (t : Tab (BitVec 40)) row =>
    let img := s.readMem (a + 0x10000 + 2560 * row) 2560
    (List.range 512).foldl (fun t col => Tab.insert t (pondKey 0 row col) (BitVec.ofNat 40 (le img (5 * col) 5))) t) pond

/-- CONTEXT_RESTORE: a saved item returns to its logical engine once no command of a higher level waits for it (R84, R156). One that
reruns from its start has its tile's frames, empty of what it had spilled (R154, R157). A primary slot that is freed so leaves the command
without one until its next save or an abandon (DESIGN CHOICE, log 54). -/
def execContextRestore (e : Fin 16) (s : State) : Host.Outcome State Fault Refusal :=
  let g := e.val
  let region := g / 4
  let eng := s.engine g
  if s.frozen ∨ ¬ s.running ∨ s.braking ∨ ¬ s.inService g ∨ eng.compute.isSome ∨ eng.drain.isSome ∨ eng.saving.isSome then ok s
  else match s.logicalOf g with
  | none => ok s
  | some l =>
    match s.pick (unitEngine g) ((s.savedFor region l).filter (fun c => ¬ c.held)) with
    | none => ok s
    | some c =>
      let r := c.ref
      let prio := s.fld F.Q_CFG_PRIO r.q
      if s.cmds.any (fun x => s.readyFor region l x ∧ s.fld F.Q_CFG_PRIO x.ref.q < prio) then ok s
      else match c.mat.saved.find? (s.awaitsEngine region l c) with
      | none => ok s
      | some (k, _, _) =>
        let a := s.slotAddr r.q k
        let h := s.readMem a 0x1000
        let restart := (le h 0xA 1).testBit 0
        let index := leBits h 0x10 47 0
        let (s, held) := s.withFrames region c (c.geo.tile index)
        if ¬ held then ok s
        else
          let s := if restart ∧ 1 < c.geo.nc then s.resetTile region r (c.geo.tile index) else s
          let qs := s.queue r.q
          let rec_ := (qs.slots.find? (fun p => p.1 = k)).map (·.2)
          let item : Item := if restart then { cmd := r, index := index }
            else { cmd := r
                   index := index
                   chunk := leBits h 0x10 63 48
                   kstep := le h 0x1C 4
                   begun := decide (0 < le h 0x1C 4)
                   fl := (rec_.map (·.fl)).getD {}
                   fa := (rec_.map (·.fa)).getD {} }
          let brake := (rec_.map (·.brake)).getD false
          let s := s.loadItem g c item
          let eng' := s.engine g
          let s := s.setEngine g { eng' with
            millpond := if restart then eng'.millpond else s.restoreRows a (le h 0x18 2) eng'.millpond
            retrying := false }
          let s := s.modMat r (fun w => { w with
            saved := w.saved.filter (fun v => v.1 ≠ k)
            primary := if w.primary = some k then none else w.primary
            retried := if (le h 0xA 1).testBit 1 ∧ ¬ w.retried.contains g then g :: w.retried else w.retried })
          let s := (s.setQueue r.q { qs with slots := qs.slots.filter (fun p => p.1 ≠ k) }).markSaved r.q
          let s := s.putMem (a + 2) 0 1
          ok ((s.noteCmd r (if brake then 0x0701 else 0x0700)).served (unitEngine g) r)

/-! ## Abandoned commands and RESUME (R85, R157) -/

/-- What a RESUME packet needs (R85): the slot holds a command with the same opcode and body, saved under the same region. -/
def State.resumeOk (s : State) (c : Cmd) : Bool :=
  let k := c.resumeSlot
  decide (k < s.fld F.Q_CFG_CTX_SLOTS c.ref.q) &&
  match (s.queue c.ref.q).slots.find? (fun p => p.1 = k) with
  | none => false
  | some (_, sl) =>
    decide (le sl.pkt 2 2 = c.opcode ∧ sl.len = c.len ∧ sl.region = s.regionOf c.ref.q
      ∧ le sl.pkt 0x10 (64 * c.len - 24) = le c.pkt 0x10 (64 * c.len - 24))

/-- The matrix work that a RESUME packet continues, read from its slots; or the slot whose seal fails (R157). A packet that names a
secondary slot continues the command that the slot holds, by its primary slot (log 54). -/
def State.resumeWork (s : State) (c : Cmd) : MatWork ⊕ Nat :=
  let q := c.ref.q
  let slots := (s.queue q).slots
  let head (j : Nat) : Nat := s.readMem (s.slotAddr q j) 0x1000
  let sound (j : Nat) : Bool := let h := head j; le h 0xFFC 4 = crc32c h 0xFFC
  let named := c.resumeSlot
  let own := (s.queue q).slots.filter (fun p => ((s.queue q).slots.find? (fun x => x.1 = named)).any (fun x => x.2.ref = p.2.ref ∧ x.2.kept = p.2.kept))
  let k := ((own.map (fun p => p.1)).find? (fun j => le (head j) 2 1 = 1)).getD named
  let h := head k
  let secs := ((List.range 4).map (fun j => le h (0x189 + j) 1)).filter (· ≠ 0xFF)
  match (k :: secs).find? (fun j => ¬ sound j) with
  | some j => .inr (s.slotAddr q j)
  | none =>
    .inl { cursor := le h 0x180 8,
           pending := (List.range (le h 0x188 1)).map (fun j => leBits h (0x190 + 8 * j) 47 0),
           saved := (k :: secs).map (fun j => let x := head j; (j, leBits x 0x10 47 0, le x 3 1)),
           rowAcc := match slots.find? (fun p => p.1 = k) with | some (_, x) => x.rowAcc | none => [],
           primary := some k }

end Sys2Proof.Machine
end

