-- ==== Sys2Proof/Machine/Queue.lean ====
section
/-! DEFINITION. The command processor's queues: R46 to R56, R74 to R81. Doorbells, queue states, status replies, completion words
and the completion of a command. -/
namespace Sys2Proof.Machine

/-! ## Queue registers -/

/-- Q_STATE.STATE (R79): 0 DISABLED, 1 RUNNING, 2 SEAL_WAIT, 3 DRAINING, 4 HALTING, 5 HALTED, 6 FROZEN. -/
def State.qState (s : State) (q : Nat) : Nat := s.fld F.Q_STATE_STATE q
def State.setQState (s : State) (q v : Nat) : State := s.setFld F.Q_STATE_STATE q v
def State.qHead (s : State) (q : Nat) : Nat := s.fld F.Q_PTR_HEAD q
def State.qTail (s : State) (q : Nat) : Nat := s.fld F.Q_TAIL_TAIL q
/-- n, the base-two logarithm of the number of slots (R50). -/
def State.qLog (s : State) (q : Nat) : Nat := s.fld F.Q_CFG_SIZE_LOG2 q
def State.ringBase (s : State) (q : Nat) : Nat := s.fld F.Q_RING_BASE_BASE q <<< 12
def State.stsBase (s : State) (q : Nat) : Nat := s.fld F.Q_STS_BASE_BASE q <<< 12

/-- The commands of a queue that HEAD has not passed, in ring order. -/
def State.queueCmds (s : State) (q : Nat) : List Cmd := s.cmds.filter (fun c => c.ref.q = q)

/-- Whether a span lies wholly in the interleaved range. -/
def State.inIlv (s : State) (pa n : Nat) : Bool := decide (pa + n ≤ ilvTop s.localGib)

/-- The base of the first area of a queue that R50 refuses: ring, status ring with its completion word, context save area. -/
def State.areaFault (s : State) (ring sts ctx n slots : Nat) : Option Nat :=
  if ¬ s.inIlv ring (64 * 2 ^ n) then some ring
  else if ¬ s.inIlv sts (32 * 2 ^ n + 8) then some sts
  else if slots ≠ 0 ∧ ¬ s.inIlv ctx (slots * 0xA10000) then some ctx
  else none

/-- What an ENABLE that is not refused does (R50, R79): TAIL := HEAD, DROPS cleared, fetching starts at HEAD. -/
def State.enableQueue (s : State) (q : Nat) : State :=
  let h := s.qHead q
  let s := ((s.setFld F.Q_TAIL_TAIL q h).setFld F.Q_STATE_DROPS q 0).setQState q 1
  s.setQueue q { s.queue q with fetch := h, seq := s.fld F.Q_PTR_SEQ q, rereads := 0 }

/-! ## Replies (R53, R54, R74) -/

/-- The 32 bytes of a status reply. -/
def replyImage (q n idx seq status opcode layer op : Nat) (part halted : Bool) (detail time : Nat) : Nat :=
  let phase := ((idx >>> n) % 2) ^^^ 1
  put 0 4 seq + put 4 2 status + put 6 2 opcode + put 8 2 layer + put 0xA 2 op + put 0xC 1 q + put 0xD 1 0x10
    + put 0xE 2 (phase + 2 * b2n halted + 4 * b2n part) + put 0x10 8 detail + put 0x18 8 time

/-- Writes the reply of the packet at an index (R53). -/
def State.writeReply (s : State) (q idx img : Nat) : State :=
  s.hubWrites (s.stsBase q + 32 * (idx % 2 ^ s.qLog q)) img 32

/-- Where the reply of the packet at an index and the completion word of its queue lie. -/
def State.replySpans (s : State) (q idx : Nat) : List (Nat × Nat) :=
  [(s.stsBase q + 32 * (idx % 2 ^ s.qLog q), 32), (s.stsBase q + 32 * 2 ^ s.qLog q, 8)]

/-- STATUS and DETAIL that a command reports: a note stands only where nothing else is reported (R75, R76). -/
def Cmd.report (c : Cmd) : Nat × Nat :=
  if c.status = 0 ∧ c.notes ≠ [] then (1, c.notes.foldl min 0xFFFF) else (c.status, c.detail)

/-- Whether a command was not executed (R75): one of the codes reported before any effect, with nothing written. -/
def Cmd.notExecuted (c : Cmd) : Bool :=
  decide ((0x100 ≤ c.status ∧ c.status ≤ 0x105) ∨ c.status = 0x400 ∨ c.status = 0x402 ∨ c.status = 0x600) && ¬ c.wrote

/-- PARTIAL (R74): the command ended under an ending code after it had written. -/
def Cmd.partialBit (c : Cmd) : Bool := c.wrote && decide (c.status ≠ 0 ∧ c.status ≠ 0x500 ∧ c.status ≠ 0x502)

/-- Writes a command's reply, unless QUIET suppresses it (R74). -/
def State.replyTo (s : State) (c : Cmd) : State :=
  let (st, dt) := c.report
  if c.quiet ∧ st = 0 then s
  else s.writeReply c.ref.q c.ref.idx (replyImage c.ref.q (s.qLog c.ref.q) c.ref.idx c.seqNo st c.opcode c.layer c.operator
    c.partialBit false dt (s.now (ringOf (s.regionOf c.ref.q))))

/-! ## Halts and the end of DRAINING (R79, R80) -/

/-- The queue leaves DRAINING or HALTING when its issued commands have completed. Saved commands that are all that is left are
abandoned at the end of DRAINING, no earlier than the release of a Brake. -/
def State.settleQueue (s : State) (q : Nat) : State :=
  let cs := s.queueCmds q
  if s.qState q = 4 ∧ cs = [] then s.setQState q 5
  else if s.qState q = 3 then
    if cs = [] then s.setQState q 0
    else if ¬ s.braking ∧ cs.all (fun c => c.phase = .completed ∨ (c.phase = .running ∧ c.opcode / 4096 = 2 ∧ c.mat.saved ≠ [])) then
      (cs.foldl (fun (t : State) c => if c.phase = .running then t.abandon c.ref else t) s).settleQuars
    else s
  else s

def State.settleQueues (s : State) : State :=
  ((s.cmds.map (·.ref.q)).eraseDups ++ (List.range 256).filter (fun q => s.qState q = 3 ∨ s.qState q = 4)).foldl State.settleQueue s

/-- A queue halts (R79): HALTING, with the code of the halt. -/
def State.haltQueue (s : State) (q code : Nat) : State :=
  (((s.setFld F.Q_STATE_LAST_STATUS q code).setQueue q { s.queue q with rereads := 0 }).setQState q 4).settleQueue q

/-- CONTEXT_SAVE_COMPLETE (R155, R156). -/
def execContextSaveComplete (e : Fin 16) (ev : ArrayEvent) (s : State) : Host.Outcome State Fault Refusal :=
  ok (s.saveComplete e.val ev).settleQuars.settleQueues

/-! ## Doorbells and queue control -/

/-- v written to DB_TAIL of a queue (R56). -/
def State.dbTail (s : State) (q v : Nat) : State :=
  let v := v % 2 ^ 32
  let st := s.qState q
  let d := sub32 v (s.qTail q)
  let a := sub32 v (s.qHead q)
  if st = 0 ∨ st = 3 then s.incSat F.Q_STATE_DROPS q 1
  else if d = 0 ∨ 2 ^ 31 ≤ d then s
  else if 2 ^ s.qLog q < a then
    let t := (s.incSat F.Q_STATE_DROPS q 1).setFld F.Q_STATE_LAST_STATUS q 0x0105
    if st = 1 ∨ st = 2 then t.haltQueue q 0x0105 else t
  else s.setFld F.Q_TAIL_TAIL q v

/-- A write of `size` bytes that falls in a doorbell page (R55): only an aligned 32-bit or 64-bit write at offset 0 is a DB_TAIL
write; every other write is counted. -/
def State.doorbellWrite (s : State) (q off size v : Nat) : State :=
  if off = 0 ∧ (size = 4 ∨ size = 8) then s.dbTail q v else s.incSat F.Q_STATE_DROPS q 1

/-- DB_TAIL_WRITE (R56). -/
def execDbTailWrite (q : Fin 256) (v : Nat) (s : State) : Host.Outcome State Fault Refusal := ok (s.dbTail q.val v)

/-- ENABLE written alone to Q_CTL: acts only in DISABLED (R50, R87). -/
def State.qEnable (s : State) (q : Nat) : State :=
  if s.qState q ≠ 0 then s
  else match s.areaFault (s.ringBase q) (s.stsBase q) (s.fld F.Q_CTX_BASE_BASE q <<< 16) (s.qLog q) (s.fld F.Q_CFG_CTX_SLOTS q) with
    | some _ => s.setFld F.Q_STATE_LAST_STATUS q 0x0104
    | none => s.enableQueue q

/-- DISABLE written alone to Q_CTL: DRAINING from any state but DISABLED; a packet in SEAL_WAIT is not issued (R79, R80). -/
def State.qDisable (s : State) (q : Nat) : State :=
  if s.qState q = 0 ∨ s.qState q = 3 then s
  else ((s.setQState q 3).setQueue q { s.queue q with rereads := 0 }).settleQueue q

/-- RESTART written alone to Q_CTL: acts only in HALTED; fetching resumes at the index and SEQ of Q_PTR (R80). -/
def State.qRestart (s : State) (q : Nat) : State :=
  if s.qState q ≠ 5 then s
  else (s.setQState q 1).setQueue q { s.queue q with fetch := s.qHead q, seq := s.fld F.Q_PTR_SEQ q, rereads := 0 }

/-- Q_CTL_ENABLE (R50). -/
def execQCtlEnable (q : Fin 256) (s : State) : Host.Outcome State Fault Refusal := ok (s.qEnable q.val)
/-- Q_CTL_DISABLE (R80). -/
def execQCtlDisable (q : Fin 256) (s : State) : Host.Outcome State Fault Refusal := ok (s.qDisable q.val)
/-- Q_CTL_RESTART (R80). -/
def execQCtlRestart (q : Fin 256) (s : State) : Host.Outcome State Fault Refusal := ok (s.qRestart q.val)

/-! ## Completion (R78) -/

/-- Whether a row in memory has a version that its unit supports: one of another major version is not written (R28). -/
def State.rowOk (s : State) (pa off : Nat) : Bool := decide (s.readMem (pa + off + 1) 1 = 1)

/-- The census counts of a command added into its layer's rows (R190, R191), but for rows of an unsupported major version (R28). -/
def State.addCensus (s : State) (c : Cmd) : State :=
  if c.counts = [] then s
  else if c.ntel.layers ≤ c.layer then s.incSat F.NTEL_STATUS_CEN_DROPPED 0 1
  else c.counts.foldl (fun (t : State) p =>
    let row := c.ntel.censusRow c.layer (p.1 % 16)
    let n := p.2
    if ¬ t.rowOk row 0x28 then t
    else
      let t := t.add64 row n.total
      let t := if 16 ≤ p.1 then t.add64 (row + 8) n.total else t
      ((t.add64 (row + 0x10) n.clipped).add64 (row + 0x18) n.vanished).add64 (row + 0x20) n.subnormal) s

/-- The address of the accounting row of a key, if the table holds it (R449). -/
def State.acctRow (s : State) (layer op : Nat) : Option Nat :=
  if layer < 2 ^ s.fld F.OBS_ACCT_LAYERS_LOG2 0 ∧ op < 2 ^ s.fld F.OBS_ACCT_OPS_LOG2 0 then
    some (s.fld F.OBS_ACCT_BASE 0 <<< 7 + 128 * (layer * 2 ^ s.fld F.OBS_ACCT_OPS_LOG2 0 + op))
  else none

/-- The operation counts of a command added into its accounting row (R449), but for a row of an unsupported major version (R28). The busy
cycles of engines are timing: a free value. -/
def State.addAccount (s : State) (c : Cmd) : State :=
  if ¬ s.flag F.OBS_ACCT_EN 0 then s
  else match s.acctRow c.layer c.operator with
    | none => s.incSat F.OBS_STATUS_ACCT_DROPPED 0 1
    | some row =>
      if ¬ s.rowOk row 0x78 then s else
      let a := c.acct
      let (cyc, s) := if c.opcode / 4096 = 2 then s.draw 2 else (0, s)
      ([a.macFull, a.macDouble, a.macQuad, a.macFp32, a.attMacs, a.vecOps, a.tableEvals, a.moveBytes, a.accElems, a.updParams,
        a.wireBytes, cyc, 0, 1].zipIdx).foldl (fun (t : State) p => t.add64 (row + 8 * p.2) p.1) s

/-- HEAD moves past every completed packet at the front, and the completion word carries the newest SEQ (R52, R54). -/
def State.advanceHead (s : State) (q : Nat) : State :=
  let done := (s.queueCmds q).takeWhile (fun c => c.phase = .completed)
  match done.getLast? with
  | none => s
  | some l =>
    let refs := done.map (·.ref)
    let s := { s with cmds := s.cmds.filter (fun c => ¬ refs.contains c.ref) }
    let s := s.setFld F.Q_PTR_HEAD q (s.qHead q + (done.map (·.len)).sum)
    let s := s.setFld F.Q_PTR_SEQ q (s.fld F.Q_PTR_SEQ q + done.length)
    s.hubWrites (s.stsBase q + 32 * 2 ^ s.qLog q) l.seqNo 8

/-- The queue's interrupt (R78). -/
def State.queueIrq (s : State) (c : Cmd) : State :=
  let q := c.ref.q
  if c.irq ∧ s.flag F.Q_CFG_IRQ_EN q ∧ s.fld F.Q_IRQ_EIID q ≠ 0 then
    s.msi ((if s.flag F.Q_IRQ_FILE q then 64 else 0) + s.fld F.Q_IRQ_HART q) (s.fld F.Q_IRQ_EIID q)
  else s

/-- Payload of ISSUE and COMPLETE records (R456). -/
def Cmd.tracePayload (c : Cmd) (x : Nat) : Nat := c.seqNo + c.ref.q <<< 32 + x <<< 40

/-- The steps of R78 for a command whose status is known. -/
def State.complete (s : State) (c : Cmd) : State :=
  let s := if c.notExecuted then s else (s.addCensus c).addAccount c
  let s := s.replyTo c
  let s := s.phaseCmd c.ref .completed
  let s := s.advanceHead c.ref.q
  let s := s.queueIrq c
  let s := s.traceAs unitCmdProc 0x101 c.layer c.operator (c.tracePayload c.report.1) false
  let s := if s.braking then { s with obs := { s.obs with brake := { s.obs.brake with completed := s.obs.brake.completed + 1 } } } else s
  s.settleQueue c.ref.q

/-- COMMAND_COMPLETE: the writes, the reply, the completion word and the interrupt of R78, in that order. While the stack of the status
ring is in protective self-refresh its writes wait (R248), and the event does not occur (log 2). -/
def execCommandComplete (r : CmdRef) (s : State) : Host.Outcome State Fault Refusal :=
  match s.cmd r with
  | some c => ok (if c.phase = .ended ∧ s.running ∧ r.q < 256 ∧ ¬ s.asleep (s.replySpans r.q r.idx) then s.complete c else s)
  | none => ok s

end Sys2Proof.Machine
end

