-- ==== Sys2Proof/Machine/Control.lean ====
section
/-! DEFINITION. Control packets and QUEUE_SETUP: R64 to R67, R86. Each opcode has the checks of R62 on its body and its effect. -/
namespace Sys2Proof.Machine

/-- The control queue (R466). -/
def State.isCtrl (s : State) (q : Nat) : Bool := s.flag F.OBS_BRAKE_CFG_CTRL_EN 0 && decide (s.fld F.OBS_BRAKE_CFG_CTRL_QUEUE 0 = q)

/-- Whether a Brake holds what a queue's waiting commands wait for (R463). -/
def State.heldAtCut (s : State) (q : Nat) : Bool := s.braking && ¬ s.isCtrl q

/-! ## Checks -/

def checksNop (c : Cmd) : Checks := Checks.app (lenIs c 1) (unlisted c [])

def checksWait (s : State) (c : Cmd) : Checks :=
  Checks.all [lenIs c 1, unlisted c [(0x10, 8), (0x18, 8), (0x20, 1)], failRsv (1 < c.f 0x20 1) 0x20, s.addrCheck .words c 0x10 8 8]

def checksQueryCaps (s : State) (c : Cmd) : Checks :=
  Checks.all [lenIs c 1, unlisted c [(0x10, 8)], s.addrCheck .ilv c 0x10 64 256]

/-- Reserved bits and encodings of the register values of a QUEUE_SETUP body (R65). -/
def checksQueueSetup (c : Cmd) : Checks :=
  let p := c.pkt
  let region := c.fb 0x30 31 28
  Checks.all [
    lenIs c 2, unlisted c [(0x10, 1), (0x18, 0x30), (0x48, 1)],
    bitsZero p 0x18 11 0, bitsZero p 0x18 63 48, bitsZero p 0x20 11 0, bitsZero p 0x20 63 48, bitsZero p 0x28 15 0, bitsZero p 0x28 63 48,
    bitsZero p 0x30 15 2, failRsv (c.fb 0x30 20 16 < 6 ∨ 20 < c.fb 0x30 20 16) 0x32, bitsZero p 0x30 23 21, failRsv (4 < c.fb 0x30 27 25) 0x33,
    failRsv (3 < region ∧ region ≠ 8) 0x33, bitsZero p 0x30 63 32, bitsZero p 0x40 7 6, bitsZero p 0x40 63 20, failRsv (1 < c.f 0x48 1) 0x48]

/-! ## Effects -/

/-- NOP (R64). -/
def execNop (r : CmdRef) (s : State) : Host.Outcome State Fault Refusal := ok (s.run r 0x0000 (fun _ => s.finish r 0 0))

/-- FENCE: a NOP with BARRIER (R67). -/
def execFence (r : CmdRef) (s : State) : Host.Outcome State Fault Refusal := ok (s.run r 0x0001 (fun _ => s.finish r 0 0))

/-- One read of a WAIT's word (R67): it completes on the first read that meets the condition, with the value read. -/
def State.waitRead (s : State) (c : Cmd) : State :=
  let a := c.fb 0x10 47 0
  s.readingThen c.ref [(a, 8)] (fun s =>
     let v := s.readMem a 8
     let want := c.f 0x18 8
     if (if c.f 0x20 1 = 0 then want ≤ v else v = want) then s.finish c.ref 0 v else s.phaseCmd c.ref .waiting)

/-- WAIT: its first read; then it holds its queue (R67). -/
def execWait (r : CmdRef) (s : State) : Host.Outcome State Fault Refusal := ok (s.run r 0x0002 (fun c => if s.heldAtCut r.q then s else s.waitRead c))

/-- WAIT_POLL: a later read of a WAIT (R67). A Brake holds the WAIT where it waits (R463). -/
def execWaitPoll (r : CmdRef) (s : State) : Host.Outcome State Fault Refusal :=
  match s.cmd r with
  | some c => ok (if c.opcode = 0x0002 ∧ c.phase = .waiting ∧ s.running ∧ ¬ s.heldAtCut r.q then s.waitRead c else s)
  | none => ok s

/-- SIGNAL: a write of VALUE, or an atomic add of it at the home of its line (R66, R67, R286). -/
def execSignal (r : CmdRef) (s : State) : Host.Outcome State Fault Refusal :=
  ok (s.run r 0x0003 (fun c =>
    let a := c.fb 0x10 47 0
    let v := c.f 0x18 8
    if c.f 0x20 1 = 0 then ((s.hubWrites a v 8).wrote r).finish r 0 0
    else
      let t := s.mergeRecords a 8
      match t.firstBad [(a, 8)] with
      | some pa => t.poisoned r pa
      | none => (((t.putMem a ((t.readMem a 8 + v) % 2 ^ 64) 8).carry 8 false [(a, 8)]).wrote r).finish r 0 0))

/-- The capability block (R86). -/
def State.capsBlock (s : State) : Nat :=
  put 1 1 1 + put 2 1 1 + put 5 1 1 + put 7 1 1 + put 8 2 0x1FFF + put 0xA 2 0x0FFF
    + put 0xC 1 4 + put 0xD 1 4 + put 0xE 1 32 + put 0xF 1 8 + put 0x10 2 256 + put 0x12 1 64 + put 0x13 1 64 + put 0x14 1 6 + put 0x15 1 20
    + put 0x16 1 4 + put 0x17 1 s.localGib + put 0x18 8 0xA10000 + put 0x20 2 1792 + put 0x22 2 2400
    + ([5, 6, 4, 6, 6, 7, 9, 5, 5, 5, 4, 5].zipIdx.foldl (fun a p => a + put (0x28 + 2 * p.2) 2 p.1) 0)
    + put 0x48 8 0x1F

/-- QUERY_CAPS: writes the capability block (R86). -/
def execQueryCaps (r : CmdRef) (s : State) : Host.Outcome State Fault Refusal :=
  ok (s.run r 0x0004 (fun c => ((s.hubWrites (c.fb 0x10 47 0) s.capsBlock 256).wrote r).finish r 0 0))

/-- Loads the registers of a queue with the values of a QUEUE_SETUP body held at byte `off` of `p` (R65). -/
def State.loadQueue (s : State) (q p off : Nat) : State :=
  ([Reg.Q_RING_BASE, .Q_STS_BASE, .Q_CTX_BASE, .Q_CFG, .Q_PTR, .Q_IRQ].zipIdx).foldl (fun (t : State) x =>
    t.setR x.1 q (BitVec.ofNat 64 (le p (off + 8 * x.2) 8))) s

/-- The area that R50 refuses in the values of a QUEUE_SETUP body at byte `off` of `p`. -/
def State.setupFault (s : State) (p off : Nat) : Option Nat :=
  s.areaFault (le p off 8) (le p (off + 8) 8) (le p (off + 16) 8) (leBits p (off + 24) 20 16) (leBits p (off + 24) 27 25)

/-- QUEUE_SETUP (R65). -/
def execQueueSetup (r : CmdRef) (s : State) : Host.Outcome State Fault Refusal :=
  ok (s.run r 0x9001 (fun c =>
    let q := c.f 0x10 1
    let en := c.f 0x48 1 = 1
    if s.qState q ≠ 0 then s.finish r 0x0104 q
    else match (if en then s.setupFault c.pkt 0x18 else none) with
      | some a => s.finish r 0x0104 a
      | none =>
        let t := s.loadQueue q c.pkt 0x18
        (if en then t.enableQueue q else t).finish r 0 0))

end Sys2Proof.Machine
end

