-- ==== Sys2Proof/Machine/Hoist.lean ====
section
/-! DEFINITION. Memory tiers and the Hoist: R255 to R267. Hints, victims, swaps, streams; spec/11_memory_tiers.md. -/
namespace Sys2Proof.Machine

/-! ## Frames and their attributes (R35, R257) -/

/-- Frame numbers of the interleaved range. -/
def State.ilvFrames (s : State) : Nat := (56 - s.localGib) * 1024

/-- The frame number of an address (R35). -/
def State.frameOfPa (s : State) (pa : Nat) : Nat :=
  match rangeOf s.localGib pa with
  | .apt st => s.ilvFrames + (pa - aptBase - st * aptPitch) >>> 20
  | _ => pa >>> 25

/-- The base of the hoist unit of a frame of a stack. -/
def State.unitOfFrame (s : State) (st f : Nat) : Nat :=
  if f < s.ilvFrames then f <<< 25 else aptBase + st * aptPitch + (f - s.ilvFrames) <<< 20

/-- The Hoists that a range concerns. -/
def State.hoistsOf (s : State) (pa : Nat) : List Nat :=
  match rangeOf s.localGib pa with
  | .apt st => [st]
  | _ => List.range 32

/-- Frame numbers of the hoist units that a span touches. -/
def State.framesOf (s : State) (pa n : Nat) : List Nat :=
  if n = 0 then []
  else
    let a := s.frameOfPa pa
    (List.range (s.frameOfPa (pa + n - 1) + 1 - a)).map (· + a)

def State.attr (s : State) (st f : Nat) : Nat := (Tab.get 0#16 (s.hoist st).attrs f).toNat
def State.setAttr (s : State) (st f hi lo v : Nat) : State :=
  let h := s.hoist st
  s.setHoist st { h with attrs := Tab.set 0#16 h.attrs f (BitVec.ofNat 16 (setBits (s.attr st f) hi lo v)) }
def State.pins (s : State) (st f : Nat) : Nat := bits (s.attr st f) 15 12
def State.pinned (s : State) (st f : Nat) : Bool := s.pins st f ≠ 0

/-- Pinned frames of a stack: the same frame numbers in each of its channels. -/
def State.pinnedFrames (s : State) (st : Nat) : List Nat := ((s.hoist st).attrs.filter (fun p => 4096 ≤ p.2.toNat)).map (·.1)

/-- Whether a hoist unit is under a poison hold. -/
def State.unitHeld (s : State) (base : Nat) : Bool := s.holds.any (fun p => match p.2 with | some h => decide (h.unit = base) | none => false)

/-! ## Victims and swaps (R262, R263) -/

/-- Whether a frame is in the fast tier of a channel (R256). -/
def State.isFast (s : State) (gch f : Nat) : Bool := decide (s.slotOf gch f < 8192)

/-- Fast frames of a channel in the order in which they entered the fast tier: those of power-on first, by number (log 11). -/
def State.fastFrames (s : State) (gch : Nat) : List Nat :=
  let h := s.hoistChan gch
  (List.range 8192).filter (fun f => s.isFast gch f ∧ ¬ h.entered.contains f) ++ h.entered.filter (s.isFast gch)

/-- The victim that a swap for a hint lowers (R262). -/
def State.victim (s : State) (gch : Nat) (h : Hint) : Option Nat :=
  let st := gch / 16
  let free (f : Nat) : Bool := ¬ s.pinned st f
  let fast := s.fastFrames gch
  let marked := ((s.hoist st).attrs.filter (fun p => p.2.toNat.testBit 11)).map (·.1)
  match marked.find? (fun f => free f && s.isFast gch f) with
  | some f => some f
  | none =>
    match fast.find? (fun f => free f && ¬ (s.attr st f).testBit 10 && ¬ h.raise.contains f) with
    | some f => some f
    | none => fast.find? (fun f => free f && (s.attr st f).testBit 10 && decide (bits (s.attr st f) 8 6 ≠ h.sid))

/-- The next frame that a hint raises in a channel. -/
def State.nextSlow (s : State) (gch : Nat) (h : Hint) : Option Nat := h.raise.find? (fun f => ¬ s.isFast gch f)

/-- A channel without a swap starts the next one of the hint in progress, unless a poison hold defers it (R263, R268). -/
def State.startSwap (s : State) (gch : Nat) : State :=
  let st := gch / 16
  match (s.hoist st).hints with
  | [] => s
  | h :: _ =>
    let hc := s.hoistChan gch
    if ¬ h.begun ∨ hc.swap.isSome then s
    else match s.nextSlow gch h with
    | none => s
    | some x =>
      match s.victim gch h with
      | none => s
      | some y =>
        if s.unitHeld (s.unitOfFrame st x) ∨ s.unitHeld (s.unitOfFrame st y) then s
        else s.setHoistChan gch { hc with swap := some { slow := x, victim := y } }

/-! ## Hints in order (R259, R261, R265) -/

/-- The frame actions of a hint as it is taken. -/
def State.takeHint (s : State) (st : Nat) (h : Hint) : State :=
  match h.kind with
  | .hoist => h.range.foldl (fun t f => t.setAttr st f 11 11 0) s
  | .lower => h.range.foldl (fun t f => if t.pinned st f then t else t.setAttr st f 11 11 1) s
  | .pin => h.range.foldl (fun t f => (t.setAttr st f 15 12 (t.pins st f + 1)).setAttr st f 11 11 0) s
  | .unpin => h.range.foldl (fun t f => t.setAttr st f 15 12 (t.pins st f - 1)) s
  | .open_ => h.range.foldl (fun t f => (t.setAttr st f 9 9 1).setAttr st f 8 6 h.sid) s
  | .advance => h.range.foldl (fun t f =>
      if h.raise.contains f then (t.setAttr st f 11 11 0).setAttr st f 10 10 1
      else if t.pinned st f then t else (t.setAttr st f 11 11 1).setAttr st f 10 10 0) s
  | .close => h.range.foldl (fun t f =>
      let t := if t.pinned st f then t else t.setAttr st f 11 11 1
      ((t.setAttr st f 10 10 0).setAttr st f 9 9 0).setAttr st f 8 6 0) s

/-- Whether every frame a hint raises is fast in every channel of the stack. -/
def State.hintDone (s : State) (st : Nat) (h : Hint) : Bool :=
  (List.range 16).all (fun c => (s.nextSlow (16 * st + c) h).isNone && (s.hoistChan (16 * st + c)).swap.isNone)

/-- A hint's command ends when the last Hoist has finished it. -/
def State.hintEnds (s : State) (h : Hint) : State :=
  match h.cmd with
  | none => s
  | some r => if (List.range 32).any (fun st => (s.hoist st).hints.any (fun x => x.cmd = some r)) then s else s.finish r 0 0

/-- A Hoist works on its hints: it takes the first, starts swaps, and goes on to the next when it is done; `fuel` bounds the
hints. A hint that covers a held unit waits (R268). -/
def State.runHoist (s : State) (st : Nat) : Nat → State
  | 0 => s
  | fuel + 1 =>
    match (s.hoist st).hints with
    | [] => s
    | h :: rest =>
      if ¬ h.begun ∧ h.range.any (fun f => s.unitHeld (s.unitOfFrame st f)) then s
      else
        let s := if h.begun then s
          else
            let t := s.takeHint st h
            t.setHoist st { t.hoist st with hints := { h with begun := true } :: rest }
        if s.hintDone st h then
          let t := s.setHoist st { s.hoist st with hints := rest }
          State.runHoist (t.hintEnds h) st fuel
        else (List.range 16).foldl (fun (t : State) c => t.startSwap (16 * st + c)) s

/-- The hints of a command reach the Hoists they concern. -/
def State.sendHints (s : State) (hs : List (Nat × Hint)) : State :=
  let t := hs.foldl (fun (t : State) p => t.setHoist p.1 { t.hoist p.1 with hints := (t.hoist p.1).hints ++ [p.2] }) s
  hs.foldl (fun (t : State) p => t.runHoist p.1 ((t.hoist p.1).hints.length + 1)) t

/-- One hint for every Hoist it concerns. -/
def State.sendHint (s : State) (stks : List Nat) (h : Hint) : State := s.sendHints (stks.map (fun st => (st, h)))

/-- SWAP_COMPLETE: with burst 1,023 of a channel's swap exchanged, the two remap entries change in one action, and the next swap may start
(R263). A Freeze and a poison hold stop the swap engine (R268, R470). -/
def execSwapComplete (ch : Fin 512) (s : State) : Host.Outcome State Fault Refusal :=
  let g := ch.val
  let st := g / 16
  let hc := s.hoistChan g
  match hc.swap with
  | none => ok s
  | some w =>
    if s.frozen ∨ w.cursor < 1024 ∨ s.unitHeld (s.unitOfFrame st w.slow) ∨ s.unitHeld (s.unitOfFrame st w.victim) then ok s
    else
      let a := s.slotOf g w.slow
      let b := s.slotOf g w.victim
      let remap := (hc.remap.filter (fun p => p.1 ≠ w.slow ∧ p.1 ≠ w.victim))
        ++ (if b = w.slow then [] else [(w.slow, b)]) ++ (if a = w.victim then [] else [(w.victim, a)])
      let s := s.setHoistChan g { remap := remap, entered := hc.entered.filter (· ≠ w.victim) ++ [w.slow], swap := none }
      let s := s.incWrap F.HST_MIGRATED_FRAMES st 2
      ok (s.runHoist st ((s.hoist st).hints.length + 1))

/-! ## The hint commands (R36, R258, R260) -/

/-- The hoist unit's size for a range that starts at `pa` (R36): 1 MiB in an aperture, populated or not, 32 MiB in the interleaved
range. For a BASE in neither the spec gives no unit; 32 MiB (DESIGN CHOICE, log 52). -/
def State.hintUnit (_ : State) (pa : Nat) : Nat := if aptBase ≤ pa ∧ pa < aptBase + 32 * aptPitch then 0x100000 else 0x2000000

/-- R36 on a range whose base is at byte offset `ob` and whose length is at `ol`. -/
def State.hintRange (s : State) (base len ob ol : Nat) : Checks :=
  let u := s.hintUnit base
  Checks.app (failLen (len = 0 ∨ len % u ≠ 0) ol) (if base % u ≠ 0 then failAdr true ob base else failAdrO (s.spanFault .words base len) ob)

def checksHint (s : State) (c : Cmd) : Checks :=
  Checks.all [lenIs c 1, unlisted c [(0x10, 8), (0x18, 8)], addrRsv c.pkt 0x10, s.hintRange (c.fb 0x10 47 0) (c.f 0x18 8) 0x10 0x18]

def checksStream (s : State) (c : Cmd) : Checks :=
  let mode := c.f 0x10 1
  let used := match mode with
    | 0 => [(0x14, 4), (0x18, 8), (0x20, 4), (0x24, 4)]
    | 1 => [(0x12, 1), (0x28, 4)]
    | _ => []
  let base := c.fb 0x18 47 0
  Checks.all [lenIs c 1, failRsv (2 < mode) 0x10, failRsv (7 < c.f 0x11 1) 0x11, failRsv (mode = 1 ∧ 1 < c.f 0x12 1) 0x12,
    unlisted c ([(0x10, 1), (0x11, 1)] ++ used),
    if mode = 0 then Checks.all [addrRsv c.pkt 0x18, failLen (c.f 0x14 4 = 0) 0x14, failLen (c.f 0x20 4 = 0) 0x20, failLen (c.f 0x24 4 = 0) 0x24,
      s.hintRange base (max 1 (c.f 0x20 4 * c.f 0x24 4) * s.hintUnit base) 0x18 0x24] else {}]

/-- PINS of a frame as it will be once the hints that wait before it have acted (R260, R261). -/
def State.pinsAfter (s : State) (st f : Nat) : Nat :=
  (s.hoist st).hints.foldl (fun (n : Nat) h =>
    if h.begun ∨ ¬ h.range.contains f then n
    else match h.kind with
      | .pin => n + 1
      | .unpin => n - 1
      | _ => n) (s.pins st f)

/-- The frames of a stack that are pinned, or that a waiting hint changes, with their PINS after every waiting hint. -/
def State.pinnedAfter (s : State) (st : Nat) : List Nat :=
  let waiting := ((s.hoist st).hints.filter (fun h => ! h.begun && decide (h.kind = .pin))).flatMap (fun h => h.range)
  ((s.pinnedFrames st ++ waiting).eraseDups).filter (fun f => decide (s.pinsAfter st f ≠ 0))

/-- The checks of R260 on a HOIST, PIN or UNPIN over a range: status and DETAIL of the first that fails. -/
def State.hintFault (s : State) (k : HintKind) (base len : Nat) : Option (Nat × Nat) :=
  let stks := s.hoistsOf base
  let fs := s.framesOf base len
  let above15 := k = .pin ∧ stks.any (fun st => fs.any (fun f => decide (15 ≤ s.pinsAfter st f)))
  let above7680 := k = .pin ∧ stks.any (fun st => 7680 < (s.pinnedAfter st).length + (fs.filter (fun f => s.pinsAfter st f = 0)).length)
  let noRoom := (k = .hoist ∨ k = .pin) ∧ stks.any (fun st => (List.range 16).any (fun c =>
    8192 - ((s.pinnedAfter st).filter (s.isFast (16 * st + c))).length < fs.length))
  if above15 ∨ above7680 ∨ noRoom then some (0x0402, 0x18)
  else if k = .unpin then
    (fs.findSome? (fun f => (stks.find? (fun st => decide (s.pinsAfter st f = 0))).map (fun st => s.unitOfFrame st f))).map (fun a => (0x0104, a))
  else none

/-- HOIST, LOWER, PIN or UNPIN issues to the Hoists (R259). -/
def hintCommand (r : CmdRef) (opcode : Nat) (k : HintKind) (s : State) : State :=
  s.run r opcode (fun c =>
    let base := c.fb 0x10 47 0
    let len := c.f 0x18 8
    match s.hintFault k base len with
    | some (st, d) => s.finish r st d
    | none =>
      let fs := s.framesOf base len
      (s.phaseCmd r .running).sendHint (s.hoistsOf base)
        { cmd := some r, kind := k, range := fs, raise := if k = .hoist ∨ k = .pin then fs else [] })

/-- HOIST (R259). -/
def execHoist (r : CmdRef) (s : State) : Host.Outcome State Fault Refusal := ok (hintCommand r 0x8001 .hoist s)
/-- LOWER (R259). -/
def execLower (r : CmdRef) (s : State) : Host.Outcome State Fault Refusal := ok (hintCommand r 0x8002 .lower s)
/-- PIN (R259). -/
def execPin (r : CmdRef) (s : State) : Host.Outcome State Fault Refusal := ok (hintCommand r 0x8003 .pin s)
/-- UNPIN (R259). -/
def execUnpin (r : CmdRef) (s : State) : Host.Outcome State Fault Refusal := ok (hintCommand r 0x8004 .unpin s)

/-- The open stream of a number on a stack. -/
def State.streamOf (s : State) (st sid : Nat) : Option Stream := Tab.get none (s.hoist st).streams sid

def State.setStream (s : State) (st sid : Nat) (x : Option Stream) : State :=
  s.setHoist st { s.hoist st with streams := Tab.set none (s.hoist st).streams sid x }

/-- Frames of segments `a` to `b - 1` of a stream, ascending. -/
def State.segFrames (s : State) (x : Stream) (a b : Nat) : List Nat :=
  let u := s.hintUnit x.base * x.segUnits
  s.framesOf (x.base + a * u) ((b - a) * u)

/-- The target set of an ADVANCE, in the order in which it is raised (R265). -/
def State.targetOf (s : State) (x : Stream) (dir pos : Nat) : List Nat :=
  if dir = 0 then s.segFrames x pos (min x.segments (pos + x.win))
  else
    let lo := pos + 1 - min (pos + 1) x.win
    (List.range (pos + 1 - lo)).flatMap (fun k => s.segFrames x (pos - k) (pos - k + 1))

/-- The base of an open stream that shares a frame with `fs` in one of the stacks. -/
def State.streamClash (s : State) (stks fs : List Nat) : Option Nat :=
  stks.findSome? (fun st => (List.range 8).findSome? (fun k => match s.streamOf st k with
    | some y => if (s.segFrames y 0 y.segments).any (fun f => fs.contains f) then some y.base else none
    | none => none))

/-- STREAM MODE 0: opens a stream on the Hoists that its range concerns (R259, R265). -/
def State.streamOpen (s : State) (r : CmdRef) (c : Cmd) : State :=
  let sid := c.f 0x11 1
  let base := c.fb 0x18 47 0
  let x : Stream := { base := base, segUnits := c.f 0x20 4, segments := c.f 0x24 4, win := c.f 0x14 4 }
  let stks := s.hoistsOf base
  let fs := s.segFrames x 0 x.segments
  if stks.any (fun st => (s.streamOf st sid).isSome) then s.finish r 0x0104 sid
  else match s.streamClash stks fs with
    | some b => s.finish r 0x0104 b
    | none =>
      if 4096 < x.win * x.segUnits then s.finish r 0x0402 0x14
      else
        ((stks.foldl (fun (t : State) st => t.setStream st sid (some x)) s).phaseCmd r .running).sendHint stks
          { cmd := some r, kind := .open_, range := fs, sid := sid }

/-- STREAM MODE 1 and 2: advances or closes the stream that each of the Hoists `opened` holds under SID (R260, R265). -/
def State.streamMove (s : State) (r : CmdRef) (c : Cmd) (opened : List (Nat × Stream)) : State :=
  let sid := c.f 0x11 1
  if c.f 0x10 1 = 1 then
    if opened.any (fun p => decide (p.2.segments ≤ c.f 0x28 4)) then s.finish r 0x0105 0x28
    else (s.phaseCmd r .running).sendHints (opened.map (fun p => (p.1,
      { cmd := some r, kind := .advance, range := s.segFrames p.2 0 p.2.segments, raise := s.targetOf p.2 (c.f 0x12 1) (c.f 0x28 4), sid := sid })))
  else
    ((opened.foldl (fun (t : State) p => t.setStream p.1 sid none) s).phaseCmd r .running).sendHints (opened.map (fun p => (p.1,
      { cmd := some r, kind := .close, range := s.segFrames p.2 0 p.2.segments, sid := sid })))

/-- The Hoists on which a stream number is open, each with its stream. -/
def State.openOn (s : State) (sid : Nat) : List (Nat × Stream) :=
  (List.range 32).filterMap (fun st => (s.streamOf st sid).map (fun x => (st, x)))

/-- STREAM: opens, advances or closes a stream (R259, R260, R265). ADVANCE and CLOSE go to the Hoists on which SID is open, each acting on
its own stream. -/
def execStream (r : CmdRef) (s : State) : Host.Outcome State Fault Refusal :=
  ok (s.run r 0x8005 (fun c =>
    let sid := c.f 0x11 1
    if c.f 0x10 1 = 0 then s.streamOpen r c
    else if s.openOn sid = [] then s.finish r 0x0104 sid
    else s.streamMove r c (s.openOn sid)))

/-! ## The HINT field of the data movement commands (R266) -/

/-- Whether an address lies in a range that has hoist units (R35): the interleaved range or an aperture. -/
def State.hoistable (s : State) (pa : Nat) : Bool := (chanOf s.localGib pa).isSome

/-- Bit 0: a HOIST over every hoist unit that the destination span touches, none in region scratch; skipped where R260 would refuse it. -/
def State.hintRaise (s : State) (pa n : Nat) : State :=
  if ¬ s.hoistable pa ∨ (s.hintFault .hoist pa n).isSome then s
  else
    let fs := s.framesOf pa n
    s.sendHint (s.hoistsOf pa) { cmd := none, kind := .hoist, range := fs, raise := fs }

/-- Bit 1: MARK on every unpinned frame of a hoist unit that lies wholly inside the source span. -/
def State.hintMark (s : State) (pa n : Nat) : State :=
  if ¬ s.hoistable pa then s
  else (s.hoistsOf pa).foldl (fun (t : State) st =>
    ((s.framesOf pa n).filter (fun f => pa ≤ s.unitOfFrame st f ∧ s.unitOfFrame st f + s.hintUnit pa ≤ pa + n)).foldl
      (fun (u : State) f => if u.pinned st f then u else u.setAttr st f 11 11 1) t) s

end Sys2Proof.Machine
end

