-- ==== Sys2Proof/Machine/Homes.lean ====
section
/-! DEFINITION. The homes (R275 to R288): requests to the home of a line, the directory, and transactions. A request is taken when its
home is free, waits otherwise in arrival order, and holds the line until TRANSACTION_ACK. -/
namespace Sys2Proof.Machine

/-- Whether a line is in the coherence domain (R277). -/
def State.coherent (s : State) (line : Nat) : Bool := match rangeOf s.localGib (64 * line) with | .ilv => true | .apt _ => true | _ => false

def State.attached (s : State) (k : Nat) : Bool := (s.fld F.CF_AGENTS_ATTACHED 0).testBit k

/-- Sets an agent's copy of a line. -/
def State.setCopy (s : State) (k line : Nat) (c : CLine) : State := { s with caches := Tab.set {} s.caches (cacheKey k line) c }
def State.dirOf (s : State) (line : Nat) : Option DirEntry := Tab.get none s.dir line
def State.setDir (s : State) (line : Nat) (e : Option DirEntry) : State := { s with dir := Tab.set none s.dir line e }

/-- Unit ID of a caching agent (R275). -/
def unitCaching (k : Nat) : Nat := if k < 8 then unitL3 k else if k < 12 then unitCtl (k - 8) else unitCtl 8

/-- Captures a coherence failure, which is fatal (R297): cause 1 snoop timeout, 2 directory uncorrectable, 3 protocol error. -/
def State.coherenceFatal (s : State) (cause agent line : Nat) : State :=
  let st := s.homeOf line
  let w := setBits (setBits (setBits (setBits 1 63 61 cause) 60 57 agent) 56 52 st) 47 6 line
  let s := s.setR .CF_FATAL 0 (BitVec.ofNat 64 w)
  s.fatal 0x0F01 (unitFabric (st / 8)) (64 * line) (put 0 8 w)

/-! ## The caches of a cluster (R304, R306) -/

/-- A row of the cache table: bytes, ways. -/
structure CacheSize where
  bytes : Nat
  ways  : Nat
  deriving DecidableEq, Repr

/-- The cache table (R304): L1 instruction, L1 data and L2 of a core, L3 of a cluster. -/
def cacheTable : List CacheSize := [⟨64 * 1024, 4⟩, ⟨64 * 1024, 4⟩, ⟨1024 * 1024, 8⟩, ⟨16 * 1024 * 1024, 16⟩]

/-- The L3 of a cluster. It includes every line of its cores' L1 and L2 (R304). -/
def l3 : CacheSize := cacheTable.getD 3 ⟨0, 0⟩

/-- Sets of a cache of 64-byte lines. -/
def CacheSize.sets (c : CacheSize) : Nat := c.bytes / (64 * c.ways)

/-- The lines that a cluster's L3 holds in the set of a line. The set is the line number modulo the number of sets (PRESUMED, log 17). -/
def State.setOf (s : State) (k line : Nat) : List Nat :=
  (s.caches.filter (fun p => decide (p.1 / 2 ^ 42 = k ∧ p.1 % 2 ^ 42 ≠ line ∧ p.1 % 2 ^ 42 % l3.sets = line % l3.sets))).map (fun p => p.1 % 2 ^ 42)

/-- Counts `n` events of a kind on a hart, in each counter that selects it (R306). -/
def State.hpmEvent (s : State) (h event n : Nat) : State :=
  let x := s.hart h
  if event = 0 then s
  else s.setHart h { x with hpmCount := (List.range 8).foldl (fun (t : Tab Nat) i =>
    if Tab.get 0 x.hpmEvent (3 + i) = event then Tab.set 0 t (3 + i) ((Tab.get 0 t (3 + i) + n) % 2 ^ 64) else t) x.hpmCount }

/-- Whether a counter of a cluster's harts selects one of the events. -/
def State.clusterCounts (s : State) (k : Nat) (events : List Nat) : Bool :=
  (List.range 8).any (fun j => (List.range 8).any (fun i => events.contains (Tab.get 0 (s.hart (8 * k + j)).hpmEvent (3 + i))))

/-- Events of a cluster are counted on the core they belong to; a request of the cluster does not say which one: a free value (log 6). -/
def State.clusterEvents (s : State) (k : Nat) (events : List Nat) : State :=
  if 8 ≤ k ∨ ! s.clusterCounts k events then s
  else
    let (v, t) := s.draw 21
    events.foldl (fun (t : State) e => t.hpmEvent (8 * k + v % 8) e 1) t

/-! ## The directory (R279) -/

/-- Agents that an entry names. -/
def DirEntry.named (e : DirEntry) : List Nat := (List.range 13).filter (fun k => e.pres.testBit k || (decide (e.mode ≠ 0 ∧ e.owner = k)))
/-- The owner that an entry names. -/
def DirEntry.owned (e : DirEntry) : Option Nat := if e.mode = 0 then none else some e.owner

/-- The directory set of a line. -/
def State.dirKey (s : State) (line : Nat) : Nat × Nat := (s.homeOf line, Config.dirSet line % 16384)

/-- The dirty data of a line, whether a cache holds it or the transaction in progress has taken it. -/
def State.dirtyData (s : State) (line : Nat) : Option (Nat × Bool) :=
  match s.dirtyCopy line with
  | some (_, c) => some (c.data, c.poison)
  | none => match (s.home line).txn with
    | some t => if t.granted ∨ ¬ t.dirty then none else t.data
    | none => none

/-- A line whose entry is evicted: every copy goes, dirty data to memory first (R279). -/
def State.backInvalidate (s : State) (line : Nat) : State :=
  let t := match s.dirtyData line with
    | some (d, p) => (s.dropCopies line).storeLine line d p
    | none => s.dropCopies line
  t.incWrap F.HA_BACKINV_COUNT (s.homeOf line) 1

/-- Makes room for an entry in a set of 16 ways: the least recently allocated one goes. -/
def State.makeRoom (s : State) (line : Nat) : State :=
  if (s.dirOf line).isSome then s
  else
    let set_ := s.dir.filter (fun (p : Nat × Option DirEntry) => p.2.isSome && decide (s.dirKey p.1 = s.dirKey line))
    if set_.length < 16 then s
    else
      let stamp (p : Nat × Option DirEntry) : Nat := match p.2 with | some e => e.stamp | none => 0
      let old := set_.foldl (fun (b : Option (Nat × Nat)) p => match b with
        | some x => if stamp p < x.2 then some (p.1, stamp p) else b
        | none => some (p.1, stamp p)) none
      match old with
      | some x => s.backInvalidate x.1
      | none => s

/-- Records the holders of a line; a new entry is stamped after every other. -/
def State.note (s : State) (line mode owner pres : Nat) : State :=
  let s := s.makeRoom line
  let top := s.dir.foldl (fun (m : Nat) p => match p.2 with | some e => max m (e.stamp + 1) | none => m) 0
  let stamp := match s.dirOf line with | some e => e.stamp | none => top
  s.setDir line (some { mode := mode, owner := owner, pres := pres, stamp := stamp })

/-- The directory forgets an agent as the owner of a line. -/
def State.forget (s : State) (k line : Nat) : State :=
  match s.dirOf line with
  | some e =>
    let pres := e.pres &&& ((2 ^ 13 - 1) ^^^ 2 ^ k)
    if pres = 0 then s.setDir line none else s.setDir line (some { e with mode := 0, owner := 0, pres := pres })
  | none => s

/-! ## What an agent does with its own copy (R279, R287, R295, R305) -/

/-- An agent drops a line in E, and the directory follows, or one in S, which sends nothing (R279). -/
def State.evictLine (s : State) (k line : Nat) : State :=
  if (s.copyOf k line).st = .e then (s.setCopy k line {}).forget k line
  else if (s.copyOf k line).st = .s then s.setCopy k line {}
  else s

/-- An agent writes back a line in O or M (R279, R287). With `keep` it keeps a clean copy (R295): E after M, S after O (log 51). A
`level` from 1 to 3 is that of a cache in which an uncorrectable error has struck the line: it is written back poisoned (R305). -/
def State.writeBackLine (s : State) (k line : Nat) (keep : Bool) (level : Nat) : State :=
  let c := s.copyOf k line
  if c.st.dirty then
    let bad := c.poison || decide (level ≠ 0)
    let s := if level = 0 then s
      else s.report { code := 0x0209, cls := 1, level := 1, unit := unitCaching k, addr := 64 * line, action := 4, detail := put 0 2 level }
    let s := s.storeLine line c.data bad
    if ¬ keep then (s.setCopy k line {}).forget k line
    else if c.st = .m then s.setCopy k line { c with st := .e, poison := bad }
    else
      let pres := match s.dirOf line with | some e => e.pres ||| 2 ^ k | none => 2 ^ k
      (s.note line 0 0 pres).setCopy k line { c with st := .s, poison := bad }
  else s

/-! ## Slots (R232, R242 to R247) -/

def clsNum : TClass → Nat
  | .crit => 0 | .coll => 1 | .bulk => 2 | .back => 3

/-- Refresh multiplier of a grade (R247). -/
def gradeMult (g : Nat) : Nat := if g = 0 then 1 else if g = 1 then 2 else 4

/-- The start of a 64-slot frame: a changed grade takes effect, the multiplier rises with it, and the counts of the frame restart
(R245, R246). -/
def State.frameStart (s : State) (g : Nat) : State :=
  let c := s.chan g
  let gr := min 3 (s.fld F.STK_THERM_GRADE (g / 16))
  s.setChan g { c with used := [0, 0, 0, 0], dense := 0, removed := 0, grade := gr, mult := max c.mult (gradeMult gr) }

/-- Whether a bank of a channel is busy with a refresh (R245). -/
def Chan.refreshing (c : Chan) (bank : Nat) : Bool := decide (c.count < Tab.get 0 c.busyTill bank)

/-- Whether BULK and BACK may together take at most 32 of the 64 slots of a frame: at HOT, and at step 3 of the throttle order (R247,
R406, R410). -/
def State.capped (s : State) (g : Nat) : Bool := decide ((s.chan g).grade = 2) || s.flag F.GOV_STATUS_BULK_CAP 0

/-- Whether the dense allowance, the thermal limits and the Governor's cap allow a burst of a class on a die (R232, R247, R406, R410). -/
def State.allows (s : State) (g : Nat) (cls : TClass) (die : Nat) : Bool :=
  let c := s.chan g
  (decide (die < 4) || decide (c.dense < 16))
    && (match cls with
      | .bulk | .back => decide (c.grade < 3) && (! s.capped g || decide (c.used.getD 2 0 + c.used.getD 3 0 < 32))
      | _ => true)

/-- Counts a granted slot of a class: the frame's shares, the profiling signals and the bytes of R448. -/
def State.countSlot (s : State) (g : Nat) (cls : TClass) (dense token : Bool) (wr : Nat) : State :=
  let c := s.chan g
  let n := (clsNum cls)
  let s := s.setChan g { c with tokens := if token then c.tokens - 1 else c.tokens,
                                used := if token then c.used else c.used.set n (c.used.getD n 0 + 1), dense := c.dense + b2n dense }
  ((s.prof (unitChan g) (2 + n) 1).prof (unitChan g) 9 (b2n dense)).compat (2 * b2n dense + wr) 64

/-- The slot counter of a channel moves on. -/
def State.nextSlot (s : State) (g : Nat) : State :=
  s.setChan g { s.chan g with slot := ((s.chan g).slot + 1) % 64, count := (s.chan g).count + 1 }

/-- The token bucket gains a token every CRIT_PERIOD slots (R244). -/
def State.tokenTick (s : State) (g : Nat) : State :=
  let c := s.chan g
  let full := s.fld F.CH_ARB_CRIT_PERIOD g ≤ c.tokenSlot + 1
  s.setChan g { c with tokenSlot := if full then 0 else c.tokenSlot + 1,
                       tokens := if full then min (c.tokens + 1) (s.fld F.CH_ARB_CRIT_DEPTH g) else c.tokens }

/-! ## Transactions (R281, R282) -/

/-- The caching agent that a request comes from. -/
def HReq.agent : HReq → Option Nat
  | .readShared a | .readUnique a _ _ _ | .upgrade a _ _ _ | .evict a | .writeBack a _ _ | .flush a => some a
  | .readOnce _ | .invWrite .. | .mergeWrite .. | .atomicAdd .. | .atomicMax .. => none

/-- The class of a number. -/
def clsOf (n : Nat) : TClass := if n = 0 then .crit else if n = 1 then .coll else if n = 2 then .bulk else .back

/-- Traffic class of a request's access to memory (R242). -/
def HReq.cls : HReq → TClass
  | .readOnce u | .invWrite u _ _ | .mergeWrite u _ _ | .atomicAdd u _ _ _ | .atomicMax u _ _ => clsOf u
  | _ => .crit

/-- Whether a request writes memory at its home. -/
def HReq.writes : HReq → Bool
  | .invWrite .. | .mergeWrite .. | .atomicAdd .. | .atomicMax .. | .writeBack .. | .flush _ => true
  | _ => false

/-- The snoops a request needs (R280, R282, R285). -/
def State.snoopsOf (s : State) (line : Nat) (r : HReq) : List (Nat × Snoop) :=
  match s.dirOf line with
  | none => []
  | some e =>
    match r with
    | .readShared a => match e.owned with | some o => if o = a then [] else [(o, .shared)] | none => []
    | .readOnce _ => match e.owned with | some o => [(o, .once)] | none => []
    | .readUnique a _ _ _ => (e.named.filter (· ≠ a)).map (fun k => (k, .unique))
    | .upgrade a _ _ _ => (e.named.filter (· ≠ a)).map (fun k => (k, .unique))
    | .evict _ | .writeBack .. | .flush _ => []
    | _ => e.named.map (fun k => (k, .inv))

/-- The copy that the requester itself still holds, and whether it is poisoned. -/
def State.ownData (s : State) (line : Nat) (r : HReq) : Option (Nat × Bool) :=
  match r.agent with
  | some a => if (s.copyOf a line).st = .i then none else some ((s.copyOf a line).data, (s.copyOf a line).poison)
  | none => none

/-- The line as the request finds it once its snoops are answered: the requester's own copy, what an owner gave, or memory. -/
def State.found (s : State) (line : Nat) (t : Txn) : Nat × Bool := (s.ownData line t.req).getD (t.data.getD (s.memLine line))

/-- A store into a line installed in M: into a poisoned line it is not performed (R479), unless it is a cbo.zero, which writes zeros over
the whole line and so clears the poison (R287). -/
def storeInto (data : Nat) (poison : Bool) (mask v : Nat) (zero : Bool) : CLine :=
  if zero then { st := .m }
  else if poison then { st := .m, data := data, poison := true }
  else { st := .m, data := mergeBytes data v mask 64 0 }

/-- A read for sharing is served (R280, R282): after a forward the owner stands in S or O; a line no other agent names is granted in E;
a requester that holds the line already has a hit. -/
def State.serveShared (s : State) (line a d : Nat) (bad forwarded : Bool) : State :=
  let e := (s.dirOf line).getD { mode := 0 }
  let s := { s with resp := .data d }
  if (s.copyOf a line).st ≠ .i then s
  else if forwarded then
    let o := e.owner
    let ownerO : Bool := decide ((s.copyOf o line).st = .o)
    (s.note line (if ownerO then 2 else 0) (if ownerO then o else 0) (e.pres ||| 2 ^ a ||| (if ownerO then 0 else 2 ^ o))).setCopy a line { st := .s, data := d, poison := bad }
  else if e.named.all (· = a) then (s.note line 1 a 0).setCopy a line { st := .e, data := d, poison := bad }
  else (s.note line e.mode e.owner (e.pres ||| 2 ^ a)).setCopy a line { st := .s, data := d, poison := bad }

/-- A line is granted in M and the store of the requester goes into it. -/
def State.serveUnique (s : State) (line a d : Nat) (bad : Bool) (mask v : Nat) (zero : Bool) : State :=
  (s.note line 1 a 0).setCopy a line (storeInto d bad mask v zero)

/-- Before a write at home: dirty data that a snoop returned goes to memory and no agent names the line. -/
def State.gatherLine (s : State) (line d : Nat) (bad dirty : Bool) : State :=
  (if dirty then s.storeLine line d bad else s).dropCopies line

/-- A partial write at home merges with the line (R284); with a poisoned one it counts as R479 says. -/
def State.serveMerge (s : State) (line mask v : Nat) : State :=
  (if mask % 2 ^ 64 ≠ 2 ^ 64 - 1 then s.mergeNote line else s).writeLine line (mask % 2 ^ 64) v

/-- An atomic at home (R286): `n` bytes at an offset of the line become what `f` makes of them; with a poisoned line they are not written. -/
def State.serveAtomic (s : State) (line off n : Nat) (f : Nat → Nat) : State :=
  let s := s.mergeNote line
  s.putMem (64 * line + off) (f (s.readMem (64 * line + off) n) % 2 ^ (8 * n)) n

/-- Whether the owner's cache sends the line to the requester of a request (R282): the reads, and not the writes at home. -/
def HReq.forwards : HReq → Bool
  | .readShared _ | .readUnique .. | .upgrade .. | .readOnce _ => true
  | _ => false

/-- Serves a transaction whose snoops are answered (R280, R284 to R286). -/
def State.serveTxn (s : State) (line : Nat) (t : Txn) : State :=
  let s := if t.data.isSome ∧ t.req.forwards then s.incWrap F.HA_FORWARD_COUNT (s.homeOf line) 1 else s
  let (d, bad) := s.found line t
  match t.req with
  | .readShared a => s.serveShared line a d bad t.data.isSome
  | .readUnique a mask v z => s.serveUnique line a d bad mask v z
  | .upgrade a mask v z => s.serveUnique line a d bad mask v z
  | .readOnce _ => { s with resp := .data d }
  | .invWrite _ v p => (s.dropCopies line).storeLine line v p
  | .mergeWrite _ mask v => (s.gatherLine line d bad t.dirty).serveMerge line mask v
  | .atomicAdd _ off size v => (s.gatherLine line d bad t.dirty).serveAtomic line off size (· + v)
  | .atomicMax _ off v => (s.gatherLine line d bad t.dirty).serveAtomic line off 4 (max v)
  | .evict _ => s
  | .writeBack a keep level => s.writeBackLine a line keep level
  | .flush a => (s.writeBackLine a line false 0).evictLine a line

/-- Whether a transaction reads memory (R282): no owner has given the line, the requester holds no copy, and the request is not a whole
line written. -/
def State.needsMem (s : State) (line : Nat) (t : Txn) : Bool :=
  t.data.isNone && (s.ownData line t.req).isNone && (match t.req with
    | .invWrite .. | .writeBack .. | .flush _ => false
    | .mergeWrite _ mask _ => decide (mask % 2 ^ 64 ≠ 2 ^ 64 - 1)
    | _ => true)

/-- Whether a transaction takes a burst slot of its channel: it reads memory, or writes it. -/
def State.needsChan (s : State) (line : Nat) (t : Txn) : Bool := s.needsMem line t || t.req.writes

/-- A channel as its next slot finds it: the token bucket moves on, and at the start of a frame its counts restart (R244, R246). -/
def State.slotBegins (s : State) (g : Nat) : State :=
  let s := s.tokenTick g
  if (s.chan g).slot = 0 then s.frameStart g else s

/-- Whether the next slot of a line's channel does not go to a request of a class for that line, by the order of R243: the stack is in
protective self-refresh, the channel is out of service, a refresh or a Tentering window takes the slot or the bank, earlier requests or a
swap wait, or the limits do not allow it. -/
def State.chanBlocked (s : State) (line : Nat) (cls : TClass) : Bool :=
  match s.placeAt line with
  | none => false
  | some (ca, p) =>
    let g := ca.gch
    let c := s.chan g
    (s.stack (g / 16)).selfRef || decide (2 ≤ s.fld F.CH_STATE_STATE g) || decide (c.tentDue ≠ 0) || decide (c.refresh ≠ [])
      || c.refreshing (32 * p.die + p.bank) || decide (c.queue ≠ []) || (s.hoistChan g).swap.isSome || ! (s.slotBegins g).allows g cls p.die

/-- A request that finds its channel idle takes its next slot (R243). -/
def State.takeSlot (s : State) (line : Nat) (cls : TClass) (wr : Nat) : State :=
  (s.placeAt line).elim s (fun q =>
    let g := q.1.gch
    let s := s.slotBegins g
    let token : Bool := decide (cls = .crit) && decide (0 < (s.chan g).tokens)
    (s.countSlot g cls (decide (4 ≤ q.2.die)) token wr).nextSlot g)

/-- Whether the transaction of a line writes memory. -/
def State.homeWrites (s : State) (line : Nat) : Nat := match (s.home line).txn with | some t => b2n t.req.writes | none => 0

/-- An access to memory of a line waits at its channel. -/
def State.queueHome (s : State) (line : Nat) (cls : TClass) : State :=
  (chanOf s.localGib (64 * line)).elim s (fun ca =>
    let c := s.chan ca.gch
    if c.queue.any (fun q => decide (q.line = line ∧ q.op = .home)) then s
    else s.setChan ca.gch { c with queue := c.queue ++ [{ cls := cls, line := line, op := .home }] })

/-- The region of the die of a caching agent (R14, R275). -/
def agentRegion (k : Nat) : Nat := if 8 ≤ k ∧ k < 12 then k - 8 else 8

/-- The data of a caching agent's transaction travels between its die and the home's (R17, R448); what another agent gave has travelled as it
answered its snoop. -/
def State.lineTravels (s : State) (line : Nat) (t : Txn) : State :=
  let here := s.homeOf line / 8
  match t.req with
  | .readShared a | .readUnique a _ _ _ | .upgrade a _ _ _ => if s.needsMem line t then s.travel here (agentRegion a) 64 else s
  | .writeBack a _ _ | .flush a => s.travel (agentRegion a) here 64
  | _ => s

/-- The transaction of a line is served: memory is read where it must be (R237, R238), and the acknowledgement is awaited. -/
def State.serveNow (s : State) (line : Nat) (t : Txn) : State :=
  let h := s.home line
  let s := (if s.needsMem line t then s.readBurst line 0 else s).lineTravels line t
  (s.serveTxn line t).setHome line { h with txn := some { t with granted := true } }

/-- Serves the transaction in progress on a line if no snoop is outstanding; an access to memory that its channel cannot take at once waits
there for a burst slot. -/
def State.tryServe (s : State) (line : Nat) : State :=
  match (s.home line).txn with
  | some t =>
    if t.granted ∨ t.snoops ≠ [] then s
    else if ¬ s.needsChan line t then s.serveNow line t
    else if s.chanBlocked line t.req.cls then s.queueHome line t.req.cls
    else (s.takeSlot line t.req.cls (b2n t.req.writes)).serveNow line t
  | none => s

/-- The access to memory that a transaction waits for takes its burst slot: the transaction is served. -/
def State.homeBurst (s : State) (line : Nat) : State :=
  match (s.home line).txn with
  | some t => if t.granted ∨ t.snoops ≠ [] then s else s.serveNow line t
  | none => s

/-- A home takes a request. -/
def State.takeReq (s : State) (line : Nat) (r : HReq) : State :=
  let h := s.home line
  (s.setHome line { h with txn := some { req := r, snoops := s.snoopsOf line r } }).tryServe line

/-- Whether a request ends as it is taken: an Evict, a WriteBack that finds no dirty line, and a request of an agent that has been detached
meanwhile, which is not served (R296). -/
def State.instant (s : State) (line : Nat) (r : HReq) : Bool :=
  match r with
  | .evict _ => true
  | .writeBack a _ _ | .flush a => ! (s.copyOf a line).st.dirty
  | _ => match r.agent with | some a => ! s.attached a | none => false

/-- The effect of a request that ends as it is taken. -/
def State.instantReq (s : State) (line : Nat) (r : HReq) : State :=
  match r with
  | .evict a | .flush a => s.evictLine a line
  | _ => s

/-- A free home takes the requests that wait, until one holds the line (R281). -/
def State.takeNext (s : State) (line : Nat) : List HReq → State
  | [] => s.setHome line {}
  | r :: rest =>
    if s.instant line r then ((s.setHome line { wait := rest }).instantReq line r).takeNext line rest
    else (s.setHome line { wait := rest }).takeReq line r

/-- A request of a unit to an address that no channel serves is rejected by the fabric: a read answers a fault, a write is dropped, and
it is captured (R31, R487). -/
def State.rejectReq (s : State) (line unit : Nat) (r : HReq) : State :=
  let wr : Bool := match r with | .invWrite .. | .mergeWrite .. | .atomicAdd .. | .atomicMax .. => true | _ => false
  let t := s.unpopulated unit (64 * line) (b2n wr)
  if wr then t else { t with resp := .accessFault }

/-- A request reaches the home of a line: it is taken, or waits in arrival order (R281). `ev` is what the directory's code finds (R279,
R297). -/
def State.request1 (s : State) (line unit : Nat) (r : HReq) (ev : DirEcc) : State :=
  if ¬ s.running then s
  else if rangeOf s.localGib (64 * line) = .none ∨ s.holeAt (64 * line) then s.rejectReq line unit r
  else if ¬ s.coherent line then s
  else if ev = .uncorrectable then s.coherenceFatal 2 (r.agent.getD 0) line
  else
    let s := if ev = .corrected then s.incSat F.HA_DIR_DIR_CORR (s.homeOf line) 1 else s
    let h := s.home line
    match h.txn with
    | none => if s.instant line r then s.instantReq line r else s.takeReq line r
    | some _ => s.setHome line { h with wait := h.wait ++ [r] }

end Sys2Proof.Machine
end

