-- ==== Sys2Proof/Machine/RegWrite.lean ====
section
/-! DEFINITION. Writing the fields of a register: the access codes of R6, and the reserved encodings that are not stored (R9). -/
namespace Sys2Proof.Machine

/-- Whether `v` is a reserved encoding of the RW field of a register whose lowest bit is `lo`. -/
def reservedVal (r : Reg) (lo v : Nat) : Bool :=
  match r, lo with
  | .Q_CFG, 28 => decide (3 < v ∧ v ≠ 8)
  | .Q_CFG, 25 => decide (4 < v)
  | .Q_CFG, 16 => decide (v < 6 ∨ 20 < v)
  | .MP_SPARE, 0 => decide (46 < v)
  | .NTEL_CENSUS, 48 => decide (16 < v)
  | .UPD_CTL, 0 => decide (v = 3)
  | .RC_WRT, 48 => decide (16383 < v)
  | .CH_ARB, 40 => decide (v = 0)
  | .CH_ARB, 32 => decide (v = 0)
  | .CH_LANE_MAP, 32 => decide (35 < v)
  | .CH_LANE_MAP, 8 => decide (35 < v)
  | .CH_LANE_MAP, 0 => decide (35 < v)
  | .CH_SCRUB, 0 => decide (v < 3600 ∨ 604800 < v)
  | .HST_MAP, 44 => decide (57343 < v)
  | .CF_SNP_TIMEOUT, 0 => decide (v < 10 ∨ 10000 < v)
  | .CL_DVFS, 0 => decide (v < 8 ∨ 30 < v)
  | .BLT_DMG_BASE, 59 => decide (v ≠ 0 ∧ (v < 6 ∨ 20 < v))
  | .HOP_CFG, 32 => decide (64 < v)
  | .HOP_CFG, 8 => decide (v < 1 ∨ 16384 < v)
  | .HOP_CFG, 0 => decide (v < 1 ∨ 64 < v)
  | .PORT_CFG, 0 => decide (v = 3)
  | .NET_CFG, 32 => decide (v = 0 ∨ v = 4095)
  | .NET_QPT, 48 => decide (4096 < v)
  | .NET_TIME_ADJ, 0 => decide ((signed v 32).natAbs > 858993)
  | .CT_CFG, 48 => decide (v = 0 ∨ v = 4791)
  | .CT_CFG, 20 => decide (v < 10 ∨ 4000 < v)
  | .CT_CFG, 12 => decide (v < 8)
  | .CT_STAGING, 56 => decide (160 < v)
  | .CT_SLOG_BASE, 59 => decide (v ≠ 0 ∧ (v < 6 ∨ 20 < v))
  | .GOV_CAP, 16 => decide (v < 1 ∨ 1000 < v)
  | .GOV_CAP, 0 => decide (v < 1050 ∨ 1500 < v)
  | .TST_MBIST_CTL, 16 => decide (v = 3)
  | .TST_MBIST_LOG, 52 => decide (v < 4 ∨ 20 < v)
  | _, _ => false

/-- Bits of a field that its map reserves: a write of them is ignored, and they read 0 (R8). Bit 4v + 3 of NET_VC_MAP is reserved for
each class v. -/
def reservedBits (r : Reg) (lo : Nat) : Nat := if r = .NET_VC_MAP ∧ lo = 0 then 0x88888888 else 0

/-- One field under a write of `v`, of which the bits of `mask` are written (R6, R9). -/
def State.putField (s : State) (r : Reg) (i : Nat) (f : Nat × Nat × Acc) (mask v : Nat) : State :=
  let fl : Fld := ⟨r, f.1, f.2.1⟩
  let old := s.fld fl i
  let m := bits mask f.1 f.2.1 &&& (fl.top ^^^ reservedBits r f.2.1)
  let x := bits v f.1 f.2.1
  match f.2.2 with
  | .rw =>
    let new := (old &&& (fl.top ^^^ m)) ||| (x &&& m)
    if m = 0 ∨ reservedVal r f.2.1 new then s else s.setFld fl i new
  | .w1c => s.setFld fl i (old &&& (fl.top ^^^ (x &&& m)))
  | _ => s

/-- A write to a register: each field by its access code. Reserved bits are ignored (R8). -/
def State.putFields (s : State) (r : Reg) (i : Nat) (mask v : Nat) : State :=
  r.layout.foldl (fun t f => t.putField r i f mask v) s

/-- Physical address of a register of a region window, and of a stack's blocks. -/
def regionPa (q off : Nat) : Nat := 0x710000000000 + q * 0x1000000000 + off
def stackPa (st off : Nat) : Nat := regionPa (st / 8) (0x2000000 + st % 8 * 0x1000000 + off)
def chanPa (g off : Nat) : Nat := stackPa (g / 16) (0x100000 + g % 16 * 0x10000 + off)

end Sys2Proof.Machine
end

