-- ==== Sys2Proof/Machine/Stack.lean ====
section
/-! DEFINITION. Stacks and channels: R230 to R254. The slot arbiter, refresh, temperature grades, Tentering and repair;
spec/10_memory_stacks.md. -/
namespace Sys2Proof.Machine

/-! ## The slot arbiter (R242 to R247) -/

/-- The class whose turn the present slot of a frame is, by the weights of CH_ARB: 0 CRIT, 1 COLL, 2 BULK, 3 BACK (log 12). Slots that
Tentering takes are removed from the frame before the weights apply (R244). -/
def State.turnOf (s : State) (g : Nat) : Nat :=
  let c := s.chan g
  let n := 64 - (c.removed + min c.tentDue (64 - c.slot))
  let k := c.slot - c.removed
  let w0 := s.fld F.CH_ARB_CRIT_W g
  let w1 := w0 + s.fld F.CH_ARB_COLL_W g
  let w2 := w1 + s.fld F.CH_ARB_BULK_W g
  if 64 * k < w0 * n then 0 else if 64 * k < w1 * n then 1 else if 64 * k < w2 * n then 2 else 3

/-- Whether a queued request may be granted: its bank is not busy with refresh, no earlier request concerns its burst, and the limits
allow it (R232, R243, R247). -/
def State.ready (s : State) (g : Nat) (p : BurstReq × Nat) : Bool :=
  let c := s.chan g
  match s.placeAt p.1.line with
  | none => false
  | some (_, pl) =>
    ! c.refreshing (32 * pl.die + pl.bank) && ! (c.queue.take p.2).any (fun q => decide (q.line = p.1.line)) && s.allows g p.1.cls pl.die

/-- Serves a granted request. `err` is the 72-byte difference by which the stored burst has changed since its last access. -/
def State.serve (s : State) (g : Nat) (q : BurstReq) (err : Nat) : State :=
  let s := if err = 0 then s else { s with ecc := Tab.set 0 s.ecc q.line (Tab.get 0 s.ecc q.line ^^^ err) }
  match q.op with
  | .home => s.homeBurst q.line
  | .scrub last =>
    let t := s.readBurst q.line 1
    if last then t.incWrap F.CH_SCRUB_PASSES g 1 else t
  | .writeBack _ =>
    match s.burst q.line with
    | .corrected _ => s.storeLine q.line (s.burstData q.line) false
    | _ => s

/-- A grant: the request leaves the queue, and the slot is counted. -/
def State.grant (s : State) (g k err : Nat) (token : Bool) : State :=
  match (s.chan g).queue[k]? with
  | none => s
  | some q =>
    let dense := match s.placeAt q.line with | some (_, p) => decide (4 ≤ p.die) | none => false
    let s := s.setChan g { s.chan g with queue := (s.chan g).queue.eraseIdx k }
    let wr := match q.op with
      | .writeBack _ => 1
      | .home => s.homeWrites q.line
      | .scrub _ => 0
    (s.countSlot g q.cls dense token wr).serve g q err

/-- The place that the next slot of a swap's exchange concerns (R263): the reads of X and Y, then the writes of X into Y's slot and of Y
into X's. -/
def State.swapPlace (s : State) (g : Nat) (w : Swap) : Place :=
  placeOf (s.slotOf g (if w.part = 0 ∨ w.part = 3 then w.slow else w.victim)) w.cursor

/-- Whether the swap of a channel may take a slot: a BACK request (R264), while no Freeze and no poison hold stops it (R268, R470). -/
def State.swapReady (s : State) (g : Nat) : Bool :=
  match (s.hoistChan g).swap with
  | none => false
  | some w =>
    let c := s.chan g
    let p := s.swapPlace g w
    decide (w.cursor < 1024) && ! s.frozen && ! c.refreshing (32 * p.die + p.bank) && s.allows g .back p.die
      && ! s.unitHeld (s.unitOfFrame (g / 16) w.slow) && ! s.unitHeld (s.unitOfFrame (g / 16) w.victim)

/-- A slot granted to a swap: the fourth of a burst exchanges it and moves the cursor on. -/
def State.grantSwap (s : State) (g : Nat) : State :=
  match (s.hoistChan g).swap with
  | none => s
  | some w =>
    let s := s.countSlot g .back (decide (4 ≤ (s.swapPlace g w).die)) false (w.part / 2)
    let w := if w.part = 3 then { w with cursor := w.cursor + 1, part := 0 } else { w with part := w.part + 1 }
    s.setHoistChan g { s.hoistChan g with swap := some w }

/-- The first request of a class that is ready. -/
def State.pickClass (s : State) (g : Nat) (n : Nat) : Option Nat :=
  ((s.chan g).queue.zipIdx.find? (fun p => decide ((clsNum p.1.cls) = n) && s.ready g p)).map (·.2)

/-- A slot granted to a class: its first ready request, or for BACK the swap in progress. -/
def State.grantClass (s : State) (g n err : Nat) (token : Bool) : Option State :=
  match s.pickClass g n with
  | some k => some (s.grant g k err token)
  | none => if n = 3 ∧ s.swapReady g then some (s.grantSwap g) else none

/-- Slots for which a refresh occupies its bank: 120 ns of a fast die, 200 ns of a dense one, at 1.6 ns a slot (R245). -/
def refreshSlots (bank : Nat) : Nat := if bank / 32 < 4 then 75 else 125

/-- `n` refreshes of a bank are issued one after the other. -/
def State.issueRefresh (s : State) (g bank n : Nat) : State :=
  let c := s.chan g
  let from_ := max c.count (Tab.get 0 c.busyTill bank)
  let r := Tab.get {} c.banks bank
  s.setChan g { c with busyTill := Tab.set 0 c.busyTill bank (from_ + n * refreshSlots bank),
                       banks := Tab.set {} c.banks bank { postponed := r.postponed - n, paying := decide (n < r.postponed) } }

/-- The banks whose refreshes stand at their limit are taken for refresh (R243, R245). -/
def State.payRefresh (s : State) (g : Nat) : State :=
  let busy := (s.chan g).refresh
  if busy = [] then s
  else ((busy.foldl (fun (t : State) b => t.issueRefresh g b 1) (s.setChan g { s.chan g with refresh := [] }))).prof (unitChan g) 7 1

/-- A slot of a Tentering window: no traffic; postponed refreshes of idle banks are placed in it (R245, R249). -/
def State.tentSlot (s : State) (g : Nat) : State :=
  let c := s.chan g
  let owed := (c.banks.filter (fun p => decide (p.2.postponed ≠ 0) && ! c.refreshing p.1)).map (·.1)
  let s := owed.foldl (fun (t : State) b => t.issueRefresh g b 1) s
  (s.setChan g { s.chan g with tentDue := c.tentDue - 1, removed := c.removed + 1 }).prof (unitChan g) 8 1

/-- The write-backs that a newer write to their burst has overtaken leave the queue (R237). -/
def State.dropStale (s : State) (g : Nat) : State :=
  let live (q : BurstReq) : Bool := match q.op with
    | .writeBack d => (match s.burst q.line with | .corrected _ => true | _ => false) && decide (s.burstData q.line = d)
    | _ => true
  s.setChan g { s.chan g with queue := (s.chan g).queue.filter live }

/-- BURST_SLOT: one burst slot of a channel: banks at their limit go to refresh, a Tentering window carries no traffic, else one request
is granted (R243, R244). -/
def execBurstSlot (ch : Fin 512) (err : Nat) (s : State) : Host.Outcome State Fault Refusal :=
  let g := ch.val
  if (s.stack (g / 16)).selfRef ∨ 2 ≤ s.fld F.CH_STATE_STATE g then ok s
  else
    let s := s.dropStale g
    let s := s.tokenTick g
    let s := if (s.chan g).slot = 0 then s.frameStart g else s
    let s := s.payRefresh g
    if (s.chan g).tentDue ≠ 0 then ok ((s.tentSlot g).nextSlot g)
    else
      match (if 0 < (s.chan g).tokens then s.grantClass g 0 err true else none) with
      | some t => ok (t.nextSlot g)
      | none =>
        let turn := s.turnOf g
        match (List.range 4).findSome? (fun d => s.grantClass g ((turn + d) % 4) err false) with
        | some t => ok (t.nextSlot g)
        | none => ok ((s.prof (unitChan g) 6 1).nextSlot g)

/-! ## Refresh (R245) -/

/-- REFRESH_DUE: a bank's refresh is issued, with what was postponed, or postponed while the bank has queued requests, up to four
intervals; at that limit the bank is taken (R243). -/
def execRefreshDue (ch : Fin 512) (die : Fin 16) (bank : Fin 32) (s : State) : Host.Outcome State Fault Refusal :=
  let g := ch.val
  let key := 32 * die.val + bank.val
  let c := s.chan g
  let b := Tab.get {} c.banks key
  let queued := c.queue.any (fun q => match s.placeAt q.line with | some (_, p) => decide (p.die = die.val ∧ p.bank = bank.val) | none => false)
  if (s.stack (g / 16)).selfRef then ok s
  else if ¬ queued then ok (s.issueRefresh g key (b.postponed + 1))
  else if b.postponed < 4 ∧ ¬ b.paying then
    ok (s.setChan g { c with banks := Tab.set {} c.banks key { b with postponed := b.postponed + 1 } })
  else ok (s.setChan g { c with refresh := c.refresh ++ [key], banks := Tab.set {} c.banks key { postponed := b.postponed + 1, paying := true } })

/-- REFRESH_RATE_LOWER: 32 ms after a fall of the grade the multiplier falls to that of the grade reached then, or stays at that of a grade
that has risen since (R245). -/
def execRefreshRateLower (stack : Fin 32) (s : State) : Host.Outcome State Fault Refusal :=
  let st := s.stack stack
  match st.lowered with
  | [] => ok s
  | (t, m) :: rest =>
    if s.time < t + 32000000 then ok s
    else
      let m := max m (gradeMult (s.fld F.STK_THERM_GRADE stack))
      let s := (List.range 16).foldl (fun (u : State) c => u.setChan (16 * stack + c) { u.chan (16 * stack + c) with mult := m }) s
      ok (s.setStack stack { st with lowered := rest })

/-! ## Scrubbing (R241) -/

/-- The frame that a slot holds. -/
def State.frameIn (s : State) (g slot : Nat) : Nat := (((s.hoistChan g).remap.find? (fun p => p.2 = slot)).map (·.1)).getD slot

/-- The frame whose burst `b` a slot holds, with the cursor of a swap in progress (R263). -/
def State.frameAt (s : State) (g slot b : Nat) : Nat :=
  let f := s.frameIn g slot
  match (s.hoistChan g).swap with
  | some w => if b < w.cursor ∧ f = w.slow then w.victim else if b < w.cursor ∧ f = w.victim then w.slow else f
  | none => f

/-- SCRUB_READ: the next burst of the pass becomes a BACK-class read of the channel (R241). The pass counts once its last read is done. -/
def execScrubRead (ch : Fin 512) (s : State) : Host.Outcome State Fault Refusal :=
  let g := ch.val
  if 2 ≤ s.fld F.CH_STATE_STATE g then ok s
  else
    let c := s.chan g
    let line := paOf s.localGib { gch := g, choff := s.frameAt g (c.scrubAt / 1024) (c.scrubAt % 1024) <<< 16 + (c.scrubAt % 1024) <<< 6 } / 64
    let last := decide (c.scrubAt + 1 = 57344 * 1024)
    ok (s.setChan g { c with queue := c.queue ++ [{ cls := .back, line := line, op := .scrub last }], scrubAt := if last then 0 else c.scrubAt + 1 })

/-! ## Tentering (R249, R250) -/

def TentKind.slots : TentKind → Nat
  | .oscillator => 32 | .vref => 128 | .impedance => 64

/-- Period of a kind of window, in ns. -/
def TentKind.period : TentKind → Nat
  | .oscillator => 4000 | .vref => 1000000 | .impedance => 1000000

def TentKind.num : TentKind → Nat
  | .oscillator => 0 | .vref => 1 | .impedance => 2

/-- Slots that Tentering has taken on a channel in the last 1 ms. -/
def State.tentSlots (s : State) (g : Nat) : Nat :=
  (((s.chan g).tents.filter (fun p => s.time < p.1 + 1000000)).map (·.2)).sum

/-- Whether a window of `n` slots keeps Tentering within 1.5 % of the slots of the last 1 ms. -/
def State.tentFits (s : State) (g n : Nat) : Bool := decide (s.tentSlots g + n ≤ 9375)

/-- Runs a window of `n` slots on a channel. -/
def State.window (s : State) (g n : Nat) : State :=
  let c := s.chan g
  s.setChan g { c with tentDue := c.tentDue + n, tents := c.tents.filter (fun p => s.time < p.1 + 1000000) ++ [(s.time, n)] }

/-- Whether a scheduled window of a kind may start now: at its deadline, or up to half its period early, at a frame boundary when the
channel has no ready request. The first after power-on starts when it is asked for. -/
def State.windowDue (s : State) (g : Nat) (k : TentKind) : Bool :=
  let c := s.chan g
  let last := Tab.get 0 c.tentLast (TentKind.num k)
  decide (last = 0 ∨ last - 1 + TentKind.period k ≤ s.time)
    || (decide (last - 1 + TentKind.period k / 2 ≤ s.time ∧ c.slot = 0) && ! c.queue.zipIdx.any (s.ready g) && ! s.swapReady g)

/-- An extra oscillator window is asked for: it runs within the limit, else it is refused, counted and retried (R250). -/
def State.extraWindow (s : State) (g : Nat) : State :=
  if s.tentFits g 32 then (s.window g 32).incSat F.STK_TENT_EXTRA (g / 16) 1
  else (s.setChan g { s.chan g with extraDue := true }).incSat F.STK_TENT_DEFERRED (g / 16) 1

/-- An extra window that the limit has refused is retried at a scheduled window. -/
def State.retryExtra (s : State) (g : Nat) : State :=
  if (s.chan g).extraDue ∧ s.tentFits g 32 then
    ((s.setChan g { s.chan g with extraDue := false }).window g 32).incSat F.STK_TENT_EXTRA (g / 16) 1
  else s

/-- TENTERING_WINDOW: a scheduled window starts on a channel; an oscillator reading that has drifted asks for one more (R249, R250). -/
def execTenteringWindow (ch : Fin 512) (k : TentKind) (count : Nat) (s : State) : Host.Outcome State Fault Refusal :=
  let g := ch.val
  if (s.stack (g / 16)).selfRef ∨ ¬ s.windowDue g k ∨ ¬ s.tentFits g (TentKind.slots k) then ok s
  else
    let s := s.window g (TentKind.slots k)
    let s := s.setChan g { s.chan g with tentLast := Tab.set 0 (s.chan g).tentLast (TentKind.num k) (s.time + 1) }
    let s := s.retryExtra g
    match k with
    | .oscillator =>
      let last := (s.chan g).oscLast
      let s := s.setChan g { s.chan g with oscLast := some count }
      let drift := match last with | some x => max x count - min x count | none => 0
      ok (if drift ≤ s.fld F.STK_TENT_CFG_DRIFT_TH (g / 16) then s else s.extraWindow g)
    | _ => ok s

/-! ## Temperature grades (R246, R248) -/

/-- The grade that a temperature, in 1/16 °C, reaches: 85.0, 95.0, above 105.0. -/
def gradeOf (t : Int) : Nat := if 1680 < t then 3 else if 1520 ≤ t then 2 else if 1360 ≤ t then 1 else 0
/-- The threshold of a grade. -/
def gradeThr (g : Nat) : Int := if g = 3 then 1680 else if g = 2 then 1520 else 1360

/-- A stack changes grade: the event flag of the grade entered, and record 0x610 (R246). -/
def State.setGrade (s : State) (st g : Nat) (temp : Nat) : State :=
  let old := s.fld F.STK_THERM_GRADE st
  if old = g then s
  else
    let s0 := s
    let s := s.setFld F.STK_THERM_GRADE st g
    let s := if g = 0 then s else s.setFld ⟨.STK_THERM_EVT, g - 1, g - 1⟩ st 1
    let x := s.stack st
    let s := s.setStack st { x with below := 0, lowered := if gradeMult g < gradeMult old then x.lowered ++ [(s.time, gradeMult g)] else x.lowered }
    (s.trace (unitStack st) 0x610 (st + g <<< 8 + temp <<< 16)).wire s0 3

/-- SELF_REFRESH_TIMEOUT: a stay of 1 s in protective self-refresh is a fatal device error (R20, R248). -/
def execSelfRefreshTimeout (stack : Fin 32) (s : State) : Host.Outcome State Fault Refusal :=
  let x := s.stack stack
  if x.selfRef ∧ x.srSince + 1000000000 ≤ s.time then ok (s.fatal 0x0F04 (unitStack stack) 0 (put 0 2 stack)) else ok s

/-! ## Repair (R251 to R253) -/

def repKey (die chan bank : Nat) : Nat := (16 * die + chan) * 32 + bank
def State.bankRep (s : State) (st die chan bank : Nat) : BankRep := Tab.get {} (s.stack st).repBanks (repKey die chan bank)
def State.setBankRep (s : State) (st die chan bank : Nat) (x : BankRep) : State :=
  s.setStack st { s.stack st with repBanks := Tab.set {} (s.stack st).repBanks (repKey die chan bank) x }

/-- Rows per bank of a die (R230). -/
def rowsOfDie (die : Nat) : Nat := if die < 4 then 4096 else 8192

/-- The lines of a row of a bank: the slots that occupy it give the frames, and those the addresses (R231). -/
def State.rowLines (s : State) (g die bank row : Nat) : List Nat :=
  let ds := row / 2
  let slot := if die < 4 then die <<< 11 + ds else 0x2000 + (die - 4) <<< 12 + ds
  (List.range 16).map (fun col =>
    let b := (row % 2) <<< 9 + bank <<< 4 + col
    paOf s.localGib { gch := g, choff := s.frameAt g slot b <<< 16 + b <<< 6 } / 64)

/-- The copy of a row through the code (R252): corrected bursts become clean, uncorrectable ones poisoned. -/
def State.copyRow (s : State) (g die bank row : Nat) : State :=
  (s.rowLines g die bank row).foldl (fun (t : State) ln =>
    let t := t.readBurst ln 2
    match t.burst ln with
    | .corrected _ => t.storeLine ln (t.burstData ln) false
    | _ => t) s

/-- Ends an operation with a RESULT. -/
def State.repResult (s : State) (st res : Nat) : State :=
  (s.setFld F.REP_STATUS_RESULT st res).setFld F.REP_STATUS_BUSY st 0

/-- A soft repair of a row: false where no entry is free. -/
def State.softRepair (s : State) (st chan die bank row : Nat) : State × Bool :=
  let b := s.bankRep st die chan bank
  if b.soft.length < 4 then
    (((s.copyRow (16 * st + chan) die bank row).setBankRep st die chan bank { b with soft := b.soft ++ [row] }), true)
  else (s, false)

/-- A REP_CMD write: firmware only, and not accepted while an operation runs (R251, R254). -/
def repCmd (a : Agent) (st : Nat) (k : State → State) (s : State) : State :=
  if ¬ s.running then s
  else if ¬ Agent.firmware a then s.mmioRefuse (stackPa st 0x400008) (unitStack st) true
  else if s.flag F.REP_STATUS_BUSY st then s.incSat F.REP_STATUS_REJECTS st 1
  else k s

/-- Whether BACK requests are served on a stack (R247): the row copies of repair are BACK (R242). -/
def State.backServed (s : State) (st : Nat) : Bool := ! (s.stack st).selfRef && decide (s.fld F.STK_THERM_GRADE st < 3)

/-- An operation whose row copy cannot be served waits, with BUSY set. -/
def State.repWaits (s : State) (st : Nat) (o : RepOp) : State :=
  (s.setStack st { s.stack st with repWait := some o }).setFld F.REP_STATUS_BUSY st 1

/-- SOFT_ROW (R252), while no operation of the stack runs. -/
def State.softRowOp (s : State) (st chan die bank row : Nat) : State :=
  if rowsOfDie die ≤ row then s.repResult st 4
  else if s.backServed st then
    let (t, done) := s.softRepair st chan die bank row
    t.repResult st (if done then 0 else 1)
  else s.repWaits st { kind := 1, chan := chan, die := die, bank := bank, row := row }

/-- SOFT_ROW by command (R252). -/
def execSoftRow (a : Agent) (stack : Fin 32) (chan : Fin 16) (die : Fin 16) (bank : Fin 32) (row : Fin 8192) (s : State) :
    Host.Outcome State Fault Refusal :=
  ok (repCmd a stack (fun s => s.softRowOp stack chan die bank row) s)

/-- HARD_ROW: as SOFT_ROW, then its programming is in progress (R252). -/
def State.hardRowOp (s : State) (st chan die bank row : Nat) : State :=
  if rowsOfDie die ≤ row then s.repResult st 4
  else if ¬ s.backServed st then s.repResult st 2
  else
    let b := s.bankRep st die chan bank
    if 4 ≤ b.hard.length then s.repResult st 1
    else
      let (t, done) := if b.soft.contains row then (s, true) else s.softRepair st chan die bank row
      if done then
        let u := t.setStack st { t.stack st with rep := some { kind := 2, chan := chan, die := die, bank := bank, row := row } }
        u.setFld F.REP_STATUS_BUSY st 1
      else t.repResult st 1

/-- HARD_ROW by command (R252). -/
def execHardRow (a : Agent) (stack : Fin 32) (chan : Fin 16) (die : Fin 16) (bank : Fin 32) (row : Fin 8192) (s : State) :
    Host.Outcome State Fault Refusal :=
  ok (repCmd a stack (fun s => s.hardRowOp stack chan die bank row) s)

/-- Starts the HARD_ROW operations that repairs have left to do, while a free hard row takes them (R271). `fuel` bounds the list. -/
def State.nextHard (s : State) (st : Nat) : Nat → State
  | 0 => s
  | fuel + 1 =>
    match (s.stack st).repNext with
    | [] => s
    | o :: rest =>
      if s.flag F.REP_STATUS_BUSY st then s
      else
        let s := s.setStack st { s.stack st with repNext := rest }
        let s := if (s.bankRep st o.die o.chan o.bank).hard.length < 4 then s.hardRowOp st o.chan o.die o.bank o.row else s
        s.nextHard st fuel

/-- The second hold of a HARD_ROW: the row moves from its soft entry to the hard row (R252). -/
def State.hardMove (s : State) (st : Nat) (o : RepOp) : State :=
  let b := s.bankRep st o.die o.chan o.bank
  let s := s.copyRow (16 * st + o.chan) o.die o.bank o.row
  let s := s.setBankRep st o.die o.chan o.bank { soft := b.soft.filter (· ≠ o.row), hard := b.hard ++ [o.row] }
  let s := s.repResult st 0
  s.nextHard st (s.stack st).repNext.length

/-- HARD_ROW_PROGRAM_DONE: programming ends whatever the grade, and the second hold follows, once BACK is served (R252). -/
def execHardRowProgramDone (stack : Fin 32) (s : State) : Host.Outcome State Fault Refusal :=
  match (s.stack stack).rep with
  | none => ok s
  | some o =>
    let s := s.setStack stack { s.stack stack with rep := none }
    ok (if s.backServed stack then s.hardMove stack o else s.repWaits stack { o with kind := 4 })

/-- UNDO_SOFT: a soft-repaired row returns to its original row (R252). -/
def State.undoSoftOp (s : State) (st chan die bank row : Nat) : State :=
  let b := s.bankRep st die chan bank
  if rowsOfDie die ≤ row then s.repResult st 4
  else if ¬ b.soft.contains row then s.repResult st 3
  else if ¬ s.backServed st then s.repWaits st { kind := 3, chan := chan, die := die, bank := bank, row := row }
  else ((s.copyRow (16 * st + chan) die bank row).setBankRep st die chan bank { b with soft := b.soft.filter (· ≠ row) }).repResult st 0

/-- UNDO_SOFT by command (R252). -/
def execUndoSoft (a : Agent) (stack : Fin 32) (chan : Fin 16) (die : Fin 16) (bank : Fin 32) (row : Fin 8192) (s : State) :
    Host.Outcome State Fault Refusal :=
  ok (repCmd a stack (fun s => s.undoSoftOp stack chan die bank row) s)

/-- An operation that has waited for BACK goes on when it is served again. -/
def State.runRepWait (s : State) (st : Nat) : State :=
  match (s.stack st).repWait with
  | none => s
  | some o =>
    if ¬ s.backServed st then s
    else
      let s := s.setStack st { s.stack st with repWait := none }
      match o.kind with
      | 1 => s.softRowOp st o.chan o.die o.bank o.row
      | 3 => s.undoSoftOp st o.chan o.die o.bank o.row
      | _ => s.hardMove st o

/-- LANE_COMMIT: the channel's substitutions go into the non-volatile repair cells (R253). -/
def State.laneCommitOp (s : State) (st chan : Nat) : State :=
  let g := 16 * st + chan
  (s.setChan g { s.chan g with nvMap := (s.getR .CH_LANE_MAP g).toNat % 2 ^ 26 }).repResult st 0

/-- LANE_COMMIT by command (R253). -/
def execLaneCommit (a : Agent) (stack : Fin 32) (chan : Fin 16) (s : State) : Host.Outcome State Fault Refusal :=
  ok (repCmd a stack (fun s => s.laneCommitOp stack chan) s)

/-! ## Thermal samples -/

/-- A sample of a stack: the highest reading of the sixteen dies and the base die, in 1/16 °C, is the stack temperature; the
grade follows it, with protective self-refresh from 110.0 °C until a sample falls below 105.0 °C (R246, R248). -/
def State.thermalSample (s : State) (st : Nat) (dies : List Int) : State :=
  match dies with
  | [] => s
  | d :: _ =>
    let t := dies.foldl max d
    let raw := unsigned t 16
    let s := (s.setFld F.STK_THERM_TEMP st raw).setFld F.STK_THERM_HOTTEST st (dies.findIdx (· = t))
    let x := s.stack st
    if x.selfRef then
      if t < 1680 then
        let s := s.setStack st { x with selfRef := false, below := 0 }
        let s := (List.range 16).foldl (fun (u : State) c => (u.window (16 * st + c) 32).window (16 * st + c) 128) s
        (s.setGrade st (gradeOf t) raw)
      else s
    else if 1760 ≤ t then
      ((s.setStack st { x with selfRef := true, srSince := s.time }).setGrade st 4 raw)
    else
      let g := s.fld F.STK_THERM_GRADE st
      if g < gradeOf t then (s.setGrade st (gradeOf t) raw)
      else if g = 0 then s
      else if t ≤ gradeThr g - 48 then
        if x.below + 1 < 10 then (s.setStack st { x with below := x.below + 1 })
        else (s.setGrade st (g - 1) raw)
      else (s.setStack st { x with below := 0 })

/-- A thermal sample of a stack, and what the grade lets go on there: a repair that has waited (R246 to R248). -/
def State.stackSample (s : State) (st : Nat) (dies : List Int) : State := (s.thermalSample st dies).runRepWait st

/-- A write of CH_LANE_MAP with byte mask `mask`: the substitution fields only in TEST (R253, R254). -/
def State.laneMapWrite (s : State) (g mask v : Nat) : State :=
  let m := if s.fld F.CH_STATE_STATE g = 2 then mask else mask &&& 0x7F00000000
  s.putFields .CH_LANE_MAP g m v

/-- CH_LANE_MAP_WRITE (R253). -/
def execChLaneMapWrite (a : Agent) (ch : Fin 512) (v : Nat) (s : State) : Host.Outcome State Fault Refusal :=
  ok (if ¬ s.running then s else if Agent.firmware a then s.laneMapWrite ch (2 ^ 64 - 1) v else s.mmioRefuse (chanPa ch 0x30) (unitChan ch) true)

end Sys2Proof.Machine
end

