-- ==== Sys2Proof/Machine/Mover.lean ====
section
/-! DEFINITION. The data mover: R68 to R72. MOVE, CONVERT, FILL, GATHER and SCATTER; ACC_WRITE stands with the update units. -/
namespace Sys2Proof.Machine

/-! ## Checks (R70 to R72) -/

/-- The source dimension that destination dimension `k` takes. -/
def permOf (p k : Nat) : Nat := (p >>> (2 * k)) % 4

def permOk (p : Nat) : Bool := decide (([0, 1, 2, 3].map (permOf p)).Nodup)

/-- Checks common to the data movement commands: descriptors, HINT, PERM, and the overlap of the destination with the source or the
span `also` (R72). -/
def moverChecks (s : State) (c : Cmd) (v : View) (srcOk dstOk : Fmt → Bool) (also : Option Nat) : Checks :=
  let a := tdAt c.pkt 0x10; let d := tdAt c.pkt 0x40
  Checks.all [tdChecks c.pkt true srcOk a, tdChecks c.pkt false dstOk d, s.tdRange .mover a, s.tdRange v d,
    failLen (¬ permOk (c.f 0x70 1)) 0x70, failRsv (3 < c.f 0x71 1) 0x71, failAdrO (lowerOf (a.overlap d) also) 0x40]

/-- Destination extents that must equal the extents `want` of the tensor it is formed from (R71). -/
def extMatch (d : Td) (want : List Nat) : Checks :=
  Checks.all ((List.range 4).map (fun k => failLen (d.e k ≠ want.getD k 1) (d.off + 0xC + 4 * k)))

def permExt (p : Nat) (ext : List Nat) : List Nat := (List.range 4).map (fun k => ext.getD (permOf p k) 1)

/-- MOVE (R71). Of two formats that differ, that of the destination is reported (log 44). -/
def checksMove (s : State) (c : Cmd) : Checks :=
  let a := tdAt c.pkt 0x10; let d := tdAt c.pkt 0x40
  Checks.all [lenIs c 2, unlisted c [(0x10, 0x62)], moverChecks s c .mover (fun _ => true) (fun _ => true) none, failFmt (a.fmtc ≠ d.fmtc) 0x40,
    if permOk (c.f 0x70 1) then extMatch d (permExt (c.f 0x70 1) a.ext) else {}]

def checksConvert (s : State) (c : Cmd) : Checks :=
  let a := tdAt c.pkt 0x10; let d := tdAt c.pkt 0x40
  Checks.all [lenIs c 2, unlisted c [(0x10, 0x62)], moverChecks s c .mover (fun _ => true) (fun _ => true) none,
    if permOk (c.f 0x70 1) then extMatch d (permExt (c.f 0x70 1) a.ext) else {}]

def checksFill (s : State) (c : Cmd) : Checks :=
  let d := tdAt c.pkt 0x40
  Checks.all [lenIs c 2, unlisted c [(0x10, 8), (0x40, 0x30), (0x71, 1)], failRsv (1 < c.f 0x71 1) 0x71,
    tdChecks c.pkt false (fun _ => true) d, s.tdRange .mover d]

/-- The index descriptor of GATHER and SCATTER. -/
def indexChecks (s : State) (c : Cmd) : Checks :=
  let x := tdAt c.pkt 0x80
  Checks.all [tdChecks c.pkt true (fun f => f = .fp32) x, failLen (x.rank ≠ 1) 0x88, s.tdRange .mover x]

/-- GATHER (R71): as MOVE. -/
def checksGather (s : State) (c : Cmd) : Checks :=
  let a := tdAt c.pkt 0x10; let d := tdAt c.pkt 0x40; let x := tdAt c.pkt 0x80
  Checks.all [lenIs c 3, unlisted c [(0x10, 0x62), (0x80, 0x30)], moverChecks s c .mover (fun _ => true) (fun _ => true) (x.overlap d), indexChecks s c,
    failFmt (a.fmtc ≠ d.fmtc) 0x40,
    if permOk (c.f 0x70 1) then extMatch d (permExt (c.f 0x70 1) (a.ext.set 1 (x.e 0))) else {}]

/-- SCATTER (R71): as MOVE. -/
def checksScatter (s : State) (c : Cmd) : Checks :=
  let a := tdAt c.pkt 0x10; let d := tdAt c.pkt 0x40; let x := tdAt c.pkt 0x80
  let p := c.f 0x70 1
  let t := permExt p a.ext
  Checks.all [lenIs c 3, unlisted c [(0x10, 0x62), (0x80, 0x30)], moverChecks s c .mover (fun _ => true) (fun _ => true) (x.overlap d), indexChecks s c,
    failFmt (a.fmtc ≠ d.fmtc) 0x40,
    if permOk p then Checks.app (failLen (t.getD 1 1 ≠ x.e 0) (0x1C + 4 * permOf p 1)) (extMatch d (t.set 1 (d.e 1))) else {}]

/-! ## Element mapping -/

/-- Coordinates of the source element under PERM: destination dimension k runs along source dimension `permOf p k`. -/
def underPerm (p : Nat) (c : List Nat) : List Nat :=
  (List.range 4).map (fun k => ((List.range 4).find? (fun j => permOf p j = k)).map (fun j => c.getD j 0) |>.getD 0)

/-- The indices of GATHER and SCATTER: unsigned 32-bit words (R71). -/
def State.indices (s : State) (x : Td) : List Nat := (List.range (x.e 0)).map (fun j => s.readMem (x.base + 4 * j) 4)

/-- The source element of a destination element: none where the destination keeps its contents. -/
def sourceOf (op p : Nat) (idx : List Nat) (c : List Nat) : Option (List Nat) :=
  if op = 0x1005 then
    match (idx.zipIdx.filter (fun q => q.1 = c.getD 1 0)).getLast? with
    | some q => some (underPerm p (c.set 1 q.2))
    | none => none
  else
    let t := underPerm p c
    some (if op = 0x1004 then t.set 1 (idx.getD (t.getD 1 0) 0) else t)

/-- Bytes of a row before its padding (R93). -/
def Td.usedLen (d : Td) : Nat :=
  let n := d.e 0 / d.fmt.blockLen
  if d.fmt.rowed then d.fmt.scaleOff (d.e 0) + n * (d.fmt.scaleBytes + if d.fmt = .vb4 then 3 else 0) else d.rowLen

/-! ## Effects -/

/-- The bytes that a copy takes its values from: the source's rows and the indices. -/
def State.copySource (s : State) (a : Td) (idx : List Nat) : Nat :=
  a.rows.foldr (fun p acc => s.readMem (a.rowAddr p.1 p.2.1 p.2.2) a.rowLen + acc <<< (8 * a.rowLen)) (packFields 32 idx)

/-- Copies a tensor bit for bit into its destination (MOVE, GATHER, SCATTER). Where PERM moves dimension 0 of a format with stored block
scales, what its rows hold before their padding is a free value of the command's body and its source: the spec does not say it (log 13).
Answers the bytes written. -/
def State.copyTensor (s : State) (c : Cmd) (a d : Td) (op p : Nat) (idx : List Nat) : State × Nat :=
  let src := s
  d.rows.foldl (fun (st : State × Nat) r =>
    let s := st.1
    let row (i0 : Nat) : Option (List Nat) := sourceOf op p idx [i0, r.1, r.2.1, r.2.2]
    match row 0 with
    | none => st
    | some s0 =>
      let dst := d.rowAddr r.1 r.2.1 r.2.2
      if permOf p 0 = 0 then
        let v := s.readMem (a.rowAddr (s0.getD 1 0) (s0.getD 2 0) (s0.getD 3 0)) a.rowLen
        (s.writeMem dst (v % 2 ^ (8 * d.usedLen)) d.rowLen, st.2 + d.rowLen)
      else if d.fmt.rowed then
        let v := Config.movedBlocks (le c.pkt 0x10 (64 * c.len - 24)) (src.copySource a idx) (d.rowIndex r.1 r.2.1 r.2.2)
        (s.writeMem dst (v % 2 ^ (8 * d.usedLen)) d.rowLen, st.2 + d.rowLen)
      else
        let es := d.fmt.elemBits / 8
        let v := (List.range (d.e 0)).foldr (fun i0 acc =>
          let c := (row i0).getD s0
          s.readMem (a.rowAddr (c.getD 1 0) (c.getD 2 0) (c.getD 3 0) + es * c.getD 0 0) es + acc <<< (8 * es)) 0
        (s.writeMem dst v d.rowLen, st.2 + d.rowLen)) (s, 0)

/-- The hints of a data movement command around its effect (R266). -/
def State.withHints (s : State) (c : Cmd) (src : Option Td) (d : Td) (k : State → State) : State :=
  let h := c.f 0x71 1
  let s := if h.testBit 0 then s.hintRaise d.base d.spanLen else s
  let s := k s
  match src with
  | some a => if h.testBit 1 then s.hintMark a.base a.spanLen else s
  | none => s

/-- Lines of a tensor's rows, each row split at line boundaries. -/
def Td.lines (d : Td) : Nat := (d.spans.map (fun p => lineOf (p.1 + p.2 - 1) + 1 - lineOf p.1)).sum

/-- Counts of a data movement command: destination bytes (R449), lines read and written (R445, signals 2 and 3). -/
def State.moved (s : State) (r : CmdRef) (rd wr n : Nat) : State :=
  let u := unitMover (s.regionOf r.q)
  (((s.account r (fun q => { q with moveBytes := q.moveBytes + n })).prof u 2 rd).prof u 3 wr).wrote r

/-- The rows written travel from the data mover to where they lie (R17). -/
def State.sent (s : State) (r : CmdRef) (d : Td) : State := s.carry (s.regionOf r.q) false d.spans

/-- MOVE, GATHER and SCATTER. -/
def copyCommand (r : CmdRef) (op : Nat) (s : State) : State :=
  s.runUnit r op (fun c =>
    let a := tdAt c.pkt 0x10; let d := tdAt c.pkt 0x40; let x := tdAt c.pkt 0x80
    let indexed := op ≠ 0x1001
    s.readingThen r (a.spans ++ if indexed then x.spans else []) (fun s =>
      let idx := if indexed then s.indices x else []
      let bound := if op = 0x1004 then a.e 1 else d.e 1
      match idx.findIdx? (fun i => bound ≤ i) with
      | some j => s.finish r 0x0104 (x.base + 4 * j)
      | none =>
        (s.withHints c (some a) d (fun s =>
          let (t, n) := s.copyTensor c a d op (c.f 0x70 1) idx
          (t.sent r d).moved r (a.lines + if indexed then x.lines else 0) (d.lines * n / (d.rowLen * (d.e 1 * d.e 2 * d.e 3))) n)).finish r 0 0))

/-- MOVE (R71). -/
def execMove (r : CmdRef) (s : State) : Host.Outcome State Fault Refusal := ok (copyCommand r 0x1001 s)
/-- GATHER (R71). -/
def execGather (r : CmdRef) (s : State) : Host.Outcome State Fault Refusal := ok (copyCommand r 0x1004 s)
/-- SCATTER (R71). -/
def execScatter (r : CmdRef) (s : State) : Host.Outcome State Fault Refusal := ok (copyCommand r 0x1005 s)

/-- CONVERT: each element is decoded and converted under the destination's OVP (R71, R107). -/
def State.convertCmd (s : State) (r : CmdRef) : State :=
  s.runUnit r 0x1002 (fun c =>
    let a := tdAt c.pkt 0x10; let d := tdAt c.pkt 0x40
    let p := c.f 0x70 1
    s.readingThen r a.spans (fun s =>
      (s.withHints c (some a) d (fun s =>
        let src := s
        let s := a.rows.foldl (fun (t : State) q => t.modCmd r (fun x => x.countElems a.fmt (src.rowElems c a q.1 q.2.1 q.2.2))) s
        let (s, fl) := d.rows.foldl (fun (st : State × NumFlags) q =>
          let vs := (List.range (d.e 0)).map (fun i0 =>
            let e := underPerm p [i0, q.1, q.2.1, q.2.2]
            (src.elemOf c a (e.getD 0 0) (e.getD 1 0) (e.getD 2 0) (e.getD 3 0)).val)
          let (t, f) := st.1.writeRow r c d q.1 q.2.1 q.2.2 vs
          (t, st.2.or f)) (s, {})
        let n := d.rowLen * (d.e 1 * d.e 2 * d.e 3)
        (s.orFlags .DM_NUMFLAGS (s.regionOf r.q) fl).moved r a.lines d.lines n)).finish r 0 0))

/-- CONVERT (R71). -/
def execConvert (r : CmdRef) (s : State) : Host.Outcome State Fault Refusal := ok (s.convertCmd r)

/-- One row of a FILL: the raw element field repeated, then the block scales, then the shift fields, padding zero (R71, R93). -/
def fillRow (d : Td) (v : Nat) : Nat :=
  let f := d.fmt
  let b := f.elemBits
  let n := d.e 0 / f.blockLen
  let body := packFields b (List.replicate (d.e 0) (v % 2 ^ b))
  if f.rowed then
    let so := f.scaleOff (d.e 0)
    let sc := packFields (8 * f.scaleBytes) (List.replicate n (bits v (b + 8 * f.scaleBytes - 1) b))
    let sh := if f = .vb4 then packFields 24 (List.replicate n (bits v (b + 31) (b + 8))) else 0
    body + sc <<< (8 * so) + sh <<< (8 * (so + n * f.scaleBytes))
  else body

/-- FILL (R71). -/
def execFill (r : CmdRef) (s : State) : Host.Outcome State Fault Refusal :=
  ok (s.runUnit r 0x1003 (fun c =>
    let d := tdAt c.pkt 0x40
    (s.withHints c none d (fun s =>
      let img := fillRow d (c.f 0x10 8)
      let s := d.rows.foldl (fun (t : State) q => t.writeMem (d.rowAddr q.1 q.2.1 q.2.2) img d.rowLen) s
      (s.sent r d).moved r 0 d.lines (d.rowLen * (d.e 1 * d.e 2 * d.e 3)))).finish r 0 0))

end Sys2Proof.Machine
end

