-- ==== Sys2Proof/Machine/Vector.lean ====
section
/-! DEFINITION. The vector and epilogue unit: R159 to R169, and COMBINE (R148). -/
namespace Sys2Proof.Machine

/-! ## Arithmetic (R159, R160) -/

/-- The larger of two values, +0 above -0, NaN if either is NaN. -/
def eltMax (x y : Val) : Val :=
  if x.isNan || y.isNan then .nan else if x.lt y then y else if y.lt x then x else if x.neg? then y else x

/-- The smaller of two values, -0 below +0, NaN if either is NaN. -/
def eltMin (x y : Val) : Val :=
  if x.isNan || y.isNan then .nan else if x.lt y then x else if y.lt x then y else if x.neg? then x else y

/-- The group sum of R160: trees over groups of `g`, chained in group order. -/
def gsum (op : Val → Val → Val × NumFlags) (g : Nat) (vs : List Val) : Val × NumFlags :=
  match (chunksOf g vs.length vs).map (fixedTree op 16) with
  | [] => (.zero, {})
  | p :: ps => ps.foldl (fun (a : Val × NumFlags) q => let (v, f) := op a.1 q.1; (v, (a.2.or q.2).or f)) p

/-- The vector unit's sum: groups of 512 with rne64, the final sum in W64 (R160). -/
def vecSum (vs : List Val) : Val × NumFlags :=
  let (ws, f) := intoW64 vs
  let (v, g) := gsum formW64.add 512 ws
  (v, g.or f)

/-- The same, rounded to ACC40. -/
def vecSumAcc (vs : List Val) : Val × NumFlags :=
  let (v, f) := vecSum vs
  let (x, g) := formAcc.round v
  (x, f.or g)

/-- The mean: the group sum over `n`, rounded once to ACC40 (R164). -/
def vecMean (vs : List Val) : Val × NumFlags :=
  let (v, f) := vecSum vs
  let (x, g) := formAcc.div v (.ofNat vs.length)
  (x, f.or g)

/-- An operand element as the unit takes it: INT8 rounded to nearest in ACC40, every other format exact. -/
def vecIn (f : Fmt) (x : Val) : Val × NumFlags := if f = .int8 then formAcc.round x else (x, {})

/-- The elements of a row of an operand, decoded, with flags. -/
def State.vecRow (s : State) (c : Cmd) (d : Td) (i j k : Nat) : List Val × NumFlags :=
  gather ((s.rowElems c d i j k).map (fun e => vecIn d.fmt e.val))

/-- Formats of the vector unit's operands: codes 0x0 to 0x9 and 0xB. -/
def Fmt.vecOk (f : Fmt) : Bool := decide (f.code ≤ 9 ∨ f.code = 11)

/-- Counts every element of an operand (R191). -/
def State.countOperand (s : State) (r : CmdRef) (d : Td) : State :=
  d.rows.foldl (fun (t : State) q =>
    match t.cmd r with
    | some c => t.modCmd r (fun x => x.countElems d.fmt (s.rowElems c d q.1 q.2.1 q.2.2))
    | none => t) s

/-! ## Storage errors of a unit's buffers (R186) -/

/-- A command's effect on a unit whose buffers met ECC events: one uncorrectable word is rerun and noted, a second ends the
command. -/
def State.withBuf (s : State) (r : CmdRef) (unit : Nat) (ev : BufEvents) (count : State → Nat → State) (k : State → State) : State :=
  let s := count s ev.corrected
  if 2 ≤ ev.uncorrectable then
    let sq := match s.cmd r with | some c => c.seqNo | none => 0
    (s.report { code := 0x0104, cls := 2, level := 1, unit := unit, seq := sq, queue := r.q, action := 5, status := 0x0302, detail := 0xFF }).finish
      r 0x0302 unit
  else k (if ev.uncorrectable = 1 then s.noteCmd r 0x0302 else s)

/-- Counts corrected words of the vector unit's buffers. -/
def State.vecCorr (q : Nat) (s : State) (n : Nat) : State := s.incSat F.VEC_TABLE_ECC_CORR q n

/-- The amax side output (R151, R162) of the values written, into the word that AMAX_IDX names. -/
def State.amaxOut (s : State) (region idx : Nat) (vs : List Val) : State × NumFlags :=
  if idx = 0xFFFF then (s, {})
  else
    let (b, f) := amaxBits (vs.foldl (fun a v => a.maxv v.abs) .zero)
    (s.max32 (s.amaxWord region idx) b, f)

/-- Runs a vector command row by row: `row` computes the values of a row of D; then amax, flags, counts and the end. -/
def State.vecRows (s : State) (r : CmdRef) (c : Cmd) (d : Td) (amax : Nat) (row : Nat → Nat → Nat → List Val × NumFlags) : State :=
  let region := s.regionOf r.q
  let (t, fl, all) := d.rows.foldl (fun (st : State × NumFlags × List Val) q =>
    let (vs, f) := row q.1 q.2.1 q.2.2
    let (u, g) := st.1.writeRow r c d q.1 q.2.1 q.2.2 vs
    (u, st.2.1.or (f.or g), if amax = 0xFFFF then [] else st.2.2 ++ vs)) (s, {}, [])
  let (t, fa) := t.amaxOut region amax all
  t.orFlags .VEC_NUMFLAGS region (fl.or fa)

/-! ## ELTWISE and REDUCE (R161 to R163) -/

/-- An operand that must be all zero. -/
def zeroTd (c : Cmd) (off : Nat) : Checks := mustZero c.pkt off 48

/-- A descriptor must have the rank and extents of another. -/
def sameShape (d x : Td) : Checks := Checks.app (failLen (d.rank ≠ x.rank) (d.off + 8)) (extMatch d x.ext)

def checksEltwise (s : State) (c : Cmd) : Checks :=
  let op := c.f 0xA0 1
  let x := tdAt c.pkt 0x10; let y := tdAt c.pkt 0x40; let d := tdAt c.pkt 0x70
  let useY := op ≤ 6 ∨ op = 10
  Checks.all [lenIs c 3, unlisted c [(0x10, 0x90), (0xA0, 1), (0xA4, 8), (0xAC, 2)], failRsv (op = 0 ∨ 10 < op) 0xA0,
    (if op = 6 ∨ op = 7 then {} else mustZero c.pkt 0xA4 8),
    tdChecks c.pkt true Fmt.vecOk x, s.tdRange .compute x, tdChecks c.pkt false Fmt.vecOk d, s.tdRange .compute d, sameShape d x,
    if useY then Checks.all [tdChecks c.pkt true Fmt.vecOk y, s.tdRange .compute y,
        Checks.all ((List.range 4).map (fun k => failLen (y.e k ≠ x.e k ∧ y.e k ≠ 1) (0x4C + 4 * k)))]
      else zeroTd c 0x40]

/-- The operations of the element-wise operation table (R161). -/
def eltOp (op : Nat) (al be x y : Val) : Val × NumFlags :=
  match op with
  | 1 => formAcc.add x y
  | 2 => formAcc.sub x y
  | 3 => formAcc.mul x y
  | 4 => (eltMax x y, {})
  | 5 => (eltMin x y, {})
  | 6 => let (p, f) := formAcc.mul al x; let (q, g) := formAcc.mul be y; let (z, h) := formAcc.add p q; (z, (f.or g).or h)
  | 7 => let (p, f) := formAcc.mul al x; let (z, h) := formAcc.add p be; (z, f.or h)
  | 8 => (x.abs, {})
  | 9 => formAcc.mul x x
  | _ => formAcc.div x y

/-- ELTWISE (R161, R162). -/
def execEltwise (r : CmdRef) (ev : BufEvents) (s : State) : Host.Outcome State Fault Refusal :=
  ok (s.runUnit r 0x3001 (fun c =>
    let region := s.regionOf r.q
    let op := c.f 0xA0 1
    let x := tdAt c.pkt 0x10; let y := tdAt c.pkt 0x40; let d := tdAt c.pkt 0x70
    let useY := op ≤ 6 ∨ op = 10
    s.readingThen r (x.spans ++ if useY then y.spans else []) (fun s => s.withBuf r (unitVec region) ev (State.vecCorr region) (fun s =>
      let src := s
      let al := fp32Val (c.f 0xA4 4); let be := fp32Val (c.f 0xA8 4)
      let ix (k n : Nat) : Nat := if y.e k = 1 then 0 else n
      let row (i j k : Nat) : List Val × NumFlags :=
        let (xs, f) := src.vecRow c x i j k
        let (ys, g) := if useY then src.vecRow c y (ix 1 i) (ix 2 j) (ix 3 k) else ([], {})
        let (zs, h) := gather (xs.zipIdx.map (fun p => eltOp op al be p.1 (ys.getD (ix 0 p.2) .zero)))
        (zs, (f.or g).or h)
      let s := (s.countOperand r x)
      let s := if useY then s.countOperand r y else s
      let s := s.vecRows r c d (c.f 0xAC 2) row
      (s.account r (fun a => { a with vecOps := a.vecOps + d.count })).finish r 0 0))))

def checksReduce (s : State) (c : Cmd) : Checks :=
  let x := tdAt c.pkt 0x10; let d := tdAt c.pkt 0x40
  Checks.all [lenIs c 2, unlisted c [(0x10, 0x60), (0x70, 1)], failRsv (c.f 0x70 1 = 0 ∨ 5 < c.f 0x70 1) 0x70,
    tdChecks c.pkt true Fmt.vecOk x, s.tdRange .compute x, tdChecks c.pkt false Fmt.vecOk d, s.tdRange .compute d,
    extMatch d (x.ext.set 0 1)]

/-- The reductions of R163. -/
def reduceOp (op : Nat) (xs : List Val) : Val × NumFlags :=
  match op with
  | 1 => vecSumAcc xs
  | 2 => let (q, f) := gather (xs.map (fun x => formAcc.mul x x)); let (v, g) := vecSumAcc q; (v, f.or g)
  | 3 => (match xs with | [] => .zero | x :: r => r.foldl eltMax x, {})
  | 4 => (match xs with | [] => .zero | x :: r => r.foldl eltMin x, {})
  | _ => (match xs.map Val.abs with | [] => .zero | x :: r => r.foldl eltMax x, {})

/-- REDUCE along dimension 0 (R163). -/
def execReduce (r : CmdRef) (ev : BufEvents) (s : State) : Host.Outcome State Fault Refusal :=
  ok (s.runUnit r 0x3006 (fun c =>
    let region := s.regionOf r.q
    let x := tdAt c.pkt 0x10; let d := tdAt c.pkt 0x40
    s.readingThen r x.spans (fun s => s.withBuf r (unitVec region) ev (State.vecCorr region) (fun s =>
      let src := s
      let row (i j k : Nat) : List Val × NumFlags :=
        let (xs, f) := src.vecRow c x i j k
        let (v, g) := reduceOp (c.f 0x70 1) xs
        ([v], f.or g)
      let s := (s.countOperand r x).vecRows r c d 0xFFFF row
      (s.account r (fun a => { a with vecOps := a.vecOps + x.count })).finish r 0 0))))

/-! ## Tables (R165 to R169) -/

/-- FP32 bits of the fixed fields of a built-in table (R165): KIND, EXP_MUL, LO, HI, INV_W, the left and the right tail. -/
def builtinHead (slot : Nat) (der : Bool) : List Nat :=
  let one := 0x3F800000
  match slot with
  | 0 => [0, 0, 0xC1000000, 0x41000000, 0x41800000, 0, 0, if der then 0 else one, if der then one else 0]
  | 1 => [0, 0, 0xC1800000, 0x41800000, 0x41000000, 0, 0, if der then 0 else one, if der then one else 0]
  | 2 => [0, 0, 0xC1000000, 0x41000000, 0x41800000, 0, if der then 0 else 0xBF800000, 0, if der then 0 else one]
  | 3 => [0, 0, 0xC1800000, 0x41800000, 0x41000000, 0, 0, 0, if der then 0 else one]
  | 4 => [1, 1, 0, one, 0x43800000, 0, 0, 0, 0]
  | 5 => [0, 0, 0xC1800000, 0x41800000, 0x41000000, 0, 0, if der then 0 else one, if der then one else 0]
  | _ => [2, if der then 3 else 1, one, 0x40800000, 0x42AAAAAB, 0, 0, 0, 0]

/-- One table of a built-in slot, 4,160 bytes: the fields that R165 prints, the rest from the image that it does not (log 9). -/
def builtinTable (slot : Nat) (der : Bool) : Nat :=
  let img := Config.tableImage slot >>> (if der ∧ slot ≠ 4 then 8 * 4160 else 0)
  let h := builtinHead slot der
  put 1 1 1 + put 2 1 (h.getD 0 0) + put 3 1 (h.getD 1 0) + put 4 4 (h.getD 2 0) + put 8 4 (h.getD 3 0) + put 0xC 4 (h.getD 4 0)
    + put 0x10 4 (h.getD 5 0) + put 0x14 4 (h.getD 6 0) + put 0x18 4 (h.getD 7 0) + put 0x1C 4 (h.getD 8 0)
    + put 0x20 8 (le img 0x20 8) + put 0x40 4096 (le img 0x40 4096)

/-- VEC_TABLE.BUILTIN_CRC: the CRC-32C of the images of slots 0 to 6 in slot order (R165). -/
def builtinCrc : Nat :=
  crc32c ((List.range 7).foldr (fun k acc => builtinTable k false + builtinTable k true <<< 33280 + acc <<< 66560) 0) 58240

/-- A slot's forward or derivative table, if the slot holds one. -/
def State.table (s : State) (region slot : Nat) (der : Bool) : Option Nat :=
  if slot < 7 then some (builtinTable slot der)
  else (Tab.find (s.vec region).tables slot).map (fun img => le img (if der then 4160 else 0) 4160)

/-- An FP32 field of a table. -/
def tblF (t off : Nat) : Val := fp32Val (le t off 4)

/-- `⌊x⌋` of a finite value. -/
def Val.floorInt : Val → Int
  | .fin n m e => let v : Int := if n then -(m : Int) else m
    if 0 ≤ e then v * (2 ^ e.toNat : Nat) else v / (2 ^ (-e).toNat : Nat)
  | _ => 0

/-- A chain of ACC40 operations: the value so far with its flags. -/
def accThen (p : Val × NumFlags) (f : Val → Val × NumFlags) : Val × NumFlags := let (v, g) := f p.1; (v, p.2.or g)

/-- `poly(t, i)` (R167). -/
def tblPoly (t : Nat) (i : Nat) (x : Val) : Val × NumFlags :=
  let c (k : Nat) : Val := tblF t (0x40 + 16 * i + 4 * k)
  let step (p : Val × NumFlags) (k : Nat) : Val × NumFlags := accThen (accThen p (fun v => formAcc.mul v x)) (fun v => formAcc.add v (c k))
  step (step (step (c 3, {}) 2) 1) 0

/-- `seg(x)` (R167). Where inv_w is infinite u may be +infinity, whose segment is 255, or NaN, which every segment keeps (DESIGN CHOICE,
log 62). -/
def tblSeg (t : Nat) (x : Val) : Val × NumFlags :=
  let u := accThen (formAcc.sub x (tblF t 4)) (fun v => formAcc.mul v (tblF t 0xC))
  let i := match u.1 with
    | .inf false => 255
    | v => min 255 v.floorInt.toNat
  accThen (accThen u (fun v => formAcc.sub v (.ofNat i))) (fun v => tblPoly t i v)

/-- A power-of-two multiple, rounded under R102. -/
def accScale (k : Int) (v : Val) : Val × NumFlags := formAcc.round (v.scale k)

/-- `eval(x)` (R167). -/
def tblEval (t : Nat) (x : Val) : Val × NumFlags :=
  let mul : Int := le t 3 1
  let tail (o : Nat) : Val × NumFlags := accThen (formAcc.mul (tblF t o) x) (fun v => formAcc.add v (tblF t (o + 4)))
  match x with
  | .nan => (.nan, {})
  | .inf true => if le t 2 1 = 2 then (.nan, { nv := true }) else (tblF t 0x20, {})
  | .inf false => (tblF t 0x24, {})
  | .fin neg m e =>
    match le t 2 1 with
    | 0 => if x.lt (tblF t 4) then tail 0x10 else if (tblF t 8).le x then tail 0x18 else tblSeg t x
    | 1 =>
      let (xp, f) := formAcc.mul x (fp32Val 0x3FB8AA3B)
      let n := xp.floorInt
      let d := formAcc.sub xp (.ofInt n)
      accThen (accThen (d.1, f.or d.2) (tblSeg t)) (accScale (n * mul))
    | _ =>
      if m = 0 then (tblF t 0x20, {})
      else if neg then (.nan, { nv := true })
      else
        let n := (Val.ilog m e) / 2
        accThen (tblSeg t (x.scale (-2 * n))) (accScale (-(n * mul)))

/-- Whether a table meets the table layout (R166, R169). -/
def tableOk (t : Nat) : Bool :=
  let kind := le t 2 1; let mul := le t 3 1
  let lo := tblF t 4; let hi := tblF t 8
  let inv := (formFp32.div (.ofNat 256) (hi.add lo.neg).1).1
  decide (le t 1 1 = 1 ∧ kind ≤ 2 ∧ (if kind = 0 then mul = 0 else 1 ≤ mul ∧ mul ≤ 3)
    ∧ (kind = 1 → le t 4 4 = 0 ∧ le t 8 4 = 0x3F800000) ∧ (kind = 2 → le t 4 4 = 0x3F800000 ∧ le t 8 4 = 0x40800000)
    ∧ lo.isFin ∧ hi.isFin ∧ lo.lt hi ∧ le t 0xC 4 = fp32Bits inv ∧ le t 0x28 24 = 0)

def checksTableLoad (s : State) (c : Cmd) : Checks :=
  Checks.all [lenIs c 1, unlisted c [(0x10, 8), (0x18, 1)], s.addrCheck .ilv c 0x10 64 8320,
    failAdr (c.f 0x18 1 < 8 ∨ 15 < c.f 0x18 1) 0x18 (c.f 0x18 1)]

/-- TABLE_LOAD (R169). -/
def execTableLoad (r : CmdRef) (s : State) : Host.Outcome State Fault Refusal :=
  ok (s.runUnit r 0x3005 (fun c =>
    let region := s.regionOf r.q
    let a := c.fb 0x10 47 0
    let slot := c.f 0x18 1
    s.readingThen r [(a, 8320)] (fun s =>
      let img := s.readMem a 8320
      if tableOk (le img 0 4160) ∧ tableOk (le img 4160 4160) then
        let v := s.vec region
        let s := s.setVec region { v with tables := Tab.insert v.tables slot img }
        (s.setFld F.VEC_TABLE_VALID region (s.fld F.VEC_TABLE_VALID region ||| 2 ^ slot)).finish r 0 0
      else s.finish r 0x0103 0x10)))

def checksActivate (s : State) (c : Cmd) : Checks :=
  let x := tdAt c.pkt 0x10; let d := tdAt c.pkt 0x40
  Checks.all [lenIs c 2, unlisted c [(0x10, 0x61), (0x72, 2)], failRsv (15 < c.f 0x70 1 ∨ c.f 0x70 1 = 7) 0x70,
    tdChecks c.pkt true Fmt.vecOk x, s.tdRange .compute x, tdChecks c.pkt false Fmt.vecOk d, s.tdRange .compute d, sameShape d x]

/-- ACTIVATE: D := eval_fwd(x) (R168). -/
def execActivate (r : CmdRef) (ev : BufEvents) (s : State) : Host.Outcome State Fault Refusal :=
  ok (s.runUnit r 0x3003 (fun c =>
    let region := s.regionOf r.q
    let x := tdAt c.pkt 0x10; let d := tdAt c.pkt 0x40
    match s.table region (c.f 0x70 1) false with
    | none => s.finish r 0x0102 0x70
    | some t =>
      s.readingThen r x.spans (fun s => s.withBuf r (unitVec region) ev (State.vecCorr region) (fun s =>
        let src := s
        let row (i j k : Nat) : List Val × NumFlags :=
          let (xs, f) := src.vecRow c x i j k
          let (vs, g) := gather (xs.map (tblEval t))
          (vs, f.or g)
        let s := (s.countOperand r x).vecRows r c d (c.f 0x72 2) row
        (s.account r (fun a => { a with tableEvals := a.tableEvals + d.count })).finish r 0 0))))

def checksActivateGrad (s : State) (c : Cmd) : Checks :=
  let x := tdAt c.pkt 0x10; let y := tdAt c.pkt 0x40; let d := tdAt c.pkt 0x70
  Checks.all [lenIs c 3, unlisted c [(0x10, 0x91)], failRsv (15 < c.f 0xA0 1 ∨ c.f 0xA0 1 = 7) 0xA0,
    tdChecks c.pkt true Fmt.vecOk x, s.tdRange .compute x, tdChecks c.pkt true Fmt.vecOk y, s.tdRange .compute y,
    tdChecks c.pkt false Fmt.vecOk d, s.tdRange .compute d, sameShape y x, sameShape d x]

/-- ACTIVATE_GRAD: D := dy × eval_der(x), rounded once (R168). -/
def execActivateGrad (r : CmdRef) (ev : BufEvents) (s : State) : Host.Outcome State Fault Refusal :=
  ok (s.runUnit r 0x3004 (fun c =>
    let region := s.regionOf r.q
    let x := tdAt c.pkt 0x10; let y := tdAt c.pkt 0x40; let d := tdAt c.pkt 0x70
    match s.table region (c.f 0xA0 1) true with
    | none => s.finish r 0x0102 0xA0
    | some t =>
      s.readingThen r (x.spans ++ y.spans) (fun s => s.withBuf r (unitVec region) ev (State.vecCorr region) (fun s =>
        let src := s
        let row (i j k : Nat) : List Val × NumFlags :=
          let (xs, f) := src.vecRow c x i j k
          let (ys, f2) := src.vecRow c y i j k
          let (vs, g) := gather ((List.zip xs ys).map (fun p => accThen (tblEval t p.1) (fun v => formAcc.mul p.2 v)))
          (vs, (f.or f2).or g)
        let s := ((s.countOperand r x).countOperand r y).vecRows r c d 0xFFFF row
        (s.account r (fun a => { a with tableEvals := a.tableEvals + d.count, vecOps := a.vecOps + d.count })).finish r 0 0))))

/-! ## NORM (R164) -/

/-- The checks of NORM (R164). A backward mode with AMAX_IDX other than 0xFFFF ends with BAD_RESERVED (DESIGN CHOICE, log 63). -/
def checksNorm (s : State) (c : Cmd) : Checks :=
  let mode := c.f 0x130 1
  let x := tdAt c.pkt 0x10; let dy := tdAt c.pkt 0x40; let g := tdAt c.pkt 0x70; let b := tdAt c.pkt 0xA0; let d := tdAt c.pkt 0xD0
  let st := tdAt c.pkt 0x100
  let vecN (t : Td) : Checks := Checks.app (failLen (t.rank ≠ 1) (t.off + 8)) (failLen (t.e 0 ≠ x.e 0) (t.off + 0xC))
  Checks.all [lenIs c 5, unlisted c [(0x10, 0x121), (0x132, 6)], failRsv (3 < mode) 0x130,
    tdChecks c.pkt true Fmt.vecOk x, s.tdRange .compute x, tdChecks c.pkt true Fmt.vecOk g, s.tdRange .compute g, vecN g,
    tdChecks c.pkt false Fmt.vecOk d, s.tdRange .compute d, sameShape d x,
    tdChecks c.pkt (2 ≤ mode) (fun f => f = .fp32) st, s.tdRange .compute st, extMatch st (x.ext.set 0 2),
    (if 2 ≤ mode then Checks.all [tdChecks c.pkt true Fmt.vecOk dy, s.tdRange .compute dy, sameShape dy x] else zeroTd c 0x40),
    (if mode = 1 ∨ mode = 3 then zeroTd c 0xA0 else if mode = 0 then Checks.all [tdChecks c.pkt true Fmt.vecOk b, s.tdRange .compute b, vecN b]
      else Checks.all [tdChecks c.pkt true Fmt.vecOk b, s.tdRange .compute b, vecN b]),
    failRsv (2 ≤ mode ∧ c.f 0x132 2 ≠ 0xFFFF) 0x132]

/-- Operations on lists of values in ACC40. -/
def zipAcc (op : Val → Val → Val × NumFlags) (xs ys : List Val) : List Val × NumFlags := gather ((List.zip xs ys).map (fun p => op p.1 p.2))
def mapAcc (op : Val → Val × NumFlags) (xs : List Val) : List Val × NumFlags := gather (xs.map op)

/-- A row of a forward NORM: y, μ and r. -/
def normFwd (mode : Nat) (rs : Nat) (eps : Val) (xs gs bs : List Val) : List Val × Val × Val × NumFlags :=
  let (mu, f1) := if mode = 0 then vecMean xs else (.zero, {})
  let (ds, f2) := mapAcc (fun x => formAcc.sub x mu) xs
  let (sq, f3) := mapAcc (fun x => formAcc.mul x x) ds
  let (v, f4) := vecMean sq
  let (r, f5) := accThen (formAcc.add v eps) (tblEval rs)
  let (a, f6) := mapAcc (fun x => formAcc.mul x r) ds
  let (b, f7) := zipAcc formAcc.mul a gs
  let (y, f8) := zipAcc formAcc.add b (if mode = 0 then bs else b.map (fun _ => .zero))
  (y, mu, r, [f1, f2, f3, f4, f5, f6, f7, f8].foldl NumFlags.or {})

/-- A row of a backward NORM: dx. -/
def normBwd (mode : Nat) (mu r : Val) (xs dys gs : List Val) : List Val × NumFlags :=
  let (ds, f1) := mapAcc (fun x => formAcc.sub x mu) xs
  let (xh, f2) := mapAcc (fun x => formAcc.mul x r) ds
  let (gh, f3) := zipAcc formAcc.mul dys gs
  let (m1, f4) := if mode = 2 then vecMean gh else (.zero, {})
  let (pr, f5) := zipAcc formAcc.mul gh xh
  let (m2, f6) := vecMean pr
  let (a, f7) := if mode = 2 then mapAcc (fun v => formAcc.sub v m1) gh else (gh, {})
  let (t, f8) := mapAcc (fun v => formAcc.mul v m2) xh
  let (b, f9) := zipAcc formAcc.sub a t
  let (y, f10) := mapAcc (fun v => formAcc.mul r v) b
  (y, [f1, f2, f3, f4, f5, f6, f7, f8, f9, f10].foldl NumFlags.or {})

/-- NORM (R164). -/
def execNorm (r : CmdRef) (ev : BufEvents) (s : State) : Host.Outcome State Fault Refusal :=
  ok (s.runUnit r 0x3002 (fun c =>
    let region := s.regionOf r.q
    let mode := c.f 0x130 1
    let x := tdAt c.pkt 0x10; let dy := tdAt c.pkt 0x40; let g := tdAt c.pkt 0x70; let b := tdAt c.pkt 0xA0; let d := tdAt c.pkt 0xD0
    let st := tdAt c.pkt 0x100
    let spans := x.spans ++ g.spans ++ (if 2 ≤ mode then dy.spans ++ st.spans else []) ++ (if mode = 0 then b.spans else [])
    s.readingThen r spans (fun s => s.withBuf r (unitVec region) ev (State.vecCorr region) (fun s =>
      let src := s
      let rs := builtinTable 6 false
      let (gs, fg) := src.vecRow c g 0 0 0
      let (bs, fb) := if mode = 0 then src.vecRow c b 0 0 0 else ([], {})
      let eps := fp32Val (c.f 0x134 4)
      let s := (s.countOperand r x).countOperand r g
      let s := if 2 ≤ mode then (s.countOperand r dy).countOperand r st else if mode = 0 then s.countOperand r b else s
      let s := if 2 ≤ mode then
          s.vecRows r c d 0xFFFF (fun i j k =>
            let (xs, f1) := src.vecRow c x i j k
            let (ds, f2) := src.vecRow c dy i j k
            let (ss, f3) := src.vecRow c st i j k
            let (y, f) := normBwd mode (ss.getD 0 .zero) (ss.getD 1 .zero) xs ds gs
            (y, (((f1.or f2).or f3).or fg).or f))
        else
          let fwd (i j k : Nat) : List Val × Val × Val × NumFlags :=
            let (xs, f1) := src.vecRow c x i j k
            let (y, mu, v, f) := normFwd mode rs eps xs gs bs
            (y, mu, v, ((f1.or fg).or fb).or f)
          let t := s.vecRows r c d (c.f 0x132 2) (fun i j k => let (y, _, _, f) := fwd i j k; (y, f))
          t.vecRows r c st 0xFFFF (fun i j k => let (_, mu, v, _) := fwd i j k; ([mu, v], {}))
      (s.account r (fun a => { a with vecOps := a.vecOps + x.count,
                                      tableEvals := a.tableEvals + if mode < 2 then x.e 1 * x.e 2 * x.e 3 else 0 })).finish r 0 0))))

/-! ## COMBINE (R148) -/

def checksCombine (s : State) (c : Cmd) : Checks :=
  let a := tdAt c.pkt 0x10; let d := tdAt c.pkt 0x40
  let n := a.e (a.rank - 1)
  Checks.all [lenIs c 2, unlisted c [(0x10, 0x62)], failLen (a.rank < 2) 0x18, failLen (2 ≤ a.rank ∧ 16 < n) (0x1C + 4 * (a.rank - 1)),
    tdChecks c.pkt true (fun f => f.code ≤ 4) a, s.tdRange .mover a, tdChecks c.pkt false Fmt.vecOk d, s.tdRange .mover d,
    failLen (d.rank ≠ a.rank - 1) 0x48, extMatch d (a.ext.set (a.rank - 1) 1), failAdrO (a.overlap d) 0x40]

/-- COMBINE: the partials along S's last dimension summed by the fixed tree in W64 (R148). -/
def execCombine (r : CmdRef) (s : State) : Host.Outcome State Fault Refusal :=
  ok (s.runUnit r 0x2004 (fun c =>
    let region := s.regionOf r.q
    let a := tdAt c.pkt 0x10; let d := tdAt c.pkt 0x40
    let n := a.e (a.rank - 1)
    s.readingThen r a.spans (fun s =>
      let src := s
      let amax := c.f 0x70 2
      let part (i j k p : Nat) : List Val × NumFlags :=
        let (i, j, k) := if a.rank = 2 then (p, j, k) else if a.rank = 3 then (i, p, k) else (i, j, p)
        intoW64 ((src.rowElems c a i j k).map (·.val))
      let (s, fl, all) := d.rows.foldl (fun (st : State × NumFlags × List Val) q =>
        let ps := (List.range n).map (part q.1 q.2.1 q.2.2)
        let (vs, f) := gather ((List.range (d.e 0)).map (fun i0 =>
          fixedTree formW64.add 8 (ps.map (fun p => p.1.getD i0 .zero))))
        let (t, g) := st.1.writeRow r c d q.1 q.2.1 q.2.2 vs
        (t, ps.foldl (fun (x : NumFlags) p => x.or p.2) (st.2.1.or (f.or g)), if amax = 0xFFFF then [] else st.2.2 ++ vs)) (s.countOperand r a, {}, [])
      let (s, fa) := s.amaxOut region amax all
      (s.orFlags .ACC_NUMFLAGS region (fl.or fa)).finish r 0 0)))

end Sys2Proof.Machine
end

