-- ==== Sys2Proof/Machine/Pages.lean ====
section
/-! DEFINITION. The page keeper: R176 to R185. Pools, page states, sequence descriptors, KV_APPEND, PAGE_COPY, PAGE_FREE. -/
namespace Sys2Proof.Machine

/-! ## Pools and pages (R176, R177, R179) -/

def Pool.d (p : Pool) : Nat := 64 <<< p.dcode
def Pool.elem (p : Pool) : Nat := if p.fmt = 1 ∨ p.fmt = 2 then 2 else 1
/-- Page size. -/
def pageBytes (hkv d e : Nat) : Nat := 16 * hkv * d * 2 * e
def Pool.pb (p : Pool) : Nat := pageBytes p.hkv p.d p.elem

/-- The address of element c of token slot t, head h, of a page's key or value half (R177). -/
def Pool.elemAt (p : Pool) (page : Nat) (value : Bool) (h t c : Nat) : Nat :=
  p.base + page * p.pb + (if value then p.pb / 2 else 0) + ((h * 16 + t) * p.d + c) * p.elem

/-- A page state entry (R179): STATE, DROPPABLE, REFCNT, PINS, OWNER. -/
structure PageSt where
  st    : Nat
  drop  : Bool
  ref   : Nat
  pins  : Nat
  owner : Nat
  deriving DecidableEq, Repr

def State.page (s : State) (p : Pool) (n : Nat) : PageSt :=
  let a := p.stateBase + 16 * n
  let b := s.readMem a 16
  { st := bits b 6 0, drop := bit b 7, ref := le b 2 2, pins := le b 4 4, owner := leBits b 8 47 0 }

def State.setPage (s : State) (p : Pool) (n : Nat) (x : PageSt) : State :=
  s.writeMem (p.stateBase + 16 * n) (x.st + 128 * b2n x.drop + put 2 2 x.ref + put 4 4 x.pins + put 8 6 x.owner) 16

def State.modPage (s : State) (p : Pool) (n : Nat) (f : PageSt → PageSt) : State := s.setPage p n (f (s.page p n))

/-- One reference fewer: a page without references is FREE, or DEFERRED while pins stand. -/
def State.decRef (s : State) (p : Pool) (n : Nat) : State :=
  s.modPage p n (fun x => if x.ref ≤ 1 then { x with ref := 0, drop := false, st := if x.pins = 0 then 0 else 3 } else { x with ref := x.ref - 1 })

def State.pinPage (s : State) (p : Pool) (n : Nat) : State := s.modPage p n (fun x => { x with pins := x.pins + 1 })

/-- One pin fewer: a DEFERRED page without pins is FREE. -/
def State.unpinPage (s : State) (p : Pool) (n : Nat) : State :=
  s.modPage p n (fun x => { x with pins := x.pins - 1, st := if x.pins ≤ 1 ∧ x.st = 3 then 0 else x.st })

/-! ## Sequences (R178) -/

/-- A sequence descriptor. -/
structure SeqD where
  addr    : Nat
  len     : Nat
  table   : Nat
  cap     : Nat
  dropped : Nat
  deriving DecidableEq, Repr

/-- The descriptor at an address, if it is well formed. -/
def State.seqAt (s : State) (a : Nat) : Option SeqD :=
  let b := s.readMem a 64
  if le b 1 1 ≠ 1 ∨ le b 2 2 ≠ 0 ∨ leBits b 8 63 48 ≠ 0 ∨ le b 0x18 40 ≠ 0 then none
  else some { addr := a, len := le b 4 4, table := leBits b 8 47 0, cap := le b 0x10 4, dropped := le b 0x14 4 }

/-- What is wrong with the sequence that the packet field at `off` names by the address `a` (R178, R506): the status and DETAIL. A TABLE_CAP
outside 1 to 65,536 has no stated response: BAD_LENGTH at that field (DESIGN CHOICE, log 59). -/
def State.seqFault (s : State) (off a : Nat) : Option (Nat × Nat) :=
  match s.seqAt a with
  | none => some (0x0103, off)
  | some q =>
    if q.table % 64 ≠ 0 then some (0x0104, q.table)
    else if q.cap = 0 ∨ 65536 < q.cap then some (0x0105, off)
    else (s.spanFault .compute q.table (4 * q.cap)).map (fun x => (0x0104, x))

def SeqD.entries (q : SeqD) : Nat := ceilDiv q.len 16
def State.entry (s : State) (q : SeqD) (j : Nat) : Nat := s.readMem (q.table + 4 * j) 4
def State.entryDropped (s : State) (q : SeqD) (j : Nat) : Bool := (s.entry q j).testBit 31
def State.entryPage (s : State) (q : SeqD) (j : Nat) : Nat := s.entry q j % 2 ^ 24
def State.setEntry (s : State) (q : SeqD) (j v : Nat) : State := s.writeMem (q.table + 4 * j) v 4
def State.setLen (s : State) (q : SeqD) (n : Nat) : State := s.writeMem (q.addr + 4) n 4
def State.setDropped (s : State) (q : SeqD) (n : Nat) : State := s.writeMem (q.addr + 0x14) n 4

/-- Where a page table holds the entries of its sequence. -/
def SeqD.span (q : SeqD) : Nat × Nat := (q.table, 4 * q.entries)

/-- A keeper step `k` of a command on the sequences whose descriptors stand at the addresses `as`, which the packet field at `off` names: the
descriptors and the page tables are read first, and what is wrong with them, or poison there, ends the command (R178, R268). -/
def State.withSeqs (s : State) (r : CmdRef) (off : Nat) (as : List Nat) (k : State → List SeqD → State) : State :=
  match as.findSome? (fun a => s.spanFault .ilv a 64) with
  | some x => s.finish r 0x0104 x
  | none => s.readingThen r (as.map (fun a => (a, 64))) (fun s =>
    match as.findSome? (s.seqFault off) with
    | some (st, d) => s.finish r st d
    | none =>
      let qs := as.filterMap s.seqAt
      s.readingThen r (qs.map SeqD.span) (fun s => k s qs))

/-- The same for the one sequence that the field at `off` names. -/
def State.withSeq (s : State) (c : Cmd) (off : Nat) (k : State → SeqD → State) : State :=
  s.withSeqs c.ref off [c.fb off 47 0] (fun s qs => match qs.head? with
    | some q => k s q
    | none => s)

/-- The lowest dropped entry of a sequence, or 0xFFFF_FFFF. -/
def State.firstDropped (s : State) (q : SeqD) : Nat := (lowest q.entries (fun j => s.entryDropped q j)).getD 0xFFFFFFFF

/-! ## Allocation (R180, R185) -/

def State.canDrop (s : State) (p : Pool) (n : Nat) : Bool :=
  let x := s.page p n
  decide (x.st = 2 ∧ x.drop ∧ x.ref = 1 ∧ x.pins = 0)

/-- Pages that allocations could take, FREE or droppable. -/
def State.available (s : State) (p : Pool) : Nat := ((List.range p.pages).filter (fun n => (s.page p n).st = 0 || s.canDrop p n)).length

/-- Drops a page: its owner's entry is marked, and the page is FREE. -/
def State.dropPage (s : State) (region : Nat) (p : Pool) (n : Nat) : State :=
  let x := s.page p n
  let s := match s.seqAt x.owner with
    | some q =>
      match lowest q.entries (fun j => ¬ s.entryDropped q j && decide (s.entryPage q j = n)) with
      | some j => let t := s.setEntry q j 0x80FFFFFF
                  if j < q.dropped then t.setDropped q j else t
      | none => s
    | none => s
  (s.setPage p n { st := 0, drop := false, ref := 0, pins := 0, owner := 0 }).incWrap F.PK_DROPS_DROPS region 1

/-- Allocates `n` pages, each the lowest-numbered FREE one, after a drop where none is FREE; they become RESERVED. -/
def State.allocPages (s : State) (region : Nat) (p : Pool) : Nat → State × List Nat
  | 0 => (s, [])
  | n + 1 =>
    let s := match lowest p.pages (fun k => (s.page p k).st = 0) with
      | some _ => s
      | none => match lowest p.pages (s.canDrop p) with
        | some k => s.dropPage region p k
        | none => s
    match lowest p.pages (fun k => (s.page p k).st = 0) with
    | some k =>
      let s := s.setPage p k { st := 1, drop := false, ref := 0, pins := 0, owner := 0 }
      let (t, ks) := State.allocPages s region p n
      (t, k :: ks)
    | none => (s, [])

/-! ## POOL_CFG (R176) -/

/-- The checks of POOL_CFG (R176). Bits [63:48] of BASE or STATE_BASE end with BAD_RESERVED (DESIGN CHOICE, log 63). -/
def checksPoolCfg (s : State) (c : Cmd) : Checks :=
  let mode := c.f 0x10 1
  let d := 64 <<< c.f 0x11 1
  let e := if c.f 0x12 1 = 1 ∨ c.f 0x12 1 = 2 then 2 else 1
  let n := pageBytes (c.f 0x14 2) d e * c.f 0x20 4
  let b := c.f 0x18 8; let sb := c.f 0x28 8
  Checks.all [lenIs c 1, failRsv (1 < mode) 0x10,
    if mode = 1 then mustZero c.pkt 0x11 0x27
    else Checks.all [unlisted c [(0x10, 3), (0x14, 2), (0x18, 8), (0x20, 4), (0x28, 8)], failRsv (2 < c.f 0x11 1) 0x11,
      failFmt (c.f 0x12 1 = 0 ∨ 4 < c.f 0x12 1) 0x12, failLen (c.f 0x14 2 = 0 ∨ 64 < c.f 0x14 2) 0x14,
      failLen (c.f 0x20 4 = 0 ∨ 16777215 < c.f 0x20 4) 0x20,
      addrRsv c.pkt 0x18, addrRsv c.pkt 0x28,
      if b % 0x2000000 ≠ 0 then failAdr true 0x18 b else failAdrO (s.spanFault .ilv b (roundUp n 0x2000000)) 0x18,
      if sb % 64 ≠ 0 then failAdr true 0x28 sb else failAdrO (s.spanFault .ilv sb (16 * c.f 0x20 4)) 0x28]]

/-- The range that a pool pins. -/
def Pool.span (p : Pool) : Nat := roundUp (p.pb * p.pages) 0x2000000

/-- Unpins a pool's range, as one UNPIN does, and removes the pool. -/
def State.dropPool (s : State) (region : Nat) (p : Pool) : State :=
  let s := s.setVec region { s.vec region with pool := none }
  let s := s.setR .PK_POOL region 0
  s.sendHint (s.hoistsOf p.base) { cmd := none, kind := .unpin, range := s.framesOf p.base p.span }

/-- POOL_CFG: configures or releases a region's pool (R176). A release where there is none ends with OK (DESIGN CHOICE, log 63). -/
def execPoolCfg (r : CmdRef) (s : State) : Host.Outcome State Fault Refusal :=
  ok (s.runUnit r 0x4006 (fun c =>
    let region := s.regionOf r.q
    let busy := match (s.vec region).pool with
      | some p => if (List.range p.pages).any (fun n => (s.page p n).st ≠ 0) then some p.base else none
      | none => none
    match busy with
    | some b => s.finish r 0x0104 b
    | none =>
      let free := match (s.vec region).pool with | some p => s.dropPool region p | none => s
      if c.f 0x10 1 = 1 then free.finish r 0 0
      else
        let p : Pool := { base := c.f 0x18 8, stateBase := c.f 0x28 8, pages := c.f 0x20 4, hkv := c.f 0x14 2, fmt := c.f 0x12 1, dcode := c.f 0x11 1 }
        match free.hintFault .pin p.base p.span with
        | some (st, d) => s.finish r st d
        | none =>
          let s := free.writeMem p.stateBase 0 (16 * p.pages)
          let s := s.setVec region { s.vec region with pool := some p }
          let s := s.setR .PK_POOL region (BitVec.ofNat 64 (p.pages <<< 40 + p.hkv <<< 16 + p.fmt <<< 12 + p.dcode <<< 10 + 1))
          let s := s.setFld F.PK_DROPS_DROPS region 0
          let fs := s.framesOf p.base p.span
          ((s.wrote r).phaseCmd r .running).sendHint (s.hoistsOf p.base) { cmd := some r, kind := .pin, range := fs, raise := fs }))

/-! ## KV_APPEND (R182, R185) -/

def checksKvAppend (s : State) (c : Cmd) : Checks :=
  let k := tdAt c.pkt 0x20; let v := tdAt c.pkt 0x50
  let ok4 (f : Fmt) : Bool := decide (f.code ≤ 4)
  Checks.all [lenIs c 3, unlisted c [(0x10, 9), (0x1C, 0x64)], s.addrCheck .ilv c 0x10 1 64, bitsZero c.pkt 0x18 7 1,
    failRsv (c.f 0x18 1 = 0 ∧ c.f 0x1C 4 ≠ 0) 0x1C, failLen (k.rank ≠ 3) 0x28, failLen (v.rank ≠ 3) 0x58,
    tdChecks c.pkt true ok4 k, s.tdRange .compute k, tdChecks c.pkt true ok4 v, s.tdRange .compute v, extMatch v k.ext]

/-- The partly filled page is shared: its tokens go to the new page, and the old one is pinned meanwhile (R182). -/
def State.copyPage (s : State) (p : Pool) (r old : Nat) (ks : List Nat) : State :=
  let v := s.pinPage p old
  match ks with
  | n :: _ => (List.range p.hkv).foldl (fun (w : State) h =>
      let len := r * p.d * p.elem
      let a := w.writeMem (p.elemAt n false h 0 0) (w.readMem (p.elemAt old false h 0 0) len) len
      a.writeMem (p.elemAt n true h 0 0) (a.readMem (p.elemAt old true h 0 0) len) len) v
  | [] => v

/-- The pages of an append are taken: `need` of them, and the shared page `cow` is copied. -/
def State.kvTake (s : State) (region : Nat) (c : Cmd) (p : Pool) (q : SeqD) (need : Nat) (cow : Option Nat) : State :=
  let (u, ks) := s.allocPages region p need
  let u := match cow with
    | some pg => u.copyPage p (q.len % 16) pg ks
    | none => u
  u.modCmd c.ref (fun x => { x with work := .kv ks cow q.len (s.entryPage q (q.len / 16)) q.table })

/-- The issue step of KV_APPEND (R182, R185): the pages it reserves, or the status and DETAIL with which it ends. Without a pool it ends with
BAD_LENGTH at 0x2C, as where d differs from the pool's (DESIGN CHOICE, log 63). -/
def State.kvIssue (s : State) (region : Nat) (c : Cmd) : State :=
  let k := tdAt c.pkt 0x20
  let t := k.e 1
  s.withSeq c 0x10 (fun s q =>
    match (s.vec region).pool with
    | none => s.finish c.ref 0x0105 0x2C
    | some p =>
      if k.e 0 ≠ p.d then s.finish c.ref 0x0105 0x2C
      else if k.e 2 ≠ p.hkv then s.finish c.ref 0x0105 0x34
      else if c.f 0x18 1 = 1 then
        let j := c.f 0x1C 4
        if q.len ≤ 16 * j ∨ t ≠ min 16 (q.len - 16 * j) then s.finish c.ref 0x0105 0x30
        else if ¬ s.entryDropped q j then s.finish c.ref 0x0104 (q.table + 4 * j)
        else if s.available p < 1 then s.finish c.ref 0x0402 0x20
        else s.kvTake region c p q 1 none
      else
        let r := q.len % 16
        let total := q.len + t
        if 1048576 < total ∨ 16 * q.cap < total then s.finish c.ref 0x0402 0x30
        else if r ≠ 0 ∧ s.entryDropped q (q.len / 16) then s.finish c.ref 0x0401 q.dropped
        else
          let pg := s.entryPage q (q.len / 16)
          let cow := if r ≠ 0 ∧ 1 < (s.page p pg).ref then some pg else none
          let rest := if r = 0 then t else t - (16 - r)
          let need := ceilDiv rest 16 + b2n cow.isSome
          if s.available p < need then s.finish c.ref 0x0402 0x20
          else s.kvTake region c p q need cow)

/-- Writes the tokens of K and V into the pages: token `i` goes to slot `slot i` of page `page i`. -/
def State.writeTokens (s : State) (r : CmdRef) (c : Cmd) (p : Pool) (place : Nat → Nat × Nat) : State × NumFlags :=
  let f := (Fmt.ofCode p.fmt).getD .bf16
  let k := tdAt c.pkt 0x20; let v := tdAt c.pkt 0x50
  let one (st : State × NumFlags) (d : Td) (value : Bool) : State × NumFlags :=
    (List.range p.hkv).foldl (fun (st : State × NumFlags) h => (List.range (k.e 1)).foldl (fun (st : State × NumFlags) i =>
      let (img, fl, cn) := f.encodeRow 0 (fun _ => .one) ((s.rowElems c d i h 0).map (·.val))
      let (pg, slot) := place i
      let n := p.d * p.elem
      ((st.1.writeMem (p.elemAt pg value h slot 0) (img % 2 ^ (8 * n)) n).modCmd r (fun x => x.addCounts (16 + p.fmt) cn), st.2.or fl)) st) st
  one (one (s, {}) k false) v true

/-- The reserved pages and the pin of an abandoned KV_APPEND go back (R182, R186). -/
def State.kvAbandon (s : State) (r : CmdRef) : State :=
  match s.cmd r, (s.vec (s.regionOf r.q)).pool with
  | some c, some p =>
    match c.work with
    | .kv ks cow _ _ _ =>
      let s := ks.foldl (fun (t : State) n => t.setPage p n { st := 0, drop := false, ref := 0, pins := 0, owner := 0 }) s
      match cow with | some n => s.unpinPage p n | none => s
    | _ => s
  | _, _ => s

/-- Counts corrected words of the attention unit's buffers. -/
def State.attCorr (q : Nat) (s : State) (n : Nat) : State := s.incWrap F.PK_DROPS_ECC_CORR q n

/-- KV_APPEND: its tokens are written and its completion step is made (R182). -/
def execKvAppend (r : CmdRef) (ev : BufEvents) (s : State) : Host.Outcome State Fault Refusal :=
  ok (s.runUnit r 0x4003 (fun c =>
    let region := s.regionOf r.q
    match c.work, (s.vec region).pool with
    | .kv ks cow len last table, some p =>
      let q : SeqD := { addr := c.fb 0x10 47 0, len := len, table := table, cap := 0, dropped := 0 }
      let k := tdAt c.pkt 0x20; let v := tdAt c.pkt 0x50
      let t := k.e 1
      if 2 ≤ ev.uncorrectable ∨ ((s.demand (k.spans ++ v.spans)).firstBad (k.spans ++ v.spans)).isSome then
        let s := s.kvAbandon r
        s.readingThen r (k.spans ++ v.spans) (fun s => s.withBuf r (unitAtt region) ev (State.attCorr region) id)
      else s.readingThen r (k.spans ++ v.spans) (fun s => s.withBuf r (unitAtt region) ev (State.attCorr region) (fun s =>
        let refill := c.f 0x18 1 = 1
        let j0 := if refill then c.f 0x1C 4 else q.len / 16
        let r0 := if refill then 0 else q.len % 16
        let inPlace := r0 ≠ 0 ∧ cow.isNone
        -- the pages of the entries from `j0` on
        let pages := if inPlace then last :: ks else ks
        let (s, fl) := ((s.countOperand r k).countOperand r v).writeTokens r c p (fun i => (pages.getD ((r0 + i) / 16) 0, (r0 + i) % 16))
        let s := (s.orFlags .ATT_NUMFLAGS region fl).wrote r
        let s := pages.zipIdx.foldl (fun (u : State) x => if inPlace ∧ x.2 = 0 then u else u.setEntry q (j0 + x.2) x.1) s
        let s := ks.foldl (fun (u : State) n => u.modPage p n (fun x => { x with st := 2, ref := 1 })) s
        let s := if refill then s.setDropped q (s.firstDropped { q with len := s.readMem (q.addr + 4) 4 }) else s.setLen q (q.len + t)
        let s := match cow with | some n => (s.unpinPage p n).decRef p n | none => s
        s.finish r 0 0))
    | _, _ => s))

/-! ## PAGE_COPY and PAGE_FREE (R183, R184) -/

def checksPageCopy (s : State) (c : Cmd) : Checks :=
  Checks.all [lenIs c 1, unlisted c [(0x10, 16)], s.addrCheck .ilv c 0x10 1 64, s.addrCheck .ilv c 0x18 1 64]

/-- PAGE_COPY: forks a sequence by reference (R183). -/
def execPageCopy (r : CmdRef) (s : State) : Host.Outcome State Fault Refusal :=
  ok (s.runUnit r 0x4004 (fun c =>
    s.withSeq c 0x10 (fun s a => s.withSeq c 0x18 (fun s b =>
      match (s.vec (s.regionOf r.q)).pool with
      | none => s.finish r 0x0104 0
      | some p =>
        let n := a.entries
        if b.len ≠ 0 then s.finish r 0x0104 b.addr
        else if b.cap < n then s.finish r 0x0402 0x18
        else if (List.range n).any (s.entryDropped a) then s.finish r 0x0401 a.dropped
        else if (List.range n).any (fun j => (s.page p (s.entryPage a j)).ref = 65535) then s.finish r 0x0402 0x10
        else
          let t := (List.range n).foldl (fun (t : State) j =>
            (t.setEntry b j (s.entry a j)).modPage p (s.entryPage a j) (fun x => { x with ref := x.ref + 1 })) s
          ((t.setLen b a.len).wrote r).finish r 0 0))))

def checksPageFree (s : State) (c : Cmd) : Checks :=
  Checks.all [lenIs c 1, unlisted c [(0x10, 8), (0x18, 4), (0x1C, 1)], s.addrCheck .ilv c 0x10 1 64, failRsv (1 < c.f 0x1C 1) 0x1C,
    failLen (c.f 0x1C 1 = 1 ∧ c.f 0x18 4 % 16 ≠ 0) 0x18]

/-- PAGE_FREE: releases entries, or marks their pages droppable (R184). -/
def execPageFree (r : CmdRef) (s : State) : Host.Outcome State Fault Refusal :=
  ok (s.runUnit r 0x4005 (fun c =>
    let from_ := c.f 0x18 4
    s.withSeq c 0x10 (fun s q =>
      match (s.vec (s.regionOf r.q)).pool with
      | none => s.finish r 0x0104 0
      | some p =>
        let first := ceilDiv from_ 16
        let js := (List.range q.entries).filter (fun j => first ≤ j ∧ ¬ s.entryDropped q j)
        if c.f 0x1C 1 = 0 then
          let t := js.foldl (fun (t : State) j => (t.modPage p (s.entryPage q j) (fun x => { x with drop := false })).decRef p (s.entryPage q j)) s
          let t := t.setLen q (min q.len from_)
          let t := if first ≤ q.dropped then t.setDropped q 0xFFFFFFFF else t
          (t.wrote r).finish r 0 0
        else
          let t := js.foldl (fun (t : State) j => t.modPage p (s.entryPage q j) (fun x => { x with drop := true, owner := q.addr })) s
          (t.wrote r).finish r 0 0)))

end Sys2Proof.Machine
end

