-- ==== Sys2Proof/Machine/Attention.lean ====
section
/-! DEFINITION. The attention unit: ATTN_FWD and ATTN_BWD (R170 to R175, R181). -/
namespace Sys2Proof.Machine

/-! ## The parameter block (R171, R172) -/

/-- The attention parameter block. -/
structure AttnP where
  mode   : Nat
  paged  : Bool
  seg    : Bool
  scale  : Val
  ft     : Nat
  win    : Nat
  pre    : Nat
  qoff   : Nat
  segs   : Nat
  seqs   : Nat

/-- The block at an offset of a packet. -/
def attnP (pkt o : Nat) : AttnP :=
  { mode := le pkt o 1, paged := bit (le pkt (o + 1) 1) 0, seg := bit (le pkt (o + 1) 1) 1, scale := fp32Val (le pkt (o + 4) 4),
    ft := le pkt (o + 8) 4, win := le pkt (o + 0xC) 4, pre := le pkt (o + 0x10) 4, qoff := le pkt (o + 0x14) 4,
    segs := leBits pkt (o + 0x18) 47 0, seqs := leBits pkt (o + 0x20) 47 0 }

/-- The mask modes (R172), before segments. -/
def AttnP.sees (a : AttnP) (pq pk : Nat) : Bool :=
  decide (pk < a.pre ∧ 1 ≤ a.mode) ||
  match a.mode with
  | 0 => true
  | 1 => decide (pk ≤ pq)
  | 2 => decide (pk / a.ft ≤ pq / a.ft)
  | 3 => decide (pk ≤ pq ∧ pq - pk < a.win)
  | _ => decide (pk / a.ft ≤ pq / a.ft ∧ pq / a.ft - pk / a.ft < a.win)

/-- Whether key `j` is visible to query row `i` of batch `b` of `tq` rows (R172). -/
def State.visible (s : State) (a : AttnP) (tq b i j : Nat) : Bool :=
  a.sees (a.qoff + i) j &&
  (¬ a.seg || decide (s.readMem (a.segs + 4 * (b * tq + i)) 4 = s.readMem (a.segs + 4 * (b * tq + j)) 4))

/-- The segment IDs that a command on the queries `q` reads. -/
def AttnP.segSpans (a : AttnP) (q : Td) : List (Nat × Nat) := if a.seg then [(a.segs, 4 * q.e 3 * q.e 1)] else []

/-! ## Checks (R170, R171, R174) -/

/-- A parameter field: zero where the mode does not use it, not zero where it does. -/
def paramCheck (c : Cmd) (off n : Nat) (used : Bool) : Checks :=
  if used then failLen (c.f off n = 0) off else mustZero c.pkt off n

/-- The checks of the parameter block at `o`; Q at 0x10, K at 0x40. SEG_EN together with PAGED, PAGED where the command may not page, and
bits [63:48] of SEG_ADDR or SEQ_LIST end with BAD_RESERVED (DESIGN CHOICE, log 63). -/
def attnChecks (s : State) (c : Cmd) (o : Nat) (mayPage : Bool) : Checks :=
  let a := attnP c.pkt o
  let q := tdAt c.pkt 0x10; let k := tdAt c.pkt 0x40
  let fl := c.f (o + 1) 1
  let tk := if a.paged then 0 else k.e 1
  Checks.all [failRsv (4 < a.mode) o, failRsv (3 < fl ∨ (¬ mayPage ∧ a.paged) ∨ (a.paged ∧ a.seg)) (o + 1), mustZero c.pkt (o + 2) 2,
    paramCheck c (o + 4) 4 true, paramCheck c (o + 8) 4 (a.mode = 2 ∨ a.mode = 4), paramCheck c (o + 0xC) 4 (a.mode = 3 ∨ a.mode = 4),
    (if a.mode = 0 then mustZero c.pkt (o + 0x10) 4 else {}),
    paramCheck c (o + 0x18) 8 a.seg, paramCheck c (o + 0x20) 8 (mayPage ∧ a.paged),
    failLen (a.seg ∧ ¬ a.paged ∧ q.e 1 ≠ k.e 1) 0x50, failLen (a.seg ∧ a.qoff ≠ 0) (o + 0x14),
    (if a.seg then s.addrCheck .compute c (o + 0x18) 64 (4 * q.e 3 * q.e 1) else {}),
    (if mayPage ∧ a.paged then s.addrCheck .compute c (o + 0x20) 1 (8 * q.e 3) else {}),
    mustZero c.pkt (o + 0x28) 16,
    failLim (1048576 < tk) 0x50, failLim (1048576 < a.qoff + q.e 1) (o + 0x14)]

def fmt14 (f : Fmt) : Bool := decide (1 ≤ f.code ∧ f.code ≤ 4)
def fmt04 (f : Fmt) : Bool := decide (f.code ≤ 4)
def fmt02 (f : Fmt) : Bool := decide (f.code ≤ 2)

/-- A descriptor of four dimensions whose extents are given. -/
def shape4 (d : Td) (ext : List Nat) : Checks := Checks.app (failLen (d.rank ≠ 4) (d.off + 8)) (extMatch d ext)

/-- The shapes of Q, K and V (R170). -/
def qkvChecks (s : State) (c : Cmd) (paged : Bool) : Checks :=
  let q := tdAt c.pkt 0x10; let k := tdAt c.pkt 0x40; let v := tdAt c.pkt 0x70
  Checks.all [tdChecks c.pkt true fmt14 q, s.tdRange .compute q, failLen (q.rank ≠ 4) 0x18,
    failLen (q.e 0 ≠ 64 ∧ q.e 0 ≠ 128 ∧ q.e 0 ≠ 256) 0x1C,
    if paged then Checks.app (zeroTd c 0x40) (zeroTd c 0x70)
    else Checks.all [tdChecks c.pkt true fmt14 k, s.tdRange .compute k, tdChecks c.pkt true fmt14 v, s.tdRange .compute v,
      failLen (k.rank ≠ 4) 0x48, failLen (k.e 0 ≠ q.e 0) 0x4C, failLen (k.e 2 = 0 ∨ q.e 2 % k.e 2 ≠ 0) 0x54,
      failLen (k.e 3 ≠ q.e 3) 0x58, shape4 v k.ext]]

def checksAttnFwd (s : State) (c : Cmd) : Checks :=
  let q := tdAt c.pkt 0x10; let o := tdAt c.pkt 0xA0; let st := tdAt c.pkt 0xD0
  Checks.all [lenIs c 5, attnChecks s c 0x100 true, qkvChecks s c (attnP c.pkt 0x100).paged,
    tdChecks c.pkt false fmt04 o, s.tdRange .compute o, shape4 o q.ext,
    tdChecks c.pkt false (fun f => f = .fp32) st, s.tdRange .compute st, shape4 st (q.ext.set 0 2)]

def checksAttnBwd (s : State) (c : Cmd) : Checks :=
  let q := tdAt c.pkt 0x10; let k := tdAt c.pkt 0x40
  let o := tdAt c.pkt 0xA0; let dO := tdAt c.pkt 0xD0; let st := tdAt c.pkt 0x100
  let dq := tdAt c.pkt 0x130; let dk := tdAt c.pkt 0x160; let dv := tdAt c.pkt 0x190
  Checks.all [lenIs c 8, attnChecks s c 0x1C0 false, qkvChecks s c false,
    tdChecks c.pkt true fmt04 o, s.tdRange .compute o, shape4 o q.ext, tdChecks c.pkt true fmt04 dO, s.tdRange .compute dO, shape4 dO q.ext,
    tdChecks c.pkt true (fun f => f = .fp32) st, s.tdRange .compute st, shape4 st (q.ext.set 0 2),
    tdChecks c.pkt false fmt02 dq, s.tdRange .compute dq, shape4 dq q.ext, tdChecks c.pkt false fmt02 dk, s.tdRange .compute dk, shape4 dk k.ext,
    tdChecks c.pkt false fmt02 dv, s.tdRange .compute dv, shape4 dv k.ext]

/-! ## The pin and unpin steps (R181) -/

/-- The pin step of a paged ATTN_FWD (R181), then `k`: Tk of each batch and the pages pinned, unless it ends the command. SEQ_LIST, the
descriptors and the page tables are read here. Whether FMT, for which the rule names no counterpart, must be Q's format is a free choice of
the implementation (log 60). -/
def State.attnPin (s : State) (region : Nat) (c : Cmd) (k : State → State) : State :=
  let a := attnP c.pkt 0x100
  let q := tdAt c.pkt 0x10
  s.readingThen c.ref [(a.seqs, 8 * q.e 3)] (fun s =>
    s.withSeqs c.ref 0x120 ((List.range (q.e 3)).map (fun b => s.readMem (a.seqs + 8 * b) 8)) (fun s qs =>
      match (s.vec region).pool with
      | none => s.finish c.ref 0x0105 0x1C
      | some p =>
        if p.d ≠ q.e 0 then s.finish c.ref 0x0105 0x1C
        else if Config.pageFmtChecked && decide (p.fmt ≠ q.fmtc) then s.finish c.ref 0x0105 0x18
        else if p.hkv = 0 ∨ q.e 2 % p.hkv ≠ 0 then s.finish c.ref 0x0105 0x24
        else
          match qs.find? (fun x => (List.range x.entries).any (s.entryDropped x)) with
          | some x => s.finish c.ref 0x0401 x.dropped
          | none =>
            if qs.any (fun x => decide (1048576 < x.len)) then s.finish c.ref 0x0402 0x120
            else
              let pages := qs.map (fun x => (List.range x.entries).map (s.entryPage x))
              let t := pages.flatten.foldl (fun (t : State) n => t.pinPage p n) s
              k (t.modCmd c.ref (fun x => { x with work := .att (qs.map (·.len)) pages }))))

/-- The unpin step, at completion or when the command is abandoned. -/
def State.attnUnpin (s : State) (r : CmdRef) : State :=
  match s.cmd r, (s.vec (s.regionOf r.q)).pool with
  | some c, some p =>
    match c.work with
    | .att _ pages => (pages.flatten.foldl (fun (t : State) n => t.unpinPage p n) s).modCmd r (fun x => { x with work := .none })
    | _ => s
  | _, _ => s

/-! ## The computation (R173, R174) -/

/-- A sum of products over the elements of a head: the tree of R173. -/
def dot (xs ys : List Val) : Val × NumFlags :=
  let (ps, f) := zipAcc formAcc.mul xs ys
  let (v, g) := fixedTree formAcc.add 16 ps
  (v, f.or g)

/-- The group sum over keys or queries, g = 128. -/
def gsum128 (vs : List Val) : Val × NumFlags := gsum formAcc.add 128 vs

/-- exp of R173: the built-in table of slot 4. -/
def attnExp (x : Val) : Val × NumFlags := tblEval (builtinTable 4 false) x

/-- One score: scale × tree, or −∞ where the key is not visible. -/
def score (sc : Val) (q k : List Val) (vis : Bool) : Val × NumFlags :=
  if vis then accThen (dot q k) (fun v => formAcc.mul sc v) else (.inf true, {})

/-- The running values of one query row: m, l, o. -/
structure AttnRow where
  m : Val
  l : Val
  o : List Val
  n : Nat          -- keys of the tiles that ran
  fl : NumFlags

/-- One key tile of a query row: keys, values and visibility of its keys (R173). -/
def attnTile (sc : Val) (q : List Val) (a : AttnRow) (tile : List (List Val × List Val × Bool)) : AttnRow :=
  if tile.all (fun k => !k.2.2) then a
  else
    let (ss, f1) := gather (tile.map (fun k => score sc q k.1 k.2.2))
    let mt := ss.foldl Val.maxv a.m
    let minus := Val.inf true
    let (al, f2) := if a.m = minus then (.zero, {}) else if mt.same a.m then (.one, {}) else accThen (formAcc.sub a.m mt) attnExp
    let (ps, f3) := gather (ss.map (fun x => if x = minus then (.zero, {}) else accThen (formAcc.sub x mt) attnExp))
    let chain (old new : Val × NumFlags) : Val × NumFlags := let (v, f) := formAcc.add old.1 new.1; (v, (old.2.or new.2).or f)
    let (l, f4) := chain (formAcc.mul al a.l) (gsum128 ps)
    let (o, f5) := gather (a.o.zipIdx.map (fun p =>
      let (ws, g) := gather ((List.zip ps tile).map (fun t => formAcc.mul t.1 (t.2.2.1.getD p.2 .zero)))
      let (v, h) := chain (formAcc.mul al p.1) (gsum128 ws)
      (v, g.or h)))
    { m := mt, l := l, o := o, n := a.n + tile.length, fl := [f1, f2, f3, f4, f5].foldl NumFlags.or a.fl }

/-- A query row over its key tiles of 128 keys: out, m, l, keys run and flags (R173). -/
def attnRow (sc : Val) (d : Nat) (q : List Val) (keys : List (List Val × List Val × Bool)) : List Val × Val × Val × Nat × NumFlags :=
  let a := (chunksOf 128 keys.length keys).foldl (attnTile sc q)
    { m := .inf true, l := .zero, o := List.replicate d .zero, n := 0, fl := {} }
  if a.l.isZero then (List.replicate d .zero, .inf true, a.l, a.n, a.fl)
  else
    let (out, f) := gather (a.o.map (fun v => formAcc.div v a.l))
    (out, a.m, a.l, a.n, a.fl.or f)

/-- Tk and the pages of each batch that a paged command has pinned (R181). -/
def Cmd.pinned (c : Cmd) : List Nat × List (List Nat) := match c.work with | .att t p => (t, p) | _ => ([], [])

/-- The page that holds key `j` of batch `b` of a paged command. -/
def Cmd.pageOf (c : Cmd) (b j : Nat) : Nat := (c.pinned.2.getD b []).getD (j / 16) 0

/-- The key or value elements of key `j` of key-value head `h` in the pages (R177). -/
def State.pageElems (s : State) (c : Cmd) (p : Pool) (value : Bool) (h b j : Nat) : List Elem :=
  let f := (Fmt.ofCode p.fmt).getD .bf16
  let bytes := s.readMem (p.elemAt (c.pageOf b j) value h (j % 16) 0) (p.d * p.elem)
  (List.range p.d).map (fun i => f.decodeAt bytes p.d i .one)

/-- The key and value vectors of key `j` of key-value head `h`, batch `b`, from K and V or from the pages (R177). -/
def State.kvOf (s : State) (c : Cmd) (pool : Option Pool) (h b j : Nat) : List Val × List Val :=
  match pool with
  | some p => ((s.pageElems c p false h b j).map (·.val), (s.pageElems c p true h b j).map (·.val))
  | none => ((s.rowElems c (tdAt c.pkt 0x40) j h b).map (·.val), (s.rowElems c (tdAt c.pkt 0x70) j h b).map (·.val))

/-- Spans of memory that a paged command reads for its keys. -/
def Cmd.pageSpans (c : Cmd) (p : Pool) : List (Nat × Nat) := c.pinned.2.flatten.map (fun n => (p.base + n * p.pb, p.pb))

/-- Counts the elements of keys and values that a paged command reads from its pages (R191). -/
def State.countPages (s : State) (r : CmdRef) (c : Cmd) (p : Pool) : State :=
  c.pinned.1.zipIdx.foldl (fun (t : State) x => (List.range p.hkv).foldl (fun (t : State) h => (List.range x.1).foldl (fun (t : State) j =>
    t.modCmd r (fun y => y.countElems ((Fmt.ofCode p.fmt).getD .bf16)
      (s.pageElems c p false h x.2 j ++ s.pageElems c p true h x.2 j))) t) t) s

/-- ATTN_FWD on its operands (R173): keys and values from K and V, or from the pages of `pool`. -/
def State.attnRun (s : State) (r : CmdRef) (c : Cmd) (pool : Option Pool) : State :=
  let region := s.regionOf r.q
  let a := attnP c.pkt 0x100
  let q := tdAt c.pkt 0x10; let k := tdAt c.pkt 0x40; let v := tdAt c.pkt 0x70; let o := tdAt c.pkt 0xA0; let st := tdAt c.pkt 0xD0
  let hkv := match pool with | some p => p.hkv | none => k.e 2
  let src := s
  let s := s.countOperand r q
  let s := match pool with
    | some p => s.countPages r c p
    | none => (s.countOperand r k).countOperand r v
  let (s, fl, n) := q.rows.foldl (fun (x : State × NumFlags × Nat) ix =>
    let (i, h, b) := ix
    let tk := match pool with | some _ => c.pinned.1.getD b 0 | none => k.e 1
    let qs := (src.rowElems c q i h b).map (·.val)
    let keys := (List.range tk).map (fun j =>
      let (kk, vv) := src.kvOf c pool (h / (q.e 2 / hkv)) b j
      (kk, vv, src.visible a (q.e 1) b i j))
    let (out, m, l, n, f) := attnRow a.scale (q.e 0) qs keys
    let (u, g) := x.1.writeRow r c o i h b out
    let (u, g2) := u.writeRow r c { st with ovp := 2 } i h b [m, l]
    -- a row with no visible key sets no flag
    (u, if n = 0 then x.2.1 else x.2.1.or ((f.or g).or g2), x.2.2 + n)) (s, {}, 0)
  ((s.orFlags .ATT_NUMFLAGS region fl).account r (fun x => { x with attMacs := x.attMacs + 2 * q.e 0 * n })).finish r 0 0

/-- ATTN_FWD after its pin step: it reads its operands, and its unit's buffers may meet errors (R186). -/
def State.attnGo (s : State) (r : CmdRef) (ev : BufEvents) (c : Cmd) : State :=
  let region := s.regionOf r.q
  let q := tdAt c.pkt 0x10
  let pool := if (attnP c.pkt 0x100).paged then (s.vec region).pool else none
  let keys := match pool with
    | some p => c.pageSpans p
    | none => (tdAt c.pkt 0x40).spans ++ (tdAt c.pkt 0x70).spans
  s.readingThen r (q.spans ++ (attnP c.pkt 0x100).segSpans q ++ keys) (fun s =>
    s.withBuf r (unitAtt region) ev (State.attCorr region) (fun s => s.attnRun r c pool))

/-- ATTN_FWD (R173): a paged command that a poison hold held at its issue makes its pin step now (R269). -/
def execAttnFwd (r : CmdRef) (ev : BufEvents) (s : State) : Host.Outcome State Fault Refusal :=
  ok (s.runUnit r 0x4001 (fun c =>
    let t := if (attnP c.pkt 0x100).paged ∧ c.work = .none then
        s.attnPin (s.regionOf r.q) c (fun s => match s.cmd r with
          | some c => s.attnGo r ev c
          | none => s)
      else s.attnGo r ev c
    t.attnUnpin r))

/-- The chain of contributions of query heads in increasing head order (R174). -/
def chainHeads (xs : List (List Val)) : List Val × NumFlags :=
  match xs with
  | [] => ([], {})
  | x :: rest => rest.foldl (fun (a : List Val × NumFlags) y => let (v, f) := zipAcc formAcc.add a.1 y; (v, a.2.or f)) (x, {})

/-- Column `c` of Σ_j w_j · x_j, for every c: the group sums of R174. -/
def weighted (d : Nat) (ws : List Val) (xs : List (List Val)) : List Val × NumFlags :=
  gather ((List.range d).map (fun c =>
    let (ps, f) := gather ((List.zip ws xs).map (fun p => formAcc.mul p.1 (p.2.getD c .zero)))
    let (v, g) := gsum128 ps
    (v, f.or g)))

/-- A row of a tensor of an attention command as values. -/
def State.attnVals (s : State) (c : Cmd) (d : Td) (i h b : Nat) : List Val := (s.rowElems c d i h b).map (·.val)

/-- P and dS of query head `h` of batch `b` (R174): one list over the keys for each query. -/
def State.attnGrid (s : State) (c : Cmd) (h b : Nat) : List (List Val × List Val) × NumFlags :=
  let a := attnP c.pkt 0x1C0
  let q := tdAt c.pkt 0x10; let k := tdAt c.pkt 0x40; let v := tdAt c.pkt 0x70
  let tq := q.e 1; let tk := k.e 1; let grp := q.e 2 / k.e 2
  let ks := (List.range tk).map (fun j => s.attnVals c k j (h / grp) b)
  let vs := (List.range tk).map (fun j => s.attnVals c v j (h / grp) b)
  (List.range tq).foldl (fun (acc : List (List Val × List Val) × NumFlags) i =>
    let qi := s.attnVals c q i h b; let gi := s.attnVals c (tdAt c.pkt 0xD0) i h b
    let ml := s.attnVals c (tdAt c.pkt 0x100) i h b
    let (di, f1) := dot gi (s.attnVals c (tdAt c.pkt 0xA0) i h b)
    let (ps, f2) := gather ((List.zip ks (List.range tk)).map (fun kj =>
      if s.visible a tq b i kj.2 then
        accThen (accThen (accThen (score a.scale qi kj.1 true) (fun x => formAcc.sub x (ml.getD 0 .zero))) attnExp)
          (fun x => formAcc.div x (ml.getD 1 .zero))
      else (.zero, {})))
    let (ds, f3) := gather ((List.zip ps vs).map (fun pv =>
      accThen (accThen (dot gi pv.2) (fun x => formAcc.sub x di)) (fun x => formAcc.mul pv.1 x)))
    (acc.1 ++ [(ps, ds)], [f1, f2, f3].foldl NumFlags.or acc.2)) ([], {})

/-- A row scaled by SCALE, with its flags. -/
def scaledBy (sc : Val) (p : List Val × NumFlags) : List Val × NumFlags :=
  let (v, f) := mapAcc (fun x => formAcc.mul sc x) p.1
  (v, p.2.or f)

/-- The row of dQ of a query with the dS `ds`, under key-value head `kh` (R174). -/
def State.dqRow (s : State) (c : Cmd) (ds : List Val) (kh b : Nat) : List Val × NumFlags :=
  let k := tdAt c.pkt 0x40
  scaledBy (attnP c.pkt 0x1C0).scale (weighted ((tdAt c.pkt 0x10).e 0) ds ((List.range (k.e 1)).map (fun j => s.attnVals c k j kh b)))

/-- The row of dK (from Q and dS) or dV (from dO and P) of key `j` (R174): the contributions of the query heads of `grids`, in order. -/
def State.dkvRow (s : State) (c : Cmd) (grids : List (Nat × List (List Val × List Val) × NumFlags)) (value : Bool) (j b : Nat) : List Val × NumFlags :=
  let q := tdAt c.pkt 0x10
  let parts := grids.map (fun g =>
    let ws := g.2.1.map (fun p => (if value then p.1 else p.2).getD j .zero)
    let row := weighted (q.e 0) ws ((List.range (q.e 1)).map (fun i => s.attnVals c (if value then tdAt c.pkt 0xD0 else q) i g.1 b))
    if value then row else scaledBy (attnP c.pkt 0x1C0).scale row)
  let (v, f) := chainHeads (parts.map (·.1))
  (v, parts.foldl (fun (f : NumFlags) p => f.or p.2) f)

/-- The grids of the query heads of key-value head `kh`. -/
def State.attnGrids (s : State) (c : Cmd) (kh b : Nat) : List (Nat × List (List Val × List Val) × NumFlags) :=
  let grp := (tdAt c.pkt 0x10).e 2 / (tdAt c.pkt 0x40).e 2
  (List.range grp).map (fun m => (kh * grp + m, s.attnGrid c (kh * grp + m) b))

/-- ATTN_BWD (R174). -/
def execAttnBwd (r : CmdRef) (ev : BufEvents) (s : State) : Host.Outcome State Fault Refusal :=
  ok (s.runUnit r 0x4002 (fun c =>
    let region := s.regionOf r.q
    let q := tdAt c.pkt 0x10; let k := tdAt c.pkt 0x40; let v := tdAt c.pkt 0x70; let o := tdAt c.pkt 0xA0
    let dO := tdAt c.pkt 0xD0; let st := tdAt c.pkt 0x100
    let dq := tdAt c.pkt 0x130; let dk := tdAt c.pkt 0x160; let dv := tdAt c.pkt 0x190
    s.readingThen r (q.spans ++ k.spans ++ v.spans ++ o.spans ++ dO.spans ++ st.spans ++ (attnP c.pkt 0x1C0).segSpans q) (fun s =>
      s.withBuf r (unitAtt region) ev (State.attCorr region) (fun s =>
        let src := s
        let s := [q, k, v, o, dO, st].foldl (fun (t : State) x => t.countOperand r x) s
        let (s, fl) := (List.range (q.e 3)).foldl (fun (x : State × NumFlags) b =>
          (List.range (k.e 2)).foldl (fun (x : State × NumFlags) kh =>
            let grids := src.attnGrids c kh b
            let fg := grids.foldl (fun (f : NumFlags) g => f.or g.2.2) {}
            -- dQ of each query head
            let x := grids.foldl (fun (x : State × NumFlags) g =>
              g.2.1.zipIdx.foldl (fun (x : State × NumFlags) p =>
                let (row, f) := src.dqRow c p.1.2 kh b
                let (u, e) := x.1.writeRow r c dq p.2 g.1 b row
                (u, x.2.or (f.or e))) x) (x.1, x.2.or fg)
            -- dK and dV of the key-value head
            (List.range (k.e 1)).foldl (fun (x : State × NumFlags) j =>
              let (kr, f1) := src.dkvRow c grids false j b
              let (vr, f2) := src.dkvRow c grids true j b
              let (u, e1) := x.1.writeRow r c dk j kh b kr
              let (u, e2) := u.writeRow r c dv j kh b vr
              (u, [f1, f2, e1, e2].foldl NumFlags.or x.2)) x) x) (s, {})
        ((s.orFlags .ATT_NUMFLAGS region fl).account r
          (fun x => { x with attMacs := x.attMacs + 5 * q.e 0 * k.e 1 * q.e 2 * q.e 3 * q.e 1 })).finish r 0 0))))

end Sys2Proof.Machine
end

