-- ==== Sys2Proof/Machine/Update.lean ====
section
/-! DEFINITION. The training step: ACC_WRITE and the near-memory update units, weight regions and epochs, the step journal
(R71, R73, R200, R203 to R229). -/
namespace Sys2Proof.Machine

/-! ## The random bits of R200 -/

def mix64 (z : Nat) : Nat :=
  let m := 2 ^ 64
  let z := (z + 0x5B2DE81C93F46A07) % m
  let z := ((z ^^^ (z >>> 31)) * 0x8B5A93D127E46C4F) % m
  let z := ((z ^^^ (z >>> 29)) * 0xE3B14A9F5D07C2B3) % m
  z ^^^ (z >>> 32)

/-- The last value of mix in srbits. -/
def srWord (seed step tid idx : Nat) : Nat := mix64 (mix64 (mix64 (mix64 (seed ^^^ 0x2F6E1B9DC4A38571) ^^^ step) ^^^ tid) ^^^ idx)

/-- The 16 random bits of an element. -/
def srbits (seed step tid idx : Nat) : Nat := srWord seed step tid idx >>> 48

/-! ## Weight regions and epochs (R215 to R218) -/

/-- A weight region's entry: BASE_A, BASE_B and LENGTH, or the status and DETAIL of the command that reads it; `off` is the
packet's WREG field. -/
def State.weightEntry (s : State) (wreg off : Nat) : (Nat × Nat × Nat) ⊕ (Nat × Nat) :=
  let q := wreg >>> 14; let i := wreg % 0x4000
  let a := s.fld F.RC_WRT_BASE q <<< 6 + 64 * i
  if s.fld F.RC_WRT_COUNT q ≤ i then .inr (0x0104, a)
  else
    let e := s.readMem a 64
    let ba := le e 8 8; let bb := le e 0x10 8; let n := le e 0x18 8
    if le e 1 1 ≠ 1 ∨ le e 2 1 ≠ 1 ∨ le e 3 5 ≠ 0 ∨ le e 0x20 32 ≠ 0 ∨ n = 0 ∨ n % 64 ≠ 0 ∨ ba % 64 ≠ 0 ∨ bb % 64 ≠ 0
      ∨ 2 ^ 48 ≤ ba ∨ 2 ^ 48 ≤ bb then .inr (0x0103, off)
    else if (overlapAt ba n bb n).isSome ∨ (s.spanFault .ilv ba n).isSome ∨ (s.spanFault .ilv bb n).isSome then .inr (0x0104, ba)
    else .inl (ba, bb, n)

/-- The lowest address of a span outside the copy of `n` bytes at `base` (R506). -/
def outside (pa len base n : Nat) : Option Nat :=
  if pa < base ∨ base + n ≤ pa then some pa else if base + n < pa + len then some (base + n) else none

/-- Whether a command still holds its live references: from issue to completion, or until it is abandoned (R216). -/
def Cmd.holdsRefs (c : Cmd) : Bool :=
  match c.phase with
  | .decoded | .completed => false
  | .ended => decide (c.status ≠ 0x0700 ∧ c.status ≠ 0x0701)
  | _ => true

/-- Live references to an epoch of a weight region (R216). -/
def State.liveRefs (s : State) (wreg epoch : Nat) : Nat :=
  s.cmds.foldl (fun n c => if c.holdsRefs then n + (c.refs.filter (fun x => x = (wreg >>> 14, wreg % 0x4000, epoch))).length else n) 0

/-- The weight region and epoch that a command in progress writes or waits to write, and whether it waits. -/
def Cmd.targets (c : Cmd) : Option ((Nat × Nat) × Bool) :=
  if c.phase = .ended ∨ c.phase = .completed then none
  else match c.work with
  | .upd w => w.weight.map (fun x => (x, !w.waited))
  | .recon w => w.weight.map (fun x => (x, true))
  | _ => none

/-- Whether a slice that targets an epoch waits or applies (R218). -/
def State.writerOf (s : State) (wreg epoch : Nat) : Bool := s.cmds.any (fun c => match c.targets with | some (x, _) => decide (x = (wreg, epoch)) | none => false)

/-- Slices that wait for an epoch of a weight region (RC_WREF.WAITERS). -/
def State.waitersOf (s : State) (wreg : Nat) : Nat :=
  (s.cmds.filter (fun c => match c.targets with | some (x, w) => w && decide (x.1 = wreg) | none => false)).length

/-! ## The step journal (R219 to R221) -/

def State.jrnlOn (s : State) (st : Nat) : Bool := s.flag F.UPD_JRNL_EN st
def State.jAddr (s : State) (st i : Nat) : Nat := s.fld F.UPD_JRNL_BASE st <<< 20 + 512 * i
/-- The first line of an entry. -/
def State.jLine (s : State) (st i : Nat) : Nat := s.readMem (s.jAddr st i) 64
/-- STATE of an entry: 0 FREE, 1 PENDING, 2 APPLYING, 3 APPLIED, 4 DAMAGED. -/
def State.jState (s : State) (st i : Nat) : Nat := s.readMem (s.jAddr st i + 2) 1
def State.jStep (s : State) (st i : Nat) : Nat := s.readMem (s.jAddr st i + 8) 8
def State.jPacket (s : State) (st i : Nat) : Nat := s.readMem (s.jAddr st i + 0x40) 384
/-- The entries of a journal that are not FREE. -/
def State.jUsed (s : State) (st : Nat) : List Nat := if s.jrnlOn st then (List.range 2048).filter (fun i => s.jState st i ≠ 0) else []

/-- A journal line (R225) with counts over the entries that `p` accepts. -/
def State.jrnlLine (s : State) (st : Nat) (p : Nat → Bool) : Nat :=
  let used := s.jUsed st
  let low := (used.map (s.jStep st)).foldl min (2 ^ 64 - 1)
  let n (k : Nat) : Nat := (used.filter (fun i => p i && decide (s.jState st i = k))).length
  put 0 8 low + put 8 2 (n 1) + put 10 2 (n 2) + put 12 2 (n 3) + put 14 2 (n 4)

/-- The journal line of a stack before any entry has changed: no entry is in use. -/
def Power.emptyJLine : BitVec 128 := 0xFFFFFFFFFFFFFFFF#128

/-- The unit sends its journal line, covering every entry, to the always-on domain (R412). -/
def State.sendJLine (s : State) (st : Nat) : State :=
  { s with pwr := { s.pwr with jlines := Tab.set Power.emptyJLine s.pwr.jlines st (BitVec.ofNat 128 (s.jrnlLine st (fun _ => true))) } }

/-- Changes an entry's state: one write of its first line. -/
def State.setJState (s : State) (st i v : Nat) : State :=
  let l := s.jLine st i
  let l := setBits l 23 16 v
  let l := if v = 3 then setBits l (8 * 0x28 - 1) (8 * 0x20) (s.now (ringOf (st / 8))) else l
  (s.writeMem (s.jAddr st i) l 64).sendJLine st

/-- Marks an entry as a replay or as run by the region controller. -/
def State.jMark (s : State) (st i : Nat) (replay : Bool) : State :=
  let l := s.jLine st i
  let fl := le l 3 1 ||| b2n replay ||| (if s.fld F.UPD_CTL_MODE st = 1 then 2 else 0)
  let l := setBits l 31 24 fl
  let l := if replay then setBits l (8 * 0x11 - 1) (8 * 0x10) 0xFF else l
  s.writeMem (s.jAddr st i) l 64

/-- A new entry, PENDING. -/
def State.jNew (s : State) (st i : Nat) (c : Cmd) : State :=
  let hdr := put 1 1 1 + put 2 1 1 + put 4 4 (c.f 0x104 4) + put 8 8 (c.f 0x108 8) + put 0x10 1 c.ref.q + put 0x12 2 (c.f 0x100 2)
    + put 0x14 4 c.seqNo + put 0x18 8 (s.now (ringOf (st / 8)))
  (s.writeMem (s.jAddr st i) (hdr + put 0x40 384 c.pkt) 512).sendJLine st

/-- The gradients an entry retains: the lowest address of a span that overlaps the G span of an entry of its stack's journal that
is not FREE (R204). -/
def State.gradConflict (s : State) (pa n : Nat) : Option Nat :=
  match rangeOf s.localGib pa with
  | .apt st =>
    ((s.jUsed st).filterMap (fun i => let g := tdAt (s.jPacket st i) 0x10; overlapAt pa n g.base g.spanLen)).foldl
      (fun (a : Option Nat) x => match a with | none => some x | some y => some (min x y)) none
  | _ => none

/-! ## ACC_WRITE and GRAD_CLEAR (R71, R73, R204, R205) -/

def checksAccWrite (s : State) (c : Cmd) : Checks :=
  let a := tdAt c.pkt 0x10; let d := tdAt c.pkt 0x40
  Checks.all [lenIs c 3, unlisted c [(0x10, 0x62), (0x80, 0x14)], moverChecks s c .apts (fun f => f = .fp32) (fun f => f = .fp32) none,
    if permOk (c.f 0x70 1) then extMatch d (permExt (c.f 0x70 1) a.ext) else {}]

/-- ACC_WRITE: its lines go to the update units of their stacks; it ends when all are added (R71, R73). Its source elements are
decoded and count in the census (R111, R191). -/
def execAccWrite (r : CmdRef) (s : State) : Host.Outcome State Fault Refusal :=
  ok (s.runUnit r 0x1006 (fun c =>
    let a := tdAt c.pkt 0x10; let d := tdAt c.pkt 0x40
    match s.gradConflict d.base d.spanLen with
    | some x => s.finish r 0x0104 x
    | none => s.readingThen r a.spans (fun s =>
      s.withHints c (some a) d (fun s =>
        let src := s
        let elems := d.rows.flatMap (fun q => (List.range (d.e 0)).map (fun i0 =>
          let e := underPerm (c.f 0x70 1) [i0, q.1, q.2.1, q.2.2]
          (d.rowAddr q.1 q.2.1 q.2.2 + 4 * i0, d.lin i0 q.1 q.2.1 q.2.2, (src.elemOf c a (e.getD 0 0) (e.getD 1 0) (e.getD 2 0) (e.getD 3 0)).val)))
        let s := a.rows.foldl (fun (t : State) q => t.modCmd r (fun x => x.countElems a.fmt (src.rowElems c a q.1 q.2.1 q.2.2))) s
        let (s, n) := s.pushLines r (c.f 0x88 8) (c.f 0x80 8) (c.f 0x90 4) d.ovp elems
        let s := (s.account r (fun x => { x with accElems := x.accElems + d.count })).prof (unitMover (s.regionOf r.q)) 2 a.lines
        (s.prof (unitMover (s.regionOf r.q)) 3 d.lines).modCmd r (fun x => { x with phase := .running, work := .acc n })))))

/-- One stochastic add into an FP32 element under an overflow policy (R73, R103 to R105). -/
def accAdd (old : Nat) (v : Val) (rb : Nat) (ovp : Nat := 0) : Nat × NumFlags :=
  let (x, nv) := (fp32Val old).add v
  let c := (Target.float fFp32).convert x ovp (some rb)
  (c.raw, c.fl.or (nvFlag nv))

/-- A line of a command has been added: an ACC_WRITE ends with its last line, and an engine command is looked at again. -/
def State.lineAdded (s : State) (r : CmdRef) : State :=
  let s := s.modCmd r (fun c => match c.work with
    | .acc n => { c with work := .acc (n - 1), wrote := true }
    | .mat w => { c with work := .mat { w with lines := w.lines - 1 }, wrote := true }
    | _ => c)
  match s.cmd r with
  | some c => match c.work with
    | .acc 0 => s.finish r 0 0
    | .mat _ => s.settleMat r
    | _ => s
  | none => s

/-- ACC_WRITE_LINE: an update unit adds the next line that reached it (R73). A poisoned destination line keeps its bytes (R239). -/
def execAccWriteLine (stack : Fin 32) (s : State) : Host.Outcome State Fault Refusal :=
  let st := stack.val
  match (s.upd st).adds with
  | [] => ok s
  | l :: rest =>
    if s.frozen ∨ ¬ s.running ∨ s.fld F.UPD_CTL_MODE st = 2 then ok s
    else if 3 ≤ s.fld F.STK_THERM_GRADE st then ok (s.noteCmd l.cmd 0x0600)
    else
      let s := s.setUpd st { s.upd st with adds := rest }
      let pa := match l.elems with | x :: _ => x.1 | [] => 0
      let s := (s.scrubFirst (lineOf pa)).readBursts [(pa, 1)]
      let s := if s.badLine (lineOf pa) then s.mergeNote (lineOf pa)
        else
          let (s, fl) := l.elems.foldl (fun (t : State × NumFlags) x =>
            let (b, f) := accAdd (t.1.readMem x.1 4) x.2.2 (srbits l.seed l.step l.tid x.2.1) l.ovp
            (t.1.putMem x.1 b 4, t.2.or f)) (s, {})
          s.orFlags .UPD_NUMFLAGS st fl
      ok ((s.prof (unitUpd st) 3 l.elems.length).lineAdded l.cmd).settleQuars

def checksGradClear (s : State) (c : Cmd) : Checks :=
  let g := tdAt c.pkt 0x10
  Checks.all [lenIs c 2, unlisted c [(0x10, 0x30)], tdChecks c.pkt false (fun f => f = .fp32) g, failLen (g.rank ≠ 1) 0x18,
    s.tdRange (.aptsOf (s.regionOf c.ref.q)) g]

/-- GRAD_CLEAR (R205). -/
def execGradClear (r : CmdRef) (s : State) : Host.Outcome State Fault Refusal :=
  ok (s.runUnit r 0x5004 (fun c =>
    let g := tdAt c.pkt 0x10
    match s.gradConflict g.base g.spanLen with
    | some x => s.finish r 0x0104 x
    | none => ((s.writeMem g.base 0 (4 * g.e 0)).wrote r).finish r 0 0))

/-! ## Update slices (R207 to R214) -/

/-- Formats of a moment and of a working copy (R209). -/
def fmtMoment (f : Fmt) : Bool := decide (f.code ≤ 1)
def fmtCopy (f : Fmt) : Bool := match f with | .bf16 | .e4m3 | .vb4 | .vt2 => true | _ => false

/-- The operands of a slice: G, W, M1, and M2 of UPD_ADAMW. -/
def updOps (op pkt : Nat) : List Td := ([0x10, 0x40, 0x70] ++ if op = 0x5001 then [0xA0] else []).map (tdAt pkt)

/-- The epoch that a slice writes (R217). -/
def updEpoch (pkt : Nat) : Nat := (le pkt 0x108 8 + 1) % 2
def updTrust (pkt : Nat) : Bool := bit (le pkt 0x102 2) 0
def updWc (pkt : Nat) : Bool := bit (le pkt 0x102 2) 1

def checksUpd (s : State) (c : Cmd) : Checks :=
  let p := c.pkt
  let op := c.opcode
  let adam := op = 0x5001
  let ops := updOps op p
  let g := tdAt p 0x10
  let wc := tdAt p 0xD0
  let n := g.e 0
  let region := s.regionOf c.ref.q
  let used := [(0x10, 0x90), (0x100, 0x1C), (0x120, 0x10), (0x138, 8)] ++ (if adam then [(0xA0, 0x30), (0x134, 4), (0x140, 8)] else [])
    ++ (if adam ∨ op = 0x5003 then [(0x130, 4)] else []) ++ (if updWc p then [(0xD0, 0x30)] else [])
    ++ (if updTrust p then [(0x11C, 2), (0x148, 8)] else [])
  let view : View := match rangeOf s.localGib g.base with
    | .apt st => if st / 8 = region then .apt st else .aptsOf region
    | _ => .aptsOf region
  Checks.all [lenIs c 6, unlisted c used, bitsZero p 0x102 15 2,
    tdChecks p true (fun f => f = .fp32) g, tdChecks p false (fun f => f = .fp32) (tdAt p 0x40), tdChecks p false fmtMoment (tdAt p 0x70),
    (if adam then tdChecks p false fmtMoment (tdAt p 0xA0) else {}),
    Checks.all (ops.map (fun d => Checks.all [failLen (d.rank ≠ 1) (d.off + 8), failLen (d.e 0 ≠ n) (d.off + 0xC), s.tdRange view d])),
    failLim (2 ^ 26 < n) 0x1C,
    failAdrO ((ops.flatMap (fun a => ops.filterMap (fun b => if a.off < b.off then a.overlap b else none))).foldl
      (fun (m : Option Nat) x => match m with | none => some x | some y => some (min x y)) none) 0x40,
    if updWc p then Checks.all [tdChecks p false fmtCopy wc, s.tdRange .mover wc, failAdr (c.f 0x100 2 = 0xFFFF ∨ wc.e 0 ≠ n ∨ wc.count ≠ n) 0xD0 0]
    else {}]

/-- TR_LAYER must be a layer of the update statistics table as the command finds it at issue (R187, R209). -/
def State.updIssueChecks (s : State) (c : Cmd) : Checks := failLen (updTrust c.pkt ∧ s.ntelNow.layers ≤ c.f 0x11C 2) 0x11C

/-- Arithmetic of R210 on values with their flags. -/
def f32add (x y : Val × NumFlags) : Val × NumFlags := let (v, f) := formFp32.add x.1 y.1; (v, (x.2.or y.2).or f)
def f32sub (x y : Val × NumFlags) : Val × NumFlags := let (v, f) := formFp32.sub x.1 y.1; (v, (x.2.or y.2).or f)
def f32mul (x y : Val × NumFlags) : Val × NumFlags := let (v, f) := formFp32.mul x.1 y.1; (v, (x.2.or y.2).or f)
def f32div (x y : Val × NumFlags) : Val × NumFlags := let (v, f) := formFp32.div x.1 y.1; (v, (x.2.or y.2).or f)
def f32sqrt (x : Val × NumFlags) : Val × NumFlags := let (v, f) := formFp32.sqrt x.1; (v, x.2.or f)

/-- A number just above or at √(x / y) of two positive finite values, close enough that one rounding of it is the rounding of the
root (R201, R212). -/
def sqrtRatio (x y : Val) : Val :=
  match x, y with
  | .fin _ m e, .fin _ n f =>
    let k := e - f
    let (m, k) := if k % 2 = 0 then (m, k) else (2 * m, k - 1)
    let q := (m <<< 400) / n
    let root := isqrtUp q ((m <<< 400) % n ≠ 0)
    .fin false root (k / 2 - 201)
  | _, _ => .nan
where
  /-- 2 · ⌊√q⌋, plus one where the root of the exact value is above it. -/
  isqrtUp (q : Nat) (more : Bool) : Nat := let r := Val.isqrt q; 2 * r + b2n (more || decide (r * r ≠ q))

def Val.positive (x : Val) : Bool := x.isFin && !x.isZero && !x.neg?

/-- The trust ratio τ (R212). -/
def trustRatio (sumW g2 top : Val) : Val × NumFlags :=
  if sumW.positive && g2.positive then
    let (t, f) := formFp32.round (sqrtRatio sumW g2)
    (if top.lt t then top else t, f)
  else (.one, {})

/-- The parameters of a slice as its packet gives them. -/
structure UpdP where
  op  : Nat
  lr  : Val × NumFlags
  b1  : Val × NumFlags
  b2  : Val × NumFlags
  om1 : Val × NumFlags
  om2 : Val × NumFlags
  eps : Val × NumFlags
  wd  : Val × NumFlags
  gs  : Val × NumFlags
  bc1 : Val × NumFlags
  bc2 : Val × NumFlags

def updP (op pkt : Nat) (lr : Val) : UpdP :=
  let v (o : Nat) : Val × NumFlags := (fp32Val (le pkt o 4), {})
  let om (x : Val × NumFlags) : Val × NumFlags := if op = 0x5002 then (.zero, {}) else f32sub (.one, {}) x
  { op := op, lr := (lr, {}), b1 := v 0x12C, b2 := v 0x130, om1 := ((om (v 0x12C)).1, {}), om2 := ((om (v 0x130)).1, {}), eps := v 0x134,
    wd := v 0x138, gs := v 0x13C, bc1 := v 0x140, bc2 := v 0x144 }

/-- sign(c) of R210. -/
def signOf : Val → Val
  | .nan => .nan
  | x => if x.isZero then x else Val.one.withSign x.neg?

/-- One element (R210): w, m1 and m2 after the update. -/
def updElem (p : UpdP) (g w m1 m2 : Val) : (Val × Val × Val) × NumFlags :=
  let z (x : Val) : Val × NumFlags := (x, {})
  let g := f32mul p.gs (z g)
  let (m1', m2', u) :=
    if p.op = 0x5001 then
      let a := f32add (f32mul p.b1 (z m1)) (f32mul p.om1 g)
      let b := f32add (f32mul p.b2 (z m2)) (f32mul p.om2 (f32mul g g))
      (a, b, f32div (f32mul a p.bc1) (f32add (f32sqrt (f32mul b p.bc2)) p.eps))
    else if p.op = 0x5002 then
      let a := f32add (f32mul p.b1 (z m1)) g
      (a, z m2, a)
    else
      let c := f32add (f32mul p.b1 (z m1)) (f32mul p.om1 g)
      (f32add (f32mul p.b2 (z m1)) (f32mul p.om2 g), z m2, (signOf c.1, c.2))
  let w' := f32sub (z w) (f32mul p.lr (f32add u (f32mul p.wd (z w))))
  ((w'.1, m1'.1, m2'.1), (w'.2.or m1'.2).or m2'.2)

/-- The values of an operand of one dimension, from its bytes. -/
def Td.elemsOf (d : Td) (img : Nat) : List Elem := (List.range (d.e 0)).map (fun i => d.fmt.decodeAt img (d.e 0) i .one)

/-- A moment written back: FP32 as it is, BF16 by stochastic rounding (R211); `k` is 0 for M1, 1 for M2. -/
def State.putMoment (s : State) (pkt : Nat) (d : Td) (k : Nat) (vs : List Val) : State × NumFlags × Counts :=
  if d.fmt = .fp32 then (s.writeMem d.base (packFields 32 (vs.map fp32Bits)) (4 * vs.length), {}, {})
  else
    let cs := vs.zipIdx.map (fun p => (Target.float fBf16).convert p.1 d.ovp
      (some (srbits (le pkt 0x110 8) (le pkt 0x108 8) (le pkt 0x118 4) ((2 * (le pkt 0x120 8 + p.2) + k) % 2 ^ 64))))
    (s.writeMem d.base (packFields 16 (cs.map (·.raw))) (2 * vs.length), cs.foldl (fun (f : NumFlags) c => f.or c.fl) {},
      cs.foldl (fun (n : Counts) c => n.bump c.cls) {})

/-- The working copy from the master values (R213). -/
def State.putCopy (s : State) (c : Cmd) (vs : List Val) : State × NumFlags × Counts :=
  if updWc c.pkt then s.writePart c (tdAt c.pkt 0xD0) 0 0 0 0 vs else (s, {}, {})

/-- A value added into a W64 word of memory (R201). -/
def State.addW64 (s : State) (pa : Nat) (v : Val) : State × NumFlags :=
  let (x, f) := formW64.add (w64Decode (s.readMem pa 8)) v
  (s.writeMem pa (w64Encode x) 8, f)

/-- The statistics of an update command added into PARTIAL of its layer (R201, stage 1), but for a row of an unsupported major version
(R28). -/
def State.addPartial (s : State) (n : Ntel) (layer st : Nat) (dw w : Val × NumFlags) : State × NumFlags :=
  if n.layers ≤ layer ∨ s.readMem (n.uwRow layer + 0x201) 1 ≠ 1 then (s, dw.2.or w.2)
  else
    let a := n.uwRow layer + 16 * st
    let (s, f) := s.addW64 a dw.1
    let (s, g) := s.addW64 (a + 8) w.1
    (s, ((dw.2.or f).or w.2).or g)

/-- A slice carried out on stack `st` from the bytes of its operands: its writes, its statistics and its flags; answers the
census counts. `c` gives the packet. -/
def State.slice (s : State) (c : Cmd) (st : Nat) (srcs : List Nat) (sumW : Nat) : State × Tab Counts :=
  let pkt := c.pkt
  let op := c.opcode
  let ops := updOps op pkt
  let w := tdAt pkt 0x40; let m1 := tdAt pkt 0x70; let m2 := tdAt pkt 0xA0
  let es := (List.zip ops srcs).map (fun p => p.1.elemsOf p.2)
  let v (k i : Nat) : Val := (((es.getD k []).map (·.val)).getD i .zero)
  let n := w.e 0
  let lr0 := fp32Val (le pkt 0x128 4)
  let (lr, fl0) := if updTrust pkt then
      let (t, f) := trustRatio (w64Decode sumW) (fp32Val (le pkt 0x148 4)) (fp32Val (le pkt 0x14C 4))
      let (x, h) := formFp32.mul lr0 t
      (x, f.or h)
    else (lr0, {})
  let p := updP op pkt lr
  let flc := if op = 0x5002 then ({} : NumFlags)
    else (f32sub (.one, {}) p.b1).2.or (f32sub (.one, {}) p.b2).2
  let rs := (List.range n).map (fun i => updElem p (v 0 i) (v 1 i) (v 2 i) (v 3 i))
  let flr := rs.foldl (fun (f : NumFlags) x => f.or x.2) (fl0.or flc)
  let ws := rs.map (·.1.1)
  let s := s.writeMem w.base (packFields 32 (ws.map fp32Bits)) (4 * n)
  let (s, f1, c1) := s.putMoment pkt m1 0 (rs.map (·.1.2.1))
  let (s, f2, c2) := if op = 0x5001 then s.putMoment pkt m2 1 (rs.map (·.1.2.2)) else (s, {}, {})
  let (s, f3, c3) := s.putCopy c ws
  let sq (x : Val × NumFlags) : Val × NumFlags := let (y, f) := formW64.mul x.1 x.1; (y, x.2.or f)
  let total (xs : List (Val × NumFlags)) : Val × NumFlags :=
    let (y, f) := gsum formW64.add 512 (xs.map (·.1)); (y, xs.foldl (fun (a : NumFlags) q => a.or q.2) f)
  let dw := total (ws.zipIdx.map (fun q => sq (formW64.sub q.1 (v 1 q.2))))
  let ww := total (ws.map (fun x => sq (x, {})))
  let (s, f4) := s.addPartial c.ntel c.layer st dw ww
  let s := s.orFlags .UPD_NUMFLAGS st ((((flr.or f1).or f2).or f3).or f4)
  let s := s.prof (unitUpd st) 2 n
  let counted := (List.zip ops es).foldl (fun (x : Cmd) q => x.countElems q.1.fmt q.2) { c with counts := [] }
  let counted := ((counted.addCounts 17 c1).addCounts 17 c2).addCounts (16 + (tdAt pkt 0xD0).fmt.code) c3
  (s, counted.counts)

/-- The bytes of a slice's operands, and SUM_W where TRUST is set: 0, for which τ is 1.0, in a row of an unsupported major version (R28,
log 58). -/
def State.sliceInputs (s : State) (c : Cmd) : List Nat × Nat :=
  ((updOps c.opcode c.pkt).map (fun d => s.readMem d.base d.rowLen),
   let row := s.ntelNow.uwRow (c.f 0x11C 2)
   if updTrust c.pkt ∧ s.rowOk row 0x200 then s.readMem (row + 0x218) 8 else 0)

/-- The stack whose aperture holds a slice's operands. -/
def State.sliceStack (s : State) (pkt : Nat) : Nat := match rangeOf s.localGib (tdAt pkt 0x10).base with | .apt st => st | _ => 0

/-- The weight region check of a slice: BASE_A, or status and DETAIL (R209, R215). -/
def State.sliceRegion (s : State) (pkt : Nat) : Nat ⊕ (Nat × Nat) :=
  let wreg := le pkt 0x100 2
  if wreg = 0xFFFF then .inl 0
  else match s.weightEntry wreg 0x0100 with
    | .inr x => .inr x
    | .inl (ba, bb, n) =>
      if updWc pkt then
        let wc := tdAt pkt 0xD0
        match outside wc.base wc.spanLen (if updEpoch pkt = 0 then ba else bb) n with
        | some a => .inr (0x0104, a)
        | none => .inl ba
      else .inl ba

/-- What `sliceRegion` finds of an update command before its issue step. -/
def State.regionFault (s : State) (c : Cmd) : Option (Nat × Nat) :=
  if c.opcode = 0x5001 ∨ c.opcode = 0x5002 ∨ c.opcode = 0x5003 then
    match s.sliceRegion c.pkt with
    | .inr x => some x
    | .inl _ => none
  else none

/-- The issue step of an update command (R209, R215, R217, R221): it ends, waits for its epoch, or goes to its unit. -/
def State.updIssue (s : State) (c : Cmd) : State :=
  let r := c.ref
  let st := s.sliceStack c.pkt
  match s.sliceRegion c.pkt with
  | .inr (x, d) => s.finish r x d
  | .inl baseA =>
    if ¬ s.jrnlOn st then s.finish r 0x0104 0
    else match (s.jUsed st).find? (fun i => s.jStep st i = c.f 0x108 8 ∧ s.readMem (s.jAddr st i + 4) 4 = c.f 0x104 4) with
    | some i =>
      let p := s.jPacket st i
      if s.jState st i = 3 ∧ le p 2 6 = le c.pkt 2 6 ∧ le p 0x10 0x168 = le c.pkt 0x10 0x168 then s.finish r 0 0
      else s.finish r 0x0104 (s.jAddr st i)
    | none =>
      match lowest 2048 (fun i => decide (s.jState st i = 0)) with
      | none => s.finish r 0x0402 0x0104
      | some i =>
        let wreg := c.f 0x100 2
        let weight := if updWc c.pkt then some (wreg, updEpoch c.pkt) else none
        let live : Bool := updWc c.pkt && decide (s.liveRefs wreg (updEpoch c.pkt) ≠ 0)
        if live ∧ c.nowait then s.finish r 0x0400 baseA
        else
          let (srcs, sumW) := s.sliceInputs c
          let s := s.jNew st i c
          let s := s.modCmd r (fun x => { x with phase := if live then .waiting else .issued,
                                                 work := .upd { stack := st, entry := i, weight := weight, waited := !live, since := s.time, srcs := srcs, sumW := sumW } })
          if live then s else s.setUpd st { s.upd st with slices := (s.upd st).slices ++ [r] }

/-- A slice leaves its unit. -/
def State.sliceDone (s : State) (st : Nat) (r : CmdRef) : State :=
  (s.setUpd st { s.upd st with slices := (s.upd st).slices.filter (· ≠ r) }).settleQuars

/-- A slice of command `r` whose unit's buffers return a second uncorrectable word: the entry is DAMAGED, and the unit is bypassed (R220,
R228, R481). -/
def State.sliceDamaged (s : State) (st entry : Nat) (r : CmdRef) (seq : Nat) : State :=
  let u := unitUpd st
  let s := s.report { code := 0x0104, cls := 2, level := 1, unit := u, seq := seq, queue := r.q, action := 5, status := 0x0302, detail := 0xFF }
  let s := s.report { code := 0x0401, cls := 2, level := 1, unit := u, action := 3, detail := st }
  (s.setFld F.UPD_CTL_MODE st 1).setJState st entry 4

/-- UPD_ADAMW, UPD_SGDM and UPD_SIGNM: the slice at the front of its unit is carried out (R207 to R214, R220): APPLYING from its first
write to its last. -/
def runUpd (r : CmdRef) (op : Nat) (ev : BufEvents) (s : State) : State :=
  s.runUnit r op (fun c =>
    match c.work with
    | .upd w =>
      let st := w.stack
      if (s.upd st).slices.head? ≠ some r ∨ ¬ w.waited ∨ s.fld F.UPD_CTL_MODE st = 2 then s
      else
        let spans := (updOps op c.pkt).flatMap (·.spans)
        let s := s.demand spans
        match s.firstBad spans with
        | some pa => ((s.setJState st w.entry 0).sliceDone st r).poisoned r pa
        | none =>
          let s := s.jMark st w.entry false
          let s := s.setJState st w.entry 2
          if 2 ≤ ev.uncorrectable then
            (((s.sliceDamaged st w.entry r c.seqNo).sliceDone st r).wrote r).finish r 0x0302 (unitUpd st)
          else
            let (s, counts) := s.slice c st w.srcs w.sumW
            let s := s.setJState st w.entry 3
            let s := if ev.uncorrectable = 1 then s.noteCmd r 0x0302 else s
            let s := s.modCmd r (fun x => { x with counts := counts, wrote := true, acct := { x.acct with updParams := x.acct.updParams + (tdAt c.pkt 0x10).e 0 } })
            (s.sliceDone st r).finish r 0 0
    | _ => s)

/-- UPD_ADAMW (R210). -/
def execUpdAdamw (r : CmdRef) (ev : BufEvents) (s : State) : Host.Outcome State Fault Refusal := ok (runUpd r 0x5001 ev s)
/-- UPD_SGDM (R210). -/
def execUpdSgdm (r : CmdRef) (ev : BufEvents) (s : State) : Host.Outcome State Fault Refusal := ok (runUpd r 0x5002 ev s)
/-- UPD_SIGNM (R210). -/
def execUpdSignm (r : CmdRef) (ev : BufEvents) (s : State) : Host.Outcome State Fault Refusal := ok (runUpd r 0x5003 ev s)

/-! ## COMMIT_STEP and STEP_RECONCILE (R223 to R225) -/

def checksCommitStep (c : Cmd) : Checks := Checks.all [lenIs c 1, unlisted c [(0x10, 12)], failLen (c.f 0x18 4 = 0) 0x18]

/-- The stacks that a mask names. -/
def stacksOf (mask : Nat) : List Nat := (List.range 32).filter (fun st => mask.testBit st)

/-- COMMIT_STEP (R223). -/
def execCommitStep (r : CmdRef) (s : State) : Host.Outcome State Fault Refusal :=
  ok (s.runUnit r 0x5005 (fun c =>
    let step := c.f 0x10 8
    let es := (stacksOf (c.f 0x18 4)).flatMap (fun st => ((s.jUsed st).filter (fun i => s.jStep st i ≤ step)).map (fun i => (st, i)))
    match es.find? (fun p => s.jState p.1 p.2 ≠ 3) with
    | some p => s.finish r 0x0104 (s.jAddr p.1 p.2)
    | none =>
      let t := es.foldl (fun (t : State) p => t.setJState p.1 p.2 0) s
      ({ t with pwr := { t.pwr with commit := some step } }.wrote r).finish r 0 0))

def checksStepReconcile (s : State) (c : Cmd) : Checks :=
  Checks.all [lenIs c 1, unlisted c [(0x10, 13), (0x20, 8)], failRsv (2 < c.f 0x1C 1) 0x1C, addrRsv c.pkt 0x20,
    if c.fb 0x20 47 0 = 0 then {} else s.addrCheck .ilv c 0x20 64 576]

/-- A journal entry as a command of its own: the packet it holds. -/
def State.jCmd (s : State) (who : Cmd) (st i : Nat) : Cmd := { ref := who.ref, pkt := s.jPacket st i, len := 6, ntel := who.ntel }

/-- What acting on one entry comes to: done, its failure, or a wait for a weight region's epoch. -/
inductive ReconStep where
  | done (s : State) (params : Nat)
  | fail (s : State) (status detail : Nat)
  | wait (weight : Nat × Nat) (baseA : Nat)

/-- Replays a PENDING entry (MODE 1) or restores a DAMAGED one (MODE 2); `ev` are the words that the unit's buffers return meanwhile. -/
def State.reconEntry (s : State) (who : Cmd) (mode st i : Nat) (ev : BufEvents) : ReconStep :=
  let c := s.jCmd who st i
  if mode = 1 then
    match (s.updIssueChecks c).first.elim (s.sliceRegion c.pkt) Sum.inr with
    | .inr (x, d) => .fail (s.setJState st i 0) x d
    | .inl baseA =>
      let e := updEpoch c.pkt
      if updWc c.pkt ∧ s.liveRefs (c.f 0x100 2) e ≠ 0 then .wait (c.f 0x100 2, e) baseA
      else
        let spans := (updOps c.opcode c.pkt).flatMap (·.spans)
        let s := s.demand spans
        match s.firstBad spans with
        | some pa => .fail (s.setJState st i 0) 0x0300 pa
        | none =>
          let (srcs, sumW) := s.sliceInputs c
          let s := (s.jMark st i true).setJState st i 2
          if 2 ≤ ev.uncorrectable then .fail ((s.sliceDamaged st i who.ref who.seqNo).wrote who.ref) 0x0302 (unitUpd st)
          else
            let s := if ev.uncorrectable = 1 then s.noteCmd who.ref 0x0302 else s
            let (s, counts) := s.slice c st srcs sumW
            .done ((s.setJState st i 3).addCensus { c with counts := counts }) ((tdAt c.pkt 0x10).e 0)
  else
    let w := tdAt c.pkt 0x40
    let s := s.demand w.spans
    match s.firstBad w.spans with
    | some pa => .fail s 0x0300 pa
    | none =>
      let (s, fl, cn) := s.putCopy c ((w.elemsOf (s.readMem w.base w.rowLen)).map (·.val))
      let s := s.orFlags .UPD_NUMFLAGS st fl
      let s := if updWc c.pkt then s.addCensus (c.addCounts (16 + (tdAt c.pkt 0xD0).fmt.code) cn) else s
      .done (s.setJState st i 3) 0

/-- The reconcile record (R225). -/
def State.reconRecord (s : State) (c : Cmd) (acted : Nat) : State :=
  let a := c.fb 0x20 47 0
  if a = 0 then s
  else
    let step := c.f 0x10 8
    let lines := (stacksOf (c.f 0x18 4)).foldl (fun n st => n + put (0x40 + 16 * st) 16 (s.jrnlLine st (fun i => s.jStep st i = step))) 0
    s.writeMem a (put 1 1 1 + put 2 1 (c.f 0x1C 1) + put 8 8 step + put 0x10 8 (s.now 4) + put 0x18 4 acted + lines) 576

/-- Ends a STEP_RECONCILE: the record, then the status. Under EPOCH_BUSY only a replay makes the end PARTIAL (R224). -/
def State.reconEnd (s : State) (c : Cmd) (w : ReconWork) (status detail : Nat) : State :=
  let s := s.reconRecord c w.acted
  let s := if w.acted ≠ 0 ∨ (c.fb 0x20 47 0 ≠ 0 ∧ status ≠ 0x0400) then s.wrote c.ref else s
  s.finish c.ref status detail

/-- Acts on the entries in order until one waits; `evs` are the buffer events of their runs, in order. -/
def State.recon (s : State) (c : Cmd) (acted : Nat) (fail : Option (Nat × Nat)) (evs : List BufEvents) : List (Nat × Nat) → State
  | [] =>
    let (x, d) := fail.getD (0, 0)
    s.reconEnd c { todo := [], acted := acted } x d
  | p :: rest =>
    match s.reconEntry c (c.f 0x1C 1) p.1 p.2 (evs.headD {}) with
    | .done t n => State.recon (t.account c.ref (fun a => { a with updParams := a.updParams + n })) c (acted + 1) fail (evs.drop 1) rest
    | .fail t x d => State.recon t c acted (some (fail.getD (x, d))) (evs.drop 1) rest
    | .wait wt baseA =>
      if c.nowait then s.reconEnd c { todo := [], acted := acted } (match fail with | some f => f.1 | none => 0x0400) (match fail with | some f => f.2 | none => baseA)
      else s.modCmd c.ref (fun x => { x with phase := .waiting, work := .recon { todo := p :: rest, acted := acted, fail := fail, weight := some wt } })

/-- The entries that a STEP_RECONCILE acts on: stacks in order; MODE 1 by increasing SLICE, entries whose command is in progress
left out; MODE 2 in entry order. -/
def State.reconTodo (s : State) (c : Cmd) : List (Nat × Nat) :=
  let mode := c.f 0x1C 1
  let step := c.f 0x10 8
  let busy (st i : Nat) : Bool := s.cmds.any (fun x => decide (x.phase ≠ .ended ∧ x.phase ≠ .completed) &&
    match x.work with | .upd w => decide (w.stack = st ∧ w.entry = i) | _ => false)
  if mode = 0 then []
  else (stacksOf (c.f 0x18 4)).flatMap (fun st =>
    let es := (s.jUsed st).filter (fun i => s.jStep st i = step ∧ s.jState st i = (if mode = 1 then 1 else 4) ∧ (mode = 2 ∨ ¬ busy st i))
    let es := if mode = 1 then sortBy (fun i => s.readMem (s.jAddr st i + 4) 4) es else es
    es.map (fun i => (st, i)))

/-- STEP_RECONCILE (R224, R225). -/
def execStepReconcile (r : CmdRef) (s : State) (evs : List BufEvents := []) : Host.Outcome State Fault Refusal :=
  ok (s.runUnit r 0x5006 (fun c => s.recon c 0 none evs (s.reconTodo c)))

/-- EPOCH_WAIT_END: a slice or a reconcile that waits for an epoch goes on once its live count is 0 (R217, R224). -/
def execEpochWaitEnd (r : CmdRef) (s : State) (evs : List BufEvents := []) : Host.Outcome State Fault Refusal :=
  match s.cmd r with
  | none => ok s
  | some c =>
    if c.phase ≠ .waiting ∨ ¬ s.running ∨ s.frozen ∨ s.heldAtCut r.q then ok s
    else match c.work with
    | .upd w =>
      match w.weight with
      | some (wreg, e) =>
        if s.liveRefs wreg e ≠ 0 then ok s
        else
          let s := s.prof (unitUpd w.stack) 4 (s.time - w.since)
          let s := s.modCmd r (fun x => { x with phase := .issued, work := .upd { w with waited := true } })
          ok (s.setUpd w.stack { s.upd w.stack with slices := (s.upd w.stack).slices ++ [r] })
      | none => ok s
    | .recon w =>
      match w.weight with
      | some (wreg, e) => if s.liveRefs wreg e ≠ 0 then ok s else ok (s.recon c w.acted w.fail evs w.todo)
      | none => ok s
    | _ => ok s

/-! ## UPD_JRNL (R219, R229) -/

/-- A write of UPD_JRNL of which the bits of `mask` are written. -/
def State.writeJrnl (s : State) (st mask v : Nat) : State :=
  if s.jUsed st ≠ [] then s
  else
    let old := (s.getR .UPD_JRNL st).toNat
    let new := (old &&& (2 ^ 64 - 1 - mask)) ||| (v &&& mask)
    let base := bits new 47 20 <<< 20
    if bit new 0 ∧ (s.spanFault (.apt st) base 0x100000).isSome then s
    else
      let s := s.putFields .UPD_JRNL st mask v
      if bit new 0 ∧ (s.upd st).fresh then
        let s := (List.range 2048).foldl (fun (t : State) i => t.writeMem (base + 512 * i) 0x0100 3) s
        s.setUpd st { s.upd st with fresh := false }
      else s

/-- UPD_JRNL_WRITE (R229). -/
def execUpdJrnlWrite (_a : Agent) (stack : Fin 32) (v : Nat) (s : State) : Host.Outcome State Fault Refusal :=
  ok (if s.running then s.writeJrnl stack.val (2 ^ 64 - 1) v else s)

end Sys2Proof.Machine
end

