-- ==== Sys2Proof/Machine/Telemetry.lean ====
section
/-! DEFINITION. TELEMETRY_FLUSH: delayed scaling, format fallback, update statistics, census and the summary record (R187 to
R202). -/
namespace Sys2Proof.Machine

def checksTelemetryFlush (c : Cmd) : Checks :=
  Checks.all [lenIs c 2, unlisted c [(0x10, 12), (0x20, 0x28)], bitsZero c.pkt 0x18 31 6, addrRsv c.pkt 0x38, addrRsv c.pkt 0x40]

/-! ## FFLAGS -/

def ffScales (f : Nat) : Bool := bit f 0
def ffFallback (f : Nat) : Bool := bit f 1
def ffUw (f : Nat) : Bool := bit f 2
def ffClearAmax (f : Nat) : Bool := bit f 3
def ffClearCensus (f : Nat) : Bool := bit f 4
def ffSnap (f : Nat) : Bool := bit f 5
/-- Whether the flush works on scale entries. -/
def ffEntries (f : Nat) : Bool := ffScales f || ffFallback f || ffClearAmax f

/-! ## Scale entries (R188) -/

/-- A field of two banks, even steps low and odd steps high. -/
def bank16 (v b : Nat) : Nat := (v >>> (16 * b)) % 65536

/-- A malformed entry (R194), given its 128 bytes. -/
def entryBad (e : Nat) : Bool :=
  let kind := le e 2 1; let opt := le e 3 1; let hl := le e 4 1; let fb := le e 0xE 1
  decide (le e 1 1 ≠ 1 ∨ 3 < kind ∨ 16 ≤ opt ∨ hl = 0 ∨ 16 < hl ∨ (bit opt 1 ∧ kind = 2) ∨ (fb ≠ 1 ∧ fb ≠ 3)
    ∨ le e 0x34 12 ≠ 0 ∨ le e 0x26 2 ≠ 0 ∨ le e 0x2E 2 ≠ 0 ∨ (kind = 2 ∧ le e 9 3 ≠ 0) ∨ le e (0x40 + 4 * hl) (64 - 4 * hl) ≠ 0)

/-- Whether an entry takes its scale from an amax word (R195). -/
def entryPlain (e : Nat) : Bool := decide (le e 2 1 = 1 ∨ (le e 2 1 = 2 ∧ leBits e 0x20 47 0 = 0))

/-- A record that a flush fills while it runs: its summary. -/
structure FlushSum where
  nonfin : Nat := 0
  fb     : Nat := 0
  uw     : Nat := 0
  fl     : NumFlags := {}

/-- `⌈log2(a / 127)⌉` of a positive finite value (R195). -/
def ceilLog127 (a : Val) : Int :=
  match a with
  | .fin _ m e =>
    let l := Val.ilog m e - 6
    if a.le ((Val.ofNat 127).scale l) then l else l + 1
  | _ => 0

def clampInt (x lo hi : Int) : Int := max lo (min hi x)

/-- An FP32 scale clamped to [2^-126, 0x7F7F_FFFF]. -/
def clampScale (v : Val) : Nat :=
  let lo := Val.pow2 (-126)
  let top := fp32Val 0x7F7FFFFF
  fp32Bits (if v.lt lo then lo else if top.lt v then top else v)

/-- The scale that a positive amax gives: the field SCALE of the entry (R195). The quotient is an FP32 result (R92); an infinite amax gives
the largest scale. -/
def newScale (kind : Nat) (pow2 : Bool) (margin : Nat) (ah : Val) : Nat × NumFlags :=
  if kind = 2 then (if ah.isFin then unsigned (clampInt (ceilLog127 ah + margin) (-126) 127) 8 else 127, {})
  else if pow2 ∧ ah.isFin then (clampScale (.pow2 (ceilLog127 ah + margin)), {})
  else
    match ah with
    | .inf _ => (0x7F7FFFFF, {})
    | .fin _ m e =>
      -- twice the quotient with a sticky bit, rounded to 24 bits with the exponent unbounded
      let q := 2 * ((m <<< 64) / 127) + b2n (decide ((m <<< 64) % 127 ≠ 0))
      let v := (Target.float fFp32).round q (e - 65) none
      if v.lt (.pow2 (-126)) then (clampScale .zero, { uf := true, nx := true })
      else (clampScale (v.scale margin), { nx := !v.same (.fin false q (e - 65)) })
    | _ => (0, {})

/-- R195 and R196 for one entry. A NaN in HISTORY takes no part in the maximum, and a HIST_POS above 15 names no slot (log 58). -/
def State.flushScale (s : State) (e amaxWord : Nat) (sm : FlushSum) : State × Nat × FlushSum :=
  let kind := le e 2 1; let hl := le e 4 1; let margin := le e 6 1
  if entryPlain e then
    let a := s.readMem amaxWord 4
    let v := fp32Val a
    let (e, sm) :=
      if ¬ v.isFin then (e ||| put 3 1 4, { sm with nonfin := sm.nonfin + 1 })
      else
        let pos := le e 5 1
        let e := if pos < 16 then setBits e (8 * (0x44 + 4 * pos) - 1) (8 * (0x40 + 4 * pos)) a else e
        (setBits (setBits e 47 40 ((pos + 1) % hl)) 26 26 0, sm)
    let hist := ((List.range hl).map (fun j => fp32Val (le e (0x40 + 4 * j) 4))).filter (fun v => ! v.isNan)
    let ah := hist.foldl Val.maxv .zero
    if Val.zero.lt ah then
      let (sc, f) := newScale kind (bit (le e 3 1) 0) margin ah
      (s, setBits e 95 64 sc, { sm with fl := sm.fl.or f })
    else (s, e, sm)
  else if kind = 2 then
    let ce := leBits e 0x20 47 0; let ca := leBits e 0x28 47 0
    (List.range (le e 0x30 4)).foldl (fun (t : State × Nat × FlushSum) c =>
      let v := fp32Val (t.1.readMem (ca + 4 * c) 4)
      if ¬ v.isFin then (t.1, t.2.1 ||| put 3 1 4, { t.2.2 with nonfin := t.2.2.nonfin + 1 })
      else if v.isZero then t
      else (t.1.writeMem (ce + c) (newScale 2 false margin v.abs).1 1, t.2.1, t.2.2)) (s, e, sm)
  else (s, e, sm)

/-- The fallback decision of R197: the entry after it, and whether a fallback event occurred. -/
def flushFallback (e row : Nat) : Nat × Bool :=
  if le e 0xC 1 = le e 0xD 1 then
    let w := le row 8 8; let cl := le row 0x10 8; let va := le row 0x18 8
    let ct := le e 0x18 2; let vt := le e 0x1A 2
    if le e 0x1C 4 ≤ w ∧ ((ct ≠ 0xFFFF ∧ ct * w < cl * 65536) ∨ (vt ≠ 0xFFFF ∧ vt * w < va * 65536)) then
      (setBits (setBits (setBits e 103 96 (le e 0xE 1)) 127 120 0) 27 27 1, true)
    else (e, false)
  else
    let age := min 255 (le e 0xF 1 + 1)
    let e := setBits e 127 120 age
    if le e 7 1 ≠ 0 ∧ le e 7 1 ≤ age then (setBits (setBits e 103 96 (le e 0xD 1)) 27 27 0, true) else (e, false)

/-- One entry of the flush (R194 stage 3). -/
def State.flushEntry (s : State) (c : Cmd) (region ff i : Nat) (sm : FlushSum) : State × FlushSum :=
  let a := c.ntel.scaleAddr i
  let e := s.readMem a 128
  if le e 2 1 = 0 then (s, sm)
  else
    let b := c.f 0x10 8 % 2
    let word := c.fb 0x38 47 0 + 4 * bank16 (le e 0x10 4) b
    let (s, e, sm) := if ffScales ff then s.flushScale e word sm else (s, e, sm)
    let (s, e, sm) :=
      if ffFallback ff ∧ bit (le e 3 1) 1 then
        let (e, ev) := flushFallback e (s.readMem (c.ntel.censusRow (bank16 (le e 0x14 4) b) (le e 0xD 1)) 64)
        if ev then (s.traceAs (unitCtl region) 0x5A1 c.layer c.operator (i + le e 0xC 1 <<< 32) false, e, { sm with fb := sm.fb + 1 }) else (s, e, sm)
      else (s, e, sm)
    let s := (s.writeMem a (e % 2 ^ 512) 64).writeMem (a + 64) (e >>> 512) 64
    (if ffClearAmax ff ∧ entryPlain e then s.writeMem word 0 4 else s, sm)

/-- Stages 2 and 3 of R201 for one layer. -/
def State.flushUw (s : State) (c : Cmd) (region layer : Nat) (sm : FlushSum) : State × FlushSum :=
  let a := c.ntel.uwRow layer
  let row := s.readMem a 0x240
  let sum (o : Nat) : Val × NumFlags := fixedTree formW64.add 8 ((List.range 32).map (fun st => w64Decode (le row (16 * st + o) 8)))
  let (dw, f) := sum 0; let (w, g) := sum 8
  let bad := dw.isNan || w.isNan
  let (ratio, h) : Val × NumFlags :=
    if bad then (.nan, {}) else if w.isZero then (if dw.isZero then (.zero, {}) else (.inf false, { of := true }))
    else if dw.neg? ≠ w.neg? ∧ ¬ dw.isZero then (.nan, nvFlag true) else formFp32.round (sqrtRatio dw.abs w.abs)
  let th := c.ntel.uwThresh
  let ev := decide (th ≠ 0) && (ratio.isNan || (fp32Val th).lt ratio)
  let rb := fp32Bits ratio
  let s := if ev then s.traceAs (unitCtl region) 0x5A0 c.layer c.operator (layer % 65536 + rb <<< 32) false else s
  let s := s.writeMem a (put 0x200 2 (le row 0x200 2) + put 0x202 1 (b2n ev + 2 * b2n bad) + put 0x208 8 (c.f 0x10 8)
    + put 0x210 8 (w64Encode dw) + put 0x218 8 (w64Encode w) + put 0x220 4 rb) 0x240
  (s, { sm with uw := sm.uw + b2n ev, fl := ((sm.fl.or f).or g).or h })

/-! ## Validation (R194 stage 1) -/

/-- A range of `n` bytes from `pa` in the interleaved range, aligned; the address that fails. -/
def State.placeFault (s : State) (pa align n : Nat) : Option Nat := if pa % align ≠ 0 then some pa else s.spanFault .ilv pa n

/-- The status and DETAIL with which a flush fails, if it does. -/
def State.flushFails (s : State) (c : Cmd) : Option (Nat × Nat) :=
  let ff := c.f 0x18 4
  let b := c.f 0x10 8 % 2
  let first := c.f 0x20 4; let n := c.f 0x24 4
  if c.ntel.scaleCount < first + n then some (0x0105, 0x20)
  else if c.ntel.layers < c.f 0x28 4 + c.f 0x2C 4 then some (0x0105, 0x28)
  else if c.ntel.layers < c.f 0x30 4 + c.f 0x34 4 then some (0x0105, 0x30)
  else
    let ids := if ffEntries ff then (List.range n).map (· + first) else []
    let entryFmt (i : Nat) : Option Nat :=
      let a := c.ntel.scaleAddr i
      let e := s.readMem a 128
      if entryBad e then some a
      else if ffFallback ff ∧ le e 2 1 ≠ 0 ∧ bit (le e 3 1) 1 ∧ le e 0xC 1 = le e 0xD 1 then
        let ra := c.ntel.censusRow (bank16 (le e 0x14 4) b) (le e 0xD 1)
        let r := s.readMem ra 64
        if le r 0x29 1 ≠ 1 ∨ le r 0x2A 22 ≠ 0 then some ra else none
      else none
    let entryAddr (i : Nat) : Option Nat :=
      let e := s.readMem (c.ntel.scaleAddr i) 128
      if entryPlain e then
        if ffScales ff ∨ ffClearAmax ff then s.spanFault .ilv (c.fb 0x38 47 0 + 4 * bank16 (le e 0x10 4) b) 4 else none
      else if le e 2 1 = 2 ∧ ffScales ff then
        match s.spanFault .ilv (leBits e 0x20 47 0) (le e 0x30 4) with
        | some a => some a
        | none => s.spanFault .ilv (leBits e 0x28 47 0) (4 * le e 0x30 4)
      else none
    let uwFmt (l : Nat) : Option Nat :=
      let a := c.ntel.uwRow l
      let r := s.readMem a 0x240
      if le r 0x201 1 ≠ 1 ∨ 4 ≤ le r 0x202 1 ∨ le r 0x203 5 ≠ 0 ∨ le r 0x224 28 ≠ 0 then some a else none
    let uws := if ffUw ff then (List.range (c.f 0x34 4)).map (· + c.f 0x30 4) else []
    match ids.findSome? entryFmt with
    | some a => some (0x0103, a)
    | none => match uws.findSome? uwFmt with
      | some a => some (0x0103, a)
      | none => match s.placeFault (c.fb 0x38 47 0) 64 4 with
        | some a => some (0x0104, a)
        | none => match ids.findSome? entryAddr with
          | some a => some (0x0104, a)
          | none => if c.fb 0x40 47 0 = 0 then none else (s.placeFault (c.fb 0x40 47 0) 64 128).map (fun a => (0x0104, a))

/-! ## The flush -/

/-- The flag registers in the order of the summary record (R202). -/
def flagRegs : List (Reg × Nat) :=
  (List.range 16).map (fun g => (.ENG_NUMFLAGS, g)) ++ (List.range 4).map (fun q => (.ACC_NUMFLAGS, q))
    ++ (List.range 4).map (fun q => (.VEC_NUMFLAGS, q)) ++ (List.range 4).map (fun q => (.ATT_NUMFLAGS, q))
    ++ (List.range 4).map (fun q => (.DM_NUMFLAGS, q)) ++ [(.DM_NUMFLAGS, 8)] ++ (List.range 32).map (fun st => (.UPD_NUMFLAGS, st))

/-- The flag snapshot: the flags read, four bits a unit, and the state with them cleared. -/
def State.flagSnap (s : State) : Nat × State :=
  flagRegs.zipIdx.foldl (fun (a : Nat × State) p =>
    let w := s.getR p.1.1 p.1.2
    (a.1 + (w.toNat % 16) <<< (4 * p.2), a.2.setR p.1.1 p.1.2 (BitVec.ofNat 64 (w.toNat / 16 * 16)))) (0, s)

/-- TELEMETRY_FLUSH (R193, R194). Census rows of an unsupported major version are not cleared (R28). -/
def execTelemetryFlush (r : CmdRef) (s : State) : Host.Outcome State Fault Refusal :=
  ok (s.runUnit r 0x5007 (fun c =>
    let region := s.regionOf r.q
    let ff := c.f 0x18 4
    match s.flushFails c with
    | some (x, d) => s.finish r x d
    | none =>
      let ids := if ffEntries ff then (List.range (c.f 0x24 4)).map (· + c.f 0x20 4) else []
      let uws := if ffUw ff then (List.range (c.f 0x34 4)).map (· + c.f 0x30 4) else []
      s.readingThen r (ids.map (fun i => (c.ntel.scaleAddr i, 128)) ++ uws.map (fun l => (c.ntel.uwRow l, 0x240))) (fun s =>
        let (flags, s) := if ffSnap ff then s.flagSnap else (0, s)
        let (s, sm) := ids.foldl (fun (t : State × FlushSum) i => t.1.flushEntry c region ff i t.2) (s, {})
        let (s, sm) := uws.foldl (fun (t : State × FlushSum) l => t.1.flushUw c region l t.2) (s, sm)
        let s := if ffClearCensus ff then
            (List.range (c.f 0x2C 4)).foldl (fun (t : State) k => (List.range 16).foldl (fun (t : State) f =>
              let row := c.ntel.censusRow (c.f 0x28 4 + k) f
              if t.rowOk row 0x28 then t.writeMem row 0 0x28 else t) t) s
          else s
        let s := s.orFlags .ACC_NUMFLAGS region sm.fl
        let out := c.fb 0x40 47 0
        let s := if out = 0 then s
          else s.writeMem out (put 1 1 1 + put 4 4 ids.length + put 8 8 (c.f 0x10 8) + put 0x10 8 (s.now (ringOf region)) + put 0x18 4 sm.fb
            + put 0x1C 4 sm.uw + put 0x20 4 sm.nonfin + put 0x24 4 (s.fld F.NTEL_STATUS_CEN_DROPPED 0) + put 0x30 48 flags) 128
        let s := s.incWrap F.NTEL_STATUS_FLUSHES 0 1
        let s := if sm.fb + sm.uw = 0 then s
          else let t := { s with obs := { s.obs with numEvent := true } }; t.wire s 21
        (s.wrote r).finish r 0 0)))

end Sys2Proof.Machine
end

