-- ==== Sys2Proof/Machine/Holds.lean ====
section
/-! DEFINITION. Poison holds: R268, R269, R272, R273. The repair of R271 stands with the collectives, whose SLICE_FETCH it runs. -/
namespace Sys2Proof.Machine

/-! ## What a command touches (R269) -/

/-- Whether a command is restartable (R269). -/
def Cmd.restartable (c : Cmd) : Bool :=
  let cl := c.opcode / 4096
  (decide (cl = 1) && decide (c.opcode ≠ 0x1006)) || decide (cl = 3) || decide (c.opcode = 0x4001 ∨ c.opcode = 0x4002)
    || (decide (cl = 2) && match c.work with
        | .mat w => decide (c.geo.dmode ≠ 1 ∨ (w.lines = 0 ∧ ¬ c.wrote))
        | _ => true)

/-- Whether a command touches a hoist unit. -/
def State.touches (s : State) (c : Cmd) (unit : Nat) : Bool :=
  c.operandSpans.any (fun p => (overlapAt p.1 p.2 unit (hoistUnitSize s.localGib unit)).isSome)

/-- The holds in force. -/
def State.holdsAll (s : State) : List (Nat × Hold) := s.holds.filterMap (fun p => p.2.map (fun h => (p.1 / 16, h)))

/-- Whether a hold exempts a command: the repair queue (R272), or a run of a repair (R271). -/
def State.exempt (s : State) (region : Nat) (c : Cmd) : Bool :=
  decide (256 ≤ c.ref.q) || (s.flag F.RC_HOLD_CFG_RQ_EN region && decide (s.fld F.RC_HOLD_CFG_REPAIR_QUEUE region = c.ref.q))

/-- Whether a hold holds a command. -/
def State.heldNow (s : State) (c : Cmd) : Bool :=
  c.restartable && s.holdsAll.any (fun p => s.touches c p.2.unit && ¬ s.exempt p.1 c)

/-- A command in progress stops at its next restart point and becomes held: its engines and frames go, and it begins again from
its inputs. -/
def State.holdCmd (s : State) (c : Cmd) : State :=
  let r := c.ref
  let region := s.regionOf r.q
  match c.work with
  | .mat w =>
    let s := (List.range 4).foldl (fun (t : State) m =>
      let g := 4 * region + m
      let e := t.engine g
      let out (x : Option Item) : Option Item := match x with | some i => if i.cmd = r then none else some i | none => none
      let mine := match e.compute with | some i => decide (i.cmd = r) | none => false
      t.setEngine g { e with compute := out e.compute, drain := out e.drain, saving := if mine then none else e.saving }) s
    let s := (s.releaseFrames region r).releaseEngines region r
    let s := s.freeSlots r
    let again : MatWork := { mask := w.mask, masked := w.masked, retried := w.retried }
    s.modCmd r (fun x => { x with held := true, phase := .issued, work := .mat again, counts := [], acct := {}, notes := [] })
  | _ => s.modCmd r (fun x => { x with held := true })

/-- Holds every restartable command in progress that touches a held unit. -/
def State.applyHolds (s : State) : State :=
  s.cmds.foldl (fun (t : State) c =>
    let live : Bool := match c.phase with
      | .issued | .running => !c.held
      | _ => false
    let failed : Bool := match c.work with | .mat w => w.failed | _ => false
    if live ∧ ¬ failed ∧ t.heldNow c then t.holdCmd c else t) s

/-- A poison hold on a hoist unit of a region: a unit already held collects the burst, else the lowest free hold takes it, and
with none free the fault is fatal (R268, R273). -/
def State.placeHoldIn (s : State) (region unit burst : Nat) : State :=
  match lowest 16 (fun k => match s.hold region k with | some h => decide (h.unit = unit) | none => false) with
  | some k =>
    match s.hold region k with
    | some h => if h.bursts.contains burst then s else s.setHold region k (some { h with bursts := h.bursts ++ [burst] })
    | none => s
  | none =>
    match lowest 16 (fun k => (s.hold region k).isNone) with
    | none => s.fatal 0x0F07 (unitCtl region) unit (put 0 2 region)
    | some k =>
      let auto := s.flag F.RC_HOLD_CFG_AUTO region
      let old := s
      let s := s.aon 52 1
      let s := s.setHold region k (some { unit := unit, state := if auto then 2 else 3, bursts := [burst] })
      let s := s.report { code := 0x0205, cls := 1, level := 2, unit := unitCtl region, addr := unit, action := 4, detail := put 0 2 k + put 2 2 region }
      let s := if auto then s
        else (s.report { code := 0x0206, cls := 1, level := 2, unit := unitCtl region, addr := unit, detail := put 0 2 k }).wire old (8 + region)
      s.applyHolds.settleQuars

/-- Places a poison hold on the hoist unit of a burst, or joins it to one (R268, R273). -/
def State.placeHold (s : State) (pa : Nat) : State :=
  let l := s.localGib
  if (chanOf l pa).isNone then s
  else s.placeHoldIn ((chanOf l pa).elim 0 (fun ca => ca.gch / 128)) (hoistUnit l pa) (pa / 64 * 64)

/-- POISON_HOLD: the region that owns the stack of a poisoned burst places its hold (R268). -/
def execPoisonHold (pa : Nat) (s : State) : Host.Outcome State Fault Refusal :=
  ok (if s.running ∧ s.badLine (lineOf pa) then s.placeHold pa else s)

/-- Commands whose every held unit is free again restart (R269), and deferred hints and swaps go on (R268). -/
def State.unholdAll (s : State) : State :=
  let s := { s with cmds := s.cmds.map (fun c => if c.held ∧ ¬ s.heldNow c then { c with held := false } else c) }
  (List.range 32).foldl (fun (t : State) st => t.runHoist st ((t.hoist st).hints.length + 1)) s

/-- Frees a hold slot. -/
def State.freeHold (s : State) (region slot : Nat) : State := (s.setHold region slot none).unholdAll

/-- RC_HOLD_CTL_RELEASE: a hold in SOFTWARE is released (R272). -/
def execRcHoldCtlRelease (region : Fin 4) (slot : Fin 16) (s : State) : Host.Outcome State Fault Refusal :=
  ok (if s.running then
    match s.hold region.val slot.val with
    | some h => if h.state = 3 then s.freeHold region.val slot.val else s
    | none => s
  else s)

end Sys2Proof.Machine
end

