-- ==== Sys2Proof/Machine/Collective.lean ====
section
/-! DEFINITION. The network A engine's collectives: groups and phase maps (R369 to R371), the commands of R375, R381 and R393 and
the work of one collective from its issue to its end (R372 to R393). The frames it takes stand in Frames. -/
namespace Sys2Proof.Machine

/-! ## Groups (R369, R370) -/

namespace Group
def kind (g : Group) : Nat := le g.entry 2 1
def vc (g : Group) : Nat := le g.entry 3 1
def gid (g : Group) : Nat := le g.entry 4 4
def n (g : Group) : Nat := le g.entry 8 2
def rank (g : Group) : Nat := le g.entry 0xA 2
def policy (g : Group) : Nat := le g.entry 0xC 1
def faultUs (g : Group) : Nat := le g.entry 0x10 4
end Group

def State.group (s : State) (slot : Nat) : Option Group := Tab.get none s.coll.groups slot
def State.setGroup (s : State) (slot : Nat) (g : Option Group) : State :=
  { s with coll := { s.coll with groups := Tab.set none s.coll.groups slot g } }
/-- The phase map of a phase: eight role bytes (R371). -/
def State.phaseMap (s : State) (phase : Nat) : Nat := Tab.get (2 ^ 64 - 1) s.coll.maps phase

/-- The loaded groups. -/
def State.groups (s : State) : List Group := s.coll.groups.filterMap (·.2)

/-- The fault of a group entry: the byte offset in the entry of the first one (R370). -/
def State.groupFault (s : State) (slot e members : Nat) : Option Nat :=
  let n := le e 8 2; let rank := le e 0xA 2
  let m (i : Nat) : Nat := le members (32 * i) 32
  let mine := m rank
  let v6 := bit (le mine 6 1) 0
  let ip := le mine 8 16
  let own : Bool := if v6 then decide (swapBytes ip 16 = s.fld F.NET_IPV6_HI_ADDR 0 <<< 64 + s.fld F.NET_IPV6_LO_ADDR 0 ∧ ip ≠ 0)
    else decide (swapBytes (ip % 2 ^ 32) 4 = s.fld F.NET_IPV4_ADDR 0 ∧ ip ≠ 0 ∧ ip < 2 ^ 32)
  let vc := le e 3 1; let kind := le e 2 1
  let pcp := bits (s.fld F.NET_VC_MAP_PCP 0) (4 * vc + 2) (4 * vc)
  let badMember (i : Nat) : Bool := decide (4 ≤ le (m i) 6 1 ∨ le (m i) 7 1 ≠ 0 ∨ le (m i) 0x18 8 ≠ 0)
  if le e 1 1 ≠ 1 then some 1
  else if 5 < kind then some 2
  else if 7 < vc then some 3
  else if s.coll.groups.any (fun p => match p.2 with | some g => decide (p.1 ≠ slot ∧ g.vc = vc ∧ g.kind ≠ kind) | none => false) then some 3
  else if (List.range 4).any (fun p => ¬ (s.fld F.PORT_PFC_EN p).testBit pcp) then some 3
  else if le e 4 4 = 0 then some 4
  else if n = 0 ∨ 4096 < n then some 8
  else if kind = 5 ∧ (8 < n ∨ (List.range n).any (fun i => ¬ bit (le (m i) 6 1) 1)) then some 8
  else if n ≤ rank then some 0xA
  else if kind = 5 ∧ decide (rank = 0) ≠ decide (s.fld F.CT_STATUS_GANG_ROLE 0 = 1) then some 0xA
  else if 1 < le e 0xC 1 then some 0xC
  else if (kind = 2 ∧ 7 < le e 0xD 1) ∨ (kind ≠ 2 ∧ le e 0xD 1 ≠ 0) then some 0xD
  else if le e 0xE 2 ≠ 0 then some 0xE
  else if le e 0x10 4 < 100 ∨ 60000000 < le e 0x10 4 then some 0x10
  else if le e 0x14 4 ≠ 0 then some 0x14
  else if leBits e 0x18 47 0 % 64 ≠ 0 ∨ le e 0x18 8 / 2 ^ 48 ≠ 0 ∨ (s.spanFault .ilv (leBits e 0x18 47 0) (32 * n)).isSome then some 0x18
  else if (List.range n).any badMember ∨ ¬ own then some 0x18
  else if le e 0x20 32 ≠ 0 then some 0x20
  else none

/-- Collectives in progress that use a group slot. -/
def State.slotBusy (s : State) (slot : Nat) : Bool :=
  s.cmds.any (fun c => match c.work with
    | .coll w => decide (w.slot = slot ∧ c.phase ≠ .ended ∧ c.phase ≠ .completed)
    | _ => false)

/-- A class 0x6 command that issues without staging ends with BAD_ADDRESS (R374). -/
def State.noStaging (s : State) : Bool := decide (s.fld F.CT_STAGING_SIZE_MIB 0 = 0)

def checksGroupLoad (s : State) (c : Cmd) : Checks :=
  Checks.all [lenIs c 1, unlisted c [(0x10, 2), (0x18, 8)], failRsv (63 < c.f 0x10 1) 0x10, failRsv (1 < c.f 0x11 1) 0x11, addrRsv c.pkt 0x18,
    if c.f 0x11 1 = 1 then {} else s.addrCheck .ilv c 0x18 64 64]

/-- GROUP_LOAD (R370). -/
def execGroupLoad (r : CmdRef) (s : State) : Host.Outcome State Fault Refusal :=
  ok (s.run r 0x6007 (fun c =>
    let slot := c.f 0x10 1
    if s.noStaging then s.finish r 0x0104 0
    else if s.slotBusy slot then s.finish r 0x0104 slot
    else if c.f 0x11 1 = 1 then
      let was := (s.group slot).isSome
      let s := s.setGroup slot none
      (if was then s.setFld F.CT_STATUS_LOADED 0 (s.fld F.CT_STATUS_LOADED 0 - 1) else s).finish r 0 0
    else
      let a := c.fb 0x18 47 0
      s.readingThen r [(a, 64)] (fun s =>
        let e := s.readMem a 64
        let n := if le e 8 2 ≤ 4096 then le e 8 2 else 0
        let ma := leBits e 0x18 47 0
        let inRange : Bool := (s.spanFault .ilv ma (32 * n)).isNone
        s.readingThen r (if inRange then [(ma, 32 * n)] else []) (fun s =>
          let ms := if inRange then s.readMem ma (32 * n) else 0
          match s.groupFault slot e ms with
          | some o => s.finish r 0x0103 o
          | none =>
            let img := le e 2 8 + (le e 0xC 8) <<< 64 + ms <<< 128
            let g : Group := { entry := e, members := ms, gsig := crc32c img (16 + 32 * n) }
            let was := (s.group slot).isSome
            let s := s.setGroup slot (some g)
            (if was then s else s.setFld F.CT_STATUS_LOADED 0 (s.fld F.CT_STATUS_LOADED 0 + 1)).finish r 0 0))))

def checksPhaseSelect (c : Cmd) : Checks :=
  Checks.all [lenIs c 1, unlisted c [(0x10, 2), (0x18, 8)], failRsv (1 < c.f 0x10 1) 0x10, failRsv (3 < c.f 0x11 1) 0x11,
    if c.f 0x10 1 = 0 then {}
    else Checks.app (failRsv (c.f 0x1E 1 ≠ 0xFF) 0x1E) (failRsv (c.f 0x1F 1 ≠ 0xFF) 0x1F)]

/-- PHASE_SELECT (R371). -/
def execPhaseSelect (r : CmdRef) (s : State) : Host.Outcome State Fault Refusal :=
  ok (s.run r 0x6008 (fun c =>
    let phase := c.f 0x11 1
    if s.noStaging then s.finish r 0x0104 0
    else if c.f 0x10 1 = 0 then ((s.setFld F.CT_PHASE_ACTIVE 0 phase).setFld F.CT_STATUS_PHASE 0 phase).finish r 0 0
    else
      let map := c.f 0x18 8
      match lowest 8 (fun k => let b := le map k 1; decide (b ≠ 0xFF ∧ (63 < b ∨ (s.group b).isNone))) with
      | some k => s.finish r 0x0104 (0x18 + k)
      | none => { s with coll := { s.coll with maps := Tab.set (2 ^ 64 - 1) s.coll.maps phase map } }.finish r 0 0))

/-- The group slot that GSEL names: directly, or by its role in the active map (R371, R375). -/
def State.resolve (s : State) (gsel : Nat) : Option (Nat × Group) :=
  let slot := if gsel.testBit 7 then gsel % 64 else le (s.phaseMap (s.fld F.CT_PHASE_ACTIVE 0)) (gsel % 8) 1
  if 63 < slot then none else (s.group slot).map (fun g => (slot, g))

/-! ## Trees (R376) -/

/-- Relative rank of `i` in the tree rooted at `root`, and back. -/
def relRank (n root i : Nat) : Nat := (i + n - root % n) % n
def absRank (n root j : Nat) : Nat := (j + root) % n
/-- The children of relative rank `j`, by rising stride. -/
def treeKids (n j : Nat) : List Nat :=
  ((List.range 12).filter (fun k => j % 2 ^ (k + 1) = 0 ∧ j + 2 ^ k < n)).map (fun k => j + 2 ^ k)
/-- The parent of a relative rank other than 0. -/
def treeParent (j : Nat) : Nat := match lowest 12 (fun k => j.testBit k) with | some k => j - 2 ^ k | none => 0

/-- Ranks of the children, and the rank of the parent, of rank `i` in the tree rooted at `root`. -/
def kidsOf (n root i : Nat) : List Nat := (treeKids n (relRank n root i)).map (absRank n root)
def parentOf (n root i : Nat) : Option Nat := let j := relRank n root i; if j = 0 then none else some (absRank n root (treeParent j))

/-- Elements of block `b` of E among N ranks: first and one past the last (R376). -/
def blockRange (e n b : Nat) : Nat × Nat :=
  let c := ceilDiv (ceilDiv e 4096) n
  (min e (4096 * b * c), min e (4096 * (b + 1) * c))

/-! ## A collective's command -/

def Cmd.cw (c : Cmd) : CollWork := match c.work with | .coll w => w | _ => { slot := 64, group := { entry := 0, members := 0, gsig := 0 } }
def State.cw (s : State) (r : CmdRef) : CollWork := match s.cmd r with | some c => c.cw | none => { slot := 64, group := { entry := 0, members := 0, gsig := 0 } }
def State.modColl (s : State) (r : CmdRef) (f : CollWork → CollWork) : State :=
  s.modCmd r (fun c => match c.work with | .coll w => { c with work := .coll (f w) } | _ => c)

/-- The fields of CT_CFG that a collective took at its issue (R397). -/
def CollWork.window (w : CollWork) : Nat := bits w.cfg 19 12
def CollWork.leadUs (w : CollWork) : Nat := bits w.cfg 47 32
def CollWork.ctrlVc (w : CollWork) : Nat := bits w.cfg 2 0

def Cmd.isReduction (c : Cmd) : Bool := decide (c.opcode = 0x6001 ∨ c.opcode = 0x6002)
/-- The key that a command's frames carry. SLICE_FETCH takes its SEQ for RED_ID (log 20). -/
def Cmd.collKey (c : Cmd) : CollKey :=
  if c.opcode = 0x6009 then { gid := c.cw.group.gid, redId := c.seqNo, step := 0 }
  else { gid := c.cw.group.gid, redId := c.f 0x78 4, step := c.f 0x80 8 }
def Cmd.srcTd (c : Cmd) : Td := tdAt c.pkt 0x10
def Cmd.dstTd (c : Cmd) : Td := tdAt c.pkt 0x40
def Cmd.wire (c : Cmd) : Nat := c.f 0x72 1
/-- Element count of a reduction. -/
def Cmd.elems (c : Cmd) : Nat := c.srcTd.count
def Cmd.deadline (c : Cmd) : Nat := c.f 0x88 8
def Cmd.readyAddr (c : Cmd) : Nat := c.fb 0x90 47 0
def Cmd.holdAddr (c : Cmd) : Nat := c.fb 0xA0 47 0
def Cmd.sideAddr (c : Cmd) : Nat := c.fb 0xA8 47 0
def Cmd.resultAddr (c : Cmd) : Nat := c.fb 0xB0 47 0

/-- The command in progress that a frame belongs to. -/
def State.collOf (s : State) (k : CollKey) : Option Cmd :=
  s.cmds.find? (fun c => decide (c.phase = .running ∧ c.opcode / 4096 = 6) && (match c.work with | .coll w => w.started && decide (c.collKey = k) | _ => false))

/-! ## Gang Brakes (R468) -/

/-- The loaded group of KIND 5, the gang's (R370, R396). -/
def State.gangGroup (s : State) : Option Group := s.groups.find? (fun g => g.kind = 5)

/-- The BRAKE in progress whose frames a key names: the gang's group, the packet's SEQ, STEP 0 (log 26). -/
def State.gangOf (s : State) (k : CollKey) : Option Cmd :=
  s.cmds.find? (fun c => decide (c.phase = .running ∧ c.opcode = 0x0005 ∧ k.redId = c.seqNo ∧ k.step = 0)
    && (match s.gangGroup with | some g => decide (k.gid = g.gid) | none => false))

/-- The members that a gang BRAKE still waits for, with their retransmissions, and since when. -/
def Cmd.gang (c : Cmd) : Nat × List (Nat × Nat) × Nat := match c.work with | .gang t w x => (t, w, x) | _ => (0, [], 0)

/-- A member has acknowledged its BRAKE frame; the command ends with the last one. -/
def State.gangAck (s : State) (c : Cmd) (src : Nat) : State :=
  let (t, w, x) := c.gang
  let rest := w.filter (fun p => p.1 ≠ src)
  let s := s.modCmd c.ref (fun d => { d with work := .gang t rest x })
  if rest = [] then s.finish c.ref 0 0 else s

/-- A gang BRAKE ends with GROUP_FAULT as in R385 and R386; the master's own Brake stays scheduled. -/
def State.gangFault (s : State) (c : Cmd) (rank cause : Nat) : State :=
  (s.incSat F.CT_ERR_FAULTS 0 1).finish c.ref 0x0501 (rank % 2 ^ 16 + cause <<< 16 + c.seqNo <<< 32)

/-- The BRAKE frame of a gang BRAKE to a member. -/
def State.brakeFrame (s : State) (c : Cmd) (g : Group) (t dst : Nat) : CFrame :=
  { typ := 13, vc := s.fld F.CT_CFG_CTRL_VC 0, last := true, gid := g.gid, src := g.rank, dst := dst, redId := c.seqNo, step := 0, plen := 8, data := t }

/-! ## Checks (R375) -/

/-- An optional address field of a collective: 0 for none. -/
def State.optAddr (s : State) (c : Cmd) (off align n : Nat) : Checks :=
  if c.fb off 47 0 = 0 then addrRsv c.pkt off else s.addrCheck .mover c off align n

def checksCollective (s : State) (c : Cmd) : Checks :=
  let op := c.opcode
  let red := c.isReduction
  let a := c.srcTd; let d := c.dstTd
  let g := c.f 0x70 1; let fl := c.f 0x71 1
  let zeroA : Bool := op = 0x6004 && le c.pkt 0x10 48 = 0
  let zeroD : Bool := op = 0x6002 && le c.pkt 0x40 48 = 0
  let okF (f : Fmt) : Bool := ¬ red || f.code ≤ 1
  let used := [(0x10, 0x62), (0x78, 4), (0x80, 8), (0xB0, 8)] ++ (if red then [(0x72, 1), (0x74, 2), (0x88, 0x28)] else [])
    ++ (if op = 0x6004 then [(0x76, 2)] else []) ++ (if op = 0x6005 then [(0x88, 8)] else [])
  let exact : Bool := decide (a.base = d.base ∧ a.str = d.str ∧ a.ext = d.ext ∧ a.fmtc = d.fmtc)
  let mayMeet : Bool := exact && ((red && c.readyAddr = 0) || op = 0x6005)
  Checks.all [lenIs c 3, unlisted c used,
    failRsv (g.testBit 6 ∨ (¬ g.testBit 7 ∧ 8 ≤ g % 64)) 0x70,
    failRsv (4 ≤ fl ∨ (fl.testBit 0 ∧ ¬ red) ∨ (fl.testBit 1 ∧ op ≠ 0x6003)) 0x71,
    (if red then Checks.app (failRsv (c.wire ≠ 0 ∧ c.wire ≠ 1 ∧ c.wire ≠ 0xC) 0x72) (failFmt (c.wire ≠ 0xC ∧ c.f 0x74 2 ≠ 0xFFFF) 0x74) else {}),
    (if zeroA then {} else Checks.app (tdChecks c.pkt true okF a) (s.tdRange .mover a)),
    (if zeroD then {} else Checks.app (tdChecks c.pkt false okF d) (s.tdRange .mover d)),
    (if red then failLen (op = 0x6001 ∧ d.count ≠ a.count) 0x4C else if zeroA then {} else failFmt (a.fmtc ≠ d.fmtc) 0x40),
    (if op = 0x6004 ∧ ¬ zeroA then extMatch d a.ext else {}),
    (if mayMeet ∨ zeroA ∨ zeroD then {} else failAdrO (a.overlap d) 0x40),
    (if red then Checks.all [s.optAddr c 0x90 8 8, s.optAddr c 0xA0 64 (64 + 4 * a.count),
        if fl.testBit 0 then s.addrCheck .mover c 0xA8 64 64 else mustZero c.pkt 0xA8 8] else {}),
    (if op = 0x6005 then addrRsv c.pkt 0x88 else {}),
    s.optAddr c 0xB0 64 64,
    if op = 0x6003 ∧ fl.testBit 1 then
      failAdr (d.base % 0x2000000 ≠ 0 ∨ d.spanLen % 0x2000000 ≠ 0) 0x40 d.base
    else {}]

/-- Whether the 64 bytes of a hold record hold a contribution: VALID set, under a major version that the device supports (R28, R384). -/
def holdSet (h : Nat) : Bool := decide (le h 1 1 = 1) && bit (le h 2 1) 0

/-- The parts of a reduction that are read at issue: the chunk exponents of WSCALE, then the hold record (R62, R384). -/
def State.redIssue (s : State) (c : Cmd) (w : CollWork) : CollWork ⊕ (Nat × Nat) :=
  let e := c.srcTd.count
  let h := c.holdAddr
  let hr := s.readMem h 64
  let i := c.f 0x74 2
  let l0 := s.readMem (s.ntelNow.scaleAddr i) 64
  let ce := leBits l0 0x20 47 0
  let nch := ceilDiv e 4096
  if c.wire = 0xC ∧ (s.ntelNow.scaleCount ≤ i ∨ le l0 1 1 ≠ 1 ∨ le l0 2 1 ≠ 2 ∨ (ce ≠ 0 ∧ le l0 0x30 4 < nch)) then .inr (0x0103, 0x74)
  else if h ≠ 0 ∧ holdSet hr ∧ (le hr 4 4 ≠ c.f 0x78 4 ∨ le hr 8 8 + 1 ≠ c.f 0x80 8 ∨ le hr 0x10 8 ≠ e) then .inr (0x0104, h)
  else if c.wire ≠ 0xC then .inl w
  else .inl { w with exps := if ce = 0 then [le l0 8 1] else (List.range nch).map (fun k => s.readMem (ce + k) 1) }

/-- The size of a result record: 64 bytes and the mask (R387). -/
def resultLen (n : Nat) : Nat := 64 + roundUp (ceilDiv n 8) 64

/-- The rules of an opcode on its operands that need its group (R375, R384, R391). -/
def State.collOperands (s : State) (c : Cmd) (g : Group) (w : CollWork) : CollWork ⊕ (Nat × Nat) :=
  let op := c.opcode
  let n := g.n
  let a := c.srcTd; let d := c.dstTd
  let e := a.count
  if op = 0x6002 then
    let (lo, hi) := blockRange e n g.rank
    let zeroD : Bool := le c.pkt 0x40 48 = 0
    if lo ≠ hi ∧ zeroD then .inr (0x0105, 0x48)
    else if (if lo = hi then ¬ zeroD else d.count ≠ hi - lo) then .inr (0x0105, 0x4C) else s.redIssue c w
  else if op = 0x6001 then s.redIssue c w
  else if op = 0x6003 then
    let k := a.rank - 1
    let want := a.ext.set k (n * a.e k)
    if d.rank ≠ a.rank then .inr (0x0105, 0x48)
    else match lowest 4 (fun j => decide (d.e j ≠ want.getD j 1)) with
      | some j => .inr (0x0105, 0x4C + 4 * j)
      | none => .inl w
  else if op = 0x6004 then
    let zeroA : Bool := le c.pkt 0x10 48 = 0
    if n ≤ c.f 0x76 2 then .inr (0x0105, 0x76)
    else if c.f 0x76 2 = g.rank then (if zeroA then .inr (0x0105, 0x18) else .inl w)
    else if zeroA then .inl w else .inr (0x0102, 0x10 + (lowest 48 (fun k => decide (le c.pkt (0x10 + k) 1 ≠ 0))).getD 0)
  else if op = 0x6005 then
    let pa := c.fb 0x88 47 0
    match s.spanFault .mover pa (2 * n) with
    | some x => .inr (0x0104, x)
    | none =>
      let t := (List.range n).map (fun i => s.readMem (pa + 2 * i) 2)
      if t.all (fun x => decide (x < n)) ∧ t.Nodup then .inl { w with ptab := t } else .inr (0x0105, 0x88)
  else if n ≤ c.f 0x12 2 then .inr (0x0105, 0x12)
  else .inl w

/-- The group slot and the group that a class 0x6 command names. -/
def State.collGroup (s : State) (c : Cmd) : Option (Nat × Group) := s.resolve (c.f (if c.opcode = 0x6009 then 0x10 else 0x70) 1)

/-- What a collective reads at its issue: the scale entry of its wire format, its hold record and its permutation table (R384, R391). -/
def State.collSpans (s : State) (c : Cmd) : List (Nat × Nat) :=
  match s.collGroup c with
  | none => []
  | some (_, g) =>
    if s.noStaging then []
    else if c.isReduction then
      (if c.wire = 0xC ∧ c.f 0x74 2 < s.ntelNow.scaleCount then s.entrySpans (c.f 0x74 2) (ceilDiv c.elems 4096) else [])
        ++ (if c.holdAddr = 0 then [] else [(c.holdAddr, 64)])
    else if c.opcode = 0x6005 ∧ (s.spanFault .mover (c.fb 0x88 47 0) (2 * g.n)).isNone then [(c.fb 0x88 47 0, 2 * g.n)]
    else []

/-- The issue step of a collective (R43, R189, R370, R375, R384, R387, R391, R397): its work, or the status and DETAIL with which it ends. -/
def State.collIssue (s : State) (c : Cmd) : CollWork ⊕ (Nat × Nat) :=
  if s.noStaging then .inr (0x0104, 0)
  else match s.collGroup c with
  | none => .inr (0x0104, 0)
  | some (slot, g) =>
    let w : CollWork := { slot := slot, group := g, cfg := (s.getR .CT_CFG 0).toNat, staging := s.fld F.CT_STAGING_SIZE_MIB 0 <<< 20 }
    match s.collOperands c g w with
    | .inr f => .inr f
    | .inl w =>
      match (if c.opcode = 0x6009 ∨ c.resultAddr = 0 then none else s.spanFault .mover c.resultAddr (resultLen g.n)) with
      | some x => .inr (0x0104, x)
      | none => .inl w

/-! ## Flows (R373) -/

/-- The network A port that carries flows: the lowest-numbered UP one (log 21). -/
def State.portA (s : State) : Option Nat := lowest 4 (fun p => decide (s.fld F.PORT_STATUS_STATE p = 2))

/-- Priority code point of a virtual channel (R350). -/
def State.pcpOf (s : State) (vc : Nat) : Nat := bits (s.fld F.NET_VC_MAP_PCP 0) (4 * vc + 2) (4 * vc)

/-- Whether a port may start a frame of a priority now (R351). -/
def State.clearToSend (s : State) (p prio : Nat) : Bool := decide (Tab.get 0 (s.port p).pausedTill prio ≤ s.time)

def CollWork.flow (w : CollWork) (peer : Nat) : Flow := (w.flows.find? (fun f => f.peer = peer)).getD { peer := peer }
def CollWork.setFlow (w : CollWork) (f : Flow) : CollWork :=
  { w with flows := if w.flows.any (fun x => x.peer = f.peer) then w.flows.map (fun x => if x.peer = f.peer then f else x) else w.flows ++ [f] }

/-- What of a flow goes out now: the flow after it and the frames. A Brake stops each flow at a frame boundary (R463, R464). -/
def Flow.pump (f : Flow) (go : Bool) : Flow × List CFrame :=
  if go then
    let k := min f.credits f.queued.length
    ({ f with unacked := f.unacked ++ f.queued.take k, queued := f.queued.drop k, credits := f.credits - k }, f.queued.take k)
  else (f, [])

/-- Puts collective frames on the wire. -/
def State.sendColl (s : State) (fs : List CFrame) : State :=
  match s.portA with
  | none => s
  | some p => fs.foldl (fun (t : State) f => t.send (.coll p (t.pcpOf f.vc) f)) s

/-- Whether a flow's frames may go now. -/
def State.mayPump (s : State) (vc : Nat) : Bool :=
  ¬ s.braking && match s.portA with | some p => s.clearToSend p (s.pcpOf vc) | none => false

/-- Sends what the credits of a command's flows allow. -/
def State.pumpColl (s : State) (r : CmdRef) : State :=
  let w := s.cw r
  let go := s.mayPump w.group.vc
  let ps := w.flows.map (fun f => f.pump go)
  (s.modColl r (fun w => { w with flows := ps.map (·.1) })).sendColl (ps.flatMap (·.2))

/-- The virtual channel of a flow's frames that wait. -/
def Flow.vc (f : Flow) : Nat := (f.queued.head?.map (·.vc)).getD 0

/-- Sends what the credits of the flows without a command allow. -/
def State.pumpServed (s : State) : State :=
  let ps := s.coll.served.map (fun p => (p.1, p.2.pump (s.mayPump p.2.vc)))
  ({ s with coll := { s.coll with served := ps.map (fun (p : CollKey × Flow × List CFrame) => (p.1, p.2.1)) } }).sendColl (ps.flatMap (fun (p : CollKey × Flow × List CFrame) => p.2.2))

/-- Sends what waits on every flow of the device. -/
def State.pumpAll (s : State) : State :=
  (s.cmds.foldl (fun (t : State) c => match c.work with | .coll _ => t.pumpColl c.ref | _ => t) s).pumpServed

/-- A frame of a command, without its SEQ. -/
def Cmd.frame (c : Cmd) (typ dst index plen data : Nat) (sat last : Bool) : CFrame :=
  let k := c.collKey
  { typ := typ, vc := c.cw.group.vc, sat := sat, last := last, gid := k.gid, src := c.cw.group.rank, dst := dst, redId := k.redId,
    step := k.step, index := index, plen := plen, data := data }

/-- Queues a frame on its flow; its payload counts as sent (R449). -/
def State.flowPut (s : State) (r : CmdRef) (f : CFrame) : State :=
  let s := s.modColl r (fun w =>
    let fl := w.flow f.dst
    w.setFlow { fl with nextSeq := (fl.nextSeq + 1) % 2 ^ 32, queued := fl.queued ++ [{ f with seq := fl.nextSeq }] })
  s.account r (fun a => { a with wireBytes := a.wireBytes + f.plen })

/-- Queues frames and sends what may go. -/
def State.flowSend (s : State) (r : CmdRef) (fs : List CFrame) : State := (fs.foldl (fun (t : State) f => t.flowPut r f) s).pumpColl r

/-- An acknowledgement up to before `ackSeq`, all ones before the first, and credits (R373). It is sent outside every flow. -/
def State.sendAck (s : State) (k : CollKey) (vc me peer ackSeq credits : Nat) : State :=
  s.sendColl [{ typ := 9, vc := vc, gid := k.gid, src := me, dst := peer, redId := k.redId, step := k.step,
                index := (ackSeq + 2 ^ 32 - 1) % 2 ^ 32, plen := 4, data := credits }]

/-- Bytes of a wire element. -/
def wireBytes (wire : Nat) : Nat := if wire = 0 then 4 else if wire = 1 then 2 else 1

/-- Payload bytes of a write of D that waits. -/
def DWrite.bytes (wire : Nat) : DWrite → Nat
  | .result _ _ ws => wireBytes wire * ws.length
  | .unit _ _ => 8192
  | .fetch _ len _ => len

/-- Bytes that a collective holds in staging: frames in flight, partial sums held for forwarding, and writes of D that wait (R374, R389). -/
def Cmd.stagedBytes (c : Cmd) : Nat :=
  let w := c.cw
  let open_ := w.upCount.filter (fun p => ¬ w.settled.contains (p.1 / 4096))
  (w.flows.map (fun f => (f.unacked.map (·.plen)).sum)).sum + wireBytes c.wire * (open_.map (·.2)).sum + 8192 * w.staged.length
    + (w.dwait.map (DWrite.bytes c.wire)).sum

/-- Whether a collective finds its staging full (R389). -/
def State.stagingFull (s : State) (c : Cmd) : Bool :=
  decide (c.cw.staging ≤ ((s.cmds.filter (fun x => decide (x.phase = .running))).map Cmd.stagedBytes).sum)

/-- A collective acknowledges a peer's flow and grants its credits: none while its staging is full (R373, R389). -/
def State.ackPeer (s : State) (r : CmdRef) (vc peer : Nat) : State :=
  match s.cmd r with
  | none => s
  | some c =>
    let w := c.cw
    let full := s.stagingFull c
    let s := s.modColl r (fun w => { w with starved := (if full then [peer] else []) ++ w.starved.filter (· ≠ peer) })
    s.sendAck c.collKey vc w.group.rank peer (w.flow peer).ackSeq (if full then 0 else w.window)

/-- The peers that were granted nothing are granted credits once the staging has room. -/
def State.regrant (s : State) (r : CmdRef) : State :=
  match s.cmd r with
  | none => s
  | some c => if s.stagingFull c then s else c.cw.starved.foldl (fun (t : State) k => t.ackPeer r c.cw.group.vc k) s

/-! ## Straggler log, faults and ends (R385 to R388) -/

/-- A straggler log record (R388). -/
def State.slog (s : State) (c : Cmd) (kind rank included : Nat) : State :=
  let n := s.fld F.CT_SLOG_BASE_SIZE_LOG2 0
  let k := c.collKey
  if n = 0 then s
  else
    let p := s.fld F.CT_SLOG_PTR_PROD 0
    if (p + 2 ^ 24 - s.fld F.CT_SLOG_PTR_CONS 0) % 2 ^ 24 = 2 ^ n then s.incSat F.CT_SLOG_PTR_DROPS 0 1
    else
      let img := put 0 1 0x10 + put 1 1 kind + put 2 2 rank + put 4 4 k.gid + put 8 4 k.redId + put 0xC 4 included + put 0x10 8 k.step + put 0x18 8 (s.now 4)
      ((s.putMem (s.fld F.CT_SLOG_BASE_BASE 0 <<< 5 + 32 * (p % 2 ^ n)) img 32).setFld F.CT_SLOG_PTR_PROD 0 (p + 1)).wire s 20

/-- A collective ends here: its key is remembered for duplicates of its frames. -/
def State.collEnd (s : State) (r : CmdRef) (status detail : Nat) : State :=
  match s.cmd r with
  | some c => ({ s with coll := { s.coll with ended := (c.collKey :: s.coll.ended).take 64 } }.modColl r (fun w => { w with flows := [], parts := [], leaf := [] })).finish r status detail
  | none => s

/-- A command ends with GROUP_FAULT (R385, R386). -/
def State.groupFaultEnd (s : State) (r : CmdRef) (rank cause : Nat) : State :=
  match s.cmd r with
  | some c => (s.incSat F.CT_ERR_FAULTS 0 1).collEnd r 0x0501 (rank % 2 ^ 16 + cause <<< 16 + c.collKey.redId <<< 32)
  | none => s

/-- A flow that ends with an ABORT: frames not sent yet are dropped for it. -/
def Flow.aborted (fl : Flow) (f : CFrame) : Flow :=
  let n := (fl.nextSeq + 2 ^ 32 - fl.queued.length) % 2 ^ 32
  { fl with nextSeq := (n + 1) % 2 ^ 32, queued := [{ f with seq := n }] }

/-- The ABORT frame of a command. -/
def Cmd.abortFrame (c : Cmd) (dst rank cause : Nat) : CFrame := c.frame 14 dst 0 4 (cause + put 2 2 rank) false false

/-- ABORT to ranks, each at the end of its flow, which outlives the command (R373, R386). -/
def State.sendAbort (s : State) (c : Cmd) (ranks : List Nat) (rank cause : Nat) : State :=
  { s with coll := { s.coll with served := s.coll.served ++ ranks.map (fun d =>
      (c.collKey, (c.cw.flow d).aborted (c.abortFrame d rank cause))) } }.pumpServed

/-- Rank 0 takes the first fault of a collective: ABORT goes down the tree of block 0 and the command ends; another member passes
the ABORT on and ends. -/
def State.abortDown (s : State) (r : CmdRef) (rank cause : Nat) : State :=
  match s.cmd r with
  | some c => (s.sendAbort c (kidsOf c.cw.group.n 0 c.cw.group.rank) rank cause).groupFaultEnd r rank cause
  | none => s

/-- This member detects a fault (R386): rank 0 acts on it; another member sends ABORT to rank 0 and ends when one comes back, or at once
where rank 0 cannot be reached. SLICE_FETCH is no exchange of the whole group and ends alone. -/
def State.collFault (s : State) (r : CmdRef) (rank cause : Nat) (unreachable : Bool) : State :=
  match s.cmd r with
  | none => s
  | some c =>
    if c.opcode = 0x6009 then s.groupFaultEnd r rank cause
    else if c.cw.group.rank = 0 then s.abortDown r rank cause
    else if unreachable then (s.sendAbort c [0] rank cause).groupFaultEnd r rank cause
    else if c.cw.aborting.isSome then s
    else (s.modColl r (fun w => { w.setFlow ((w.flow 0).aborted (c.abortFrame 0 rank cause)) with aborting := some (rank, cause) })).pumpColl r

/-- A collective's effect `k` after its reads of the given spans: poison ends it (R238, R269). -/
def State.collReading (s : State) (r : CmdRef) (spans : List (Nat × Nat)) (k : State → State) : State :=
  let t := s.fetchSpans r spans
  match t.firstBad spans with
  | some pa => t.collEnd r 0x0300 pa
  | none => k t

/-! ## Wire formats (R377) -/

/-- q: the wire value of an FP32 value, and whether WB8 clamped it. `e` is the chunk exponent. -/
def wireQ (wire : Nat) (e : Int) (v : Val) : Nat × Bool :=
  if wire = 0 then (fp32Bits v, false)
  else if wire = 1 then (((Target.float fBf16).convert v 2 none).raw, false)
  else match v with
    | .nan => (0, false)
    | .inf n => (unsigned (if n then -127 else 127) 8, true)
    | .fin n m x =>
      let k := roundRne m (x - e) 0
      (unsigned (if n then -(min k 127 : Nat) else (min k 127 : Nat)) 8, decide (127 < k))

/-- deq: the value of a wire value. -/
def wireDeq (wire : Nat) (e : Int) (w : Nat) : Val :=
  if wire = 0 then fp32Val w else if wire = 1 then bf16Val w else (Val.ofInt (signed w 8)).scale e

/-- The chunk exponent of an element. -/
def CollWork.expOf (w : CollWork) (i : Nat) : Int := signed (if w.exps.length = 1 then w.exps.getD 0 0 else w.exps.getD (i / 4096) 0) 8

/-- Address of an element of a tensor, in descriptor order. -/
def Td.elemAddr (d : Td) (i : Nat) : Nat :=
  let row := i / d.e 0
  d.rowAddr (row % d.e 1) (row / d.e 1 % d.e 2) (row / d.e 1 / d.e 2) + i % d.e 0 * (d.fmt.elemBits / 8)

/-- The elements of an FP32 or BF16 tensor, decoded. -/
def State.tensorElems (s : State) (c : Cmd) (d : Td) : List Elem := d.rows.flatMap (fun q => s.rowElems c d q.1 q.2.1 q.2.2)

/-! ## The leaf, the blocks and D (R377, R383, R384) -/

/-- Whether a rank is in the mask. -/
def CollWork.included (w : CollWork) (i : Nat) : Bool := match w.mask with | some m => m.testBit i | none => false
/-- Number of ranks in the mask. -/
def CollWork.count (w : CollWork) : Nat := popCount (w.mask.getD 0) w.group.n

/-- Whether a hold record is valid. -/
def State.holdValid (s : State) (c : Cmd) : Bool := decide (c.holdAddr ≠ 0) && holdSet (s.readMem c.holdAddr 64)

/-- local(i) of R377 as FP32 bits. -/
def State.localValues (s : State) (c : Cmd) : List Nat :=
  let xs := (s.tensorElems c c.srcTd).map (·.val)
  if s.holdValid c then xs.zipIdx.map (fun p => fp32Bits (formFp32.add p.1 (fp32Val (s.readMem (c.holdAddr + 64 + 4 * p.2) 4))).1)
  else xs.map fp32Bits

/-- A write of D waits in staging. -/
def State.holdWrite (s : State) (r : CmdRef) (x : DWrite) : State := s.modColl r (fun w => { w with dwait := w.dwait ++ [x] })

/-- Writes wire values of a result into D from element `i` on, element numbers of the reduction; `base` is the number of D's first. -/
def State.writeResult (s : State) (r : CmdRef) (c : Cmd) (base i : Nat) (ws : List Nat) : State :=
  let d := c.dstTd
  let w := c.cw
  let (s, cn) := ws.zipIdx.foldl (fun (t : State × Counts) p =>
    let v := wireDeq c.wire (w.expOf (i + p.2)) p.1
    let x := d.fmt.target.convert v d.ovp none
    (t.1.hubWrites (d.elemAddr (i + p.2 - base)) x.raw (d.fmt.elemBits / 8), t.2.bump x.cls)) (s, {})
  s.modCmd r (fun x => { (x.addCounts (16 + d.fmt.code) cn) with wrote := true })

/-- Wire values of a result go to D, or wait while a stack there is in protective self-refresh (R389). -/
def State.putResult (s : State) (r : CmdRef) (c : Cmd) (base i : Nat) (ws : List Nat) : State :=
  let d := c.dstTd
  if s.asleep ((List.range ws.length).map (fun k => (d.elemAddr (i + k - base), d.fmt.elemBits / 8))) then s.holdWrite r (.result base i ws)
  else s.writeResult r c base i ws

/-- The sum of a block at this rank, from its leaf and its children's partial sums in stride order (R377). -/
def blockSum (c : Cmd) (w : CollWork) (b : Nat) : List Val :=
  let n := w.group.n
  let (lo, hi) := blockRange c.elems n b
  let kids := kidsOf n b w.group.rank
  (List.range (hi - lo)).map (fun k =>
    let i := lo + k
    let x := if w.included w.group.rank then fp32Val (w.leaf.getD i 0) else .zero
    kids.foldl (fun x ch => (formFp32.add x (wireDeq c.wire (w.expOf i) (Tab.get 0 w.parts (ch * 2 ^ 44 + i)))).1) x)

/-- Neighbouring pieces of one chunk each that agree in saturation, two to a frame. -/
def pairChunks (sat : Nat → Bool) : List (Nat × List Nat) → List (Nat × List Nat)
  | a :: b :: rest =>
    if sat (a.1 / 4096) = sat (b.1 / 4096) then (a.1, a.2 ++ b.2) :: pairChunks sat rest else a :: pairChunks sat (b :: rest)
  | xs => xs

/-- The frames that carry the wire values of a block, at most 8,192 payload bytes each. SAT marks a frame of saturated chunks; a frame holds
no saturated chunk beside one that is not (DESIGN CHOICE, log 64). -/
def Cmd.blockFrames (c : Cmd) (typ dst lo : Nat) (sat : Nat → Bool) (qs : List Nat) : List CFrame :=
  let wb := wireBytes c.wire
  let per := min 4096 (8192 / wb)
  let pieces := (chunksOf per qs.length qs).zipIdx.map (fun p => (lo + per * p.2, p.1))
  let parts := if wb = 1 then pairChunks sat pieces else pieces
  parts.zipIdx.map (fun p =>
    c.frame typ dst (p.1.1 / 4096) (wb * p.1.2.length) (packFields (8 * wb) p.1.2) (sat (p.1.1 / 4096)) (decide (p.2 + 1 = parts.length)))

/-- Whether every child's partial sum of a block is here. -/
def CollWork.blockReady (c : Cmd) (w : CollWork) (b : Nat) : Bool :=
  let (lo, hi) := blockRange c.elems w.group.n b
  ¬ w.leafDue && (kidsOf w.group.n b w.group.rank).all (fun ch => decide (Tab.get 0 w.upCount (b * 4096 + ch) = hi - lo))

/-- A block whose partial sums are complete goes to the parent; at the root its result is formed, written and sent down. -/
def State.settleBlock (s : State) (r : CmdRef) (b : Nat) : State :=
  match s.cmd r with
  | none => s
  | some c =>
    let w := c.cw
    let n := w.group.n
    let me := w.group.rank
    let (lo, hi) := blockRange c.elems n b
    let mark (s : State) : State := s.modColl r (fun w => { w with settled := b :: w.settled })
    if lo = hi then mark s
    else
      let xs := blockSum c w b
      let qs := xs.zipIdx.map (fun p => wireQ c.wire (w.expOf (lo + p.2)) p.1)
      let chunks := ((qs.zipIdx.filter (·.1.2)).map (fun p => (lo + p.2) / 4096)).eraseDups
      let satur := (chunks ++ w.satur).eraseDups
      let s := s.modColl r (fun w => { w with satur := satur })
      let ws := qs.map (·.1)
      match parentOf n b me with
      | some p => (mark s).flowSend r (c.blockFrames 4 p lo (satur.contains ·) ws)
      | none =>
        let s := mark s
        let s := s.putResult r c (if c.opcode = 0x6002 then lo else 0) lo ws
        if c.opcode = 0x6001 then
          let s := s.modColl r (fun w => { w with downCount := Tab.set 0 w.downCount b (hi - lo) })
          s.flowSend r ((kidsOf n b me).flatMap (fun k => c.blockFrames 5 k lo (satur.contains ·) ws))
        else s

/-! ## Side data (R379) -/

/-- The saturated chunks that a rank brings into the summary: those of the block whose result it forms, so that each counts once. -/
def Cmd.satHere (c : Cmd) : List Nat :=
  let w := c.cw
  w.satur.filter (fun k => decide (k / ceilDiv (ceilDiv c.elems 4096) w.group.n = w.group.rank))

/-- The memory that the side data of a command occupies: its side block, the amax words and the census rows. -/
def State.sideSpans (s : State) (c : Cmd) : List (Nat × Nat) :=
  if ¬ (c.f 0x71 1).testBit 0 then []
  else
    let b := s.readMem c.sideAddr 64
    [(c.sideAddr, 64), (leBits b 0 47 0, 4 * min 4096 (le b 8 4)), (leBits b 0x10 47 0, 64 * min 1024 (le b 0x18 4))].filter (fun p => p.2 ≠ 0)

/-- A rank's side data: saturated chunks, the lowest one, amax words, then five counters for each census row. -/
def State.sideLocal (s : State) (c : Cmd) : List Nat :=
  let w := c.cw
  let low := c.satHere.foldl min 0xFFFFFFFF
  let head := [c.satHere.length, low]
  if ¬ (c.f 0x71 1).testBit 0 then head
  else
    let b := s.readMem c.sideAddr 64
    let an := min 4096 (le b 8 4); let cn := min 1024 (le b 0x18 4)
    let inn := w.included w.group.rank
    head ++ (List.range an).map (fun k => if inn then s.readMem (leBits b 0 47 0 + 4 * k) 4 else 0)
      ++ (List.range (5 * cn)).map (fun k => if inn then s.readMem (leBits b 0x10 47 0 + 64 * (k / 5) + 8 * (k % 5)) 8 else 0)

/-- Number of amax words of a side block. -/
def State.sideAmax (s : State) (c : Cmd) : Nat := if (c.f 0x71 1).testBit 0 then min 4096 (s.readMem (c.sideAddr + 8) 4) else 0

/-- Two ranks' side data combined, entry by entry. -/
def sideJoin (an : Nat) (xs ys : List Nat) : List Nat :=
  xs.zipIdx.map (fun p =>
    let y := ys.getD p.2 0
    if p.2 = 0 then (p.1 + y) % 2 ^ 32 else if p.2 = 1 then min p.1 y else if p.2 < 2 + an then max p.1 y else (p.1 + y) % 2 ^ 64)

/-- Side data as payload bytes, and back (log 23). -/
def sideBytes (an : Nat) (xs : List Nat) : Nat × Nat :=
  let body := packFields 32 (xs.take (2 + an)) + packFields 64 (xs.drop (2 + an)) <<< (32 * (2 + an))
  (body, 4 * (2 + an) + 8 * (xs.length - (2 + an)))
def sideWords (an len bytes : Nat) : List Nat :=
  (List.range (2 + an)).map (fun k => le bytes (4 * k) 4) ++ (List.range ((len - 4 * (2 + an)) / 8)).map (fun k => le bytes (4 * (2 + an) + 8 * k) 8)

/-- The frames of side data, at most 8,192 payload bytes each. -/
def Cmd.sideFrames (c : Cmd) (typ dst bytes len : Nat) : List CFrame :=
  let n := ceilDiv len 8192
  (List.range n).map (fun k => c.frame typ dst k (min 8192 (len - 8192 * k)) (le bytes (8192 * k) (min 8192 (len - 8192 * k))) false (decide (k + 1 = n)))

/-- The combined side data replaces this member's. -/
def State.sideApply (s : State) (r : CmdRef) (c : Cmd) (xs : List Nat) : State :=
  let s := s.modColl r (fun w => { w with sat := xs.getD 0 0, satLow := xs.getD 1 0xFFFFFFFF, sideDone := true })
  if ¬ (c.f 0x71 1).testBit 0 then s
  else
    let b := s.readMem c.sideAddr 64
    let an := min 4096 (le b 8 4); let cn := min 1024 (le b 0x18 4)
    let s := (List.range an).foldl (fun (t : State) k => t.hubWrites (leBits b 0 47 0 + 4 * k) (xs.getD (2 + k) 0) 4) s
    (List.range (5 * cn)).foldl (fun (t : State) k => t.hubWrites (leBits b 0x10 47 0 + 64 * (k / 5) + 8 * (k % 5)) (xs.getD (2 + an + k) 0) 8) s

/-- Side data goes up once every block is settled and every child's is here; the root sends the combined values down. -/
def State.sideStep (s : State) (r : CmdRef) : State :=
  match s.cmd r with
  | none => s
  | some c =>
    let w := c.cw
    let n := w.group.n; let me := w.group.rank
    let kids := kidsOf n 0 me
    let here (k : Nat) : Option (Nat × Nat) := (w.sideIn.find? (fun x => x.1 = k ∧ x.2.2.2)).map (fun x => (x.2.1, x.2.2.1))
    if w.sideSent ∨ w.mask.isNone ∨ w.settled.length < n ∨ kids.any (fun k => (here k).isNone) ∨ s.asleep (s.sideSpans c) then s
    else s.collReading r (s.sideSpans c) (fun s =>
      let an := s.sideAmax c
      let xs := kids.foldl (fun xs k => let (b, len) := (here k).getD (0, 0); sideJoin an xs (sideWords an len b)) (s.sideLocal c)
      let (b, len) := sideBytes an xs
      let s := s.modColl r (fun w => { w with sideSent := true })
      match parentOf n 0 me with
      | some p => s.flowSend r (c.sideFrames 6 p b len)
      | none => (s.sideApply r c xs).flowSend r (kids.flatMap (fun k => c.sideFrames 7 k b len)))

/-! ## Completion (R383 to R387) -/

/-- Nothing of a command's flows waits or stands unacknowledged. -/
def CollWork.drained (w : CollWork) : Bool := w.flows.all (fun f => f.unacked.isEmpty && f.queued.isEmpty)

/-- The result record (R387). -/
def State.resultRecord (s : State) (c : Cmd) (kept : Bool) : State :=
  let w := c.cw
  let n := w.group.n
  let red := c.isReduction
  let mask := if red then w.mask.getD 0 else 2 ^ n - 1
  let cnt := popCount mask n
  let flags := b2n (decide (cnt ≠ n)) + 2 * b2n (decide (w.sat ≠ 0)) + 4 * b2n (¬ mask.testBit w.group.rank) + 8 * b2n kept
  if c.resultAddr = 0 then s
  else s.hubWrites c.resultAddr (put 1 1 1 + put 2 1 flags + put 4 2 n + put 6 2 cnt + put 8 4 w.sat + put 0xC 4 (if w.sat = 0 then 0 else w.satLow)
    + put 0x10 8 w.tMask + put 0x18 8 (s.now 4) + mask <<< 512) (resultLen n)

/-- Whether an excluded member keeps its contribution for the next step (R383). -/
def Cmd.holdsBack (c : Cmd) : Bool := ¬ c.cw.included c.cw.group.rank && decide (c.cw.group.policy = 1 ∧ c.holdAddr ≠ 0)

/-- Ends a reduction whose work is done (R383 to R387). -/
def State.endReduction (s : State) (r : CmdRef) : State :=
  match s.cmd r with
  | none => s
  | some c =>
    let w := c.cw
    let n := w.group.n; let me := w.group.rank
    let k := c.collKey
    let inn := w.included me
    let s :=
      if c.holdsBack then
        let vals := w.kept.getD (s.localValues c)
        let e := c.elems
        let t := s.hubWrites c.holdAddr (put 1 1 1 + put 2 1 1 + put 4 4 k.redId + put 8 8 k.step + put 0x10 8 e + packFields 32 vals <<< 512) (64 + 4 * e)
        t.slog c 3 me w.count
      else if ¬ inn then s.slog c 4 me w.count
      else if w.heldIn then s.hubWrites (c.holdAddr + 2) 0 1 else s
    let s := s.resultRecord c false
    let out := n - w.count
    let low := (lowest n (fun i => ¬ w.included i)).getD 0
    if w.sat ≠ 0 then s.collEnd r 0x0502 (w.sat + w.satLow <<< 32)
    else if out ≠ 0 then s.collEnd r 0x0500 (out % 2 ^ 16 + low <<< 16 + (b2n (¬ inn)) <<< 32)
    else s.collEnd r 0 0

/-- The records that a command writes at its end: its hold record and its result record. -/
def Cmd.recordSpans (c : Cmd) : List (Nat × Nat) :=
  (if c.holdAddr = 0 then [] else [(c.holdAddr, 64 + 4 * c.elems)]) ++ (if c.resultAddr = 0 then [] else [(c.resultAddr, resultLen c.cw.group.n)])

/-- Looks at a reduction: side data, then its end. -/
def State.redStep (s : State) (r : CmdRef) : State :=
  let s := s.sideStep r
  match s.cmd r with
  | none => s
  | some c =>
    let w := c.cw
    let n := w.group.n
    let whole : Bool := if c.opcode = 0x6001 then
        (List.range n).all (fun b => let (lo, hi) := blockRange c.elems n b; decide (Tab.get 0 w.downCount b = hi - lo))
      else true
    if c.phase = .running ∧ w.aborting.isNone ∧ w.mask.isSome ∧ w.settled.length = n ∧ whole ∧ w.sideDone ∧ w.drained ∧ w.dwait = [] ∧ ¬ w.leafDue
        ∧ (w.arrived ∨ ¬ c.holdsBack) ∧ ¬ s.asleep c.recordSpans then s.endReduction r
    else s

/-- Settles every block whose partial sums are complete. -/
def State.settleBlocks (s : State) (r : CmdRef) : State :=
  let n := (s.cw r).group.n
  ((List.range n).foldl (fun (t : State) b =>
    match t.cmd r with
    | some c => if c.cw.settled.contains b ∨ ¬ CollWork.blockReady c c.cw b then t else t.settleBlock r b
    | none => t) s).redStep r

/-! ## Arrival and mask (R380 to R382) -/

/-- What local(i) is read from. -/
def State.localSpans (s : State) (c : Cmd) : List (Nat × Nat) := c.srcTd.spans ++ if s.holdValid c then [(c.holdAddr, 64 + 4 * c.elems)] else []

/-- Reads local(i) and counts the elements of S that it decodes (R191); the read waits for a stack in protective self-refresh (R248). -/
def State.readLocal (s : State) (r : CmdRef) (c : Cmd) (k : List Nat → State → State) : State :=
  if s.asleep (s.localSpans c) then s.modColl r (fun w => { w with leafDue := true })
  else s.collReading r (s.localSpans c) (fun s =>
    let vals := s.localValues c
    let es := s.tensorElems c c.srcTd
    k vals ((s.modCmd r (fun x => x.countElems c.srcTd.fmt es)).modColl r (fun w => { w with leafDue := false })))

/-- An excluded member that has arrived and keeps its contribution reads local(i) before its D is written (R377, R383). -/
def State.keepLocal (s : State) (r : CmdRef) (k : State → State) : State :=
  match s.cmd r with
  | none => s
  | some c =>
    if c.holdsBack ∧ c.cw.arrived ∧ c.cw.mask.isSome ∧ c.cw.kept.isNone then
      s.readLocal r c (fun vals s => k (s.modColl r (fun w => { w with kept := some vals })))
    else k s

/-- The member holds the mask: its leaf is read and reduction data flows (R377). -/
def State.takeLeaf (s : State) (r : CmdRef) : State :=
  match s.cmd r with
  | none => s
  | some c =>
    let me := c.cw.group.rank
    if c.cw.included me then
      s.readLocal r c (fun vals s =>
        let held := s.holdValid c
        let s := s.modColl r (fun w => { w with leaf := vals, heldIn := held })
        (if held then s.slog c 5 me c.cw.count else s).settleBlocks r)
    else s.keepLocal r (fun s => s.settleBlocks r)

/-- The member holds GO (R382). -/
def State.beginData (s : State) (r : CmdRef) (mask tMask : Nat) : State :=
  (s.modColl r (fun w => { w with mask := some mask, tMask := tMask, lastSeen := s.time })).takeLeaf r

/-- Rank 0 fixes the mask and sends GO down the tree of block 0 (R382). A Brake holds it. -/
def State.fixMask (s : State) (r : CmdRef) : State :=
  match s.cmd r with
  | none => s
  | some c =>
    let w := c.cw
    let n := w.group.n
    if s.braking ∨ w.mask.isSome ∨ w.group.rank ≠ 0 ∨ w.aborting.isSome then s
    else
      let inn := (List.range n).filter (fun i => w.got.contains i ∧ ¬ w.lates.contains i)
      let mask := inn.foldl (fun m i => m + 2 ^ i) 0
      if mask = 0 then s.collFault r 0 6 false
      else
        let s := ((List.range n).filter (fun i => ¬ inn.contains i)).foldl (fun (t : State) i => t.slog c 2 i inn.length) s
        let pl := 4 + ceilDiv n 8
        let s := s.flowSend r ((kidsOf n 0 0).map (fun k => c.frame 3 k 0 pl (put 0 2 inn.length + put 2 2 n + mask <<< 32) false false))
        s.beginData r mask (s.now 4)

/-- Rank 0 fixes the mask once every rank has arrived or sent LATE. -/
def State.tryMask (s : State) (r : CmdRef) : State :=
  let w := s.cw r
  if w.started ∧ w.group.rank = 0 ∧ (List.range w.group.n).all (fun i => w.got.contains i || w.lates.contains i) then s.fixMask r else s

/-- The member arrives (R380). -/
def State.arriveNow (s : State) (r : CmdRef) : State :=
  match s.cmd r with
  | none => s
  | some c =>
    let w := c.cw
    let s := s.modColl r (fun w => { w with arrived := true })
    let s := if w.mask.isSome then s.keepLocal r (fun s => s.redStep r) else s
    if w.late then s
    else if w.group.rank = 0 then (if w.mask.isSome then s else (s.modColl r (fun w => { w with got := 0 :: w.got })).tryMask r)
    else if ((s.cmd r).map (·.phase)) = some .running then s.flowSend r [c.frame 1 0 0 8 w.group.gsig false false]
    else s

/-- The member sends LATE (R380): final. -/
def State.lateNow (s : State) (r : CmdRef) : State :=
  match s.cmd r with
  | none => s
  | some c =>
    let w := c.cw
    let s := (s.modColl r (fun w => { w with late := true })).slog c 1 w.group.rank 0
    if w.group.rank = 0 then (s.modColl r (fun w => { w with lates := 0 :: w.lates })).tryMask r
    else s.flowSend r [c.frame 2 0 0 0 0 false false]

/-- A ReadOnce of the ready word (R380). -/
def State.readyPoll (s : State) (r : CmdRef) : State :=
  match s.cmd r with
  | none => s
  | some c =>
    if c.readyAddr = 0 then s.arriveNow r
    else if s.asleep [(c.readyAddr, 8)] then s
    else s.collReading r [(c.readyAddr, 8)] (fun s => if c.f 0x98 8 ≤ s.readMem c.readyAddr 8 then s.arriveNow r else s)

/-- Whether DEADLINE is reached. -/
def State.deadlinePast (s : State) (c : Cmd) : Bool := decide (c.deadline ≠ 0 ∧ c.deadline ≤ s.now 4)

/-! ## Data collectives (R390, R391) -/

/-- The pieces of a part of a row, elements `n0` to `n0 + n - 1`: address and length of the elements, the scales and the shifts. -/
def Td.segs (d : Td) (row n0 n : Nat) : List (Nat × Nat) :=
  let a := d.rowAddr (row % d.e 1) (row / d.e 1 % d.e 2) (row / d.e 1 / d.e 2)
  let f := d.fmt
  let bl := f.blockLen
  let so := f.scaleOff (d.e 0)
  let tot := d.e 0 / bl
  [(a + n0 * f.elemBits / 8, n * f.elemBits / 8)] ++
    (if f.rowed then [(a + so + n0 / bl * f.scaleBytes, n / bl * f.scaleBytes)] else []) ++
    (if f = .vb4 then [(a + so + tot * f.scaleBytes + 3 * (n0 / bl), 3 * (n / bl))] else [])

/-- The pieces of a whole tensor, in order. -/
def Td.image (d : Td) : List (Nat × Nat) := (List.range (d.e 1 * d.e 2 * d.e 3)).flatMap (fun row => d.segs row 0 (d.e 0))

/-- The pieces of block `b` of `n` equal blocks of a tensor along its last dimension. -/
def Td.blockImage (d : Td) (n b : Nat) : List (Nat × Nat) :=
  if d.rank = 1 then let m := d.e 0 / n; d.segs 0 (b * m) m
  else
    let rows := d.e 1 * d.e 2 * d.e 3 / n
    (List.range rows).flatMap (fun k => d.segs (b * rows + k) 0 (d.e 0))

def imageLen (g : List (Nat × Nat)) : Nat := (g.map (·.2)).sum

/-- Bytes `off` to `off + n - 1` of an image as pieces of memory. -/
def imageCut : List (Nat × Nat) → Nat → Nat → List (Nat × Nat)
  | [], _, _ => []
  | (a, l) :: g, off, n =>
    if n = 0 then []
    else if l ≤ off then imageCut g (off - l) n
    else
      let k := min n (l - off)
      (a + off, k) :: imageCut g 0 (n - k)

/-- The bytes of pieces of memory, and a write of them. -/
def State.gatherSegs (s : State) (g : List (Nat × Nat)) : Nat := g.foldr (fun p acc => s.readMem p.1 p.2 + acc <<< (8 * p.2)) 0
def State.scatterSegs (s : State) (g : List (Nat × Nat)) (v : Nat) : State :=
  (g.foldl (fun (t : State × Nat) p => (t.1.hubWrites p.1 (t.2 % 2 ^ (8 * p.2)) p.2, t.2 >>> (8 * p.2))) (s, v)).1

/-- 8 KiB units of an image. -/
def unitsOf (g : List (Nat × Nat)) : Nat := ceilDiv (imageLen g) 8192
def unitCut (g : List (Nat × Nat)) (k : Nat) : List (Nat × Nat) := imageCut g (8192 * k) (min 8192 (imageLen g - 8192 * k))

/-- Where the units of block `b` of D lie: the whole of D, except for ALLGATHER. -/
def Cmd.dstImage (c : Cmd) (b : Nat) : List (Nat × Nat) :=
  if c.opcode = 0x6003 then c.dstTd.blockImage c.cw.group.n b else c.dstTd.image

/-- Units that D takes in all. -/
def Cmd.unitsAll (c : Cmd) : Nat := if c.opcode = 0x6003 then c.cw.group.n * unitsOf (c.dstImage 0) else unitsOf (c.dstImage 0)

/-- Root of the tree that a unit of D travels, and its ranks that take it next from this one. -/
def Cmd.unitKids (c : Cmd) (unit : Nat) : List Nat :=
  let g := c.cw.group
  if c.opcode = 0x6003 then kidsOf g.n (unit / unitsOf (c.dstImage 0)) g.rank
  else if c.opcode = 0x6004 then kidsOf g.n (c.f 0x76 2) g.rank
  else []

/-- Where a unit of D lies. -/
def Cmd.unitSegs (c : Cmd) (unit : Nat) : List (Nat × Nat) :=
  let per := unitsOf (c.dstImage 0)
  let b := if c.opcode = 0x6003 then unit / per else 0
  unitCut (c.dstImage b) (if c.opcode = 0x6003 then unit % per else unit)

/-- A unit of D is written; while a stack there is in protective self-refresh it waits (R389). -/
def State.putUnit (s : State) (r : CmdRef) (c : Cmd) (unit data : Nat) : State :=
  if s.asleep (c.unitSegs unit) then s.holdWrite r (.unit unit data)
  else ((s.scatterSegs (c.unitSegs unit) data).wrote r).modColl r (fun w => { w with units := unit :: w.units })

/-- Pads every row of D with zeros (R93). -/
def State.padRows (s : State) (d : Td) : State :=
  if d.rowLen = d.usedLen then s
  else d.rows.foldl (fun (t : State) q => t.hubWrites (d.rowAddr q.1 q.2.1 q.2.2 + d.usedLen) 0 (d.rowLen - d.usedLen)) s

/-- Ends a data collective whose D is written and whose frames are acknowledged (R387, R390). -/
def State.dataStep (s : State) (r : CmdRef) : State :=
  match s.cmd r with
  | none => s
  | some c =>
    let w := c.cw
    if c.phase ≠ .running ∨ w.aborting.isSome ∨ w.leafDue ∨ w.units.length < c.unitsAll ∨ ¬ w.drained
      ∨ s.asleep (c.recordSpans ++ [(c.dstTd.base, if c.dstTd.rowLen = c.dstTd.usedLen then 0 else c.dstTd.spanLen)]) then s
    else
      let d := c.dstTd
      let s := s.padRows d
      let keep := c.opcode = 0x6003 ∧ (c.f 0x71 1).testBit 1
      let pinned : Bool := decide keep && (s.hintFault .pin d.base d.spanLen).isNone
      let s := if pinned then
          let fs := s.framesOf d.base d.spanLen
          s.sendHint (s.hoistsOf d.base) { cmd := none, kind := .pin, range := fs, raise := fs }
        else s
      (s.resultRecord c pinned).collEnd r 0 0

/-- Units of PERMUTE in place that were staged and may now be written: their outgoing units are acknowledged (R391). -/
def State.permuteStep (s : State) (r : CmdRef) : State :=
  match s.cmd r with
  | none => s
  | some c =>
    let w := c.cw
    let out (k : Nat) : Bool := w.flows.any (fun f => (f.unacked ++ f.queued).any (fun x => decide (x.typ = 8 ∧ x.index = k)))
    let go := w.staged.filter (fun p => ¬ out p.1)
    let s := s.modColl r (fun w => { w with staged := w.staged.filter (fun p => out p.1) })
    (go.foldl (fun (t : State) p => t.putUnit r c p.1 p.2) s).dataStep r

/-- The start of a data collective: this rank's own units go to D and to the next ranks. -/
def State.startData (s : State) (r : CmdRef) : State :=
  match s.cmd r with
  | none => s
  | some c =>
    let g := c.cw.group
    let src := c.srcTd.image
    let dest := if c.opcode = 0x6005 then c.cw.ptab.getD g.rank 0 else g.rank
    let mine : Bool := c.opcode = 0x6003 || c.opcode = 0x6005 || c.f 0x76 2 = g.rank
    if ¬ mine then s.dataStep r
    else if s.asleep c.srcTd.spans then s.modColl r (fun w => { w with leafDue := true })
    else s.collReading r c.srcTd.spans (fun s =>
      let s := s.modColl r (fun w => { w with leafDue := false })
      let units := (List.range (unitsOf src)).map (fun k => (k, s.gatherSegs (unitCut src k), imageLen (unitCut src k)))
      let base := if c.opcode = 0x6003 then g.rank * unitsOf src else 0
      if c.opcode = 0x6005 ∧ dest ≠ g.rank then
        s.flowSend r (units.map (fun u => c.frame 8 dest u.1 u.2.2 u.2.1 false false))
      else
        let s := units.foldl (fun (t : State) u => t.putUnit r c (base + u.1) u.2.1) s
        let fs := units.flatMap (fun u => (c.unitKids (base + u.1)).map (fun d => c.frame 8 d (base + u.1) u.2.2 u.2.1 false false))
        (s.flowSend r fs).dataStep r)

/-! ## The commands -/

/-- A collective begins: its flows take the credits already granted, and it grants its own (R373). -/
def startColl (r : CmdRef) (op : Nat) (s : State) : State :=
  s.run r op (fun c =>
    let w := c.cw
    let g := w.group
    let key := c.collKey
    let mine := s.coll.grants.filter (fun x => x.1 = key)
    let s := { s with coll := { s.coll with grants := s.coll.grants.filter (fun x => x.1 ≠ key) } }
    let s := (s.modColl r (fun w => mine.foldl (fun w x => w.setFlow { w.flow x.2.1 with credits := x.2.2 })
      { w with started := true, lastSeen := s.time })).phaseCmd r .running
    let s := ((List.range g.n).filter (· ≠ g.rank)).foldl (fun (t : State) i => t.ackPeer r g.vc i) (s.pumpColl r)
    if c.isReduction then
      let s := (s.readyPoll r).tryMask r
      if g.rank = 0 ∧ s.deadlinePast c then s.fixMask r else s
    else s.startData r)

/-- ALLREDUCE (R375 to R389). -/
def execAllreduce (r : CmdRef) (s : State) : Host.Outcome State Fault Refusal := ok (startColl r 0x6001 s)
/-- REDUCE_SCATTER (R375 to R389). -/
def execReduceScatter (r : CmdRef) (s : State) : Host.Outcome State Fault Refusal := ok (startColl r 0x6002 s)
/-- ALLGATHER (R390). -/
def execAllgather (r : CmdRef) (s : State) : Host.Outcome State Fault Refusal := ok (startColl r 0x6003 s)
/-- BROADCAST (R390). -/
def execBroadcast (r : CmdRef) (s : State) : Host.Outcome State Fault Refusal := ok (startColl r 0x6004 s)
/-- PERMUTE (R391). -/
def execPermute (r : CmdRef) (s : State) : Host.Outcome State Fault Refusal := ok (startColl r 0x6005 s)

/-- Runs a step of a collective in progress. -/
def State.withColl (s : State) (r : CmdRef) (k : Cmd → State) : State :=
  match s.cmd r with
  | some c => if s.running ∧ c.phase = .running ∧ c.opcode / 4096 = 6 ∧ c.cw.started then k c else s
  | none => s

/-- READY_WORD_POLL (R380). -/
def execReadyWordPoll (r : CmdRef) (s : State) : Host.Outcome State Fault Refusal :=
  ok (s.withColl r (fun c => if c.isReduction ∧ ¬ c.cw.arrived then s.readyPoll r else s))

/-- AUTO_LATE: the lead time before DEADLINE is reached without arrival (R380). -/
def execAutoLate (r : CmdRef) (s : State) : Host.Outcome State Fault Refusal :=
  ok (s.withColl r (fun c =>
    let lead := c.cw.leadUs
    if c.isReduction ∧ ¬ c.cw.arrived ∧ ¬ c.cw.late ∧ lead ≠ 0 ∧ c.deadline ≠ 0 ∧ c.deadline ≤ s.now 4 + 1000 * lead then s.lateNow r else s))

/-- MASK_DEADLINE: rank 0's global time reaches DEADLINE (R382). -/
def execMaskDeadline (r : CmdRef) (s : State) : Host.Outcome State Fault Refusal :=
  ok (s.withColl r (fun c => if c.isReduction ∧ s.deadlinePast c then s.fixMask r else s))

def checksLate (c : Cmd) : Checks :=
  let g := c.f 0x10 1
  Checks.all [lenIs c 1, unlisted c [(0x10, 1), (0x14, 12)], failRsv (g.testBit 6 ∨ (¬ g.testBit 7 ∧ 8 ≤ g % 64)) 0x10]

/-- LATE (R381): a matching collective that has issued and has not arrived sends its notice, also where it has sent one before. -/
def execLate (r : CmdRef) (s : State) : Host.Outcome State Fault Refusal :=
  ok (s.run r 0x6006 (fun c =>
    if s.noStaging then s.finish r 0x0104 0
    else
      let slot := (s.resolve (c.f 0x10 1)).map (·.1)
      match s.cmds.find? (fun x => decide (x.phase = .running ∨ x.phase = .issued) && x.isReduction && (match x.work with
          | .coll w => ¬ w.arrived && decide (slot = some w.slot ∧ x.f 0x78 4 = c.f 0x14 4 ∧ x.f 0x80 8 = c.f 0x18 8)
          | _ => false)) with
      | some x => (s.lateNow x.ref).finish r 0 0
      | none => s.finish r 0x0104 (c.f 0x14 4)))

/-- The ranks whose frames a collective needs for its progress (R386), in order. -/
def Cmd.lacking (c : Cmd) : List Nat :=
  let w := c.cw
  let g := w.group
  let among (p : Nat → Bool) : List Nat := (List.range g.n).filter (fun i => decide (i ≠ g.rank) && p i)
  if c.opcode = 0x6009 then [c.f 0x12 2]
  else if c.isReduction then
    if w.mask.isNone then
      among (fun i => if g.rank = 0 then ¬ w.got.contains i && ¬ w.lates.contains i else decide (parentOf g.n 0 g.rank = some i))
    else among (fun i => (List.range g.n).any (fun b =>
      let (lo, hi) := blockRange c.elems g.n b
      (decide (i ∈ kidsOf g.n b g.rank) && decide (Tab.get 0 w.upCount (b * 4096 + i) ≠ hi - lo))
        || (decide (c.opcode = 0x6001 ∧ parentOf g.n b g.rank = some i) && decide (Tab.get 0 w.downCount b ≠ hi - lo)))
      || (! w.sideSent && decide (i ∈ kidsOf g.n 0 g.rank) && ! w.sideIn.any (fun x => decide (x.1 = i) && x.2.2.2))
      || (w.sideSent && ! w.sideDone && decide (parentOf g.n 0 g.rank = some i)))
  else if c.opcode = 0x6005 then if w.units.length + w.dwait.length < c.unitsAll then among (fun i => decide (w.ptab.getD i 0 = g.rank)) else []
  else if c.opcode = 0x6004 then
    if w.units.length + w.dwait.length < c.unitsAll then among (fun i => decide (parentOf g.n (c.f 0x76 2) g.rank = some i)) else []
  else
    let per := unitsOf (c.dstImage 0)
    let here (u : Nat) : Bool := w.units.contains u || w.dwait.any (fun x => match x with | .unit v _ => decide (v = u) | _ => false)
    among (fun i => (List.range g.n).any (fun b =>
      decide (parentOf g.n b g.rank = some i) && (List.range per).any (fun k => ! here (b * per + k))))

/-- When a collective last had a frame of a rank, or began to wait for it. -/
def CollWork.seen (w : CollWork) (i : Nat) : Nat := max w.lastSeen (Tab.get 0 w.seenAt i)

/-- The lowest rank that has kept a collective waiting for FAULT_US (R386). -/
def State.silent (s : State) (c : Cmd) : Option Nat := c.lacking.find? (fun i => decide (c.cw.seen i + 1000 * c.cw.group.faultUs ≤ s.time))

/-- Runs a step of a gang BRAKE in progress. -/
def State.withGang (s : State) (r : CmdRef) (k : Cmd → Group → State) : State :=
  match s.cmd r, s.gangGroup with
  | some c, some g => if s.running ∧ c.phase = .running ∧ c.opcode = 0x0005 ∧ ¬ s.braking then k c g else s
  | _, _ => s

/-- Whether a gang BRAKE has waited for FAULT_US. -/
def State.gangLate (s : State) (c : Cmd) (g : Group) : Bool := decide (c.gang.2.2 + 1000 * g.faultUs ≤ s.time)

/-- A member's BRAKE frame goes again, or its flow fails after 7 retransmissions (R373). -/
def State.gangRetry (s : State) (c : Cmd) (g : Group) (peer : Nat) : State :=
  let (t, w, x) := c.gang
  match w.find? (fun p => p.1 = peer) with
  | none => s
  | some p =>
    if 7 ≤ p.2 then s.gangFault c peer 5
    else
      let s := s.modCmd c.ref (fun d => { d with work := .gang t (w.map (fun y => if y.1 = peer then (y.1, y.2 + 1) else y)) x })
      (s.incSat F.CT_ERR_RETRANS 0 1).sendColl [s.brakeFrame c g t peer]

/-- PROGRESS_TIMEOUT: no frame needed for progress within FAULT_US (R386). A Brake pauses the timer (R464). -/
def execProgressTimeout (r : CmdRef) (s : State) : Host.Outcome State Fault Refusal :=
  ok ((s.withColl r (fun c =>
    if s.braking then s else match s.silent c with | some i => s.collFault r i 1 false | none => s)).withGang r
      (fun c g => if s.gangLate c g then s.gangFault c ((c.gang.2.1.map (·.1)).foldl min 0xFFFF) 1 else s))

/-- A flow after a retransmission. -/
def Flow.retried (f : Flow) : Flow := { f with retries := f.retries + 1 }

/-- Retransmits a flow without a command; it is given up after 7 retransmissions (R373, log 20). -/
def State.retryServed (s : State) (i : Nat) : State :=
  match s.coll.served[i]? with
  | none => s
  | some p =>
    if s.braking ∨ p.2.unacked.isEmpty then s
    else if 7 ≤ p.2.retries then { s with coll := { s.coll with served := s.coll.served.eraseIdx i } }
    else
      let s := s.incSat F.CT_ERR_RETRANS 0 1
      ({ s with coll := { s.coll with served := s.coll.served.set i (p.1, p.2.retried) } }).sendColl p.2.unacked

/-- COLLECTIVE_RETRANSMIT: RTO_US without an acknowledgement (R373). Queue 512 names the flows
without a command, by their number (log 20). -/
def execCollectiveRetransmit (r : CmdRef) (peer : Nat) (s : State) : Host.Outcome State Fault Refusal :=
  ok (if r.q = 512 then (if s.running then s.retryServed r.idx else s)
  else (s.withGang r (fun c g => s.gangRetry c g peer)).withColl r (fun c =>
    let f := c.cw.flow peer
    if s.braking ∨ f.unacked.isEmpty then s
    else if 7 ≤ f.retries then s.collFault r peer 5 (peer = 0)
    else ((s.incSat F.CT_ERR_RETRANS 0 1).modColl r (fun w => w.setFlow f.retried)).sendColl f.unacked))

/-- Since when no port of network A has been UP, if none is. -/
def State.portsDownAt (s : State) : Nat := (List.range 4).foldl (fun (m : Nat) p => max m (s.port p).downAt) 0

/-- NO_PORT_UP_TIMEOUT: no network A port is UP for FAULT_US (R386). -/
def execNoPortUpTimeout (r : CmdRef) (s : State) : Host.Outcome State Fault Refusal :=
  ok ((s.withColl r (fun c =>
    if s.braking ∨ s.portA.isSome ∨ s.time < max c.cw.lastSeen s.portsDownAt + 1000 * c.cw.group.faultUs then s else s.collFault r c.cw.group.rank 7 true)).withGang r
      (fun c g => if s.portA.isSome ∨ ¬ s.gangLate c g then s else s.gangFault c g.rank 7))

/-! ## SLICE_FETCH (R393) -/

def checksSliceFetch (s : State) (c : Cmd) : Checks :=
  let g := c.f 0x10 1
  let n := c.f 0x28 8
  Checks.all [lenIs c 2, unlisted c [(0x10, 1), (0x12, 2), (0x18, 24)], failRsv (g.testBit 6 ∨ (¬ g.testBit 7 ∧ 8 ≤ g % 64)) 0x10,
    addrRsv c.pkt 0x18, failAdr (c.fb 0x18 47 0 % 64 ≠ 0) 0x18 (c.fb 0x18 47 0), failLen (n = 0 ∨ n % 64 ≠ 0 ∨ 2 ^ 32 < n) 0x28,
    if n ≤ 2 ^ 32 then s.addrCheck .mover c 0x20 64 n else addrRsv c.pkt 0x20]

/-- A fetch begins: FETCH_REQ names REMOTE and LENGTH, and stands first in its flow to the peer (log 20). -/
def State.startFetch (s : State) (r : CmdRef) : State :=
  match s.cmd r with
  | none => s
  | some c =>
    let g := c.cw.group
    let peer := c.f 0x12 2
    let q : CFrame := { c.frame 10 peer 0 16 (c.fb 0x18 47 0 + c.f 0x28 8 <<< 64) false true with vc := c.cw.ctrlVc, src := g.rank }
    let s := (s.modColl r (fun w => { w with started := true, lastSeen := s.time, flows := [{ peer := peer, nextSeq := 1, unacked := [q] }] })).phaseCmd r .running
    (s.account r (fun a => { a with wireBytes := a.wireBytes + 16 })).sendColl [q]

/-- SLICE_FETCH (R393). -/
def execSliceFetch (r : CmdRef) (s : State) : Host.Outcome State Fault Refusal := ok (s.run r 0x6009 (fun _ => s.startFetch r))

end Sys2Proof.Machine
end

