-- ==== Sys2Proof/Machine/Frames.lean ====
section
/-! DEFINITION. The collective frames a device receives on network A (R372, R373): what each does to the collective that it names. -/
namespace Sys2Proof.Machine

/-- Whether a port takes collective frames. -/
def State.takes (s : State) (p : Fin 4) : Bool := s.running && decide (s.fld F.PORT_STATUS_STATE p.val = 2)

def CFrame.key (f : CFrame) : CollKey := { gid := f.gid, redId := f.redId, step := f.step }

/-- A frame that R372 or R396 discards. -/
def State.discard (s : State) : State := s.incSat F.CT_ERR_DISCARD 0 1

/-- Whether SEQ `a` comes before SEQ `b`, modulo 2^32. -/
def seqBefore (a b : Nat) : Bool := decide (2 ^ 31 ≤ (a + 2 ^ 32 - b) % 2 ^ 32)

/-- A frame that a port takes as one of a type: `k` acts on it. A frame of an unknown type or an unsupported major version is discarded
(R28, R347, R372). -/
def State.withFrame (s : State) (p : Fin 4) (f : CFrame) (typ : Nat) (k : State → State) : State :=
  if ¬ s.takes p then s
  else s.rxUdp p.val f.rx (s.fld F.CT_CFG_UDP_PORT 0) (fun s =>
    if f.typ = 0 ∨ 14 < f.typ ∨ f.major ≠ 1 then s.discard
    else if f.typ ≠ typ then s
    else k s)

/-- Whether frames of a type are written to memory: they are acknowledged when their lines are globally performed (R373). -/
def CFrame.stored (f : CFrame) : Bool := decide (f.typ = 5 ∨ f.typ = 8 ∨ f.typ = 11)

/-- The virtual channel of a command's acknowledgements. -/
def Cmd.ackVc (c : Cmd) : Nat := if c.opcode = 0x6009 then c.cw.ctrlVc else c.cw.group.vc

/-- A frame of a flow that a command has taken is acknowledged, unless its write of D, or an earlier one of the flow, waits (R373, R389). -/
def State.ackFrame (s : State) (r : CmdRef) (f : CFrame) (n : Nat) : State :=
  match s.cmd r with
  | some c =>
    let fl := c.cw.flow f.src
    if c.phase ≠ .running then s.sendAck (CFrame.key f) f.vc f.dst f.src n (s.fld F.CT_CFG_WINDOW 0)
    else if c.cw.dwait ≠ [] ∧ (CFrame.stored f ∨ (fl.ackSeq + 1) % 2 ^ 32 ≠ n) then s
    else (s.modColl r (fun w => w.setFlow { w.flow f.src with ackSeq := n })).ackPeer r f.vc f.src
  | none => s.sendAck (CFrame.key f) f.vc f.dst f.src n (s.fld F.CT_CFG_WINDOW 0)

/-- A frame of a flow (R373): the next in order is processed by `k` and acknowledged; an earlier one is acknowledged again; a later
one is not taken. A frame of a collective that is not issued here gets no answer, and one of an unknown group is discarded. -/
def State.accept (s : State) (p : Fin 4) (f : CFrame) (typ : Nat) (k : Cmd → State → State) : State :=
  s.withFrame p f typ (fun s => match s.collOf (CFrame.key f) with
    | some c =>
      let fl := c.cw.flow f.src
      if f.seq = fl.recvSeq then
        let n := (fl.recvSeq + 1) % 2 ^ 32
        let s := s.modColl c.ref (fun w => { w.setFlow { w.flow f.src with recvSeq := n } with seenAt := Tab.set 0 w.seenAt f.src s.time })
        (k c s).ackFrame c.ref f n
      else if seqBefore f.seq fl.recvSeq then s.ackPeer c.ref f.vc f.src
      else s
    | none =>
      if s.coll.ended.contains (CFrame.key f) then s.sendAck (CFrame.key f) f.vc f.dst f.src ((f.seq + 1) % 2 ^ 32) (s.fld F.CT_CFG_WINDOW 0)
      else if s.groups.any (fun g => g.gid = f.gid) then s
      else s.discard)

/-- ARRIVE at rank 0 (R382, R386, R388). -/
def execArrive (p : Fin 4) (f : CFrame) (s : State) : Host.Outcome State Fault Refusal :=
  ok (s.accept p f 1 (fun c s =>
    let w := c.cw
    if ¬ c.isReduction ∨ w.group.rank ≠ 0 then s
    else if le f.data 0 4 ≠ w.group.gsig then s.collFault c.ref f.src 2 false
    else if w.mask.isSome then s.slog c 6 f.src w.count
    else (s.modColl c.ref (fun w => { w with got := f.src :: w.got })).tryMask c.ref))

/-- LATE_FRAME at rank 0 (R382, R388). -/
def execLateFrame (p : Fin 4) (f : CFrame) (s : State) : Host.Outcome State Fault Refusal :=
  ok (s.accept p f 2 (fun c s =>
    let w := c.cw
    if ¬ c.isReduction ∨ w.group.rank ≠ 0 then s
    else if w.mask.isSome then s.slog c 6 f.src w.count
    else (s.modColl c.ref (fun w => { w with lates := f.src :: w.lates })).tryMask c.ref))

/-- GO: the mask reaches this member, goes on down the tree of block 0, and data may flow (R382). The spec gives T_MASK no way to
reach a rank other than 0: it is a free value there (log 6). -/
def execGo (p : Fin 4) (f : CFrame) (s : State) : Host.Outcome State Fault Refusal :=
  ok (s.accept p f 3 (fun c s =>
    let g := c.cw.group
    if ¬ c.isReduction ∨ c.cw.mask.isSome then s
    else
      let (t, s) := s.draw 5
      let s := s.flowSend c.ref ((kidsOf g.n 0 g.rank).map (fun k => c.frame 3 k 0 f.plen f.data false false))
      s.beginData c.ref (le f.data 4 (ceilDiv g.n 8)) (t % 2 ^ 64)))

/-- Chunks in a block of R376. -/
def blockChunks (e n : Nat) : Nat := ceilDiv (ceilDiv e 4096) n

/-- The wire values of a frame. -/
def CFrame.wires (f : CFrame) (wire : Nat) : List Nat :=
  let wb := wireBytes wire
  (List.range (f.plen / wb)).map (fun k => le f.data (wb * k) wb)

/-- UP: a child's partial sum is staged, and the chunks that SAT marks as saturated are noted (R379); a block that is whole goes on (R377). -/
def execUp (p : Fin 4) (f : CFrame) (s : State) : Host.Outcome State Fault Refusal :=
  ok (s.accept p f 4 (fun c s =>
    let g := c.cw.group
    if ¬ c.isReduction then s
    else
      let b := f.index / blockChunks c.elems g.n
      let lo := (blockRange c.elems g.n b).1
      let ws := CFrame.wires f c.wire
      let s := s.modColl c.ref (fun w =>
        let cnt := Tab.get 0 w.upCount (b * 4096 + f.src)
        let first := (lo + cnt) / 4096
        let sat := if f.sat then (List.range (ceilDiv (lo + cnt + ws.length) 4096 - first)).map (· + first) else []
        { w with satur := (sat ++ w.satur).eraseDups, parts := ws.zipIdx.foldl (fun (t : Tab Nat) q => Tab.set 0 t (f.src * 2 ^ 44 + lo + cnt + q.2) q.1) w.parts,
                 upCount := Tab.set 0 w.upCount (b * 4096 + f.src) (cnt + ws.length) })
      if (s.cw c.ref).mask.isSome then s.settleBlocks c.ref else s))

/-- DOWN: results of a block are written to D and go on down its tree (R377). -/
def execDown (p : Fin 4) (f : CFrame) (s : State) : Host.Outcome State Fault Refusal :=
  ok (s.accept p f 5 (fun c s =>
    let g := c.cw.group
    if c.opcode ≠ 0x6001 then s
    else
      let b := f.index / blockChunks c.elems g.n
      let cnt := Tab.get 0 c.cw.downCount b
      let ws := CFrame.wires f c.wire
      let s := s.putResult c.ref c 0 ((blockRange c.elems g.n b).1 + cnt) ws
      let s := s.modColl c.ref (fun w => { w with downCount := Tab.set 0 w.downCount b (cnt + ws.length) })
      (s.flowSend c.ref ((kidsOf g.n b g.rank).map (fun k => c.frame 5 k f.index f.plen f.data f.sat f.last))).redStep c.ref))

/-- Side data of a rank grows by a frame; LAST makes it whole. -/
def CollWork.sideTake (w : CollWork) (f : CFrame) : CollWork :=
  let old := (w.sideIn.find? (fun x => x.1 = f.src)).getD (f.src, 0, 0, false)
  { w with sideIn := (f.src, old.2.1 + f.data <<< (8 * old.2.2.1), old.2.2.1 + f.plen, f.last) :: w.sideIn.filter (fun x => x.1 ≠ f.src) }

/-- SIDE_UP: side data of a child (R379). -/
def execSideUp (p : Fin 4) (f : CFrame) (s : State) : Host.Outcome State Fault Refusal :=
  ok (s.accept p f 6 (fun c s => if ¬ c.isReduction then s else (s.modColl c.ref (fun w => w.sideTake f)).redStep c.ref))

/-- SIDE_DOWN: the combined side data (R379). -/
def execSideDown (p : Fin 4) (f : CFrame) (s : State) : Host.Outcome State Fault Refusal :=
  ok (s.accept p f 7 (fun c s =>
    if ¬ c.isReduction then s
    else
      let g := c.cw.group
      let s := s.modColl c.ref (fun w => w.sideTake f)
      match (s.cw c.ref).sideIn.find? (fun x => x.1 = f.src ∧ x.2.2.2) with
      | none => s
      | some x => s.collReading c.ref (s.sideSpans c) (fun s =>
        let s := s.sideApply c.ref c (sideWords (s.sideAmax c) x.2.2.1 x.2.1)
        (s.flowSend c.ref ((kidsOf g.n 0 g.rank).flatMap (fun k => c.sideFrames 7 k x.2.1 x.2.2.1))).redStep c.ref)))

/-- XFER: a unit of a data collective (R390, R391). -/
def execXfer (p : Fin 4) (f : CFrame) (s : State) : Host.Outcome State Fault Refusal :=
  ok (s.accept p f 8 (fun c s =>
    if c.opcode = 0x6005 ∧ c.srcTd.base = c.dstTd.base then
      (s.modColl c.ref (fun w => { w with staged := w.staged ++ [(f.index, f.data)] })).permuteStep c.ref
    else if c.opcode = 0x6003 ∨ c.opcode = 0x6004 ∨ c.opcode = 0x6005 then
      let s := s.putUnit c.ref c f.index f.data
      (s.flowSend c.ref ((c.unitKids f.index).map (fun d => c.frame 8 d f.index f.plen f.data false false))).dataStep c.ref
    else s))

/-- A flow after an acknowledgement: frames up to INDEX are done, and the peer grants `credits` frames beyond it (R373). -/
def Flow.acked (fl : Flow) (index credits : Nat) : Flow :=
  let rest := fl.unacked.filter (fun x => seqBefore index x.seq)
  { fl with unacked := rest, credits := credits - rest.length, retries := if rest.length < fl.unacked.length then 0 else fl.retries }

/-- A unit of a SLICE_FETCH is written with InvWrite, or waits for a stack in protective self-refresh; the last one ends the command (R393). -/
def State.putFetch (s : State) (r : CmdRef) (c : Cmd) (k len data : Nat) : State :=
  let a := c.fb 0x20 47 0 + 8192 * k
  if s.asleep [(a, len)] then s.holdWrite r (.fetch k len data)
  else
    let s := ((s.hubWrites a data len).wrote r).modColl r (fun w => { w with units := k :: w.units })
    if ceilDiv (c.f 0x28 8) 8192 ≤ (s.cw r).units.length then s.collEnd r 0 0 else s

/-- Looks at a collective whose flows have changed. -/
def State.collStep (s : State) (r : CmdRef) : State :=
  match s.cmd r with
  | some c =>
    let t := if c.isReduction then s.redStep r else if c.opcode = 0x6005 then s.permuteStep r else if c.opcode = 0x6009 then s else s.dataStep r
    t.regrant r
  | none => s

/-- The writes of D that waited are tried again; once none waits, what was withheld is acknowledged (R373, R389). -/
def State.drainD (s : State) (r : CmdRef) : State :=
  match s.cmd r with
  | none => s
  | some c =>
    let s := c.cw.dwait.foldl (fun (t : State) x => match x with
      | .result b i ws => t.putResult r c b i ws
      | .unit u d => t.putUnit r c u d
      | .fetch k len d => t.putFetch r c k len d) (s.modColl r (fun w => { w with dwait := [] }))
    let w := s.cw r
    if w.dwait ≠ [] ∨ ((s.cmd r).map (·.phase)) ≠ some .running then s
    else (w.flows.filter (fun f => f.ackSeq ≠ f.recvSeq)).foldl (fun (t : State) f =>
      (t.modColl r (fun w => w.setFlow { w.flow f.peer with ackSeq := (w.flow f.peer).recvSeq })).ackPeer r c.ackVc f.peer) s

/-- What of a collective waited for a stack in protective self-refresh goes on: the read of its source, then its writes. -/
def State.wakeColl (s : State) (r : CmdRef) : State :=
  match s.cmd r with
  | some c =>
    if c.phase = .running ∧ c.opcode / 4096 = 6 ∧ c.cw.started then
      let s := if ¬ c.cw.leafDue then s else if c.isReduction then s.takeLeaf r else s.startData r
      (s.drainD r).collStep r
    else s
  | none => s

/-- COLLECTIVE_ACK: cumulative, with credits (R373). Credits granted before this device issues the collective are kept for it. -/
def execCollectiveAck (p : Fin 4) (f : CFrame) (s : State) : Host.Outcome State Fault Refusal :=
  ok (s.withFrame p f 9 (fun s =>
    match s.gangOf (CFrame.key f) with
    | some c => if f.index = 0 then s.gangAck c f.src else s
    | none =>
      let key := CFrame.key f
      let n := le f.data 0 4
      let mine : Bool := match s.collOf key with
        | some c => c.opcode ≠ 0x6009 || ¬ (c.cw.flow f.src).unacked.isEmpty
        | none => false
      match (if mine then s.collOf key else none) with
      | some c =>
        let moved : Bool := decide (((c.cw.flow f.src).acked f.index n).unacked.length < (c.cw.flow f.src).unacked.length)
        let s := s.modColl c.ref (fun w => { w.setFlow ((w.flow f.src).acked f.index n) with seenAt := if moved then Tab.set 0 w.seenAt f.src s.time else w.seenAt })
        (s.pumpColl c.ref).collStep c.ref
      | none =>
        match s.coll.served.findIdx? (fun x => decide (x.1 = key ∧ x.2.peer = f.src)) with
        | some i =>
          let x := s.coll.served.getD i (key, { peer := f.src })
          let y := (x.2.acked f.index n).pump (s.mayPump x.2.vc)
          let served := if y.1.unacked.isEmpty ∧ y.1.queued.isEmpty then s.coll.served.eraseIdx i else s.coll.served.set i (key, y.1)
          ({ s with coll := { s.coll with served := served } }).sendColl y.2
        | none =>
          if s.coll.ended.contains key ∨ (s.collOf key).isSome then s
          else if s.groups.any (fun g => g.gid = f.gid) then
            { s with coll := { s.coll with grants := (key, f.src, n) :: s.coll.grants.filter (fun x => ¬ (x.1 = key ∧ x.2.1 = f.src)) } }
          else s.discard))

/-- The frames of FETCH_DATA for a span, 8 KiB units. -/
def State.fetchFrames (s : State) (f : CFrame) (me remote len : Nat) : List CFrame :=
  let n := ceilDiv len 8192
  (List.range n).map (fun k =>
    let l := min 8192 (len - 8192 * k)
    { typ := 11, vc := s.fld F.CT_CFG_CTRL_VC 0, last := decide (k + 1 = n), gid := f.gid, src := me, dst := f.src, redId := f.redId, step := f.step,
      seq := k, index := k, plen := l, data := s.readMem (remote + 8192 * k) l })

/-- FETCH_REQ: served without a command, from the interleaved range or an aperture (R393). While a stack of the span is in protective
self-refresh the request waits (R248), and the event does not occur (log 2). -/
def execFetchReq (p : Fin 4) (f : CFrame) (s : State) : Host.Outcome State Fault Refusal :=
  ok (s.withFrame p f 10 (fun s =>
    match s.groups.find? (fun g => g.gid = f.gid) with
    | none => s.discard
    | some g =>
      let key := CFrame.key f
      let vc := s.fld F.CT_CFG_CTRL_VC 0
      let remote := le f.data 0 8; let len := le f.data 8 8
      let win := s.fld F.CT_CFG_WINDOW 0
      let serve (s : State) (fs : List CFrame) : State :=
        let s := s.sendAck key vc g.rank f.src 1 win
        let fl : Flow := { peer := f.src, nextSeq := fs.length, queued := fs, credits := win }
        let y := fl.pump (s.mayPump vc)
        ({ s with coll := { s.coll with served := s.coll.served ++ [(key, y.1)] } }).sendColl y.2
      let nak (s : State) (cause : Nat) : State :=
        serve s [{ typ := 12, vc := vc, last := true, gid := f.gid, src := g.rank, dst := f.src, redId := f.redId, step := f.step, plen := 1, data := cause }]
      if s.coll.served.any (fun x => decide (x.1 = key ∧ x.2.peer = f.src)) then s.sendAck key vc g.rank f.src 1 win
      else if ¬ s.flag F.CT_CFG_FETCH_EN 0 ∨ (s.spanFault .words remote len).isSome then nak s 3
      else if s.asleep [(remote, len)] then s
      else
        let s := s.hubReads [(remote, len)]
        match s.firstBad [(remote, len)] with
        | some pa =>
          let s := (nak s 4).report { code := 0x0208, cls := 1, level := 2, unit := unitNet 0, addr := pa, action := 4, detail := put 0 2 p.val + put 2 2 f.src }
          s.placeHold pa
        | none => serve s (s.fetchFrames f g.rank remote len)))

/-- FETCH_DATA: a unit of a SLICE_FETCH (R393). -/
def execFetchData (p : Fin 4) (f : CFrame) (s : State) : Host.Outcome State Fault Refusal :=
  ok (s.accept p f 11 (fun c s => if c.opcode ≠ 0x6009 then s else s.putFetch c.ref c f.index f.plen f.data))

/-- FETCH_NAK: the peer refuses the fetch, or its data is poisoned (R386, R393). -/
def execFetchNak (p : Fin 4) (f : CFrame) (s : State) : Host.Outcome State Fault Refusal :=
  ok (s.accept p f 12 (fun c s => if c.opcode = 0x6009 ∧ c.f 0x12 2 = f.src then s.collFault c.ref f.src (le f.data 0 1) false else s))

/-- ABORT: rank 0 sends the first one down the tree of block 0, and every member ends with its rank and cause (R386). -/
def execAbort (p : Fin 4) (f : CFrame) (s : State) : Host.Outcome State Fault Refusal :=
  ok (s.accept p f 14 (fun c s => s.abortDown c.ref (le f.data 2 2) (le f.data 0 1)))

end Sys2Proof.Machine
end

