-- ==== Sys2Proof/Machine/Network.lean ====
section
/-! DEFINITION. Ports, address resolution, priority flow control and time on the two networks (R343 to R352, R363 to R367). -/
namespace Sys2Proof.Machine

def State.portUp (s : State) (p : Nat) : Bool := decide (s.fld F.PORT_STATUS_STATE p = 2)

/-- The lowest-numbered UP port of a network. -/
def State.lowUp (s : State) (n : Nat) : Option Nat := (lowest 4 (fun k => s.portUp (4 * n + k))).map (4 * n + ·)

/-- Whether a port takes frames. -/
def State.portTakes (s : State) (p : Nat) : Bool := s.running && s.portUp p

/-! ## Queue pairs and ports (R354, R364) -/

def State.qp (s : State) (n q : Nat) : Qp := Tab.get {} (s.net n).qps q
def State.setQp (s : State) (n q : Nat) (x : Qp) : State := s.setNet n { s.net n with qps := Tab.set {} (s.net n).qps q x }

namespace Qp
def pd (x : Qp) : Nat := le x.ctx 4 2
def ctxPort (x : Qp) : Nat := le x.ctx 6 1
def altPort (x : Qp) : Nat := le x.ctx 7 1
def altEn (x : Qp) : Bool := bit (le x.ctx 3 1) 1
def dest (x : Qp) : Nat := leBits x.ctx 8 23 0
def mtu (x : Qp) : Nat := 1024 <<< le x.ctx 0xC 1
def retryMax (x : Qp) : Nat := le x.ctx 0xD 1 % 8
def rnrMax (x : Qp) : Nat := le x.ctx 0xD 1 / 16 % 8
def sqLog (x : Qp) : Nat := le x.ctx 0x38 1
def rqLog (x : Qp) : Nat := le x.ctx 0x39 1
def cqLog (x : Qp) : Nat := le x.ctx 0x3A 1
def sqBase (x : Qp) : Nat := leBits x.ctx 0x30 47 0
def rqBase (x : Qp) : Nat := leBits x.ctx 0x40 47 0
def cqBase (x : Qp) : Nat := leBits x.ctx 0x48 47 0
end Qp

/-- Whether a RoCEv2 requester of a network may start a message on a port now: a Brake stops it (R464), and a pause of its priority
(R351). -/
def State.mayRoce (s : State) (n port : Nat) : Bool :=
  ¬ s.braking && (n ≠ 0 || s.clearToSend port (s.fld F.NET_CFG_ROCE_PCP 0))

/-- Address of a queue pair's context. -/
def State.ctxAddr (s : State) (n q : Nat) : Nat := s.fld F.NET_QPT_BASE n <<< 7 + 128 * q

/-- Whether a network's requests for spans wait at their stacks (R242, R247, R248): the placement of network A is COLL, that of network B
BULK. -/
def State.netWaits (s : State) (n : Nat) (spans : List (Nat × Nat)) : Bool := (s.hotStack (if n = 0 then 4 else 3) spans).isSome

/-- The memory that a queue pair itself needs: its context, the entries next in its queues and its next completion (R354 to R356). -/
def State.qpSpans (s : State) (n q : Nat) : List (Nat × Nat) :=
  let x := s.qp n q
  [(s.ctxAddr n q, 128), (x.sqBase + 64 * (x.sqHead % 2 ^ x.sqLog), 64), (x.rqBase + 32 * (x.rqHead % 2 ^ x.rqLog), 32),
   (x.cqBase + 32 * (x.cqIdx % 2 ^ x.cqLog), 32)]

/-- Local bytes of a message from `off` on, at most `len`. -/
def State.localBytes (s : State) (a off len : Nat) : Nat := s.readMem (a + off) len

/-- Sum of PSNs modulo 2^24, and the distance from `b` to `a`. -/
def psnAdd (a b : Nat) : Nat := (a + b) % 2 ^ 24
def psnSub (a b : Nat) : Nat := (a + 2 ^ 24 - b) % 2 ^ 24

/-- Packets of a message of `len` bytes. -/
def packetsOf (len mtu : Nat) : Nat := max 1 (ceilDiv len mtu)

/-- The packets of a posted send entry from its `k0`-th on (R353, R355); a rejected entry has none. -/
def State.wrFrames (s : State) (x : Qp) (w : SendWr) (k0 : Nat) : List TxFrame :=
  let n := if w.op = 0 then 0 else if w.op = 4 then 1 else packetsOf w.len x.mtu
  ((List.range n).filter (fun k => k0 ≤ k ∨ w.op = 4)).map (fun k =>
    let l := if w.op = 4 then 0 else min x.mtu (w.len - x.mtu * k)
    .roce x.port x.dest w.op
      { qpn := x.dest, psn := psnAdd w.psn k, first := decide (k = 0), last := decide (k + 1 = n), va := w.raddr, rkey := w.rkey, dlen := w.len,
        imm := w.imm, len := l, data := s.localBytes w.laddr (x.mtu * k) l })

/-- Sends everything unacknowledged again, from the oldest PSN (go-back-N, R353); during a Brake that waits (R464), and
while a stack of a local buffer is too hot (R248). -/
def State.resend (s : State) (n q : Nat) : State :=
  let x := s.qp n q
  if s.braking ∨ s.netWaits n ((x.sends.filter (fun w => w.op ≠ 4)).map (fun w => (w.laddr, w.len))) then s.setQp n q { x with owed := true }
  else if ¬ s.portUp x.port then s
  else
    let fs := x.sends.flatMap (fun w =>
      let done := psnSub x.una w.psn
      s.wrFrames x w (if done < 2 ^ 23 then done else 0))
    fs.foldl (fun (t : State) f => t.emit (t.framedQp n q f)) (s.setQp n q { x with owed := false })

/-- Numbers of the queue pairs that are in RTS. -/
def State.liveQps (s : State) (n : Nat) : List Nat := ((s.net n).qps.filter (fun p => decide (p.2.st = 1))).map (·.1)

/-- The queue pairs of a network whose port is not UP move: to ALT_PORT where it is enabled and UP, otherwise to the lowest-numbered
UP port; their requesters retransmit at once (R364). -/
def State.moveQps (s : State) (n : Nat) : State :=
  (s.liveQps n).foldl (fun (t : State) q =>
    let x := t.qp n q
    if t.portUp x.port then t
    else
      let alt := 4 * n + x.altPort
      match (if x.altEn ∧ t.portUp alt then some alt else t.lowUp n) with
      | some p => (t.setQp n q { x with port := p }).resend n q
      | none => t) s

/-! ## Port states (R363) -/

/-- A port changes its state: the record 0x800, the count and the interrupt, which each change asserts anew (R363). Training takes
PORT_CFG (R368); what waited for a paused priority is lost with the link, and its flow sends it again. -/
def State.portState (s : State) (p st reason : Nat) : State :=
  let x := s.port p
  let s := s.setPort p { x with
    changed := true
    cfg := if st = 1 then (s.getR .PORT_CFG p).toNat else x.cfg
    downAt := if s.portUp p ∧ st ≠ 2 then s.time else x.downAt
    waiting := if st = 2 then x.waiting else [] }
  let s := ((s.setFld F.PORT_STATUS_STATE p st).setFld F.PORT_STATUS_REASON p reason).incSat F.PORT_STATUS_TRANSITIONS p 1
  (s.aplicRaise (12 + p)).trace (unitPort p) 0x800 (p + st <<< 4 + reason <<< 8)

/-- An UP or training port leaves service: its traffic moves, and the network's addresses are announced again (R349, R364). -/
def State.portLeaves (s : State) (p st reason : Nat) : State :=
  let was := s.portUp p
  let s := s.portState p st reason
  let s := if reason = 1 ∨ reason = 2 then
      s.report { code := 0x0301, cls := 2, level := 1, unit := unitPort p, detail := put 0 2 p + put 2 2 reason }
    else s
  if ¬ was then s
  else
    let n := netOf p
    let s := s.moveQps n
    match s.lowUp n with
    | none => s
    | some u =>
      let ip4 := s.fld F.NET_IPV4_ADDR n; let ip6 := s.ipv6 n
      if ip4 = 0 ∧ ip6 = 0 then s else s.send (.gratuitous u ip4 ip6)

/-- A port comes UP: what waited for a port goes out. -/
def State.portComesUp (s : State) (p : Nat) : State :=
  let s := s.portState p 2 0
  (s.moveQps (netOf p)).pumpAll

/-- PORT_TRAINING_DONE (R343). While the ROM runs the recovery protocol, P4's training brings its link up (R442). -/
def execPortTrainingDone (p : Fin 8) (s : State) : Host.Outcome State Fault Refusal :=
  ok (if s.pwr.phase = .recovery ∧ p.val = 4 then
        { s with sec := { s.sec with recover := { s.sec.recover with linkUp := true } } }
      else if s.running ∧ s.fld F.PORT_STATUS_STATE p.val = 1 ∧ s.domOn (netDom p.val) then s.portComesUp p.val
      else s)

/-- MODE_MISMATCH: the port stays in TRAINING (R343). -/
def execModeMismatch (p : Fin 8) (s : State) : Host.Outcome State Fault Refusal :=
  ok (if s.fld F.PORT_STATUS_STATE p.val = 1 then s.setFld F.PORT_STATUS_REASON p.val 5 else s)

/-- PORT_LINK_FAULT (R363). -/
def execPortLinkFault (p : Fin 8) (s : State) : Host.Outcome State Fault Refusal :=
  ok (if s.portTakes p.val then s.portLeaves p.val 3 1 else s)

/-- PORT_FEC_FAULT: `n` uncorrected codewords within 1 ms (R363). -/
def execPortFecFault (p : Fin 8) (n : Nat) (s : State) : Host.Outcome State Fault Refusal :=
  let t := s.incSat F.PORT_FEC_TH_UNCORR p.val n
  let th := s.fld F.PORT_FEC_TH_UNCORR_TH p.val
  ok (if ¬ s.portTakes p.val then s else if th ≠ 0 ∧ th < n then t.portLeaves p.val 3 2 else t)

/-- PORT_AUTO_UP_RETRY (R363). -/
def execPortAutoUpRetry (p : Fin 8) (s : State) : Host.Outcome State Fault Refusal :=
  ok (if s.running ∧ s.fld F.PORT_STATUS_STATE p.val = 3 ∧ s.fld F.PORT_STATUS_REASON p.val = 1 ∧ (s.port p.val).cfg.testBit 11
        ∧ s.domOn (netDom p.val) then s.portState p.val 1 0 else s)

/-- SERDES_ADAPT_WINDOW of a receive lane: `corr` symbols corrected on it since its last window (R345). The updates of the last window are
reverted where the count has risen; otherwise accumulated updates are applied. PORT_FEC_CORR counts codewords, a number that the spec does
not tie to the symbols: it grows by a free value no larger than `corr` (log 6). -/
def execSerdesAdaptWindow (p : Fin 8) (corr : Nat) (s : State) (lane : Fin 2 := 0) : Host.Outcome State Fault Refusal :=
  let x := s.port p.val
  let revert : Bool := Tab.get false x.adaptPend lane.val && decide (Tab.get 0 x.corrBase lane.val < corr)
  let (d, t) := s.draw 6
  let t := t.setPort p.val { x with adaptPend := Tab.set false x.adaptPend lane.val (! revert), corrBase := Tab.set 0 x.corrBase lane.val corr }
  ok (if s.portTakes p.val then t.incWrap F.PORT_FEC_CORR_CORR p.val (d % (corr + 1)) else s)

/-! ## Address resolution and discards (R347, R348) -/

/-- ARP_REQUEST (R348). -/
def execArpRequest (p : Fin 8) (target sender mac : Nat) (s : State) (h : RxHdr := {}) : Host.Outcome State Fault Refusal :=
  let own := s.fld F.NET_IPV4_ADDR (netOf p.val)
  ok (if s.portTakes p.val then
      s.rxFrame p.val h (fun s => if own ≠ 0 ∧ target = own then s.send (.arpReply p.val sender mac) else s)
    else s)

/-- NEIGHBOR_SOLICITATION (R348). -/
def execNeighborSolicitation (p : Fin 8) (target sender mac : Nat) (s : State) (h : RxHdr := {}) : Host.Outcome State Fault Refusal :=
  let own := s.ipv6 (netOf p.val)
  ok (if s.portTakes p.val then
      s.rxFrame p.val h (fun s => if own ≠ 0 ∧ target = own then s.send (.naReply p.val sender mac) else s)
    else s)

/-- ICMP_ECHO_REQUEST: up to 1,000 a second and network (R348). -/
def execIcmpEchoRequest (p : Fin 8) (f : EchoReq) (s : State) : Host.Outcome State Fault Refusal :=
  let n := netOf p.val
  let own := s.ownIp n f.v6
  let sec := s.time / 1000000000
  let x := s.net n
  let used := if x.echoSec = sec then x.echoes else 0
  ok (if s.portTakes p.val then
      s.rxFrame p.val f.rx (fun s =>
        if own = 0 ∨ f.target ≠ own ∨ 1000 ≤ used then s
        else (s.setNet n { x with echoes := used + 1, echoSec := sec }).send (.echoReply p.val f.sender f.mac f.ident f.len f.data f.v6))
    else s)

/-- UNSUPPORTED_PROTOCOL_FRAME: a frame of `len` bytes of a protocol that no chapter defines (R347, R348). -/
def execUnsupportedProtocolFrame (p : Fin 8) (h : RxHdr) (len : Nat) (s : State) : Host.Outcome State Fault Refusal :=
  ok (if s.portTakes p.val then s.rxFrame p.val { h with len := len } (fun s => s.incSat F.NET_DROPS_PROTO (netOf p.val) 1) else s)

/-! ## Priority flow control (R351, R352) -/

/-- Nanoseconds of a number of quanta, rounded up. -/
def quantaNs (q : Nat) : Nat := ceilDiv (q * 256) 100

/-- Takes a pause of one priority. -/
def State.pausePrio (s : State) (p prio quanta : Nat) : State :=
  s.setPort p { s.port p with pausedTill := Tab.set 0 (s.port p).pausedTill prio (if quanta = 0 then 0 else s.time + quantaNs quanta) }

/-- Share of a priority in a port's 4 MiB receive buffer, in bytes (R351). -/
def pfcShare (en : Nat) : Nat := 4194304 / max 1 (popCount en 8)

/-- PFC_XOFF_REPEAT: the level of a priority's receive buffer, which the surroundings give: at XOFF_KIB the port sends quanta 0xFFFF,
again at each repeat, and quanta 0 once it has fallen to XON_KIB (R351). -/
def execPfcXoffRepeat (p : Fin 8) (prio : Fin 8) (bytes : Nat) (s : State) : Host.Outcome State Fault Refusal :=
  let x := s.port p.val
  let was := Tab.get false x.xoff prio.val
  let exceeds : Bool := decide (1024 * s.fld F.PORT_PFC_XOFF_KIB p.val ≤ bytes)
  let under : Bool := decide (bytes ≤ 1024 * s.fld F.PORT_PFC_XON_KIB p.val)
  let now : Bool := exceeds || (was && ¬ under)
  let t := s.setPort p.val { x with buffered := Tab.set 0 x.buffered prio.val bytes, xoff := Tab.set false x.xoff prio.val now }
  ok (if ¬ s.portTakes p.val ∨ 4 ≤ p.val then s
      else if ¬ (s.fld F.PORT_PFC_EN p.val).testBit prio.val then s.setPort p.val { x with buffered := Tab.set 0 x.buffered prio.val bytes }
      else if now then t.send (.pfc p.val prio.val 0xFFFF)
      else if was then t.send (.pfc p.val prio.val 0)
      else t)

/-! ## Time (R366, R367, R451, R452) -/

/-- PTP_EVENT_MESSAGE: a message received is time-stamped and passed to firmware; one that firmware sends is stamped and goes out (R366).
The stamp is corrected by the fixed delay of the port's mode: the message passed the measurement point earlier than it was seen, and
passes it later than it is handed over. -/
def execPtpEventMessage (p : Fin 8) (seqId : Nat) (s : State) (sent : Bool := false) (h : RxHdr := {}) : Host.Outcome State Fault Refusal :=
  let d := Config.ptpDelay ((s.port p.val).cfg % 4)
  let stamp := if sent then s.now 4 + d else s.now 4 - d
  let note (s : State) : State := s.setPort p.val { s.port p.val with stamps := (stamp :: (s.port p.val).stamps).take 128, stampSeq := seqId }
  ok (if ¬ s.portTakes p.val then s
      else if sent then (note s).send (.ptp p.val seqId stamp)
      else s.rxFrame p.val h note)

/-- PPS_IN_EDGE (R367). -/
def execPpsInEdge (s : State) : Host.Outcome State Fault Refusal :=
  ok (if s.running then s.setFld F.NET_PPS_IN_TIME 0 (s.now 4) else s)

/-- PPS_OUT_PULSE: at a multiple of 1,000,000,000 the output rises; 100 µs later it falls (R367). -/
def execPpsOutPulse (s : State) : Host.Outcome State Fault Refusal :=
  let high : Bool := decide (s.time % 1000000000 < 100000)
  ok { s with pwr := { s.pwr with ppsOut := s.running && s.flag F.NET_TIME_CFG_PPS_OUT_EN 0 && high } }

/-- A step of the time base (R367): refused while a Brake is scheduled. -/
def State.timeStep (s : State) (v : Nat) : State :=
  if s.fld F.OBS_BRAKE_STATE 0 = 1 then (s.setFld F.NET_TIME_STAT_REFUSED 0 1).traceFree (unitTime) 0x801
  else ({ s with time := s.time + v % 2 ^ 64 }).incSat F.NET_TIME_STAT_STEPS 0 1

/-- NET_TIME_STEP_WRITE: firmware alone (R367, R368). -/
def execNetTimeStepWrite (a : Agent) (v : Nat) (s : State) : Host.Outcome State Fault Refusal :=
  ok (if ¬ s.running then s else if Agent.firmware a then s.timeStep v else s.mmioRefuse 0x700005100110 (unitNet 1) true)

/-- TIME_REPLICA_RESYNC: a replica takes the count of the always-on domain (R452). How exactly is a free value of −1 to 1 ns, so that
any two replicas agree within 2 ns (log 6). -/
def execTimeReplicaResync (k : Fin 37) (s : State) : Host.Outcome State Fault Refusal :=
  let (d, t) := s.draw 7
  ok { t with replicas := Tab.set 0 t.replicas k.val ((d % 3 : Nat) - 1) }

end Sys2Proof.Machine
end

