-- ==== Sys2Proof/Machine/Roce.lean ====
section
/-! DEFINITION. RoCEv2 on both networks (R353 to R362): queue pairs as requester and responder, registered regions, and PORT_CTL. -/
namespace Sys2Proof.Machine

/-- Whether a span lies in the ranges marked for a network's placement in the agent view table (R41): network A the interleaved
range, the apertures and region scratch; network B the interleaved range, the apertures and the doorbell pages. -/
def State.placeable (s : State) (n pa len : Nat) : Bool :=
  decide (len = 0) ||
  match rangeOf s.localGib pa with
  | .ilv => (s.spanFault .words pa len).isNone
  | .apt _ => (s.spanFault .words pa len).isNone
  | .scratch _ => decide (n = 0) && (s.spanFault .mover pa len).isNone
  | .doorbell _ _ => decide (n = 1 ∧ pa + len ≤ 0x780000100000)
  | _ => false

/-- Bytes read at an address that a network may place: a doorbell page gives its register copies (R55). -/
def State.netRead (s : State) (pa len : Nat) : Nat :=
  match rangeOf s.localGib pa with
  | .doorbell q off =>
    (List.range len).foldr (fun k acc =>
      let o := off + k
      let p := q + o / 4096
      let b := o % 4096
      let w := if 8 ≤ b ∧ b < 16 then le (s.getR .Q_PTR p).toNat (b - 8) 1 else if 16 ≤ b ∧ b < 24 then le (s.getR .Q_STATE p).toNat (b - 16) 1 else 0
      w + 256 * acc) 0
  | _ => s.readMem pa len

/-- Bytes placed by a network (R360): a write in a doorbell page acts as R55 and R56 state. One that is refused and runs over two pages is
counted once, for the queue of its first byte (DESIGN CHOICE, log 57). -/
def State.netWrite (s : State) (pa v len : Nat) : State :=
  if len = 0 then s
  else match rangeOf s.localGib pa with
  | .doorbell q off => s.doorbellWrite q off len (le v 0 (min len 8))
  | _ => s.hubWrites pa v len

/-- The registration entry that an RKEY names, if the table holds it (R357). -/
def State.mrSpans (s : State) (n rkey : Nat) : List (Nat × Nat) :=
  if rkey % 65536 < s.fld F.NET_MR_COUNT n then [(s.fld F.NET_MR_BASE n <<< 5 + 32 * (rkey % 65536), 32)] else []

/-- A registration grants an operation of `len` bytes at `va` (R357, R358): right 1 for READ, 2 for WRITE. -/
def State.registered (s : State) (n pd rkey va len right : Nat) : Bool :=
  let i := rkey % 65536
  let e := s.readMem (s.fld F.NET_MR_BASE n <<< 5 + 32 * i) 32
  let base := leBits e 8 47 0
  decide (i < s.fld F.NET_MR_COUNT n) && decide (le e 1 1 = 1) && bit (le e 2 1) 0 && bit (le e 2 1) right
    && decide (le e 6 2 = rkey / 65536 % 65536) && decide (le e 4 2 = pd)
    && decide (base ≤ va ∧ va + len ≤ base + le e 0x10 8) && s.placeable n va len

/-! ## Completions (R356) -/

/-- Writes a completion and its interrupt. -/
def State.complete32 (s : State) (n q status kind wrId bytes imm : Nat) : State :=
  let x := s.qp n q
  let ph := ((x.cqIdx >>> x.cqLog) % 2) ^^^ 1
  let img := put 0 8 wrId + put 8 1 status + put 9 1 kind + put 0xA 1 ph + put 0xC 4 bytes + put 0x10 4 imm + put 0x18 8 (s.now 4)
  let s := s.hubWrites (x.cqBase + 32 * (x.cqIdx % 2 ^ x.cqLog)) img 32
  let s := s.setQp n q { x with cqIdx := x.cqIdx + 1 }
  let irq := le x.ctx 0x50 4
  let eiid := bits irq 19 9
  if eiid = 0 then s else s.msi ((if irq.testBit 8 then 64 else 0) + irq % 64) eiid

/-- Sets the state of a queue pair, in its context too (R354). -/
def State.qpState (s : State) (n q st : Nat) : State :=
  (s.setQp n q { s.qp n q with st := st }).hubWrites (s.ctxAddr n q + 2) st 1

/-- WR_ID of a posted entry that has not started: send entries of 64 bytes, receive entries of 32. -/
def State.sqWrId (s : State) (x : Qp) (i : Nat) : Nat := s.readMem (x.sqBase + 64 * (i % 2 ^ x.sqLog) + 8) 8
def State.rqWrId (s : State) (x : Qp) (i : Nat) : Nat := s.readMem (x.rqBase + 32 * (i % 2 ^ x.rqLog)) 8

/-- The entries of a queue pair that have not started, as spans. -/
def Qp.posted (x : Qp) : List (Nat × Nat) :=
  (List.range (min (sub32 x.sqTail x.sqHead) (2 ^ x.sqLog))).map (fun k => (x.sqBase + 64 * ((x.sqHead + k) % 2 ^ x.sqLog), 64))
    ++ (List.range (min (sub32 x.rqTail x.rqHead) (2 ^ x.rqLog))).map (fun k => (x.rqBase + 32 * ((x.rqHead + k) % 2 ^ x.rqLog), 32))

/-- Completes every outstanding entry of a queue pair with FLUSHED (R356, R362). -/
def State.flushQp (s : State) (n q : Nat) : State :=
  let x := s.qp n q
  let s := s.hubReads x.posted
  let s := x.sends.foldl (fun (t : State) w => t.complete32 n q 1 0 w.wrId 0 0) s
  let s := (List.range (min (sub32 x.sqTail x.sqHead) (2 ^ x.sqLog))).foldl (fun (t : State) k => t.complete32 n q 1 0 (t.sqWrId x (x.sqHead + k)) 0 0) s
  let s := match x.recv with | some m => if m.kind = 1 then s.complete32 n q 1 1 m.wrId 0 0 else s | none => s
  let s := (List.range (min (sub32 x.rqTail x.rqHead) (2 ^ x.rqLog))).foldl (fun (t : State) k => t.complete32 n q 1 1 (t.rqWrId x (x.rqHead + k)) 0 0) s
  s.setQp n q { s.qp n q with sends := [], recv := none, owed := false, sqHead := x.sqTail, rqHead := x.rqTail, back := false, sync := false }

/-- REBALANCE and MR_SYNC commands that no message of a queue pair holds up any longer end (R359, R362). -/
def State.netCommands (s : State) : State :=
  let held (n mode : Nat) : Bool := (s.net n).qps.any (fun p => if mode = 5 then p.2.back else p.2.sync)
  s.cmds.foldl (fun (t : State) c =>
    if c.phase = .running ∧ c.opcode = 0x9004 ∧ 4 ≤ c.f 0x11 1 ∧ ¬ held (c.f 0x12 1) (c.f 0x11 1) then t.finish c.ref 0 0 else t) s

/-- A queue pair enters ERROR (R356): no operation of it is in progress any longer, so the commands that waited for one go on (R359, R362). -/
def State.qpError (s : State) (n q : Nat) : State := ((s.qpState n q 2).flushQp n q).netCommands

/-- A message boundary of a queue pair: a move that REBALANCE waits with takes place, and MR_SYNC goes on. -/
def State.boundary (s : State) (n q : Nat) : State :=
  let x := s.qp n q
  if x.recv.isSome then s
  else
    let p := 4 * n + x.ctxPort
    (s.setQp n q { x with port := if x.back ∧ s.portUp p then p else x.port, back := false, sync := false }).netCommands

/-! ## Requester -/

/-- The oldest waiting send entry is rejected (R355): it completes with an error once every entry before it has, and no later one starts. -/
def State.rejectSend (s : State) (n q : Nat) (w : SendWr) : State :=
  let x := s.qp n q
  let t := s.setQp n q { x with sqHead := (x.sqHead + 1) % 2 ^ 32 }
  if x.sends.isEmpty then (t.complete32 n q 2 0 w.wrId 0 0).qpError n q
  else t.setQp n q { x with sqHead := (x.sqHead + 1) % 2 ^ 32, sends := x.sends ++ [{ w with op := 0, last := w.psn }] }

/-- A send entry starts: its packets leave while its port is up. -/
def State.startWr (s : State) (n q : Nat) (w : SendWr) : State :=
  let x := s.qp n q
  let una := if x.sends.isEmpty then x.sqPsn else x.una
  let t := s.setQp n q { x with sqHead := (x.sqHead + 1) % 2 ^ 32, sqPsn := psnAdd w.last 1, sends := x.sends ++ [w], una := una }
  if t.portUp x.port then (t.wrFrames x w 0).foldl (fun (t : State) f => t.emit (t.framedQp n q f)) t else t

/-- The send entry that the 64 bytes `e` at the head of a queue pair's send queue hold. -/
def Qp.entry (x : Qp) (e : Nat) : SendWr :=
  let len := le e 0x18 4
  { idx := x.sqHead, op := le e 0 1, wrId := le e 8 8, laddr := leBits e 0x10 47 0, len := len, imm := le e 4 4, rkey := le e 0x1C 4,
    raddr := le e 0x20 8, psn := x.sqPsn, last := psnAdd x.sqPsn (packetsOf len x.mtu - 1) }

/-- Starts the oldest waiting send entry where it may start; also whether the next may be tried. -/
def State.sendNext (s : State) (n q : Nat) : State × Bool :=
  let x := s.qp n q
  if x.st ≠ 1 ∨ x.sqHead = x.sqTail ∨ ¬ s.mayRoce n x.port ∨ x.sends.any (fun w => decide (w.op = 0)) then (s, false)
  else
    let at_ := (x.sqBase + 64 * (x.sqHead % 2 ^ x.sqLog), 64)
    let e := s.readMem at_.1 64
    let w := x.entry e
    let reads := (x.sends.filter (fun w => w.op = 4)).length
    if s.netWaits n [at_, (w.laddr, w.len)] ∨ (bit (le e 1 1) 0 ∧ reads ≠ 0) ∨ (w.op = 4 ∧ 16 ≤ reads) then (s, false)
    else
      let s := s.hubReads [at_]
      let bad : Bool := decide (w.op = 0 ∨ 4 < w.op ∨ 2 ^ 31 < w.len) || ¬ s.placeable n w.laddr w.len || (s.firstBad [at_]).isSome
      let t := if bad ∨ w.op = 4 ∨ w.len = 0 then s else s.hubReads [(w.laddr, w.len)]
      if bad ∨ (w.op ≠ 4 ∧ (t.firstBad [(w.laddr, w.len)]).isSome) then (t.rejectSend n q w, false)
      else (t.startWr n q w, true)

/-- Starts posted send entries in order (R355); `fuel` bounds them. A FENCE waits for every earlier READ, and at most 16 READs are
outstanding. A message that cannot be sent for want of an UP port counts as sent and lost (R365). A poisoned local buffer completes
with LOCAL_ERROR (log 24). -/
def State.startSends (s : State) (n q : Nat) : Nat → State
  | 0 => s
  | fuel + 1 =>
    let r := s.sendNext n q
    if r.2 then State.startSends r.1 n q fuel else r.1

/-- Runs the send queue of a queue pair: what it owes first. -/
def State.pumpQp (s : State) (n q : Nat) : State :=
  let x := s.qp n q
  let s := if x.owed then s.resend n q else s
  s.startSends n q (min (sub32 x.sqTail x.sqHead) (2 ^ x.sqLog))

/-- Runs every send queue of the networks. -/
def State.pumpRoce (s : State) : State :=
  [0, 1].foldl (fun (t : State) n => (t.liveQps n).foldl (fun (t : State) q => t.pumpQp n q) t) s

/-- PFC_PAUSE_EXPIRY: the quanta of a paused priority have run out (R351). -/
def execPfcPauseExpiry (p : Fin 8) (prio : Fin 8) (s : State) : Host.Outcome State Fault Refusal :=
  let x := s.port p.val
  let till := Tab.get 0 x.pausedTill prio.val
  ok (if till = 0 ∨ s.time < till then s
      else (((s.setPort p.val { x with pausedTill := Tab.set 0 x.pausedTill prio.val 0 }).unpause p.val).pumpAll).pumpRoce)

/-- PFC_FRAME: enabled priorities are paused for their quanta, or resume at 0; others are ignored and counted (R351). -/
def execPfcFrame (p : Fin 8) (enable : Nat) (quanta : List Nat) (s : State) (h : RxHdr := {}) : Host.Outcome State Fault Refusal :=
  let en := s.fld F.PORT_PFC_EN p.val
  ok (if ¬ s.portTakes p.val then s
      else s.rxFrame p.val h (fun s =>
        if 4 ≤ p.val then s.incSat F.PORT_DROPS_PFC_IGNORED p.val 1
        else
          let mine := (List.range 8).filter (fun k => enable.testBit k ∧ en.testBit k)
          let other : Bool := (List.range 8).any (fun k => enable.testBit k && ¬ en.testBit k)
          let t := mine.foldl (fun (t : State) k => t.pausePrio p.val k (quanta.getD k 0 % 2 ^ 16)) s
          let t := if other then t.incSat F.PORT_DROPS_PFC_IGNORED p.val 1 else t
          (t.unpause p.val).pumpAll.pumpRoce))

/-- What an acknowledgement of a PSN does with the oldest send entry `w`, `rest` being the others; also whether it completed it. -/
def State.ackOldest (s : State) (n q psn : Nat) (w : SendWr) (rest : List SendWr) : State × Bool :=
  let x := s.qp n q
  if w.op = 0 then (((s.setQp n q { x with sends := rest }).complete32 n q 2 0 w.wrId 0 0).qpError n q, false)
  else if w.op = 4 then (if psnSub psn w.psn < 2 ^ 23 ∧ psnSub w.psn x.una < 2 ^ 23 then s.setQp n q { x with una := psnAdd w.psn (w.got / x.mtu) } else s, false)
  else if psnSub psn (psnAdd w.last 1) < 2 ^ 23 then
    ((s.setQp n q { x with sends := rest, una := psnAdd w.last 1, retries := 0, rnr := 0 }).complete32 n q 0 0 w.wrId w.len 0, true)
  else if psnSub psn x.una < 2 ^ 23 ∧ psn ≠ x.una then (s.setQp n q { x with una := psn, retries := 0, rnr := 0 }, false)
  else (s, false)

/-- Completes send entries that stand before `psn`, in order; a READ stands until its response is whole, and an entry that failed
locally ends the queue pair when it comes first. `fuel` bounds the entries. -/
def State.ackTo (s : State) (n q psn : Nat) : Nat → State
  | 0 => s
  | fuel + 1 =>
    match (s.qp n q).sends with
    | [] => s
    | w :: rest =>
      let r := s.ackOldest n q psn w rest
      if r.2 then State.ackTo r.1 n q psn fuel else r.1

/-- The oldest send entry fails: it completes with a status and the queue pair enters ERROR (R356). -/
def State.failSend (s : State) (n q status : Nat) : State :=
  let x := s.qp n q
  match x.sends with
  | [] => s
  | w :: rest => ((s.setQp n q { x with sends := rest }).complete32 n q status 0 w.wrId 0 0).qpError n q

/-- Whether the network of a port has the queue pair in RTS: other packets are counted (R353, R354). QPN 0 and 1 are discarded. While
a stack that holds its queues is too hot the packet waits (R248), and the event does not occur (log 2). -/
def State.roceIn (s : State) (p qpn : Nat) (h : RxHdr) (k : Nat → State → State) : State :=
  let n := netOf p
  if ¬ s.portTakes p then s
  else s.rxUdp p h 4791 (fun s =>
    if qpn < 2 then s
    else if s.fld F.NET_QPT_COUNT n ≤ qpn ∨ (s.qp n qpn).st ≠ 1 then s.incSat F.NET_DROPS_QP n 1
    else if s.netWaits n (s.qpSpans n qpn) then s
    else k n s)

/-- ROCE_ACK: every entry up to `psn` completes (R356). -/
def execRoceAck (p : Fin 8) (qpn psn : Nat) (s : State) (h : RxHdr := {}) : Host.Outcome State Fault Refusal :=
  ok (s.roceIn p.val qpn h (fun n s => (s.ackTo n qpn (psnAdd psn 1) ((s.qp n qpn).sends.length + 1)).pumpQp n qpn))

/-- One more transport retry from the oldest unacknowledged PSN, or RETRY_EXCEEDED (R353). -/
def State.retry (s : State) (n q : Nat) : State :=
  let x := s.qp n q
  if x.retries < x.retryMax then (s.setQp n q { x with retries := x.retries + 1 }).resend n q else s.failSend n q 7

/-- ROCE_NAK (R353, R356, R358): entries before `psn` complete; then go-back-N, an RNR retry, or an error completion. -/
def execRoceNak (p : Fin 8) (qpn psn : Nat) (kind : NakKind) (s : State) (h : RxHdr := {}) : Host.Outcome State Fault Refusal :=
  ok (s.roceIn p.val qpn h (fun n s =>
    let s := s.ackTo n qpn psn ((s.qp n qpn).sends.length + 1)
    let x := s.qp n qpn
    if x.st ≠ 1 ∨ x.sends.isEmpty then s
    else match kind with
    | .sequence => s.retry n qpn
    | .rnr =>
      if x.rnrMax = 7 ∨ x.rnr < x.rnrMax then (s.setQp n qpn { x with rnr := x.rnr + 1 }).resend n qpn else s.failSend n qpn 8
    | .invalid => s.failSend n qpn 6
    | .access => s.failSend n qpn 4
    | .operational => s.failSend n qpn 5))

/-- READ_RESPONSE: the next bytes of the oldest READ are placed locally (R353, R356). -/
def execReadResponse (p : Fin 8) (k : RocePkt) (s : State) : Host.Outcome State Fault Refusal :=
  ok (s.roceIn p.val k.qpn k.rx (fun n s =>
    let t := s.ackTo n k.qpn k.psn ((s.qp n k.qpn).sends.length + 1)
    let x := t.qp n k.qpn
    match x.sends with
    | w :: rest =>
      if t.netWaits n [(w.laddr + w.got, k.len)] then s
      else if x.st ≠ 1 ∨ w.op ≠ 4 ∨ k.psn ≠ psnAdd w.psn (w.got / x.mtu) then t
      else
        let l := min k.len (w.len - w.got)
        let s := t.netWrite (w.laddr + w.got) k.data l
        let got := w.got + l
        if w.len ≤ got then
          let s := (s.setQp n k.qpn { x with sends := rest, una := psnAdd w.last 1, retries := 0 }).complete32 n k.qpn 0 0 w.wrId w.len 0
          (s.ackTo n k.qpn (psnAdd w.last 1) ((s.qp n k.qpn).sends.length + 1)).pumpQp n k.qpn
        else s.setQp n k.qpn { x with sends := { w with got := got } :: rest, una := psnAdd k.psn 1, retries := 0 }
    | [] => t))

/-- ROCE_ACK_TIMEOUT (R353, R365). A Brake pauses it (R464). -/
def execRoceAckTimeout (net : Fin 2) (qpn : Nat) (s : State) : Host.Outcome State Fault Refusal :=
  let x := s.qp net.val qpn
  ok (if ¬ s.running ∨ s.braking ∨ x.st ≠ 1 ∨ x.sends.isEmpty then s else s.retry net.val qpn)

/-- CNP_RECEIVED: discarded and counted (R353). -/
def execCnpReceived (p : Fin 8) (qpn : Nat) (s : State) (h : RxHdr := {}) : Host.Outcome State Fault Refusal :=
  let _ := qpn
  ok (if s.portTakes p.val then s.rxUdp p.val h 4791 (fun s => s.incSat F.NET_DROPS_CNP (netOf p.val) 1) else s)

/-! ## Posting (R355) -/

/-- A write to NET_DB. -/
def State.netDb (s : State) (n v : Nat) (rq : Bool) : State :=
  let q := bits v 59 48
  let x := s.qp n q
  if ¬ s.running ∨ x.st ≠ 1 then s
  else if rq then s.setQp n q { x with rqTail := v % 2 ^ 32 }
  else (s.setQp n q { x with sqTail := v % 2 ^ 32 }).pumpQp n q

/-- NET_DB_SEND (R355). -/
def execNetDbSend (net : Fin 2) (v : Nat) (s : State) : Host.Outcome State Fault Refusal := ok (s.netDb net.val v false)
/-- NET_DB_RECEIVE (R355). -/
def execNetDbReceive (net : Fin 2) (v : Nat) (s : State) : Host.Outcome State Fault Refusal := ok (s.netDb net.val v true)

/-! ## Responder -/

/-- A negative answer: 0 sequence error, 1 invalid request, 2 remote access error, 3 remote operational error, 32 RNR. -/
def State.nak (s : State) (n q code : Nat) : State := let x := s.qp n q; s.emit (s.framedQp n q (.roceNak x.port x.dest x.rqPsn code))
/-- The acknowledgement of everything before the expected PSN. -/
def State.ackNow (s : State) (n q : Nat) : State := let x := s.qp n q; s.emit (s.framedQp n q (.roceAck x.port x.dest (psnSub x.rqPsn 1)))

/-- A request in order is processed by `body`; an earlier one is answered by `dup`, and a later one by a NAK for the PSN expected, once
until that one arrives (R353, R360). One of an operation that R353 does not list is answered with NAK Invalid Request in its turn, and the
queue pair stays in RTS. While a stack of the `spans` it reads or places is too hot it waits (R248), and the event does not occur. -/
def State.request (s : State) (p : Nat) (k : RocePkt) (spans : Nat → State → List (Nat × Nat)) (dup : Nat → State → State)
    (body : Nat → State → State) : State :=
  s.roceIn p k.qpn k.rx (fun n s =>
    let x := s.qp n k.qpn
    if k.psn = x.rqPsn ∧ k.unlisted then s.nak n k.qpn 1
    else if s.netWaits n (spans n s) then s
    else if k.psn = x.rqPsn then body n (s.setQp n k.qpn { x with nakSent := false })
    else if psnSub x.rqPsn k.psn < 2 ^ 23 then dup n s
    else if x.nakSent then s
    else (s.setQp n k.qpn { x with nakSent := true }).nak n k.qpn 0)

/-- Advances the expected PSN. -/
def State.expect (s : State) (n q k : Nat) : State := let x := s.qp n q; s.setQp n q { x with rqPsn := psnAdd x.rqPsn k }

/-- The end of a packet: an acknowledgement where the packet asks for one or ends its message. -/
def State.packetDone (s : State) (n : Nat) (k : RocePkt) : State :=
  let s := s.expect n k.qpn 1
  let s := if k.last ∨ k.ackReq then s.ackNow n k.qpn else s
  if k.last then s.boundary n k.qpn else s

/-- Takes the next receive entry: WR_ID, address and length; none is posted: an RNR NAK. An entry whose buffer is not permitted,
or that reads poisoned (log 24), completes with LOCAL_ERROR and the queue pair enters ERROR (R355, R356). -/
def State.takeRecv (s : State) (n q : Nat) (k : Nat → Nat → Nat → State → State) : State :=
  let x := s.qp n q
  if x.rqHead = x.rqTail then s.nak n q 32
  else
    let at_ := (x.rqBase + 32 * (x.rqHead % 2 ^ x.rqLog), 32)
    let s := s.hubReads [at_]
    let e := s.readMem at_.1 32
    let a := leBits e 8 47 0; let l := le e 0x10 4
    let s := s.setQp n q { x with rqHead := (x.rqHead + 1) % 2 ^ 32 }
    if ¬ s.placeable n a l ∨ (s.firstBad [at_]).isSome then ((s.complete32 n q 2 1 (le e 0 8) 0 0).nak n q 3).qpError n q
    else k (le e 0 8) a l s

/-- Where the bytes of a SEND packet go: on in the message in progress, or to the next receive entry's buffer. -/
def State.sendSpan (s : State) (n : Nat) (k : RocePkt) : List (Nat × Nat) :=
  let x := s.qp n k.qpn
  match x.recv with
  | some m => [(m.addr, k.len)]
  | none => if x.rqHead = x.rqTail then [] else [(leBits (s.readMem (x.rqBase + 32 * (x.rqHead % 2 ^ x.rqLog)) 32) 8 47 0, k.len)]

/-- Where the bytes of a WRITE packet go. -/
def State.writeSpan (s : State) (n : Nat) (k : RocePkt) : List (Nat × Nat) := [(((s.qp n k.qpn).recv.map RecvMsg.addr).getD k.va, k.len)]

/-- ROCE_SEND: placed into the next receive entry and completed (R356). -/
def execRoceSend (p : Fin 8) (k : RocePkt) (s : State) : Host.Outcome State Fault Refusal :=
  let q := k.qpn
  let place (n : Nat) (m : RecvMsg) (s : State) : State :=
    if m.left < k.len then
      -- longer than its receive entry
      let s := (s.complete32 n q 3 1 m.wrId m.bytes 0).nak n q 1
      ((s.setQp n q { s.qp n q with recv := none }).expect n q 1).boundary n q
    else
      let s := s.netWrite m.addr k.data k.len
      let m := { m with addr := m.addr + k.len, left := m.left - k.len, bytes := m.bytes + k.len }
      let s := s.setQp n q { s.qp n q with recv := if k.last then none else some m }
      (if k.last then s.complete32 n q 0 1 m.wrId m.bytes 0 else s).packetDone n k
  ok (s.request p.val k (fun n s => s.sendSpan n k) (fun n s => s.ackNow n q) (fun n s =>
    match (s.qp n q).recv with
    | some m => if k.first ∨ m.kind ≠ 1 then s.nak n q 1 else place n m s
    | none =>
      if ¬ k.first then s.nak n q 1
      else s.takeRecv n q (fun id a l s => place n { kind := 1, addr := a, left := l, start := a, wrId := id } s)))

/-- The bytes of an accepted WRITE packet land and its message moves on. -/
def State.landBytes (s : State) (n q : Nat) (k : RocePkt) (m : RecvMsg) : State :=
  let s := s.netWrite m.addr k.data k.len
  s.setQp n q { s.qp n q with recv := if k.last then none else some { m with addr := m.addr + k.len, left := m.left - k.len, bytes := m.bytes + k.len } }

/-- An accepted WRITE packet lands and is done; the last packet of a write with immediate data takes a
receive entry (R356, R360). -/
def State.landWrite (s : State) (n q : Nat) (k : RocePkt) (imm : Bool) (m : RecvMsg) : State :=
  if imm ∧ k.last then
    s.takeRecv n q (fun id _ _ s => ((s.landBytes n q k m).complete32 n q 0 2 id (m.bytes + k.len) k.imm).packetDone n k)
  else (s.landBytes n q k m).packetDone n k

/-- A WRITE packet that carries more than its message has left is refused. -/
def State.placeWrite (s : State) (n q : Nat) (k : RocePkt) (imm : Bool) (m : RecvMsg) : State :=
  if m.left < k.len then ((s.nak n q 1).setQp n q { s.qp n q with recv := none }).boundary n q else s.landWrite n q k imm m

/-- A WRITE packet in its turn: it opens a message or carries one on. -/
def State.writeInTurn (s : State) (n q : Nat) (k : RocePkt) (imm : Bool) : State :=
  match (s.qp n q).recv with
  | some m => if k.first ∨ m.kind ≠ 2 then s.nak n q 1 else s.placeWrite n q k imm m
  | none =>
    let s := s.hubReads (s.mrSpans n k.rkey)
    if ¬ k.first ∨ 2 ^ 31 < k.dlen then s.nak n q 1
    else if ¬ s.registered n (s.qp n q).pd k.rkey k.va k.dlen 2 then (s.incSat F.NET_DROPS_RKEY n 1).nak n q 2
    else s.placeWrite n q k imm { kind := 2, addr := k.va, left := k.dlen, start := k.va }

/-- A packet of a WRITE, with its immediate where `imm` says so (R356, R358, R360). -/
def State.writeRequest (s : State) (p : Nat) (k : RocePkt) (imm : Bool) : State :=
  s.request p k (fun n s => s.writeSpan n k) (fun n s => s.ackNow n k.qpn) (fun n s => s.writeInTurn n k.qpn k imm)

/-- RDMA_WRITE (R358, R360). -/
def execRdmaWrite (p : Fin 8) (k : RocePkt) (s : State) : Host.Outcome State Fault Refusal := ok (s.writeRequest p.val k false)
/-- RDMA_WRITE_IMMEDIATE (R356). -/
def execRdmaWriteImmediate (p : Fin 8) (k : RocePkt) (s : State) : Host.Outcome State Fault Refusal := ok (s.writeRequest p.val k true)

/-- The response to a READ. -/
def State.readReply (s : State) (n q psn va len : Nat) : State :=
  let x := s.qp n q
  let c := packetsOf len x.mtu
  (List.range c).foldl (fun (t : State) k =>
    let l := min x.mtu (len - x.mtu * k)
    t.emit (t.framedQp n q (.roce x.port x.dest 5 { qpn := x.dest, psn := psnAdd psn k, first := decide (k = 0), last := decide (k + 1 = c), dlen := len,
                                                    len := l, data := s.netRead (va + x.mtu * k) l }))) s

/-- The span of memory that an RDMA READ reads: a doorbell address holds none (R41). -/
def State.readSpan (s : State) (k : RocePkt) : List (Nat × Nat) :=
  match rangeOf s.localGib k.va with
  | .doorbell _ _ => []
  | _ => [(k.va, k.dlen)]

/-- An RDMA READ that its registration allows is served with ReadOnce; a poisoned line is not sent and its unit is held (R358, R361). -/
def State.readServed (s : State) (p n : Nat) (k : RocePkt) (fresh : Bool) (spans : List (Nat × Nat)) : State :=
  let q := k.qpn
  let s := s.hubReads spans
  (s.firstBad spans).elim
    (let s := s.readReply n q k.psn k.va k.dlen
     if fresh then s.expect n q (packetsOf k.dlen (s.qp n q).mtu) else s)
    (fun pa =>
      let s := (s.nak n q 3).report { code := 0x0208, cls := 1, level := 2, unit := unitNet n, addr := pa, action := 4, detail := put 0 2 p + put 2 2 q }
      s.placeHold pa)

/-- RDMA_READ: a request within its region is served (R353, R358). A duplicate is served again. -/
def execRdmaRead (p : Fin 8) (k : RocePkt) (s : State) : Host.Outcome State Fault Refusal :=
  let q := k.qpn
  let serve (fresh : Bool) (n : Nat) (s : State) : State :=
    let s := s.hubReads (s.mrSpans n k.rkey)
    if (s.qp n q).recv.isSome ∨ 2 ^ 31 < k.dlen then s.nak n q 1
    else if ¬ s.registered n (s.qp n q).pd k.rkey k.va k.dlen 1 then (s.incSat F.NET_DROPS_RKEY n 1).nak n q 2
    else s.readServed p.val n k fresh (s.readSpan k)
  ok (s.request p.val k (fun _ _ => [(k.va, k.dlen)]) (serve false) (serve true))

/-! ## PORT_CTL (R362) -/

def checksPortCtl (c : Cmd) : Checks :=
  let m := c.f 0x11 1
  Checks.all [lenIs c 1, unlisted c [(0x10, 3), (0x14, 4)], failRsv (5 < m) 0x11,
    if m ≤ 1 then Checks.app (failLen (7 < c.f 0x10 1) 0x10) (Checks.app (mustZero c.pkt 0x12 1) (mustZero c.pkt 0x14 4))
    else Checks.all [mustZero c.pkt 0x10 1, failRsv (1 < c.f 0x12 1) 0x12, if 4 ≤ m then mustZero c.pkt 0x14 4 else {}]]

/-- The first byte other than 0 among `n` bytes from an offset. -/
def firstByte (x off n : Nat) : Option Nat := (lowest n (fun k => decide (le x (off + k) 1 ≠ 0))).map (off + ·)

/-- The byte of the first fault of a queue pair context (R354, R362). -/
def State.ctxFault (s : State) (x : Nat) : Option Nat :=
  let sl := le x 0x38 1; let rl := le x 0x39 1; let cl := le x 0x3A 1
  let queue (off log size : Nat) : Bool :=
    let a := leBits x off 47 0
    decide (a % 4096 ≠ 0) || (s.spanFault .ilv a (size * 2 ^ (min log 17))).isSome
  if le x 1 1 ≠ 1 then some 1
  else if 3 < le x 3 1 then some 3
  else if 3 < le x 6 1 then some 6
  else if 3 < le x 7 1 then some 7
  else if le x 0xB 1 ≠ 0 then some 0xB
  else if 2 < le x 0xC 1 then some 0xC
  else if bit (le x 0xD 1) 3 ∨ bit (le x 0xD 1) 7 then some 0xD
  else if le x 0xE 1 = 0 ∨ 20 < le x 0xE 1 then some 0xE
  else if le x 0xF 1 ≠ 0 then some 0xF
  else if ¬ bit (le x 3 1) 0 ∧ le x 0x1C 12 ≠ 0 then firstByte x 0x1C 12
  else if queue 0x30 sl 64 then some 0x30
  else if sl < 4 ∨ 16 < sl then some 0x38
  else if rl < 4 ∨ 16 < rl then some 0x39
  else if cl < 5 ∨ 17 < cl ∨ 2 ^ cl < 2 ^ sl + 2 ^ rl then some 0x3A
  else if le x 0x3B 5 ≠ 0 then firstByte x 0x3B 5
  else if queue 0x40 rl 32 then some 0x40
  else if queue 0x48 cl 32 then some 0x48
  else firstByte x 0x54 44

/-- PORT_CTL (R362). -/
def execPortCtl (r : CmdRef) (s : State) : Host.Outcome State Fault Refusal :=
  ok (s.run r 0x9004 (fun c =>
    let m := c.f 0x11 1
    let p := c.f 0x10 1; let n := c.f 0x12 1; let q := c.f 0x14 4
    if m = 0 then
      let st := s.fld F.PORT_STATUS_STATE p
      if st = 4 then s.finish r 0x0104 p
      else (if (st = 0 ∨ st = 3) ∧ s.domOn (netDom p) then s.portState p 1 0 else s).finish r 0 0
    else if m = 1 then
      let st := s.fld F.PORT_STATUS_STATE p
      (if st = 1 ∨ st = 2 then s.portLeaves p 3 3 else s).finish r 0 0
    else if m = 2 then
      if q < 2 ∨ s.fld F.NET_QPT_COUNT n ≤ q ∨ (s.qp n q).st ≠ 0 then s.finish r 0x0104 q
      else s.readingThen r [(s.ctxAddr n q, 128)] (fun s =>
        let x := s.readMem (s.ctxAddr n q) 128
        match s.ctxFault x with
        | some o => s.finish r 0x0103 o
        | none =>
          let y : Qp := { ctx := x, port := 4 * n + le x 6 1, sqPsn := leBits x 0x28 23 0, una := leBits x 0x28 23 0, rqPsn := leBits x 0x2C 23 0 }
          (((s.setQp n q y).qpState n q 1).moveQps n).finish r 0 0)
    else if m = 3 then
      if q < 2 ∨ s.fld F.NET_QPT_COUNT n ≤ q then s.finish r 0x0104 q
      else if (s.qp n q).st = 0 then s.finish r 0 0
      else
        let s := (s.flushQp n q).qpState n q 0
        (s.setQp n q { s.qp n q with st := 0, ctx := 0 }).netCommands.finish r 0 0
    else
      let s := { s with nets := Tab.set {} s.nets n { s.net n with qps := (s.net n).qps.map (fun (e : Nat × Qp) =>
        if m = 4 then (e.1, { e.2 with sync := e.2.sync || e.2.recv.isSome })
        else if e.2.st = 1 ∧ s.portUp (4 * n + e.2.ctxPort) ∧ e.2.port ≠ 4 * n + e.2.ctxPort then
          (if e.2.recv.isSome then (e.1, { e.2 with back := true }) else (e.1, { e.2 with port := 4 * n + e.2.ctxPort }))
        else e) } }
      (s.phaseCmd r .running).netCommands))

/-- STACK_THERMAL_SAMPLE: every 100 µs (R246, R248); what waited for the stack goes on once its grade has fallen: collectives when
it has left protective self-refresh, queue pairs when it is cool enough for their network. -/
def execStackThermalSample (stack : Fin 32) (dies : List Int) (s : State) : Host.Outcome State Fault Refusal :=
  let t := s.stackSample stack.val dies
  let t := if (s.stack stack.val).selfRef ∧ ¬ (t.stack stack.val).selfRef then t.cmds.foldl (fun (t : State) c => t.wakeColl c.ref) t else t
  ok (if 3 ≤ s.fld F.STK_THERM_GRADE stack.val ∧ t.fld F.STK_THERM_GRADE stack.val < s.fld F.STK_THERM_GRADE stack.val then t.pumpRoce else t)

end Sys2Proof.Machine
end

