-- ==== Sys2Proof/Machine/Tensorizer.lean ====
section
/-! DEFINITION. What the input pipeline computes (R316 to R328, R332, R333): sample descriptors, damage and concealment, the work budget,
resizing, colour and normalisation, dictionaries and tokens, pieces and packing. -/
namespace Sys2Proof.Machine

/-! ## FP32 arithmetic in written order (R324) -/

def fa (x y : Val) : Val := (formFp32.add x y).1
def fs (x y : Val) : Val := (formFp32.sub x y).1
def fm (x y : Val) : Val := (formFp32.mul x y).1
def fd (x y : Val) : Val := (formFp32.div x y).1
/-- An FP32 constant `n / d`. -/
def fq (n d : Nat) : Val := fd (.ofNat n) (.ofNat d)

def clampTo (i : Int) (top : Nat) : Nat := min i.toNat (top - 1)

/-! ## Sample descriptors (R318) -/

namespace Desc
def codec (d : Nat) : Nat := le d 2 1
def hasText (d : Nat) : Bool := bit (le d 3 1) 0
def srcW (d : Nat) : Nat := le d 4 2
def srcH (d : Nat) : Nat := le d 6 2
def stream (d : Nat) : Nat := leBits d 8 47 0
def streamLen (d : Nat) : Nat := le d 0x10 4
def first (d : Nat) : Nat := le d 0x14 4
def stride (d : Nat) : Nat := le d 0x18 2
def nout (d : Nat) : Nat := le d 0x1C 4
def cropX (d : Nat) : Nat := le d 0x20 2
def cropY (d : Nat) : Nat := le d 0x22 2
def cropW (d : Nat) : Nat := le d 0x24 2
def cropH (d : Nat) : Nat := le d 0x26 2
def meanBytes (d : Nat) : Nat := le d 0x28 4
def meanCu (d : Nat) : Nat := le d 0x2C 4
def mul (d : Nat) : Nat := if le d 0x30 1 = 0 then 16 else le d 0x30 1
def qth (d : Nat) : Nat := le d 0x32 2
def cost (d : Nat) : Nat := le d 0x34 4
def text (d : Nat) : Nat := leBits d 0x38 47 0
def textLen (d : Nat) : Nat := if hasText d then le d 0x40 4 else 0
def sampleId (d : Nat) : Nat := le d 0x48 8
def contId (d : Nat) : Nat := if le d 0x50 8 = 0 then sampleId d else le d 0x50 8
/-- NF: output frames the lane decodes. -/
def nf (d : Nat) : Nat := first d + (nout d - 1) * stride d + 1
/-- 16 × 16 blocks of a frame: columns, and in all. -/
def cols (d : Nat) : Nat := ceilDiv (srcW d) 16
def blocks (d : Nat) : Nat := cols d * ceilDiv (srcH d) 16
end Desc

/-- Whether a descriptor is malformed, for tubelets of `tt` frames (R318). -/
def State.malformed (s : State) (d tt : Nat) : Bool :=
  let video := Desc.codec d ≠ 0
  decide (le d 1 1 ≠ 1 ∨ 3 < Desc.codec d ∨ 1 < le d 3 1 ∨ le d 8 8 / 2 ^ 48 ≠ 0 ∨ Desc.stride d = 0 ∨ 64 < Desc.stride d ∨ le d 0x1A 2 ≠ 0
    ∨ Desc.nout d = 0 ∨ Desc.nout d % tt ≠ 0)
  || decide (Desc.cropX d % 2 ≠ 0 ∨ Desc.cropY d % 2 ≠ 0 ∨ Desc.cropW d % 2 ≠ 0 ∨ Desc.cropH d % 2 ≠ 0
    ∨ Desc.srcW d < Desc.cropX d + Desc.cropW d ∨ Desc.srcH d < Desc.cropY d + Desc.cropH d ∨ (video ∧ (Desc.cropW d = 0 ∨ Desc.cropH d = 0)))
  || decide (Desc.meanBytes d = 0 ∨ Desc.meanCu d = 0 ∨ le d 0x31 1 ≠ 0 ∨ le d 0x38 8 / 2 ^ 48 ≠ 0 ∨ 16777216 < le d 0x40 4 ∨ le d 0x44 4 ≠ 0
    ∨ le d 0x58 40 ≠ 0)
  || (decide video && (s.spanFault .ilv (Desc.stream d) (Desc.streamLen d)).isSome)
  || (Desc.hasText d && (s.spanFault .ilv (Desc.text d) (le d 0x40 4)).isSome)
  || (¬ video && ¬ Desc.hasText d)

/-! ## Decoding, damage and the budget (R316, R317, R319, R321, R322) -/

/-- Whether a stream's headers stay within the row of its codec (R316). -/
def codecTakes (codec : Nat) (x : VHead) : Bool :=
  match codec with
  | 1 => (decide (x.profile = 1) || x.conforms) && decide (x.level ≤ 52 ∧ x.w ≤ 4096 ∧ x.h ≤ 2304 ∧ x.bd = 8 ∧ x.chroma ≤ 1)
  | 2 => decide ((x.profile = 1 ∨ x.profile = 2) ∧ x.level ≤ 61 ∧ x.w ≤ 8192 ∧ x.h ≤ 4320 ∧ (x.bd = 8 ∨ (x.bd = 10 ∧ x.profile = 2)) ∧ x.chroma = 1)
  | 3 => decide (x.profile = 1 ∧ x.level ≤ 60 ∧ x.w ≤ 8192 ∧ x.h ≤ 4352 ∧ (x.bd = 8 ∨ x.bd = 10) ∧ x.chroma ≤ 1)
  | _ => false

/-- Whether a block of a picture is damaged: in a slice or tile, every block from the first error on (R319). -/
def VFrame.bad (f : VFrame) (b : Nat) : Bool :=
  f.missing || f.slices.any (fun x => match x.error with | some k => (x.blocks.drop k).contains b | none => false)

/-- What a lane makes of a sample's stream. -/
structure Clip where
  frames   : List VFrame
  mismatch : Bool
  bd       : Nat
  mono     : Bool
  cut      : Option Nat            -- c of R321
  deriving Inhabited

/-- Decodes a sample (R316, R317, R321). A stream of another form, or one that does not begin at a random access point, does not decode
either (DESIGN CHOICE, log 10). Without decoding there is no budget to cut. -/
def State.clip (s : State) (d : Nat) : Clip :=
  let x := Config.decodeVideo (Desc.codec d) (s.readMem (Desc.stream d) (Desc.streamLen d)) (Desc.streamLen d)
  let fs := x.frames.take (Desc.nf d)
  let bad : Bool := ! x.form || ! x.entry || ! codecTakes (Desc.codec d) x.head || fs.any (fun f => decide (f.w ≠ Desc.srcW d ∨ f.h ≠ Desc.srcH d))
  let lim := Desc.mul d * Desc.nf d
  let exceeds (f : VFrame) : Bool := decide (lim * Desc.meanBytes d < f.bytes ∨ lim * Desc.meanCu d < f.cus)
  { frames := fs, mismatch := bad, bd := x.head.bd, mono := decide (x.head.chroma = 0), cut := if bad then none else fs.findIdx? exceeds }

/-- The frame whose contents stand for output frame `j`: frame c − 1 from the cut on; none is mid-grey throughout. -/
def Clip.source (v : Clip) (j : Nat) : Option Nat :=
  match v.cut with
  | some c => if c ≤ j then (if c = 0 then none else some (c - 1)) else some j
  | none => some j

/-- Whether the decoder finds block `b` of output frame `j` damaged, before the cut. -/
def Clip.bad (v : Clip) (j b : Nat) : Bool := v.mismatch || match v.frames[j]? with | some f => f.bad b | none => true

/-- Whether output frame `j` is missing: the stream has ended, or the picture cannot be decoded (R317, R319). -/
def Clip.missing (v : Clip) (j : Nat) : Bool := match v.frames[j]? with | some f => f.missing | none => true

/-- The newest frame up to `j` in which block `b` is whole (R319). -/
def Clip.whole (v : Clip) (j b : Nat) : Option Nat := ((List.range (j + 1)).reverse).find? (fun k => ¬ v.bad k b)

/-- Sample (x, y) of plane `p` (0 luma, 1 Cb, 2 Cr) of output frame `j`, concealed. -/
def Clip.pixel (v : Clip) (d p j x y : Nat) : Nat :=
  let grey := 128 <<< (v.bd - 8)
  let sh := if p = 0 then 16 else 8
  match v.source j with
  | none => grey
  | some k =>
    match v.whole k (y / sh * Desc.cols d + x / sh) with
    | none => grey
    | some k =>
      match v.frames[k]? with
      | none => grey
      | some f =>
        let w := if p = 0 then f.w else (f.w + 1) / 2
        (if p = 0 then f.luma else if p = 1 then f.cb else f.cr).getD (y * w + x) grey

/-- Number of damaged blocks of output frame `j` (R319, R321). -/
def Clip.damage (v : Clip) (d j : Nat) : Nat :=
  let all := Desc.blocks d
  match v.cut with
  | some c => if c ≤ j then all else (List.range all).countP (v.bad j)
  | none => (List.range all).countP (v.bad j)

/-- Output frame of sampled frame `i`. -/
def Desc.frameOf (d i : Nat) : Nat := Desc.first d + i * Desc.stride d

/-- D of R322, the concealed share, and whether the sample is dead. -/
def Clip.total (v : Clip) (d : Nat) : Nat := ((List.range (Desc.nout d)).map (fun i => v.damage d (Desc.frameOf d i))).sum
def Clip.quality (v : Clip) (d : Nat) : Nat := min 0xFFFF (v.total d * 65536 / (Desc.nout d * Desc.blocks d))
def Clip.dead (v : Clip) (d : Nat) : Bool := decide (Desc.qth d < v.quality d)

/-! ## Tensorizer (R324, R325) -/

/-- Parameters of the tensorizer: the packet bytes from PCODE on (R330, R331). -/
structure TParams where
  p     : Nat
  tt    : Nat
  ofmt  : Fmt
  flags : Nat
  ow    : Nat
  oh    : Nat
  ovp   : Nat
  mean  : List Val
  istd  : List Val

def tparams (x : Nat) : TParams :=
  { p := [8, 14, 16, 32].getD (le x 0 1) 8, tt := le x 1 1, ofmt := if le x 2 1 = 3 then .e4m3 else .bf16, flags := le x 3 1, ow := le x 4 2, oh := le x 6 2,
    ovp := le x 9 1, mean := (List.range 3).map (fun k => fp32Val (le x (0xC + 4 * k) 4)), istd := (List.range 3).map (fun k => fp32Val (le x (0x18 + 4 * k) 4)) }

def TParams.ft (t : TParams) : Nat := t.ow / t.p * (t.oh / t.p)
def TParams.pd (t : TParams) : Nat := 3 * t.p * t.p * t.tt

/-- Bilinear resize of a plane `a` of size iw × ih. -/
def bilinear (a : Nat → Nat → Val) (iw ih ow oh ox oy : Nat) : Val :=
  let sx := fq iw ow; let sy := fq ih oh
  let half := fq 1 2
  let x := fs (fm (fa (.ofNat ox) half) sx) half
  let y := fs (fm (fa (.ofNat oy) half) sy) half
  let x0 := x.floorInt; let y0 := y.floorInt
  let fx := fs x (.ofInt x0); let fy := fs y (.ofInt y0)
  let at_ (i j : Int) : Val := a (clampTo i iw) (clampTo j ih)
  let row (j : Int) : Val := fa (fm (fs .one fx) (at_ x0 j)) (fm fx (at_ (x0 + 1) j))
  fa (fm (fs .one fy) (row y0)) (fm fy (row (y0 + 1)))

/-- The source pixels that an output interval meets, with the length of the overlap. -/
def meets (sx : Val) (ox iw : Nat) : List (Nat × Val) :=
  let lo := fm (.ofNat ox) sx
  let hi := fm (.ofNat (ox + 1)) sx
  (List.range iw).filterMap (fun i =>
    let a := if lo.lt (.ofNat i) then Val.ofNat i else lo
    let b := if hi.lt (.ofNat (i + 1)) then hi else Val.ofNat (i + 1)
    if a.lt b then some (i, fs b a) else none)

/-- Area resize of a plane. -/
def areaOf (a : Nat → Nat → Val) (iw ih ow oh ox oy : Nat) : Val :=
  let sx := fq iw ow; let sy := fq ih oh
  let xs := meets sx ox iw
  let sum := (meets sy oy ih).foldl (fun (t : Val) q => xs.foldl (fun (t : Val) p => fa t (fm (fm p.2 q.2) (a p.1 q.1))) t) .zero
  fd sum (fm sx sy)

/-- R, G and B of an output pixel (R324). -/
def Clip.rgb (v : Clip) (d : Nat) (t : TParams) (j ox oy : Nat) : List Val :=
  let resize := if t.flags.testBit 0 then bilinear else areaOf
  let plane (p : Nat) : Val :=
    let k := if p = 0 then 1 else 2
    resize (fun x y => .ofNat (v.pixel d p j (Desc.cropX d / k + x) (Desc.cropY d / k + y))) (Desc.cropW d / k) (Desc.cropH d / k) t.ow t.oh ox oy
  let sc := 1 <<< (v.bd - 8)
  let full := t.flags.testBit 2
  let cden := if full then 255 * sc else 224 * sc
  let y := if full then fd (plane 0) (.ofNat (255 * sc)) else fd (fs (plane 0) (.ofNat (16 * sc))) (.ofNat (219 * sc))
  let ch (p : Nat) : Val := if v.mono then .zero else fd (fs (plane p) (.ofNat (128 * sc))) (.ofNat cden)
  let u := ch 1; let w := ch 2
  let kr := if t.flags.testBit 1 then fq 299 1000 else fq 2126 10000
  let kb := if t.flags.testBit 1 then fq 114 1000 else fq 722 10000
  let r := fa y (fm (fs (.ofNat 2) (fm (.ofNat 2) kr)) w)
  let b := fa y (fm (fs (.ofNat 2) (fm (.ofNat 2) kb)) u)
  let g := fd (fs (fs y (fm kr r)) (fm kb b)) (fs (fs .one kr) kb)
  ([r, g, b].zip (t.mean.zip t.istd)).map (fun q => fm (fs q.1 q.2.1) q.2.2)

/-- The elements of tubelet `q` of frame group `g` (R325). -/
def Clip.tubelet (v : Clip) (d : Nat) (t : TParams) (g q : Nat) : List Val :=
  let cols := t.ow / t.p
  (List.range t.tt).flatMap (fun f => (List.range t.p).flatMap (fun py => (List.range t.p).flatMap (fun px =>
    v.rgb d t (Desc.frameOf d (g * t.tt + f)) (q % cols * t.p + px) (q / cols * t.p + py))))

/-- Whether a frame group is concealed. -/
def Clip.hidden (v : Clip) (d : Nat) (t : TParams) (g : Nat) : Bool :=
  (List.range t.tt).any (fun f => decide (v.damage d (Desc.frameOf d (g * t.tt + f)) ≠ 0))

/-! ## Text (R326 to R328) -/

/-- Length of the well-formed UTF-8 sequence at the start of a byte list, 0 for none (Table 3-7 of the Unicode Standard). -/
def utf8Len (b : List Nat) : Nat :=
  let b0 := b.getD 0 0x100; let b1 := b.getD 1 0; let b2 := b.getD 2 0; let b3 := b.getD 3 0
  let tail (x : Nat) : Bool := decide (0x80 ≤ x ∧ x ≤ 0xBF)
  let within (x lo hi : Nat) : Bool := decide (lo ≤ x ∧ x ≤ hi)
  if b0 ≤ 0x7F then 1
  else if within b0 0xC2 0xDF && tail b1 then 2
  else if (b0 = 0xE0 && within b1 0xA0 0xBF || within b0 0xE1 0xEC && tail b1 || b0 = 0xED && within b1 0x80 0x9F || within b0 0xEE 0xEF && tail b1) && tail b2 then 3
  else if (b0 = 0xF0 && within b1 0x90 0xBF || within b0 0xF1 0xF3 && tail b1 || b0 = 0xF4 && within b1 0x80 0x8F) && tail b2 && tail b3 then 4
  else 0

/-- Marks of a byte list: true for a byte that is in no well-formed sequence. `fuel` bounds the list. -/
def marksOf : Nat → List Nat → List Bool
  | 0, _ => []
  | _, [] => []
  | n + 1, b :: rest =>
    let l := utf8Len (b :: rest)
    if l = 0 then true :: marksOf n rest
    else List.replicate l false ++ marksOf n ((b :: rest).drop l)

/-- Maximal runs of marked bytes: first byte and length. -/
def runsOf : Nat → List Bool → List (Nat × Nat)
  | _, [] => []
  | i, b :: rest =>
    let rs := runsOf (i + 1) rest
    if b then (match rs with | (j, l) :: t => if j = i + 1 then (i, l + 1) :: t else (i, 1) :: rs | [] => [(i, 1)]) else rs

namespace Dict
def n (img : Nat) : Nat := min 262144 (le img 4 4)
def byteBase (img : Nat) : Nat := le img 8 4
def pad (img : Nat) : Nat := le img 0xC 4
def bos (img : Nat) : Nat := le img 0x10 4
def eos (img : Nat) : Nat := le img 0x14 4
def poolLen (img : Nat) : Nat := le img 0x18 4
def off (img i : Nat) : Nat := le img (64 + 8 * i) 4
def len (img i : Nat) : Nat := le img (64 + 8 * i + 4) 1
def entry (img i : Nat) : Nat := le img (64 + 8 * n img + off img i) (len img i)
end Dict

def bytesOf (x n : Nat) : List Nat := (List.range n).map (fun k => le x k 1)

/-- The first fault of a dictionary image, as a byte offset (R327); only the header, before the rest is read, where `whole` is
false. -/
def dictFault (img : Nat) (whole : Bool) : Option Nat :=
  let raw := le img 4 4
  let head : Option Nat :=
    if le img 1 1 ≠ 1 then some 1
    else if le img 2 2 ≠ 0 then some (if le img 2 1 ≠ 0 then 2 else 3)
    else if raw = 0 ∨ 262144 < raw then some 4
    else if Dict.byteBase img < raw ∨ 0xFFFFFFFD < Dict.byteBase img + 255 then some 8
    else if 16777216 < Dict.poolLen img then some 0x18
    else (lowest 36 (fun k => decide (le img (0x1C + k) 1 ≠ 0))).map (0x1C + ·)
  match head with
  | some o => some o
  | none =>
    if ¬ whole then none
    else (List.range raw).findSome? (fun i =>
      let a := 64 + 8 * i
      let l := Dict.len img i
      if Dict.poolLen img < Dict.off img i + l ∨ (marksOf 64 (bytesOf (Dict.entry img i) l)).any id
          ∨ (List.range i).any (fun k => decide (Dict.len img k = l ∧ Dict.entry img k = Dict.entry img i)) then some a
      else if l = 0 ∨ 64 < l then some (a + 4)
      else (lowest 3 (fun k => decide (le img (a + 5 + k) 1 ≠ 0))).map (a + 5 + ·))

/-- The longest entry equal to the bytes from `pos`, without a marked byte: its number and length. -/
def Dict.longest (img : Nat) (text : Nat) (len : Nat) (marks : List Bool) (pos : Nat) : Option (Nat × Nat) :=
  (List.range (Dict.n img)).foldl (fun (b : Option (Nat × Nat)) i =>
    let l := Dict.len img i
    let best := (b.map (·.2)).getD 0
    if best < l ∧ pos + l ≤ len ∧ le text pos l = Dict.entry img i ∧ ¬ ((marks.drop pos).take l).any id then some (i, l) else b) none

/-- The tokens of a text (R328); `fuel` bounds its bytes. -/
def tokensGo (img text len : Nat) (marks : List Bool) : Nat → Nat → List Nat
  | 0, _ => []
  | fuel + 1, pos =>
    if len ≤ pos then []
    else
      let fallback := (Dict.byteBase img + le text pos 1) % 2 ^ 32
      if marks.getD pos false then fallback :: tokensGo img text len marks fuel (pos + 1)
      else match Dict.longest img text len marks pos with
      | some (i, l) => i :: tokensGo img text len marks fuel (pos + l)
      | none => fallback :: tokensGo img text len marks fuel (pos + 1)

def tokensOf (img text len : Nat) : List Nat := tokensGo img text len (marksOf len (bytesOf text len)) len 0

/-! ## Pieces and packing (R332, R333) -/

/-- A piece of a sample: the sample's place in the list, its number among the sample's pieces, its frame groups, and its cost. -/
structure Piece where
  sample : Nat
  k      : Nat := 0
  n      : Nat := 1
  g0     : Nat := 0
  gn     : Nat := 0
  trunc  : Bool := false
  cost   : Nat := 0
  deriving Inhabited

/-- The pieces of a sample (R332). -/
def piecesOf (t : TParams) (textT vt : Nat) (mal : Bool) (i d : Nat) : List Piece :=
  let gp := vt / t.ft
  let gs := Desc.nout d / t.tt
  let cost (groups : Nat) : Nat :=
    if mal then 0 else if Desc.cost d ≠ 0 then Desc.cost d else groups * t.ft + min textT (le d 0x40 4 / 4)
  if mal ∨ Desc.codec d = 0 then [{ sample := i, cost := cost 0 }]
  else if gs ≤ gp ∨ t.flags.testBit 3 then [{ sample := i, gn := min gs gp, trunc := decide (gp < gs), cost := cost (min gs gp) }]
  else
    let n := ceilDiv gs gp
    (List.range n).map (fun k => let g := min gs ((k + 1) * gp) - k * gp; { sample := i, k := k, n := n, g0 := k * gp, gn := g, cost := cost g })

/-- The batch of least total cost among those with a free slot. -/
def leastBatch (bs : List (Nat × List Nat)) (sl : Nat) : Nat :=
  (bs.zipIdx.foldl (fun (b : Option (Nat × Nat)) p =>
    if sl ≤ p.1.2.length then b
    else match b with
    | some x => if p.1.1 < x.1 then some (p.1.1, p.2) else b
    | none => some (p.1.1, p.2)) none).elim 0 (·.2)

/-- A window packed into batches: for each batch the positions of its pieces in the window, rising (R333). -/
def packWindow (costs : List Nat) (sl : Nat) : List (List Nat) :=
  let w := costs.length
  let nb := ceilDiv w sl
  let top := costs.foldl max 0
  let order := sortBy (fun x => (top - costs.getD x 0) * (w + 1) + x) (List.range w)
  let bs := order.foldl (fun (bs : List (Nat × List Nat)) x =>
    let b := leastBatch bs sl
    bs.zipIdx.map (fun (p : (Nat × List Nat) × Nat) => if p.2 = b then (p.1.1 + costs.getD x 0, x :: p.1.2) else p.1)) (List.replicate nb (0, []))
  bs.map (fun (p : Nat × List Nat) => sortBy id p.2)

/-- The batches of a piece sequence: the pieces of each in slot order. -/
def batchesOf (sl : Nat) (pack : Bool) (ps : List Piece) : List (List Piece) :=
  if pack then
    (chunksOf (sl * (64 / sl)) ps.length ps).flatMap (fun win => (packWindow (win.map (·.cost)) sl).map (fun b => b.map (fun x => win.getD x default)))
  else chunksOf sl ps.length ps

end Sys2Proof.Machine
end

