-- ==== Sys2Proof/Machine/Input.lean ====
section
/-! DEFINITION. The input pipeline (R320 to R342): lanes, damage records, DECODE, TOKENIZE, DICT_LOAD, ASSEMBLE and the Hopper. -/
namespace Sys2Proof.Machine

def Cmd.asmWork (c : Cmd) : AsmWork := match c.work with | .asm w => w | _ => {}
def State.asmWork (s : State) (r : CmdRef) : AsmWork := match s.cmd r with | some c => c.asmWork | none => {}
def State.modAsm (s : State) (r : CmdRef) (f : AsmWork → AsmWork) : State :=
  s.modCmd r (fun c => match c.work with | .asm w => { c with work := .asm (f w) } | _ => c)

/-- The tensorizer parameters of a command: at 0x2C of an ASSEMBLE, at 0x70 of a DECODE. -/
def Cmd.tp (c : Cmd) : TParams := tparams (c.pkt >>> (8 * (if c.opcode = 0x7004 then 0x2C else 0x70)))
def Cmd.textT (c : Cmd) : Nat := c.f 0x28 4
def Cmd.posT (c : Cmd) : Nat := c.f 0x24 4
def Cmd.slotsS (c : Cmd) : Nat := c.f 0x20 2
def Cmd.dictSlot (c : Cmd) : Nat := c.f (if c.opcode = 0x7002 then 0x1C else 0x34) 1

/-- The dictionary of a slot. What a slot that nothing has loaded holds is free (log 6). -/
def State.dict (s : State) (slot : Nat) : Nat := match Tab.find s.input.dicts slot with | some d => d.1 | none => Config.free 8 slot

/-! ## Damage records (R320) -/

def State.damageRecord (s : State) (kind x y blocks id frame len : Nat) : State :=
  let n := s.fld F.BLT_DMG_BASE_SIZE_LOG2 0
  if n = 0 then s
  else
    let p := s.fld F.BLT_DMG_PTR_PROD 0
    if (p + 2 ^ 24 - s.fld F.BLT_DMG_PTR_CONS 0) % 2 ^ 24 = 2 ^ n then s.incSat F.BLT_DMG_PTR_DROPS 0 1
    else
      let img := put 0 1 0x10 + put 1 1 kind + put 2 2 x + put 4 2 y + put 6 2 (min 0xFFFF blocks) + put 8 8 id + put 0x10 4 frame + put 0x14 4 len
        + put 0x18 8 (s.now 4)
      (s.hubWrites (s.fld F.BLT_DMG_BASE_BASE 0 <<< 6 + 32 * (p % 2 ^ n)) img 32).setFld F.BLT_DMG_PTR_PROD 0 (p + 1)

/-- Runs of damaged blocks along one block row. -/
def Clip.rowRuns (v : Clip) (d j row : Nat) : List (Nat × Nat) := runsOf 0 ((List.range (Desc.cols d)).map (fun x => v.bad j (row * Desc.cols d + x)))

/-- The damage records of a sample, frame by frame: one of kind 2 for each run of missing frames (R320, R321; DESIGN CHOICE, log 25). -/
def State.clipRecords (s : State) (d : Nat) (v : Clip) : State :=
  let id := Desc.sampleId d
  if v.mismatch then s.damageRecord 3 0 0 0 id 0 0
  else
    let stop := v.cut.getD (Desc.nf d)
    let gaps := runsOf 0 ((List.range stop).map v.missing)
    let s := (List.range stop).foldl (fun (s : State) j =>
      let s := match gaps.find? (fun q => q.1 = j) with | some q => s.damageRecord 2 0 0 q.2 id j 0 | none => s
      if v.missing j then s
      else (List.range (Desc.blocks d / max 1 (Desc.cols d))).foldl (fun (s : State) y =>
        (v.rowRuns d j y).foldl (fun (s : State) q => s.damageRecord 1 q.1 y q.2 id j 0) s) s) s
    match v.cut with
    | some c => s.damageRecord 4 0 0 ((List.range (Desc.nout d)).countP (fun i => c ≤ Desc.frameOf d i)) id c 0
    | none => s

/-- A sample is dead (R323). -/
def State.deadSample (s : State) (c : Cmd) (unit id : Nat) : State := s.traceAs unit 0x701 c.layer c.operator id false

/-! ## Sample table entries (R335) -/

/-- What a sample's table entries say of it beside its pieces. -/
structure SampleInfo where
  mal    : Bool := false
  clip   : Option Clip := none
  toks   : List Nat := []
  badU   : Bool := false

/-- A sample as its descriptor, streams and dictionary give it. -/
def State.sampleInfo (s : State) (c : Cmd) (d : Nat) : SampleInfo :=
  if s.malformed d c.tp.tt then { mal := true }
  else
    let text := s.readMem (Desc.text d) (Desc.textLen d)
    { clip := if Desc.codec d = 0 then none else some (s.clip d),
      toks := if Desc.hasText d then tokensOf (s.dict c.dictSlot) text (Desc.textLen d) else [],
      badU := Desc.hasText d && (marksOf (Desc.textLen d) (bytesOf text (Desc.textLen d))).any id }

def SampleInfo.dead (x : SampleInfo) (d : Nat) : Bool := x.mal || match x.clip with | some v => v.dead d | none => false

/-- The text sequence of a slot before its cut (R334). -/
def Cmd.textSeq (c : Cmd) (img : Nat) (toks : List Nat) : List Nat :=
  let fl := c.tp.flags
  (if fl.testBit 5 ∧ Dict.bos img ≠ 0xFFFFFFFF then [Dict.bos img] else []) ++ toks ++ (if fl.testBit 6 ∧ Dict.eos img ≠ 0xFFFFFFFF then [Dict.eos img] else [])

/-- A sample table entry (R335). -/
def sampleEntry (d : Nat) (x : SampleInfo) (p : Piece) (validT : Nat) (textTrunc : Bool) : Nat :=
  let q := match x.clip with | some v => v.quality d | none => 0
  let dm := match x.clip with | some v => v.total d | none => 0
  let cut := match x.clip with | some v => v.cut | none => none
  let fl := b2n (decide (dm ≠ 0)) + 2 * b2n (x.dead d) + 4 * b2n cut.isSome + 8 * b2n p.trunc + 16 * b2n textTrunc + 32 * b2n x.badU + 64 * b2n x.mal
    + 128 * b2n (decide (1 < p.n))
  put 0 8 (Desc.sampleId d) + put 8 8 (Desc.contId d) + put 0x10 2 p.k + put 0x12 2 p.n + put 0x14 4 p.sample + put 0x18 4 validT
    + put 0x1C 4 x.toks.length + put 0x20 2 q + put 0x22 2 fl + put 0x24 4 (cut.getD 0xFFFFFFFF) + put 0x28 4 dm

/-! ## Batches (R334, R335) -/

/-- Offsets of a batch. -/
def Cmd.offI (c : Cmd) : Nat := 256 + 64 * c.slotsS
def Cmd.offMk (c : Cmd) : Nat := c.offI + 4 * c.slotsS * c.posT
def Cmd.offPt (c : Cmd) : Nat := roundUp (c.offMk + c.slotsS * c.posT) 64
def Cmd.elemE (c : Cmd) : Nat := c.tp.ofmt.elemBits / 8
def Cmd.batchSize (c : Cmd) : Nat := c.offPt + c.slotsS * c.posT * c.tp.pd * c.elemE

/-- The batches of an ASSEMBLE: the pieces of each in slot order. -/
def State.batches (s : State) (c : Cmd) : List (List Piece) :=
  let t := c.tp
  let ps := c.asmWork.descs.zipIdx.flatMap (fun q => piecesOf t c.textT (c.posT - c.textT) (s.malformed q.1 t.tt) q.2 q.1)
  batchesOf c.slotsS (t.flags.testBit 4) ps

/-- One slot of a batch: table entry, token numbers, mask bytes, the patch elements of its video positions from TEXT_T on, and the
census counts of their conversions. -/
structure SlotImg where
  entry : Nat
  toks  : List Nat
  masks : List Nat
  elems : List Nat
  cn    : Counts := {}

def emptySlot (c : Cmd) (pad : Nat) : SlotImg :=
  { entry := put 0x14 4 0xFFFFFFFF, toks := List.replicate c.posT pad, masks := List.replicate c.posT 0, elems := [] }

/-- The slot of a piece (R323, R334). -/
def slotImg (c : Cmd) (img d : Nat) (x : SampleInfo) (p : Piece) : SlotImg :=
  let t := c.tp
  let pad := Dict.pad img
  let seq := c.textSeq img x.toks
  let tt : Bool := decide (c.textT < seq.length)
  if x.dead d then
    { entry := sampleEntry d x p 0 tt, toks := List.replicate c.posT pad, masks := List.replicate c.posT 8, elems := [] }
  else
    let text := seq.take c.textT
    let nv := p.gn * t.ft
    let video : List (Nat × List Nat × Counts) := match x.clip with
      | none => []
      | some v => (List.range p.gn).flatMap (fun g => (List.range t.ft).map (fun q =>
          let cs := (v.tubelet d t (p.g0 + g) q).map (fun e => t.ofmt.target.convert e t.ovp none)
          (3 + 4 * b2n (v.hidden d t (p.g0 + g)), cs.map (·.raw), cs.foldl (fun (n : Counts) e => n.bump e.cls) {})))
    { entry := sampleEntry d x p (text.length + nv) tt,
      toks := text ++ List.replicate (c.textT - text.length) pad ++ List.replicate nv 0xFFFFFFFE ++ List.replicate (c.posT - c.textT - nv) pad,
      masks := List.replicate text.length 1 ++ List.replicate (c.textT - text.length) 0 ++ video.map (·.1) ++ List.replicate (c.posT - c.textT - nv) 0,
      elems := video.flatMap (fun (q : Nat × List Nat × Counts) => q.2.1), cn := video.foldl (fun (n : Counts) q => n.add q.2.2) {} }

/-- Writes a batch into its Hopper slot, with zeros between the mask bytes and the patches (R335, R337). -/
def State.writeBatch (s : State) (r : CmdRef) (c : Cmd) (b slot : Nat) (ps : List Piece) : State :=
  let base := s.fld F.HOP_BASE_BASE 0 <<< 20 + slot * (s.fld F.HOP_CFG_SLOT_MIB 0 <<< 20)
  let img := s.dict c.dictSlot
  let t := c.tp
  let desc (p : Piece) : Nat := c.asmWork.descs.getD p.sample 0
  let infos := ps.map (fun p => s.sampleInfo c (desc p))
  let dead := ((ps.zip infos).filter (fun q => q.2.dead (desc q.1))).length
  let hidden := ((ps.zip infos).filter (fun q => match q.2.clip with | some v => decide (v.total (desc q.1) ≠ 0) | none => false)).length
  let cut := (ps.filter (·.trunc)).length
  let head := put 0 2 0x100 + put 2 2 c.slotsS + put 4 4 c.posT + put 8 8 (c.f 0x1C 4 + b) + put 0x10 4 c.textT + put 0x14 4 t.ft + put 0x18 2 t.pd
    + put 0x1A 1 t.ofmt.code + put 0x1B 1 t.flags + put 0x1C 4 c.offI + put 0x20 4 c.offMk + put 0x24 4 c.offPt + put 0x28 8 (ps.map (·.cost)).sum
    + put 0x30 2 (ps.length - dead) + put 0x32 2 dead + put 0x34 2 hidden + put 0x36 2 cut + put 0x38 8 (s.now 4)
  let slots := (ps.zip infos).map (fun q => slotImg c img (desc q.1) q.2 q.1) ++ List.replicate (c.slotsS - ps.length) (emptySlot c (Dict.pad img))
  let e := c.elemE
  let s := s.hubWrites base head 256
  let s := s.hubWrites (base + 256) (packFields 512 (slots.map (·.entry))) (64 * c.slotsS)
  let s := s.hubWrites (base + c.offI) (packFields 32 (slots.flatMap (·.toks))) (4 * c.slotsS * c.posT)
  let s := s.hubWrites (base + c.offMk) (packFields 8 (slots.flatMap (·.masks))) (c.offPt - c.offMk)
  let s := slots.zipIdx.foldl (fun (s : State) q =>
    let a := base + c.offPt + q.2 * c.posT * t.pd * e
    (s.hubWrites a (packFields (8 * e) q.1.elems <<< (8 * e * t.pd * c.textT)) (c.posT * t.pd * e))) s
  let cn := slots.foldl (fun (n : Counts) q => n.add q.cn) {}
  (s.modCmd r (fun x => { (x.addCounts (16 + t.ofmt.code) cn) with wrote := true })).modAsm r (fun w => { w with written := b :: w.written })

/-! ## The Hopper (R339 to R342) -/

def State.hopSlot (s : State) (k : Nat) : HopSlot := Tab.get {} s.input.slots k
def State.setHopSlot (s : State) (k : Nat) (x : HopSlot) : State := { s with input := { s.input with slots := Tab.set {} s.input.slots k x } }
def State.hopSize (s : State) : Nat := s.fld F.HOP_CFG_SLOTS 0
/-- Number of slots in a state. -/
def State.hopCount (s : State) (st : HopSlotState) : Nat := (List.range s.hopSize).countP (fun k => (s.hopSlot k).st = st)

/-- The waiting HOPPER_TAKE whose turn it is, by priority and round robin (R47). -/
def State.firstTake (s : State) : Option Cmd := s.pick unitHopper (s.cmds.filter (fun c => decide (c.phase = .waiting ∧ c.opcode = 0x7005)))

/-- Counts the time for which takes have waited, from now on or up to now (R341). -/
def State.starve (s : State) : State :=
  match s.input.starved, s.firstTake with
  | none, some _ => { s with input := { s.input with starved := some s.time } }
  | some t, none => { s.incWrap F.HOP_STATS_STARVED_NS 0 (s.time - t) with input := { s.input with starved := none } }
  | _, _ => s

/-- The answer to a HOPPER_TAKE (R340): slot, batch, address and time of the batch in slot `k`. -/
def State.takeReply (s : State) (k : Nat) : Nat :=
  let x := s.hopSlot k
  let a := s.fld F.HOP_BASE_BASE 0 <<< 20 + k * (s.fld F.HOP_CFG_SLOT_MIB 0 <<< 20)
  put 0 4 k + put 8 8 x.batch + put 0x10 8 a + put 0x18 8 x.time

/-- The low-water event (R340), where the READY batches were `before` and are one fewer now. -/
def State.hopLow (s old : State) (before batch : Nat) : State :=
  let low := s.fld F.HOP_CFG_LOW_WATER 0
  if low ≠ 0 ∧ low ≤ before ∧ before - 1 < low then ((s.setFld F.HOP_EVT_LOW 0 1).trace unitHopper 0x700 batch).wire old 2 else s

/-- A waiting take gets the batch in slot `k`. -/
def State.hopTake (s : State) (c : Cmd) (k : Nat) : State :=
  let x := s.hopSlot k
  let t := (s.setHopSlot k { x with st := .taken }).setFld F.HOP_STATUS_TAKE_IDX 0 ((k + 1) % s.hopSize)
  let t := t.hubWrites (c.fb 0x18 47 0) (t.takeReply k) 32
  ((((t.served unitHopper c.ref).wrote c.ref).finish c.ref 0 0).hopLow s (s.hopCount .ready) x.batch).starve

/-- Serves waiting takes, each in its turn, while the slot at the take index is READY (R340); `fuel` bounds them. -/
def State.hopTakes (s : State) : Nat → State
  | 0 => s
  | fuel + 1 =>
    match s.firstTake with
    | none => s
    | some c =>
      let k := s.fld F.HOP_STATUS_TAKE_IDX 0
      if s.braking ∨ s.frozen ∨ (s.hopSlot k).st ≠ .ready ∨ c.held then s else State.hopTakes (s.hopTake c k) fuel

/-- Runs the waiting takes. -/
def State.runTakes (s : State) : State := s.starve.hopTakes (s.cmds.length + 1)

/-- The oldest full slots become READY, in batch order; `fuel` bounds them. Batches are full out of order, READY in order: the slot
after the last READY or TAKEN one in ring order comes first. -/
def State.hopReady (s : State) : Nat → Nat → State
  | 0, _ => s
  | fuel + 1, k =>
    let x := s.hopSlot k
    let next := (k + 1) % max 1 s.hopSize
    match x.st with
    | .filling => if x.full then State.hopReady (s.setHopSlot k { x with st := .ready }) fuel next else s
    | .ready => State.hopReady s fuel next
    | _ => s

/-! ## Lanes (R336, R338) -/

/-- Whether a lane is in service. -/
def State.laneOk (s : State) (video : Bool) (k : Nat) : Bool :=
  if video then ¬ (s.fld F.BLT_STATUS_QUAR 0).testBit k && ¬ (s.fld F.BLT_CTL_BYPASS 0).testBit k
  else ¬ (s.fld F.TOK_STATUS_QUAR 0).testBit k && ¬ (s.fld F.TOK_CTL_BYPASS 0).testBit k

def laneCount (video : Bool) : Nat := if video then 24 else 4
def State.lane (s : State) (video : Bool) (k : Nat) : Option LaneJob := Tab.get none (if video then s.input.vlanes else s.input.tlanes) k
def State.setLane (s : State) (video : Bool) (k : Nat) (x : Option LaneJob) : State :=
  { s with input := if video then { s.input with vlanes := Tab.set none s.input.vlanes k x } else { s.input with tlanes := Tab.set none s.input.tlanes k x } }

/-- The lowest-numbered free lane in service. -/
def State.freeLane (s : State) (video : Bool) : Option Nat := lowest (laneCount video) (fun k => s.laneOk video k && (s.lane video k).isNone)

/-- Whether a lane holds a sample of a command. -/
def State.inLane (s : State) (video : Bool) (r : CmdRef) (i : Nat) : Bool :=
  (List.range (laneCount video)).any (fun k => match s.lane video k with | some j => decide (j.cmd = r ∧ j.sample = i) | none => false)

/-- Whether some lane is in service; a bypass takes effect when the lane finishes its current sample (R342). -/
def State.anyLane (s : State) (video : Bool) : Bool := (List.range (laneCount video)).any (fun k => s.laneOk video k || (s.lane video k).isSome)

/-- A command that no lane can serve ends with ECC_UNCORRECTED; its FILLING slots, the last taken, become FREE and are the next to be taken
(R338, R339). -/
def State.laneless (s : State) (r : CmdRef) (video : Bool) : State :=
  let n := s.input.slots.countP (fun (p : Nat × HopSlot) => decide (p.2.cmd = some r ∧ p.2.st = HopSlotState.filling))
  let s := s.setFld F.HOP_STATUS_FILL_IDX 0 ((s.fld F.HOP_STATUS_FILL_IDX 0 + s.hopSize - n) % max 1 s.hopSize)
  let s := { s with input := { s.input with slots := s.input.slots.map (fun (p : Nat × HopSlot) => if p.2.cmd = some r ∧ p.2.st = HopSlotState.filling then (p.1, ({} : HopSlot)) else p) } }
  let s := { s with input := { s.input with slots := s.input.slots.filter (fun (p : Nat × HopSlot) => decide (p.2 ≠ ({} : HopSlot))) } }
  s.finish r 0x0302 (if video then unitBolter else unitTok)

/-- Hands samples of an ASSEMBLE to lanes, in the order of the first batch and slot that any of their pieces occupy, among the
batches whose slots are taken (R336); `fuel` bounds them. -/
def State.dispatch (s : State) (r : CmdRef) (video : Bool) : Nat → State
  | 0 => s
  | fuel + 1 =>
    match s.cmd r with
    | none => s
    | some c =>
      let w := c.asmWork
      let order := (((s.batches c).take w.slots.length).flatMap (fun b => b.map (·.sample))).eraseDups
      let need (i : Nat) : Bool :=
        let d := w.descs.getD i 0
        ¬ s.malformed d c.tp.tt && (if video then decide (Desc.codec d ≠ 0) && ¬ w.doneV.contains i else Desc.hasText d && ¬ w.doneT.contains i) && ¬ s.inLane video r i
      if s.braking ∨ s.frozen ∨ c.phase ≠ .running then s
      else match order.find? need, s.freeLane video with
      | some i, some k => State.dispatch (s.setLane video k (some { cmd := r, sample := i })) r video fuel
      | some _, none => if s.anyLane video then s else s.laneless r video
      | _, _ => s

/-- Takes Hopper slots for the command's next batches, in ring order, while they are FREE (R339); `fuel` bounds them. -/
def State.takeSlots (s : State) (r : CmdRef) : Nat → State
  | 0 => s
  | fuel + 1 =>
    match s.cmd r with
    | none => s
    | some c =>
      let b := c.asmWork.slots.length
      let k := s.fld F.HOP_STATUS_FILL_IDX 0
      if s.frozen ∨ c.phase ≠ .running ∨ (s.batches c).length ≤ b ∨ (s.hopSlot k).st ≠ .free then s
      else
        let s := (s.setHopSlot k { st := .filling, batch := c.f 0x1C 4 + b, cmd := some r }).setFld F.HOP_STATUS_FILL_IDX 0 ((k + 1) % s.hopSize)
        State.takeSlots (s.modAsm r (fun w => { w with slots := w.slots ++ [(b, k)] })) r fuel

/-- Writes every batch whose slot is taken and whose samples are done. -/
def State.writeBatches (s : State) (r : CmdRef) : State :=
  match s.cmd r with
  | none => s
  | some c =>
    let w := c.asmWork
    let bs := s.batches c
    let done (p : Piece) : Bool :=
      let d := w.descs.getD p.sample 0
      s.malformed d c.tp.tt || ((decide (Desc.codec d = 0) || w.doneV.contains p.sample) && (¬ Desc.hasText d || w.doneT.contains p.sample))
    w.slots.foldl (fun (t : State) q =>
      let ps := bs.getD q.1 []
      if c.phase ≠ .running ∨ w.written.contains q.1 ∨ ¬ ps.all done then t
      else
        let now := t.now 4
        let t := t.writeBatch r c q.1 q.2 ps
        t.setHopSlot q.2 { t.hopSlot q.2 with full := true, time := now }) s

/-- One round of an ASSEMBLE: slots, lanes, batches, and its end once every batch is READY (R336, R339). -/
def State.asmStep (s : State) (r : CmdRef) : State :=
  let s := s.takeSlots r 65
  let s := (s.dispatch r true 25).dispatch r false 5
  let s := s.writeBatches r
  let s := (s.hopReady 65 (s.fld F.HOP_STATUS_TAKE_IDX 0)).runTakes
  match s.cmd r with
  | none => s
  | some c =>
    let w := c.asmWork
    if c.phase = .running ∧ w.written.length = (s.batches c).length ∧ w.slots.all (fun q => (s.hopSlot q.2).cmd ≠ some r ∨ (s.hopSlot q.2).st ≠ .filling) then
      s.finish r 0 0
    else s

/-- Starts an ASSEMBLE: the list, and each descriptor once (R331). -/
def State.startAsm (s : State) (r : CmdRef) : State :=
  match s.cmd r with
  | none => s
  | some c =>
    let list := c.fb 0x10 47 0
    let n := c.f 0x18 4
    s.readingThen r [(list, 8 * n)] (fun s =>
      let addr (i : Nat) : Nat := s.readMem (list + 8 * i) 8
      let good (a : Nat) : Bool := decide (a % 64 = 0 ∧ a < 2 ^ 48) && (s.spanFault .ilv a 128).isNone
      let spans := ((List.range n).map addr).filter good |>.map (fun a => (a, 128))
      s.readingThen r spans (fun s =>
        let ds := (List.range n).map (fun i => if good (addr i) then s.readMem (addr i) 128 else 0)
        let s := s.modCmd r (fun x => { x with work := .asm { descs := ds } })
        ds.foldl (fun (t : State) d => if t.malformed d c.tp.tt then (t.damageRecord 6 0 0 0 (Desc.sampleId d) 0 0).deadSample c unitHopper (Desc.sampleId d) else t) s))

/-- Runs the ASSEMBLE in progress; when it has ended, the next one starts, in the order in which they have issued (R336); `fuel` bounds
them. -/
def State.asmGo (s : State) : Nat → State
  | 0 => s
  | fuel + 1 =>
    match s.input.current with
    | some r =>
      let s := s.asmStep r
      let exceeds : Bool := match s.cmd r with | some c => decide (c.phase ≠ .running) | none => true
      if exceeds then State.asmGo { s with input := { s.input with current := none } } fuel else s
    | none =>
      match s.input.queue with
      | [] => s
      | r :: rest =>
        match (s.cmd r).map (fun (c : Cmd) => c.phase) with
        | some Phase.issued => s
        | some Phase.running => State.asmGo ({ s with input := { s.input with current := some r, queue := rest } }.startAsm r) fuel
        | _ => State.asmGo { s with input := { s.input with queue := rest } } fuel

/-- Hands waiting DECODE and TOKENIZE commands to lanes, each in its turn by priority and round robin (R47), before samples of an ASSEMBLE
(log 25). -/
def State.soloGo (s : State) (video : Bool) : Nat → State
  | 0 => s
  | fuel + 1 =>
    let unit := if video then unitBolter else unitTok
    let list := if video then s.input.soloV else s.input.soloT
    match s.pick unit (list.filterMap s.cmd) with
    | none => s
    | some c =>
      let rest := list.filter (· ≠ c.ref)
      let pop (s : State) : State := { s with input := if video then { s.input with soloV := rest } else { s.input with soloT := rest } }
      if s.braking ∨ s.frozen then s
      else match s.freeLane video with
      | some k => State.soloGo (((pop s).served unit c.ref).setLane video k (some { cmd := c.ref, sample := 0 })) video fuel
      | none => if s.anyLane video then s else State.soloGo ((pop s).laneless c.ref video) video fuel

/-- Runs the whole pipeline as far as it goes. -/
def State.runInput (s : State) : State :=
  let s := (s.soloGo true (s.input.soloV.length + 1)).soloGo false (s.input.soloT.length + 1)
  (s.asmGo (2 * s.input.queue.length + 3)).runTakes

/-- The end of a lane's work (R338): its storage errors first. The first uncorrectable word restarts the sample on the lane; a second
one quarantines the lane and the sample goes to another. -/
def State.laneDone (s : State) (video : Bool) (k : Nat) (ev : BufEvents) (go : Cmd → LaneJob → State → State) : State :=
  if s.frozen ∨ ¬ s.running then s
  else match s.lane video k with
  | none => s
  | some j =>
    match s.cmd j.cmd with
    | none => s.setLane video k none
    | some c =>
      if c.phase ≠ .running then (s.setLane video k none).settleQuars.runInput
      else if s.stalled c then s.stall c
      else if ev.uncorrectable = 0 then (go c j (s.setLane video k none)).settleQuars.runInput
      else
        let s := s.report { code := 0x0104, cls := 2, level := 1, unit := if video then unitBolter else unitTok, seq := c.seqNo, queue := c.ref.q,
                            action := if 2 ≤ j.ecc + ev.uncorrectable then 3 else 2, detail := put 0 2 k }
        if j.ecc + ev.uncorrectable < 2 then s.setLane video k (some { j with ecc := 1 })
        else
          let s := s.setLane video k none
          let s := if video then s.setFld F.BLT_STATUS_QUAR 0 (s.fld F.BLT_STATUS_QUAR 0 ||| 2 ^ k)
            else s.setFld F.TOK_STATUS_QUAR 0 (s.fld F.TOK_STATUS_QUAR 0 ||| 2 ^ k)
          let s := if c.opcode = 0x7004 then s
            else { s with input := if video then { s.input with soloV := j.cmd :: s.input.soloV } else { s.input with soloT := j.cmd :: s.input.soloT } }
          s.settleQuars.runInput

/-! ## The commands -/

/-- Checks of the tensorizer parameters at `o`: PCODE, TT, OFMT, AFLAGS, OUT_W, OUT_H, SLOT, OVP (R330, R331). -/
def tparamChecks (c : Cmd) (o : Nat) : Checks :=
  let p := c.tp.p
  let bad (x : Nat) : Bool := decide (x = 0 ∨ x % p ≠ 0)
  Checks.all [failLen (3 < c.f o 1) o, failLen (c.f (o + 1) 1 ≠ 1 ∧ c.f (o + 1) 1 ≠ 2 ∧ c.f (o + 1) 1 ≠ 4) (o + 1),
    failFmt (c.f (o + 2) 1 ≠ 1 ∧ c.f (o + 2) 1 ≠ 3) (o + 2), failRsv (c.f (o + 3) 1 ≥ 128) (o + 3), failLen (bad (c.f (o + 4) 2)) (o + 4),
    failLen (bad (c.f (o + 6) 2)) (o + 6), failLen (1 < c.f (o + 8) 1) (o + 8), failRsv (2 < c.f (o + 9) 1) (o + 9)]

def checksDecode (s : State) (c : Cmd) : Checks :=
  let d := tdAt c.pkt 0x40
  Checks.all [lenIs c 3, unlisted c [(0x10, 16), (0x40, 48), (0x70, 10), (0x7C, 24)], tparamChecks c 0x70,
    s.addrCheck .ilv c 0x10 64 128, tdChecks c.pkt false (fun f => decide (f.code = 1 ∨ f.code = 3)) d, failFmt (d.fmtc ≠ c.f 0x72 1) 0x48, s.tdRange .ilv d,
    failLen (d.rank ≠ 3) 0x48, failLen (d.e 0 ≠ c.tp.pd) 0x4C, failLen (d.e 1 ≠ c.tp.ft) 0x50,
    s.addrCheck .ilv c 0x18 64 64]

/-- DECODE (R330). -/
def execDecode (r : CmdRef) (s : State) : Host.Outcome State Fault Refusal :=
  ok (s.runUnit r 0x7001 (fun c =>
    let a := c.fb 0x10 47 0
    s.readingThen r [(a, 128)] (fun s =>
      let d := s.readMem a 128
      if s.malformed d c.tp.tt ∨ Desc.codec d = 0 then s.finish r 0x0105 0x10
      else if (tdAt c.pkt 0x40).e 2 ≠ Desc.nout d / c.tp.tt then s.finish r 0x0105 0x54
      else
        let s := (s.modCmd r (fun x => { x with work := .asm { descs := [d] } })).phaseCmd r .running
        { s with input := { s.input with soloV := s.input.soloV ++ [r] } }.runInput)))

/-- A decoded DECODE writes D and its report (R323, R330). -/
def State.decodeDone (s : State) (c : Cmd) : State :=
  let r := c.ref
  let desc := c.asmWork.descs.getD 0 0
  let t := c.tp
  s.readingThen r [(Desc.stream desc, Desc.streamLen desc)] (fun s =>
    let v := s.clip desc
    let s := s.clipRecords desc v
    let d := { tdAt c.pkt 0x40 with ovp := t.ovp }
    let gs := Desc.nout desc / t.tt
    let dead := v.dead desc
    let s := if dead then s.deadSample c unitBolter (Desc.sampleId desc) else s
    let s := d.rows.foldl (fun (s : State) q =>
      if dead then s.hubWrites (d.rowAddr q.1 q.2.1 q.2.2) 0 d.rowLen
      else (s.writeRow r c d q.1 q.2.1 q.2.2 (v.tubelet desc t q.2.1 q.1)).1) s
    let s := s.wrote r
    let e := sampleEntry desc { clip := some v } { sample := 0, gn := gs } (if dead then 0 else gs * t.ft) false
    (s.hubWrites (c.fb 0x18 47 0) e 64).finish r 0 0)

/-- SAMPLE_DONE: a decode lane has finished the sample it holds (R336, R338). -/
def execSampleDone (lane : Fin 24) (ev : BufEvents) (s : State) : Host.Outcome State Fault Refusal :=
  ok (s.laneDone true lane.val ev (fun c j s =>
    if c.opcode = 0x7001 then s.decodeDone c
    else
      let d := c.asmWork.descs.getD j.sample 0
      s.readingThen c.ref [(Desc.stream d, Desc.streamLen d)] (fun s =>
        let v := s.clip d
        let s := s.clipRecords d v
        let s := if v.dead d then s.deadSample c unitBolter (Desc.sampleId d) else s
        s.modAsm c.ref (fun w => { w with doneV := j.sample :: w.doneV }))))

def checksTokenize (s : State) (c : Cmd) : Checks :=
  let src := c.fb 0x10 47 0; let sl := c.f 0x18 4
  let dst := c.fb 0x20 47 0; let dl := 4 * c.f 0x28 4
  Checks.all [lenIs c 1, unlisted c [(0x10, 0xD), (0x20, 12), (0x30, 8)], failLen (1 < c.f 0x1C 1) 0x1C, s.addrCheck .ilv c 0x10 1 sl,
    s.addrCheck .ilv c 0x20 4 dl, failAdrO (overlapAt dst dl src sl) 0x20,
    if c.fb 0x30 47 0 = 0 then addrRsv c.pkt 0x30 else s.addrCheck .ilv c 0x30 64 16]

/-- TOKENIZE (R329). -/
def execTokenize (r : CmdRef) (s : State) : Host.Outcome State Fault Refusal :=
  ok (s.runUnit r 0x7002 (fun _ =>
    let s := s.phaseCmd r .running
    { s with input := { s.input with soloT := s.input.soloT ++ [r] } }.runInput))

/-- Records the invalid runs of a text (R328). -/
def State.textRecords (s : State) (text len id : Nat) : State :=
  (runsOf 0 (marksOf len (bytesOf text len))).foldl (fun (s : State) q => s.damageRecord 5 0 0 0 id q.1 q.2) s

/-- A finished TOKENIZE writes its tokens and its report. -/
def State.tokenizeDone (s : State) (c : Cmd) : State :=
  let r := c.ref
  let src := c.fb 0x10 47 0; let n := c.f 0x18 4
  s.readingThen r [(src, n)] (fun s =>
    let text := s.readMem src n
    let s := s.textRecords text n 0
    let ts := tokensOf (s.dict c.dictSlot) text n
    let out := ts.take (c.f 0x28 4)
    let runs := (runsOf 0 (marksOf n (bytesOf text n))).length
    let s := (s.hubWrites (c.fb 0x20 47 0) (packFields 32 out) (4 * out.length)).wrote r
    let rep := c.fb 0x30 47 0
    (if rep = 0 then s else s.hubWrites rep (put 0 4 ts.length + put 4 4 out.length + put 8 4 runs) 16).finish r 0 0)

/-- TEXT_DONE: a tokenizer lane has finished its text (R328, R338). -/
def execTextDone (lane : Fin 4) (ev : BufEvents) (s : State) : Host.Outcome State Fault Refusal :=
  ok (s.laneDone false lane.val ev (fun c j s =>
    if c.opcode = 0x7002 then s.tokenizeDone c
    else
      let d := c.asmWork.descs.getD j.sample 0
      s.readingThen c.ref [(Desc.text d, Desc.textLen d)] (fun s =>
        (s.textRecords (s.readMem (Desc.text d) (Desc.textLen d)) (Desc.textLen d) (Desc.sampleId d)).modAsm c.ref
          (fun w => { w with doneT := j.sample :: w.doneT }))))

def checksDictLoad (s : State) (c : Cmd) : Checks :=
  Checks.all [lenIs c 1, unlisted c [(0x10, 9)], failLen (1 < c.f 0x18 1) 0x18, s.addrCheck .ilv c 0x10 64 64]

/-- DICT_LOAD (R327). -/
def execDictLoad (r : CmdRef) (s : State) : Host.Outcome State Fault Refusal :=
  ok (s.runUnit r 0x7003 (fun c =>
    let a := c.fb 0x10 47 0
    let slot := c.f 0x18 1
    s.readingThen r [(a, 64)] (fun s =>
      let h := s.readMem a 64
      match dictFault h false with
      | some o => s.finish r 0x0103 o
      | none =>
        let n := 64 + 8 * le h 4 4 + Dict.poolLen h
        match s.spanFault .ilv a n with
        | some x => s.finish r 0x0104 x
        | none => s.readingThen r [(a, n)] (fun s =>
          let img := s.readMem a n
          match dictFault img true with
          | some o => s.finish r 0x0103 o
          | none =>
            let s := { s with input := { s.input with dicts := Tab.set (0, 0) s.input.dicts slot (img, n) } }
            let s := s.setFld F.TOK_STATUS_VALID 0 (s.fld F.TOK_STATUS_VALID 0 ||| 2 ^ slot)
            (if slot = 0 then s.setFld F.TOK_STATUS_N0 0 (le img 4 4) else s.setFld F.TOK_STATUS_N1 0 (le img 4 4)).finish r 0 0))))

/-- Whether the Hopper is enabled. -/
def State.hopOn (s : State) : Bool := s.flag F.HOP_STATUS_EN 0

def checksAssemble (s : State) (c : Cmd) : Checks :=
  let t := c.posT; let tx := c.textT; let ft := c.tp.ft
  Checks.all [lenIs c 3, unlisted c [(0x10, 18), (0x24, 8), (0x2C, 10), (0x38, 24)], failLen (c.f 0x18 4 = 0 ∨ 65536 < c.f 0x18 4) 0x18,
    failLen (c.slotsS = 0 ∨ (if c.tp.flags.testBit 4 then 64 else 256) < c.slotsS) 0x20, failLen (t < 16 ∨ 65536 < t ∨ t % 16 ≠ 0) 0x24,
    failLen (tx % 16 ≠ 0 ∨ t ≤ tx ∨ (ft ≠ 0 ∧ (tx % ft ≠ 0 ∨ t - tx < ft))) 0x28, tparamChecks c 0x2C,
    if s.fld F.HOP_CFG_SLOT_MIB 0 <<< 20 < c.batchSize then { limit := [(0x20, 0x20)] } else {},
    s.addrCheck .ilv c 0x10 64 (8 * c.f 0x18 4), if s.hopOn then {} else { address := [(0, 0)] }]

/-- ASSEMBLE (R331): it runs when the ones that issued before it have ended (R336). -/
def execAssemble (r : CmdRef) (s : State) : Host.Outcome State Fault Refusal :=
  ok (s.runUnit r 0x7004 (fun _ =>
    if ¬ s.hopOn then s.finish r 0x0104 0
    else
      let s := s.phaseCmd r .running
      { s with input := { s.input with queue := if s.input.queue.contains r then s.input.queue else s.input.queue ++ [r] } }.runInput))

def checksHopperTake (s : State) (c : Cmd) : Checks :=
  let m := c.f 0x10 1
  Checks.all [lenIs c 1, unlisted c [(0x10, 2), (0x18, 8)], failRsv (1 < m) 0x10,
    if m = 0 then s.addrCheck .ilv c 0x18 64 32 else {}]

/-- HOPPER_TAKE (R340). -/
def execHopperTake (r : CmdRef) (s : State) : Host.Outcome State Fault Refusal :=
  ok (s.runUnit r 0x7005 (fun c =>
    if ¬ s.hopOn then s.finish r 0x0104 0
    else if c.f 0x10 1 = 0 then (s.phaseCmd r .waiting).runTakes
    else
      let k := c.f 0x11 1
      if (s.hopSlot k).st ≠ .taken then s.finish r 0x0104 k
      else ((s.setHopSlot k {}).finish r 0 0).runInput))

/-- ENABLE of HOP_CTL: every slot FREE, the take index at slot 0 (R342). It acts on a disabled Hopper. -/
def State.hopEnable (s : State) : State :=
  if s.hopOn then s
  else
    let s := ((s.setFld F.HOP_STATUS_EN 0 1).setFld F.HOP_STATUS_TAKE_IDX 0 0).setFld F.HOP_STATUS_FILL_IDX 0 0
    { s with input := { s.input with slots := [] } }

/-- DISABLE of HOP_CTL: ignored while a slot is not FREE or an ASSEMBLE is in progress; waiting takes end (R340, R342). -/
def State.hopDisable (s : State) : State :=
  let busy := s.cmds.any (fun c => decide (c.opcode = 0x7004 ∧ (c.phase = .issued ∨ c.phase = .running)))
  if ¬ s.hopOn ∨ busy ∨ s.hopCount .free ≠ s.hopSize then s
  else
    let s := s.setFld F.HOP_STATUS_EN 0 0
    (s.cmds.foldl (fun (t : State) c => if c.phase = .waiting ∧ c.opcode = 0x7005 then t.finish c.ref 0x0104 0 else t) s).starve

/-- HOP_CTL_ENABLE (R342). -/
def execHopCtlEnable (s : State) : Host.Outcome State Fault Refusal := ok (if s.running then s.hopEnable else s)
/-- HOP_CTL_DISABLE (R342). -/
def execHopCtlDisable (s : State) : Host.Outcome State Fault Refusal := ok (if s.running then s.hopDisable else s)

end Sys2Proof.Machine
end

