-- ==== Sys2Proof/Machine/Coherence.lean ====
section
/-! DEFINITION. The commands of the coherence domain (R275 to R299): the requests that reach the homes, snoop answers, attaching and
detaching agents. An operand that a row needs only in a case (a directory error, cbo.zero, cbo.clean, a cache error) comes after the
state and is none of these where it is left out. -/
namespace Sys2Proof.Machine

/-- TRANSACTION_ACK: the transaction ends and the home takes the next request of the line (R281). One that no served transaction awaits is a
message that no state allows: a protocol error (R297), with the agent whose transaction is in progress, if any, in CF_FATAL (log 51). -/
def execTransactionAck (line : Nat) (s : State) : Host.Outcome State Fault Refusal :=
  let h := s.home line
  ok (if ¬ s.running then s
    else match h.txn with
    | some t => if t.granted then s.takeNext line h.wait else s.coherenceFatal 3 (t.req.agent.getD 0) line
    | none => s.coherenceFatal 3 0 line)

/-! ## Requests of caching agents (R280) -/

/-- A cluster needs room in its L3 for a line: where the set is full another line leaves it, a dirty one by WriteBack. Which one is a free
value (R304, log 6, log 17). The caches of the controllers have no stated size. -/
def State.makeWay (s : State) (k line : Nat) : State :=
  let xs := s.setOf k line
  if 8 ≤ k ∨ xs.length < l3.ways then s
  else
    let (v, t) := s.draw 22
    let old := xs.getD (v % xs.length) 0
    if (t.copyOf k old).st = .s then t.setCopy k old {}
    else if (t.copyOf k old).st.dirty then t.request1 old (unitCaching k) (.writeBack k false 0) .clean
    else t.request1 old (unitCaching k) (.evict k) .clean

/-- An agent misses: events 1 to 3 of its core are counted (R306), since the L3 includes L1 and L2, and room is made. -/
def State.missAt (s : State) (k line : Nat) : State := (s.clusterEvents k [1, 2, 3]).makeWay k line

/-- READ_SHARED: a load. A line the agent holds is a hit. -/
def execReadShared (k : Fin 13) (line : Nat) (s : State) (ev : DirEcc := .clean) : Host.Outcome State Fault Refusal :=
  ok (if ¬ s.running ∨ ¬ s.attached k.val then s
      else
        let c := s.copyOf k.val line
        if c.st ≠ .i then { s with resp := .data c.data } else (s.missAt k.val line).request1 line (unitCaching k.val) (.readShared k.val) ev)

/-- A store of masked bytes by an agent: in E or M it writes without a request (R278), in S or O it sends Upgrade, in I ReadUnique
(R280). -/
def State.store (s : State) (k line mask data : Nat) (zero : Bool) (ev : DirEcc) (req : HReq) : State :=
  if ¬ s.running ∨ ¬ s.attached k then s
  else
    let c := s.copyOf k line
    if c.st = .e ∨ c.st = .m then s.setCopy k line (storeInto c.data c.poison mask data zero)
    else (if c.st = .i then s.missAt k line else s).request1 line (unitCaching k) req ev

/-- READ_UNIQUE: a store of masked bytes. An agent that holds the line in S keeps its data, as an Upgrade does. The owner of a line in O sends
Upgrade: a ReadUnique of it is a message that no state of R280 allows, a protocol error (R297). -/
def execReadUnique (k : Fin 13) (line mask data : Nat) (s : State) (zero : Bool := false) (ev : DirEcc := .clean) : Host.Outcome State Fault Refusal :=
  ok (if s.running ∧ s.attached k.val ∧ (s.copyOf k.val line).st = .o then s.coherenceFatal 3 k.val line
    else s.store k.val line mask data zero ev (.readUnique k.val mask data zero))

/-- UPGRADE: a store to a line held in S or O; served as ReadUnique where the line has been lost meanwhile (R282). -/
def execUpgrade (k : Fin 13) (line mask data : Nat) (s : State) (zero : Bool := false) (ev : DirEcc := .clean) : Host.Outcome State Fault Refusal :=
  ok (s.store k.val line mask data zero ev (.upgrade k.val mask data zero))

/-- EVICT (R279): it waits while the home is busy with the line. An agent drops a dirty line with WriteBack: its Evict is a message that no
state of R280 allows, a protocol error (R297). -/
def execEvict (k : Fin 13) (line : Nat) (s : State) : Host.Outcome State Fault Refusal :=
  ok (if s.running ∧ (s.copyOf k.val line).st.dirty then s.coherenceFatal 3 k.val line
      else if (s.copyOf k.val line).st = .s then (if s.running then s.evictLine k.val line else s)
      else s.request1 line (unitCaching k.val) (.evict k.val) .clean)

/-- WRITE_BACK (R279, R287, R295, R305): it waits while the home is busy with the line. -/
def execWriteBack (k : Fin 13) (line : Nat) (s : State) (keep : Bool := false) (level : Nat := 0) : Host.Outcome State Fault Refusal :=
  ok (s.request1 line (unitCaching k.val) (.writeBack k.val keep level) .clean)

/-! ## Non-caching requests (R276, R284 to R286) -/

/-- READ_ONCE (R284). `cls` is the traffic class of the unit that reads (R242). -/
def execReadOnce (line : Nat) (s : State) (ev : DirEcc := .clean) (cls : TClass := .bulk) : Host.Outcome State Fault Refusal :=
  ok (s.request1 line unitHubFabric (.readOnce (clsNum cls)) ev)
/-- INV_WRITE (R285). -/
def execInvWrite (line data : Nat) (poison : Bool) (s : State) (ev : DirEcc := .clean) (cls : TClass := .bulk) : Host.Outcome State Fault Refusal :=
  ok (s.request1 line unitHubFabric (.invWrite (clsNum cls) data poison) ev)
/-- MERGE_WRITE (R285). -/
def execMergeWrite (line mask data : Nat) (s : State) (ev : DirEcc := .clean) (cls : TClass := .bulk) : Host.Outcome State Fault Refusal :=
  ok (s.request1 line unitHubFabric (.mergeWrite (clsNum cls) mask data) ev)
/-- HOME_ATOMIC (R286). -/
def execHomeAtomic (line : Nat) (op : AtomicOp) (s : State) (ev : DirEcc := .clean) (cls : TClass := .bulk) : Host.Outcome State Fault Refusal :=
  ok (s.request1 line unitHubFabric (match op with
    | .add64 off v => .atomicAdd (clsNum cls) (off % 64 / 8 * 8) 8 v
    | .add32 off v => .atomicAdd (clsNum cls) (off % 64 / 4 * 4) 4 v
    | .max32 off v => .atomicMax (clsNum cls) (off % 64 / 4 * 4) (v % 2 ^ 32)) ev)

/-! ## Snoops (R280, R282) -/

/-- State of a line after a snoop. -/
def LineState.after (st : LineState) (n : Snoop) : LineState :=
  match n, st with
  | .shared, .e => .s
  | .shared, .m => .o
  | .shared, x => x
  | .once, x => x
  | .unique, _ => .i
  | .inv, _ => .i

/-- What an agent's answer to a snoop of a transaction does: its state follows R280, and its data goes to the home or the requester. -/
def State.answered (s : State) (k line : Nat) (n : Snoop) (t : Txn) : State :=
  let h := s.home line
  let c := s.copyOf k line
  let whole : Bool := match t.req with | .invWrite .. => true | _ => false
  let gives : Bool := match n with
    | .inv => c.st.dirty && ! whole
    | _ => c.st.owns
  let t := { t with snoops := t.snoops.filter (· ≠ (k, n)), data := if gives then some (c.data, c.poison) else t.data,
                    dirty := t.dirty || (gives && c.st.dirty) }
  let st := c.st.after n
  let s := if gives then s.travel (agentRegion k) (match n with | .inv => s.homeOf line / 8 | _ => (t.req.agent.map agentRegion).getD 8) 64 else s
  let s := s.setCopy k line (if st = .i then {} else { c with st := st })
  (s.setHome line { h with txn := some t }).tryServe line

/-- An agent answers a snoop. An answer that no transaction awaits is a message that no state of R281 allows: a protocol error (R297). -/
def State.answer (s : State) (k line : Nat) (n : Snoop) : State :=
  if ¬ s.running then s
  else match (s.home line).txn with
    | none => s.coherenceFatal 3 k line
    | some t => if t.snoops.contains (k, n) then (s.clusterEvents k [4]).answered k line n t else s.coherenceFatal 3 k line

/-- SNP_SHARED (R280). -/
def execSnpShared (k : Fin 13) (line : Nat) (s : State) : Host.Outcome State Fault Refusal := ok (s.answer k.val line .shared)
/-- SNP_UNIQUE (R280). -/
def execSnpUnique (k : Fin 13) (line : Nat) (s : State) : Host.Outcome State Fault Refusal := ok (s.answer k.val line .unique)
/-- SNP_ONCE (R280). -/
def execSnpOnce (k : Fin 13) (line : Nat) (s : State) : Host.Outcome State Fault Refusal := ok (s.answer k.val line .once)
/-- SNP_INV (R280). -/
def execSnpInv (k : Fin 13) (line : Nat) (s : State) : Host.Outcome State Fault Refusal := ok (s.answer k.val line .inv)

/-- SNOOP_TIMEOUT: a snoop to an attached agent stays unanswered (R297). -/
def execSnoopTimeout (k : Fin 13) (line : Nat) (s : State) : Host.Outcome State Fault Refusal :=
  ok (match (s.home line).txn with
    | some t => if s.running ∧ s.attached k.val ∧ t.snoops.any (fun x => x.1 = k.val) then s.coherenceFatal 1 k.val line else s
    | none => s)

/-! ## Attaching and detaching (R296, R299) -/

/-- A write of ATTACHED bits by firmware: bits that rise attach their agents, unless DETACHING; bits that fall start a detach. -/
def State.writeAgents (s : State) (mask v : Nat) : State :=
  let old := s.fld F.CF_AGENTS_ATTACHED 0
  let det := s.fld F.CF_AGENTS_DETACHING 0
  let want := (old &&& ((2 ^ 13 - 1) ^^^ (mask % 2 ^ 13))) ||| (v &&& mask % 2 ^ 13)
  let new := (old &&& want) ||| (want &&& ((2 ^ 13 - 1) ^^^ det))
  (s.setFld F.CF_AGENTS_ATTACHED 0 new).setFld F.CF_AGENTS_DETACHING 0 (det ||| (old &&& ((2 ^ 13 - 1) ^^^ new)))

/-- Address of CF_AGENTS. -/
def cfAgentsPa : Nat := 0x700002000008

/-- AGENT_ATTACH (R296). -/
def execAgentAttach (a : Agent) (k : Fin 13) (s : State) : Host.Outcome State Fault Refusal :=
  ok (if ¬ s.running then s else if Agent.firmware a then s.writeAgents (2 ^ k.val) (2 ^ k.val) else s.mmioRefuse cfAgentsPa unitHubFabric true)

/-- AGENT_DETACH (R296). -/
def execAgentDetach (a : Agent) (k : Fin 13) (s : State) : Host.Outcome State Fault Refusal :=
  ok (if ¬ s.running then s else if Agent.firmware a then s.writeAgents (2 ^ k.val) 0 else s.mmioRefuse cfAgentsPa unitHubFabric true)

/-- Every line that directories name for an agent is snooped out: dirty data goes to memory (R280, R296). -/
def State.snoopOut (s : State) (k : Nat) : State :=
  let lines := (s.dir.filter (fun (p : Nat × Option DirEntry) => match p.2 with | some e => e.named.contains k | none => false)).map (·.1)
  lines.foldl (fun (t : State) line =>
    let c := t.copyOf k line
    let t := t.setCopy k line {}
    let t := if c.st = .o ∨ c.st = .m then t.storeLine line c.data c.poison else t
    match t.dirOf line with
    | some e => if e.mode ≠ 0 ∧ e.owner = k then t.forget k line
                else
                  let pres := e.pres &&& ((2 ^ 13 - 1) ^^^ 2 ^ k)
                  if pres = 0 ∧ e.mode = 0 then t.setDir line none else t.setDir line (some { e with pres := pres })
    | none => t) s

/-- The answers of an agent to every snoop that a home still awaits from it. -/
def State.answerAll (s : State) (k : Nat) : State :=
  s.homes.foldl (fun (t : State) p =>
    match (t.home p.1).txn with
    | some x => (x.snoops.filter (fun q => decide (q.1 = k))).foldl (fun (u : State) q =>
        match (u.home p.1).txn with
        | some y => u.answered k p.1 q.2 y
        | none => u) t
    | none => t) s

/-- DETACH_COMPLETE: the last home has finished: it has no transaction of the agent in progress, awaits nothing of it and names no line of
it (R296). -/
def execDetachComplete (k : Fin 13) (s : State) : Host.Outcome State Fault Refusal :=
  let det := s.fld F.CF_AGENTS_DETACHING 0
  let busy := s.homes.any (fun p => match p.2.txn with | some t => decide (t.req.agent = some k.val) | none => false)
  ok (if s.running ∧ det.testBit k.val ∧ ¬ busy then ((s.answerAll k.val).snoopOut k.val).setFld F.CF_AGENTS_DETACHING 0 (det ^^^ 2 ^ k.val) else s)

end Sys2Proof.Machine
end

