-- ==== Sys2Proof/Machine/Domains.lean ====
section
/-! DEFINITION. Power domains: R402 to R404, R310. -/
namespace Sys2Proof.Machine

/-- The state with a domain's ON bit set or cleared. -/
def State.setDom (s : State) (d : Nat) (on : Bool) : State :=
  if d < 64 then s.setFld F.GOV_DOM_ON_LO_ON 0 (setBits (s.fld F.GOV_DOM_ON_LO_ON 0) d d (b2n on))
  else if d < 72 then s.setFld F.GOV_DOM_ON_HI_ON 0 (setBits (s.fld F.GOV_DOM_ON_HI_ON 0) (d - 64) (d - 64) (b2n on))
  else s

/-- Parent of a domain (R403). -/
def domParent (d : Nat) : Nat :=
  if d < 28 then
    let n := d / 7
    if d % 7 = 6 then 71 else if d % 7 = 5 then 7 * n + 6 else 7 * n + 5
  else if d < 60 then 7 * ((d - 28) / 8) + 5
  else if d < 71 then 71
  else 72

/-- Whether a domain will be on once the switches that are asked for are done. -/
def State.domWill (s : State) (d : Nat) : Bool :=
  s.pwr.requests.foldl (fun (b : Bool) (p : Nat × Bool) => if p.1 = d then p.2 else b) (s.domOn d)

/-- Whether a request breaks the order of R403. -/
def State.domRefused (s : State) (d : Nat) (on : Bool) : Bool :=
  if on then ¬ s.domWill (domParent d) else (List.range 72).any (fun k => decide (domParent k = d) && s.domWill k)

/-- A request to switch a domain (R403): refused, or taken to be done in its turn. -/
def State.domRequest (s : State) (d : Nat) (on : Bool) : State :=
  if s.domRefused d on then
    let t := s.setFld F.GOV_EVT_DOM_REFUSED 0 1
    t.wire s 4
  else if s.domWill d = on then s
  else { s with pwr := { s.pwr with requests := s.pwr.requests ++ [(d, on)] } }

/-- The content of a stack is lost with its power (R222, R227). Its directory lies in its home region and stays (R298). -/
def State.loseStack (s : State) (st : Nat) : State :=
  let inStack (pa : Nat) : Bool := match chanOf s.localGib pa with | some c => decide (c.gch / 16 = st) | none => false
  { s with mem := s.mem.filter (fun (p : Host.Cell) => ¬ inStack p.1), ecc := s.ecc.filter (fun (p : Nat × Nat) => ¬ inStack (64 * p.1)) }

/-- The harts of a cluster come to RESET (R310): what their power held is gone, their cycle counts stand. -/
def State.hartsReset (s : State) (k : Nat) : State :=
  (List.range 8).foldl (fun (t : State) j => (t.setFld F.CL_HART_CTL_STATE (8 * k + j) 0).setHart (8 * k + j)
    { cycles := (t.hart (8 * k + j)).cycles, acctAt := (t.hart (8 * k + j)).acctAt, mtip := (t.hart (8 * k + j)).mtip }) s

/-- The soft repairs of a stack are lost with its power; hard repairs are applied again at power-on (R251). -/
def State.softLost (s : State) (st : Nat) : State :=
  let x := s.stack st
  s.setStack st { x with repBanks := x.repBanks.foldl (fun (t : Tab BankRep) p => Tab.set {} t p.1 { p.2 with soft := [] }) x.repBanks }

/-- What follows from a domain being off: a cluster reports it and its harts will come up in RESET (R310), the ports of a network are
OFF (R404), a stack has lost its content and its soft repairs. -/
def State.domGone (s : State) (d : Nat) : State :=
  if 60 ≤ d ∧ d < 68 then (s.setFld F.CL_CTL_ON (d - 60) 0).hartsReset (d - 60)
  else if d = 68 ∨ d = 69 then
    (List.range 4).foldl (fun (t : State) j => let p := 4 * (d - 68) + j
      if t.fld F.PORT_STATUS_STATE p = 0 then t else t.portLeaves p 0 0) s
  else if 28 ≤ d ∧ d < 60 then (s.loseStack (d - 28)).softLost (d - 28)
  else s

/-- Whether the switch of a request can end: a cluster goes off only once its agent is detached (R296, R310). -/
def State.domReady (s : State) (p : Nat × Bool) : Bool :=
  p.2 || decide (p.1 < 60 ∨ 68 ≤ p.1) || ¬ (s.fld F.CF_AGENTS_DETACHING 0).testBit (p.1 - 60)

/-- The units whose clock stops while an engine or cluster domain is off (R453). -/
def stoppedUnits (d : Nat) : List Nat :=
  if d < 28 ∧ d % 7 < 4 then [unitEngine (4 * (d / 7) + d % 7)]
  else if 60 ≤ d ∧ d < 68 then unitL3 (d - 60) :: (List.range 8).map (fun j => unitHart (8 * (d - 60) + j))
  else []

/-- DOMAIN_SWITCH_DONE: the domain that the Governor is switching has ended its ramp (R403). A cluster that comes on is attached by
firmware (R310). -/
def execDomainSwitchDone (d : Fin 72) (s : State) : Host.Outcome State Fault Refusal :=
  ok (match s.pwr.requests with
    | [] => s
    | p :: rest =>
      if ¬ s.running ∨ p.1 ≠ d.val ∨ ¬ s.domReady p then s
      else
        let s := { s with pwr := { s.pwr with requests := rest } }
        let s := s.setDom d.val p.2
        let s := (stoppedUnits d.val).foldl (if p.2 then State.clockResume else State.clockStop) s
        if ¬ p.2 then s.domGone d.val
        else if 60 ≤ d.val ∧ d.val < 68 then ((s.hartsReset (d.val - 60)).writeAgents (2 ^ (d.val - 60)) (2 ^ (d.val - 60))).setFld F.CL_CTL_ON (d.val - 60) 1
        else s)

/-- Address of GOV_DOM_CTL. -/
def govDomCtlPa : Nat := 0x700000200028

/-- GOV_DOM_ON: GOV_DOM_CTL.ON by firmware (R403, R420). -/
def execGovDomOn (a : Agent) (d : Fin 72) (s : State) : Host.Outcome State Fault Refusal :=
  ok (if ¬ s.running then s else if Agent.firmware a then s.domRequest d.val true else s.mmioRefuse govDomCtlPa unitGov true)

/-- GOV_DOM_OFF: GOV_DOM_CTL.OFF by firmware (R403, R420). -/
def execGovDomOff (a : Agent) (d : Fin 72) (s : State) : Host.Outcome State Fault Refusal :=
  ok (if ¬ s.running then s else if Agent.firmware a then s.domRequest d.val false else s.mmioRefuse govDomCtlPa unitGov true)

end Sys2Proof.Machine
end

