-- ==== Sys2Proof/Machine/Cores.lean ====
section
/-! DEFINITION. The host cores: R295, R305 to R310, R450, R479. The instructions of the cores themselves are those of the RISC-V
specifications; here stand what the device adds to them and does for them. -/
namespace Sys2Proof.Machine

/-- STATE of a hart (R309): 0 RESET, 1 RUNNING, 2 STOPPED. -/
def State.hartState (s : State) (h : Nat) : Nat := s.fld F.CL_HART_CTL_STATE h

/-- Whether a hart executes. -/
def State.hartRuns (s : State) (h : Nat) : Bool := s.running && decide (s.hartState h = 1)

/-! ## Poison (R479) -/

/-- A core takes a precise exception (R31, R300, R479): 1 fetch, 2 illegal instruction, 5 load, 7 store. -/
def State.coreFault (s : State) (h kind pa : Nat) : State :=
  { s.setHart h { s.hart h with fault := some (kind, pa) } with resp := .exception kind pa }

/-! ## Physical memory protection (R302) -/

/-- A PMP address register as it reads at a granularity of 4 KiB: a NAPOT entry has its low nine bits 1, another its low ten bits 0. -/
def Hart.pmpShow (x : Hart) (k : Nat) : Nat :=
  let v := Tab.get 0 x.pmpAddr k
  if bits (Tab.get 0 x.pmpCfg k) 4 3 = 3 then v ||| 0x1FF else v / 1024 * 1024

/-- The addresses that a PMP entry covers, first and end: none where it is off. -/
def Hart.pmpRange (x : Hart) (k : Nat) : Option (Nat × Nat) :=
  match bits (Tab.get 0 x.pmpCfg k) 4 3 with
  | 1 => some (4 * (if k = 0 then 0 else Tab.get 0 x.pmpAddr (k - 1) / 1024 * 1024), 4 * x.pmpShow k)
  | 3 =>
    let v := x.pmpShow k
    let t := ((List.range 55).find? (fun i => ! v.testBit i)).getD 54
    let base := 4 * (v / 2 ^ (t + 1) * 2 ^ (t + 1))
    some (base, base + 2 ^ (t + 3))
  | _ => none

/-- The privilege mode that a load or a store of a hart has: that of MPP while mstatus.MPRV is set. -/
def Hart.effective (x : Hart) (kind : Nat) : Nat :=
  let st := Tab.get 0 x.csrs 0x300
  if kind ≠ 1 ∧ st.testBit 17 then bits st 12 11 else x.mode

/-- Whether a hart's PMP entries allow an access (R302): kind 1 fetch, 5 load, 7 store. The lowest-numbered entry that matches a byte
decides; without one only M-mode has access. -/
def State.pmpAllows (s : State) (h kind pa size : Nat) : Bool :=
  let x := s.hart h
  let mode := x.effective kind
  match (List.range 16).findSome? (fun k => match x.pmpRange k with
      | some (lo, hi) => if lo < pa + size ∧ pa < hi then some (k, decide (lo ≤ pa ∧ pa + size ≤ hi)) else none
      | none => none) with
  | none => decide (mode = 3)
  | some (k, whole) =>
    let c := Tab.get 0 x.pmpCfg k
    whole && ((decide (mode = 3) && ! c.testBit 7) || c.testBit (if kind = 5 then 0 else if kind = 7 then 1 else 2))

/-- Whether an access by an agent is one that its hart's PMP entries refuse. -/
def State.coreDenied (s : State) (a : Agent) (kind pa size : Nat) : Bool :=
  match a with | .hart h => ! s.pmpAllows h.val kind pa size | _ => false

/-- The number of the access fault a core takes on a poisoned line (R31, R479). -/
def accessFaultOf : CoreAccess → Nat
  | .fetch => 1
  | .load => 5
  | .store => 7
  | .cboZero => 0

/-- A core reads a poisoned line: a precise fault, a POISON_CORE record and a hold (R479). -/
def State.corePoison (s : State) (h kind pa : Nat) : State :=
  ((s.coreFault h kind pa).report
    { code := 0x0207, cls := 1, level := 2, unit := unitHart h, addr := pa / 64 * 64, action := 4, detail := put 0 2 h }).placeHold pa

/-- CORE_POISONED_ACCESS (R479): loads, fetches and stores fault precisely, with a POISON_CORE record and a hold; cbo.zero replaces
the line. An access that the hart's PMP entries refuse never reaches it (R302). -/
def execCorePoisonedAccess (h : Fin 64) (k : CoreAccess) (pa : Nat) (s : State) : Host.Outcome State Fault Refusal :=
  ok (if ¬ s.hartRuns h.val ∨ ¬ s.badLine (lineOf pa) then s
    else if ! s.pmpAllows h.val (if k = .cboZero then 7 else accessFaultOf k) pa 1 then
      s.coreFault h.val (if k = .cboZero then 7 else accessFaultOf k) pa
    else if k = .cboZero then
      s.store (h.val / 8) (lineOf pa) (2 ^ 64 - 1) 0 true .clean (.readUnique (h.val / 8) (2 ^ 64 - 1) 0 true)
    else s.corePoison h.val (accessFaultOf k) pa)

/-- CBO_INVAL: performed as cbo.flush by the hart's cluster: a dirty line is written back, and the line is invalid (R295). It waits while
the home is busy with the line. -/
def execCboInval (h : Fin 64) (line : Nat) (s : State) : Host.Outcome State Fault Refusal :=
  ok (if ¬ s.hartRuns h.val then s
      else if ! s.pmpAllows h.val 7 (64 * line) 64 then s.coreFault h.val 7 (64 * line)
      else s.request1 line (unitCaching (h.val / 8)) (.flush (h.val / 8)) .clean)

/-! ## Accounting of core cycles (R450) -/

/-- Charges the cycles that a hart has run since its last charge to the row of its uvtopid, unless the row has an unsupported major version
(R28). -/
def State.chargeCycles (s : State) (h cycles : Nat) : State :=
  let x := s.hart h
  let s := s.setHart h { x with cycles := (x.cycles + cycles) % 2 ^ 64, acctAt := (x.cycles + cycles) % 2 ^ 64 }
  if ¬ s.flag F.OBS_ACCT_EN 0 then s
  else match s.acctRow (s.fld F.uvtopid_LAYER_ID h) (s.fld F.uvtopid_OPERATOR_ID h) with
    | some row => if s.rowOk row 0x78 then s.add64 (row + 0x60) cycles else s
    | none => s

/-- UVTOPID_WRITE: the hart has run `cycles` since its last charge, and writes `v` (R315, R450). -/
def execUvtopidWrite (h : Fin 64) (v cycles : Nat) (s : State) : Host.Outcome State Fault Refusal :=
  ok (if ¬ s.hartRuns h.val then s else (s.chargeCycles h.val cycles).putFields .uvtopid h.val (2 ^ 64 - 1) v)

/-- CORE_CYCLE_CHARGE: 1 ms after the last charge (R450). -/
def execCoreCycleCharge (h : Fin 64) (cycles : Nat) (s : State) : Host.Outcome State Fault Refusal :=
  ok (if ¬ s.hartRuns h.val then s else s.chargeCycles h.val cycles)

/-! ## Timer (R307) -/

/-- mip.MTIP is 1 while time is at or past the compare value. -/
def State.timerLevel (s : State) (h : Nat) : State :=
  s.setHart h { s.hart h with mtip := decide (s.fld F.CL_TIMECMP_CMP h ≤ s.now 4) }

/-- TIMER_COMPARE: the time base has reached CL_TIMECMP (R307). -/
def execTimerCompare (h : Fin 64) (s : State) : Host.Outcome State Fault Refusal :=
  ok (if s.running ∧ s.fld F.CL_TIMECMP_CMP h.val ≤ s.now 4 then s.timerLevel h.val else s)

/-! ## Starting and stopping harts (R309) -/

/-- Address of a register of a cluster block. -/
def clusterPa (k off : Nat) : Nat := 0x700001000000 + k * 0x100000 + off

/-- Whether an agent may write CL_HART_CTL and CL_TIMECMP (R315): a core, or firmware. -/
def Agent.coreOrFirmware (a : Agent) : Bool := match a with | .hart _ => true | _ => Agent.firmware a

/-- START: a hart in RESET or STOPPED starts in M-mode at VEC; ignored while it runs, and while its cluster is off (R310). -/
def State.hartStart (s : State) (h vec : Nat) : State :=
  let s := s.setFld F.CL_HART_CTL_VEC h (vec / 4)
  if s.hartState h = 1 ∨ ¬ s.flag F.CL_CTL_ON (h / 8) then s
  else
    (s.setFld F.CL_HART_CTL_STATE h 1).setHart h
      { s.hart h with pc := s.fld F.CL_HART_CTL_VEC h * 4, mode := 3, stopPend := false, fault := none }

/-- CL_HART_START: CL_HART_CTL written with START and a start address (R309). -/
def execClHartStart (a : Agent) (h : Fin 64) (vec : Nat) (s : State) : Host.Outcome State Fault Refusal :=
  ok (if ¬ s.running then s
    else if Agent.coreOrFirmware a then s.hartStart h.val vec
    else s.mmioRefuse (clusterPa (h.val / 8) (0x100 + 8 * (h.val % 8))) (unitL3 (h.val / 8)) true)

/-- STOP takes effect only when the hart itself writes it. -/
def State.hartStop (s : State) (a : Agent) (h : Nat) : State :=
  match a with
  | .hart g => if g.val = h ∧ s.hartState h = 1 then s.setHart h { s.hart h with stopPend := true } else s
  | _ => s

/-- CL_HART_STOP (R309). -/
def execClHartStop (a : Agent) (h : Fin 64) (s : State) : Host.Outcome State Fault Refusal :=
  ok (if s.running then s.hartStop a h.val else s)

/-- HART_STOP_AT_WFI: a hart with its stop armed executes WFI (R309). -/
def execHartStopAtWfi (h : Fin 64) (s : State) : Host.Outcome State Fault Refusal :=
  let x := s.hart h.val
  ok (if s.hartRuns h.val ∧ x.stopPend then (s.setFld F.CL_HART_CTL_STATE h.val 2).setHart h.val { x with stopPend := false } else s)

/-! ## Cluster power and frequency (R308, R310) -/

/-- OFF_REQ is acted on only when every hart of the cluster is in RESET or STOPPED: firmware detaches the agent, and the Governor
then removes power. -/
def State.clusterOff (s : State) (k : Nat) : State :=
  if ¬ s.flag F.CL_CTL_ON k ∨ (List.range 8).any (fun j => decide (s.hartState (8 * k + j) = 1)) then s
  else (s.writeAgents (2 ^ k) 0).domRequest (60 + k) false

/-- ON_REQ: power on, then attach. -/
def State.clusterOn (s : State) (k : Nat) : State := if s.flag F.CL_CTL_ON k then s else s.domRequest (60 + k) true

/-- CL_CTL_OFF_REQ (R310). -/
def execClCtlOffReq (k : Fin 8) (s : State) : Host.Outcome State Fault Refusal := ok (if s.running then s.clusterOff k.val else s)
/-- CL_CTL_ON_REQ (R310). -/
def execClCtlOnReq (k : Fin 8) (s : State) : Host.Outcome State Fault Refusal := ok (if s.running then s.clusterOn k.val else s)

/-- CL_DVFS_REQ: REQ in its range is stored and replaces one that has not taken effect (R9, R308). -/
def execClDvfsReq (k : Fin 8) (v : Nat) (s : State) : Host.Outcome State Fault Refusal :=
  ok (if s.running then s.putFields .CL_DVFS k.val 0xFF v else s)

/-- DVFS_CHANGE_DONE: the cluster runs at the lower of REQ and the Governor's cap, and CUR reports it (R308, R408). -/
def execDvfsChangeDone (k : Fin 8) (s : State) : Host.Outcome State Fault Refusal :=
  ok (if s.running then s.setFld F.CL_DVFS_CUR k.val (min (s.fld F.CL_DVFS_REQ k.val) (s.fld F.GOV_STATUS_CL_CAP 0)) else s)

end Sys2Proof.Machine
end

