-- ==== Sys2Proof/Machine/Repair.lean ====
section
/-! DEFINITION. The repair of a held unit by the region controller: R270, R271. -/
namespace Sys2Proof.Machine

/-- The scale table entries that a command's operands name, read at issue, or the first descriptor that R189 refuses. -/
def State.scalesOf (s : State) : List Td → List (Nat × Nat × Nat) ⊕ Nat
  | [] => .inl []
  | d :: ds =>
    match s.scaleEntry d with
    | (_, true) => .inr d.off
    | (e, false) => match State.scalesOf s ds with
      | .inl es => .inl (e.toList ++ es)
      | .inr o => .inr o

/-- The image of a repair entry of a region (R270). -/
def State.repairEntry (s : State) (region i : Nat) : Nat := s.readMem (s.fld F.RC_RTAB_BASE region <<< 6 + 192 * i) 192

/-- KIND of an entry: an entry of another major version, and every reserved kind, is read as 3. -/
def entryKind (e : Nat) : Nat := let k := le e 2 1; if k ≤ 3 ∧ le e 1 1 = 1 then k else if k = 0 then 0 else 3

/-- Whether an entry's range contains an address, and whether it overlaps a burst. -/
def entryHas (e pa : Nat) : Bool := decide (leBits e 8 47 0 ≤ pa ∧ pa < leBits e 8 47 0 + le e 0x10 8)
def entryMeets (e burst : Nat) : Bool := (overlapAt (leBits e 8 47 0) (le e 0x10 8) burst 64).isSome

/-- The kind of the entry that governs a burst: the first used one that contains its address; 3 without one. -/
def State.governs (s : State) (region burst : Nat) : Nat :=
  match lowest (s.fld F.RC_RTAB_COUNT region) (fun i => let e := s.repairEntry region i; decide (entryKind e ≠ 0) && entryHas e burst) with
  | some i => entryKind (s.repairEntry region i)
  | none => 3

/-- The run of an entry: a CONVERT or a SLICE_FETCH made from its body. It stands among the commands at number 256 + region, with
the hold slot for its index and SEQ. -/
def runCmd (region slot kind body : Nat) : Cmd :=
  let op := if kind = 1 then 0x1002 else 0x6009
  { ref := ⟨256 + region, slot⟩, pkt := put 2 2 op + put 8 4 (16 * region + slot) + put 0xE 2 2 + (body % 2 ^ 832) <<< 128, len := 2, phase := .issued }

/-- Removes a run that has ended, and marks the repair as failed unless it ended with OK. -/
def State.reapRun (s : State) (region slot : Nat) (h : Hold) (r : CmdRef) : State × Bool :=
  match s.cmd r with
  | none => (s, true)
  | some c =>
    if c.phase = .ended then
      let t := { s with cmds := s.cmds.filter (fun x => x.ref ≠ r) }
      (t.setHold region slot (some { h with runs := h.runs.filter (· ≠ r), failed := h.failed || decide (c.report.1 ≠ 0) }), true)
    else (s, false)

/-- Starts the run of an entry: a CONVERT runs to its end, a SLICE_FETCH goes on until its data has come. -/
def State.startRun (s : State) (region slot : Nat) (h : Hold) (kind body : Nat) : State :=
  let c := runCmd region slot kind body
  let chk := (if kind = 1 then checksConvert s c else checksSliceFetch s c).first
  let s := { s with cmds := s.cmds ++ [c] }
  let s := s.setHold region slot (some { h with runs := h.runs ++ [c.ref] })
  let spans := if kind = 1 then s.scaleSpans (tdAt c.pkt 0x10) ++ s.scaleSpans (tdAt c.pkt 0x40) else []
  let s := if chk.isNone then s.fetchSpans c.ref spans else s
  match (if chk.isNone then (s.firstBad spans).map (fun pa => (0x0300, pa)) else chk) with
  | some (st, dt) => s.finish c.ref st dt
  | none =>
    if kind = 1 then
      match s.scalesOf [tdAt c.pkt 0x10, tdAt c.pkt 0x40] with
      | .inr o => s.finish c.ref 0x0103 o
      | .inl es => (s.modCmd c.ref (fun x => { x with scales := es })).convertCmd c.ref
    else
      match s.collIssue c with
      | .inr (st, dt) => s.finish c.ref st dt
      | .inl w => (s.modCmd c.ref (fun x => { x with work := .coll w })).startFetch c.ref

/-- Step 1 of R271 for one burst: its row is soft-repaired where a soft entry is free. -/
def State.repairRow (s : State) (region slot burst : Nat) : State :=
  match s.hold region slot, s.placeAt (burst / 64) with
  | some h, some (ca, p) =>
    let st := ca.gch / 16
    let o : RepOp := { kind := 2, chan := ca.gch % 16, die := p.die, bank := p.bank, row := p.row }
    if h.rows.contains (st, o) ∨ 4 ≤ (s.bankRep st p.die o.chan p.bank).soft.length then s
    else (s.softRowOp st o.chan p.die p.bank p.row).setHold region slot (some { h with rows := h.rows ++ [(st, o)] })
  | _, _ => s

/-- Whether the repair block of a burst's stack runs an operation. -/
def State.repBusy (s : State) (burst : Nat) : Bool :=
  match chanOf s.localGib burst with | some c => s.flag F.REP_STATUS_BUSY (c.gch / 16) | none => false

/-- Step 1 of R271 for the bursts that it has not seen, while the repair block of the stack is free: one operation at a time (R251). -/
def State.repairRows (s : State) (region slot : Nat) (bursts : List Nat) : State :=
  bursts.foldl (fun (t : State) b =>
    match t.hold region slot with
    | some h =>
      if h.rowed.contains b ∨ t.repBusy b then t
      else
        let t := t.repairRow region slot b
        match t.hold region slot with
        | some h => t.setHold region slot (some { h with rowed := h.rowed ++ [b] })
        | none => t
    | none => t) s

/-- Step 2 of R271: burst by burst and entry by entry, until a fetch has to be waited for. `fuel` bounds the steps. -/
def State.repairGo (s : State) (region slot : Nat) : Nat → State
  | 0 => s
  | fuel + 1 =>
    match s.hold region slot with
    | none => s
    | some h =>
      match h.runs with
      | r :: _ =>
        let s : State := match s.cmd r with
          | some (c : Cmd) => if c.phase = Phase.issued ∧ c.opcode = 0x1002 then s.convertCmd r else s
          | none => s
        let (t, gone) := s.reapRun region slot h r
        if gone then t.repairGo region slot fuel else t
      | [] =>
        match h.bursts.find? (fun b => ¬ h.ran.contains b) with
        | none => s
        | some b =>
          let n := s.fld F.RC_RTAB_COUNT region
          match lowest (n - h.next) (fun k => let e := s.repairEntry region (h.next + k)
              decide (entryKind e = 1 ∨ entryKind e = 2) && entryMeets e b) with
          | none => (s.setHold region slot (some { h with ran := h.ran ++ [b], next := 0 })).repairGo region slot fuel
          | some k =>
            let e := s.repairEntry region (h.next + k)
            (s.startRun region slot { h with next := h.next + k + 1 } (entryKind e) (le e 0x20 160)).repairGo region slot fuel

/-- Step 3 of R271 fails: the hold enters SOFTWARE. -/
def State.holdSoftware (s : State) (region slot : Nat) (h : Hold) : State :=
  let old := s
  let s := s.setHold region slot (some { h with state := 3 })
  let s := s.report { code := 0x0206, cls := 1, level := 2, unit := unitCtl region, addr := h.unit, detail := put 0 2 slot }
  (s.trace (unitCtl region) 0x630 (h.unit + region <<< 48)).wire old (8 + region)

/-- Steps 3 and 4 of R271, once every run has ended. -/
def State.repairCheck (s : State) (region slot : Nat) (h : Hold) : State :=
  let s := h.bursts.foldl (fun (t : State) b => t.demand [(b, 64)]) s
  if h.failed ∨ h.bursts.any (fun b => s.badLine (b / 64) || decide (s.governs region b = 3)) then s.holdSoftware region slot h
  else
    let s := s.freeHold region slot
    h.rows.foldl (fun (t : State) (q : Nat × RepOp) =>
      let t := t.setStack q.1 { t.stack q.1 with repNext := (t.stack q.1).repNext ++ [q.2] }
      t.nextHard q.1 (t.stack q.1).repNext.length) s

/-- HOLD_REPAIR_CHECK: the repair of a hold in REPAIRING goes as far as it can: its rows, its runs, and when they have ended the check and the
release (R271). It waits while a Freeze stops the data movers or the stack's repair block is busy. -/
def execHoldRepairCheck (region : Fin 4) (slot : Fin 16) (s : State) : Host.Outcome State Fault Refusal :=
  ok (match s.hold region.val slot.val with
    | none => s
    | some h =>
      if ¬ s.running ∨ s.frozen ∨ h.state ≠ 2 ∨ h.bursts.any (s.repBusy) then s
      else
        let n := s.fld F.RC_RTAB_COUNT region.val
        let s := s.repairRows region.val slot.val h.bursts
        let h := (s.hold region.val slot.val).getD h
        if h.bursts.any (fun b => ! h.rowed.contains b || s.repBusy b) then s
        else
        let s := s.repairGo region.val slot.val ((h.bursts.length + 1) * (2 * n + 4))
        match s.hold region.val slot.val with
        | none => s
        | some h =>
          if h.runs = [] ∧ h.bursts.all (fun b => h.ran.contains b) then s.repairCheck region.val slot.val h else s)

end Sys2Proof.Machine
end

