-- ==== Sys2Proof/Machine/Observe.lean ====
section
/-! DEFINITION. Stops, counters and trace commands: R445 to R474. The Brake, the Freeze, TRACE_CFG, TRACE_MARK, COUNTER_SNAP and the
registers of the observability block that act when they are written. -/
namespace Sys2Proof.Machine

/-! ## Units and signals (R445, R455) -/

/-- Whether a unit ID names a unit of the unit code table. -/
def unitExists (u : Nat) : Bool :=
  let r := u / 256; let c := u % 256
  if r < 4 then decide (c < 0x0A ∨ (0x10 ≤ c ∧ c < 0xA0)) else decide (r = 8 ∧ c < 0x5E)

/-- Whether a signal is listed for a unit. -/
def signalListed (u sig : Nat) : Bool :=
  let r := u / 256; let c := u % 256
  if sig < 2 then true
  else if r < 4 then
    if c < 4 then decide (sig ≤ 6)
    else if c = 7 ∨ (0x18 ≤ c ∧ c < 0x20) then decide (sig ≤ 4)
    else if 0x20 ≤ c then decide (sig ≤ 9)
    else false
  else decide ((c = 0x4A ∨ (0x50 ≤ c ∧ c < 0x58)) ∧ sig ≤ 4)

/-- Signals whose count the model does not follow: cycles, time in PFC pause, and frames of a port. By how much their counters have risen since
the last reading is a free value (log 6). -/
def signalFree (u sig : Nat) : Bool :=
  let r := u / 256; let c := u % 256
  decide (sig < 2) || (decide (r < 4 ∧ c < 4) && decide (sig = 2 ∨ sig = 3)) || (decide (u = unitMover (u / 256)) && decide (sig = 4))
    || (decide (r = 8 ∧ 0x50 ≤ c))

/-- Whether a unit's clock runs (R446). -/
def State.clockRuns (s : State) (u : Nat) : Bool := decide (Tab.get 0 s.obs.stopTimes u = 0) && s.domOn (domainOf u)

/-- A profiling counter as it reads: 48 bits (R445, R446). -/
def State.profValue (s : State) (n : Nat) : Nat × State :=
  let u := s.fld F.OBS_PROF_SEL_UNIT n
  if s.flag F.OBS_PROF_SEL_EN n && signalFree u (s.fld F.OBS_PROF_SEL_SIGNAL n) && s.clockRuns u then
    let (v, t) := s.draw 1
    let t := t.profAdd n (v % 2 ^ 48)
    (t.fld F.OBS_PROF_COUNT n, t)
  else (s.fld F.OBS_PROF_COUNT n, s)

/-- OBS_RCYC: the fabric cycles run by a region, 4 being H (R446, R474): they have risen since the last reading by a free value (log 6), and do
not advance while the fabric's domain is off. -/
def State.regionCycles (s : State) (i : Nat) : Nat × State :=
  let w := (s.getR .OBS_RCYC i).toNat
  if i < 4 ∧ ¬ s.domOn (7 * i + 5) then (w, s)
  else
    let (v, t) := s.draw 1
    ((w + v) % 2 ^ 64, t.setR .OBS_RCYC i (BitVec.ofNat 64 (w + v)))

/-- The busy cycles of a region's attention-and-vector unit (R448): they rise by a free value while its clock runs (log 6). -/
def State.vecBusy (s : State) (q : Nat) : Nat × State :=
  if ¬ s.clockRuns (unitVec q) then (Tab.get 0 s.counters (32 + q), s)
  else
    let (v, t) := s.draw 1
    let t := t.aon (32 + q) v
    (Tab.get 0 t.counters (32 + q), t)

/-- ENG_CYCLES and ENG_BUSY (R139) as they read: 0 from reset, they have risen since the last reading by a number of cycles that is a free
value (log 6); while the engine's clock is stopped or its domain is off they do not advance. -/
def State.engCount (s : State) (r : Reg) (g : Nat) : Nat × State :=
  let w := (s.getR r g).toNat
  let u := unitEngine g
  let e := s.engine g
  if ¬ s.clockRuns u ∨ (r = .ENG_BUSY ∧ ¬ e.worked) then (w, s)
  else
    let s := if r = .ENG_BUSY then s.setEngine g { e with worked := s.engineBusy g } else s
    let (v, t) := s.draw 2
    ((w + v) % 2 ^ 64, t.setR r g (BitVec.ofNat 64 (w + v)))

/-- An always-on counter as it reads (R448): those of the engines are ENG_CYCLES and ENG_BUSY, those of the fabrics OBS_RCYC. -/
def State.aonValue (s : State) (x : Nat) : Nat × State :=
  if x < 16 then s.engCount .ENG_CYCLES x
  else if x < 32 then s.engCount .ENG_BUSY (x - 16)
  else if x < 36 then s.vecBusy (x - 32)
  else if x < 41 then s.regionCycles (x - 36)
  else if x < 49 then (s.fld F.PORT_FEC_CORR_CORR (x - 41), s)
  else (Tab.get 0 s.counters x, s)

/-- A compatibility counter as it reads (R448). The model has counted on each link the data of command operands and results, packets, replies,
queue pairs, received requests and cache lines, each transfer once. What the spec does not fix comes to that as a free value (log 6, log
56): how often a unit reads an operand again for its tiles, and the page walks and instruction fetches of the cores; so for the tier,
scratch and Ethernet counts, which depend on accesses and retries besides. -/
def State.compatValue (s : State) (x : Nat) : Nat × State :=
  let (v, t) := s.draw 11
  ((Tab.get 0 s.counters (64 + x) + v) % 2 ^ 64, t)

/-- Writes eight-byte values one after the other from an address. -/
def State.putValues (s : State) (pa n : Nat) (read : State → Nat → Nat × State) : State :=
  (List.range n).foldl (fun (t : State) x =>
    let (v, t) := read t x
    t.hubWrites (pa + 8 * x) v 8) s

/-! ## The Brake (R461 to R469) -/

def checksBrake (s : State) (c : Cmd) : Checks :=
  let rec_ := c.fb 0x20 47 0
  Checks.all [lenIs c 1, unlisted c [(0x10, 2), (0x18, 16)], failRsv (2 < c.f 0x10 1) 0x10, failRsv (1 < c.f 0x11 1) 0x11,
    failLim (c.f 0x10 1 = 0 ∧ c.f 0x18 8 < c.seen + 10000) 0x18, addrRsv c.pkt 0x20,
    failAdr (rec_ ≠ 0 ∧ (rec_ % 64 ≠ 0 ∨ (s.spanFault .ilv rec_ 64).isSome)) 0x20 rec_]

/-- Sends a PFC quantum on every enabled priority of network A's ports but that of CTRL_VC (R464). -/
def State.brakePfc (s : State) (quanta : Nat) : State :=
  let ctrl := s.pcpOf (s.fld F.CT_CFG_CTRL_VC 0)
  (List.range 4).foldl (fun (t : State) p =>
    if ¬ t.portUp p then t
    else (List.range 8).foldl (fun (t : State) k =>
      if (t.fld F.PORT_PFC_EN p).testBit k ∧ k ≠ ctrl then t.send (.pfc p k quanta) else t) t) s

/-- A queue is frozen by a Brake (R462). -/
def State.freezeQueue (s : State) (q : Nat) : State :=
  let st := s.qState q
  if (st = 1 ∨ st = 2) ∧ ¬ s.isCtrl q then (s.setQueue q { s.queue q with prior := st }).setQState q 6 else s

/-- Issue stops (R462, R464). -/
def State.startBrake (s : State) : State :=
  let before := (s.cmds.filter (fun c => decide (c.ref.q < 256 ∧ c.phase ≠ .decoded ∧ c.phase ≠ .completed))).map (·.ref)
  let b : BrakeSt := { s.obs.brake with start := s.time, completed := 0, frozen := s.frozen, issuedBefore := before }
  let s := { s.setFld F.OBS_BRAKE_STATE 0 2 with obs := { s.obs with brake := b } }
  ((List.range 256).foldl State.freezeQueue s).brakePfc 0xFFFF

/-- A Brake is scheduled (R461). -/
def State.scheduleBrake (s : State) (t record : Nat) (gang : Bool) : State :=
  let s := ((s.setFld F.OBS_BRAKE_STATE 0 1).setFld F.OBS_BRAKE_T_T 0 t).setFld F.OBS_BRAKE_GANG 0 (b2n gang)
  ({ s with obs := { s.obs with brake := { record := record } } }).trace unitTime 0xB01 t

/-- The Brake ends or is cancelled: IDLE. -/
def State.brakeIdle (s : State) : State :=
  let s := (((s.setFld F.OBS_BRAKE_STATE 0 0).setFld F.OBS_BRAKE_T_T 0 0).setFld F.OBS_BRAKE_GANG 0 0).setFld F.OBS_BRAKE_LATE_START 0 0
  { s with obs := { s.obs with brake := {} } }

/-- When a FAULT_US timer that a Brake paused counts as begun, at the Brake's release: its remaining time is what it was when the Brake
began, or all of it where it began during the Brake (R464). -/
def BrakeSt.resumed (b : BrakeSt) (now x : Nat) : Nat := min x b.start + (now - b.start)

/-- The timers of a command that a Brake paused (R464). -/
def Cmd.resumeTimers (later : Nat → Nat) (c : Cmd) : Cmd :=
  match c.work with
  | .coll w => { c with work := .coll { w with lastSeen := later w.lastSeen, seenAt := w.seenAt.map (fun p => (p.1, later p.2)) } }
  | .gang t w x => { c with work := .gang t w (later x) }
  | _ => c

/-- The FAULT_US timers that a Brake paused go on with their remaining time: those of the commands, and that of network A without a port
(R386, R464). -/
def State.resumeTimers (s : State) : State :=
  let later := s.obs.brake.resumed s.time
  let s := { s with cmds := s.cmds.map (Cmd.resumeTimers later) }
  (List.range 4).foldl (fun (t : State) p => t.setPort p { t.port p with downAt := later (t.port p).downAt }) s

/-- What held flows, queue pairs, lanes and takes do once nothing holds them. -/
def State.resumeAll (s : State) : State :=
  let s := s.pumpAll.pumpRoce
  let s := s.cmds.foldl (fun (t : State) c =>
    match c.work with
    | .coll w => if c.phase = .running ∧ c.isReduction ∧ w.started then (if t.deadlinePast c then t.fixMask c.ref else t.tryMask c.ref) else t
    | _ => t) s
  s.runInput.settleQueues

/-- A release in CUTTING or BRAKED (R467). -/
def State.releaseBrake (s : State) : State :=
  if ¬ s.braking then s
  else
    let s := (List.range 256).foldl (fun (t : State) q => if t.qState q = 6 then t.setQState q (t.queue q).prior else t) s
    ((s.resumeTimers.brakeIdle.traceFree unitTime 0xB03).brakePfc 0).resumeAll

/-- Cancels a Brake in SCHEDULED (R461). -/
def State.cancelBrake (s : State) : State := if s.fld F.OBS_BRAKE_STATE 0 = 1 then s.brakeIdle else s

/-- Sends the BRAKE frames of a gang command and waits for their acknowledgements (R468). -/
def State.gangSend (s : State) (c : Cmd) (t : Nat) : State :=
  match s.gangGroup with
  | none => s.finish c.ref 0 0
  | some g =>
    let members := (List.range g.n).filter (· ≠ g.rank)
    if members = [] then s.finish c.ref 0 0
    else
      let s := s.modCmd c.ref (fun d => { d with phase := .running, work := .gang t (members.map (fun i => (i, 0))) s.time })
      s.sendColl (members.map (s.brakeFrame c g t))

/-- BRAKE: schedules, cancels or releases a Brake, on this device or on its gang (R461, R468). -/
def execBrake (r : CmdRef) (s : State) : Host.Outcome State Fault Refusal :=
  ok (s.run r 0x0005 (fun c =>
    let mode := c.f 0x10 1
    let gang : Bool := decide (c.f 0x11 1 = 1)
    let st := s.fld F.OBS_BRAKE_STATE 0
    let t := c.f 0x18 8
    if (mode = 0 ∧ st ≠ 0) ∨ (mode = 1 ∧ st ≠ 1) then s.finish r 0x0104 (s.fld F.OBS_BRAKE_T_T 0)
    else if mode = 2 ∧ st < 2 then s.finish r 0x0104 0
    else if gang ∧ (s.fld F.CT_STATUS_GANG_ROLE 0 ≠ 1 ∨ s.gangGroup.isNone) then s.finish r 0x0104 0
    else if mode = 0 then
      let u := s.scheduleBrake t (c.fb 0x20 47 0) gang
      if gang then u.gangSend c t else u.finish r 0 0
    else if mode = 1 then s.cancelBrake.finish r 0 0
    else if gang then s.releaseBrake.gangSend c 0 else s.releaseBrake.finish r 0 0))

/-- BRAKE_TIME_REACHED: the global time reaches T (R462). -/
def execBrakeTimeReached (s : State) : Host.Outcome State Fault Refusal :=
  ok (if s.running ∧ s.fld F.OBS_BRAKE_STATE 0 = 1 ∧ s.fld F.OBS_BRAKE_T_T 0 ≤ s.time then s.startBrake else s)

/-- Whether a command issued before T has completed or stands at its checkpoint (R463). -/
def State.atCut (s : State) (r : CmdRef) : Bool :=
  match s.cmd r with
  | none => true
  | some c =>
    match c.phase with
    | .completed => true
    | .ended => false
    | .waiting => true
    | _ =>
      let cl := c.opcode / 4096
      c.held || s.stalled c || decide (c.opcode = 0x0002 ∨ c.opcode = 0x7005 ∨ (cl = 6 ∧ (c.opcode < 0x6006 ∨ c.opcode = 0x6009)))
        || (decide (cl = 2) && s.brakeStops c && ¬ s.onEngines (s.regionOf r.q) r)
        || (decide (cl = 7 ∧ c.opcode ≠ 0x7003) && (List.range 24).all (fun k => match s.lane true k with | some j => decide (j.cmd ≠ r) | none => true)
            && (List.range 4).all (fun k => match s.lane false k with | some j => decide (j.cmd ≠ r) | none => true))

/-- Directions of the flows that a collective in progress has in use (R373). -/
def Cmd.flowsHeld (c : Cmd) : Nat :=
  match c.work with
  | .coll w => (w.flows.map (fun f => b2n (decide (f.nextSeq ≠ 0 ∨ f.queued ≠ [])) + b2n (decide (f.recvSeq ≠ 0)))).sum
  | _ => 0

/-- Queue pairs of a network whose requester has something left to send or to have acknowledged. -/
def State.qpsHeld (s : State) (n : Nat) : Nat :=
  (s.net n).qps.countP (fun p => decide (p.2.st = 1 ∧ (p.2.sqHead ≠ p.2.sqTail ∨ p.2.sends ≠ [])))

/-- The Brake record (R465). -/
def State.brakeRecord (s : State) : Nat :=
  let b := s.obs.brake
  let left := b.issuedBefore.filterMap s.cmd
  let left := left.filter (fun c => c.phase ≠ .completed)
  let saved := left.countP (fun c => decide (c.mat.saved ≠ []))
  put 1 1 1 + put 2 1 (s.fld F.OBS_BRAKE_GANG 0 + 2 * s.fld F.OBS_BRAKE_LATE_START 0 + 4 * b2n b.frozen) + put 8 8 (s.fld F.OBS_BRAKE_T_T 0)
    + put 0x10 8 b.start + put 0x18 8 s.time + put 0x20 4 b.completed + put 0x24 4 saved + put 0x28 4 (left.length - saved)
    + put 0x2C 4 ((left.map Cmd.flowsHeld).sum + s.coll.served.length) + put 0x30 4 (s.qpsHeld 0 + s.qpsHeld 1)

/-- BRAKE_CUT: every command issued before T has completed or stands at its checkpoint (R465); while a Freeze is in force the cut
waits for its release (R469). -/
def execBrakeCut (s : State) : Host.Outcome State Fault Refusal :=
  ok (if ¬ s.running ∨ s.fld F.OBS_BRAKE_STATE 0 ≠ 2 ∨ s.frozen ∨ ¬ s.obs.brake.issuedBefore.all s.atCut then s
    else
      let a := s.obs.brake.record
      let t := if a = 0 then s else s.hubWrites a s.brakeRecord 64
      let u := t.setFld F.OBS_BRAKE_STATE 0 3
      (u.trace unitTime 0xB02 s.time).wire t 5)

/-- BRAKE_PFC_REPEAT: every 80 µs until the release (R464). -/
def execBrakePfcRepeat (s : State) : Host.Outcome State Fault Refusal :=
  ok (if s.running ∧ s.braking then s.brakePfc 0xFFFF else s)

/-- OBS_BRAKE_RELEASE (R467). -/
def execObsBrakeRelease (s : State) : Host.Outcome State Fault Refusal := ok (if s.running then s.releaseBrake else s)
/-- OBS_BRAKE_CANCEL (R461, R474). -/
def execObsBrakeCancel (s : State) : Host.Outcome State Fault Refusal := ok (if s.running then s.cancelBrake else s)

/-- A member acts on a BRAKE frame (R468). -/
def State.memberBrake (s : State) (t : Nat) : State :=
  if t = 0 then s.releaseBrake
  else if s.braking then s
  else if s.time < t then s.scheduleBrake t 0 true
  else
    let u := ((s.setFld F.OBS_BRAKE_T_T 0 t).setFld F.OBS_BRAKE_GANG 0 1).setFld F.OBS_BRAKE_LATE_START 0 1
    ({ u with obs := { u.obs with brake := {} } }).startBrake

/-- BRAKE_FRAME: taken from rank 0 of a loaded KIND 5 group alone, acknowledged, and acted on once (R373, R396, R468). -/
def execBrakeFrame (p : Fin 4) (f : CFrame) (s : State) : Host.Outcome State Fault Refusal :=
  ok (s.withFrame p f 13 (fun s =>
    match s.groups.find? (fun g => decide (g.kind = 5 ∧ g.gid = f.gid)) with
    | none => s.discard
    | some g =>
      if f.src ≠ 0 then s.discard
      else
        let key := CFrame.key f
        let s := s.sendAck key f.vc g.rank f.src 1 (s.fld F.CT_CFG_WINDOW 0)
        if s.coll.ended.contains key then s
        else ({ s with coll := { s.coll with ended := (key :: s.coll.ended).take 64 } }).memberBrake (le f.data 0 8)))

/-! ## The Freeze (R470 to R472) -/

/-- The units that a Freeze stops. -/
def freezeUnits : List Nat :=
  (List.range 16).map unitEngine ++ (List.range 4).flatMap (fun q => [unitAcc q, unitVec q, unitAtt q, unitMover q]) ++ [unitMover 8]
    ++ (List.range 32).flatMap (fun st => [unitUpd st, unitStack st]) ++ [unitBolter, unitTok, unitHopper, unitNet 0, unitNet 1]

/-- A Freeze takes hold: every unit listed whose clock runs stops. -/
def State.startFreeze (s : State) : State :=
  let us := freezeUnits.filter (fun u => s.domOn (domainOf u) ∧ Tab.get 0 s.obs.stopTimes u = 0)
  let s := (s.setFld F.OBS_FRZ_STATE 0 1).traceFree unitTime 0xB04
  let s := us.foldl State.clockStop s
  { s with obs := { s.obs with frzAt := s.time, frzUnits := us } }

/-- A Freeze is released: each stopped unit emits CLOCK_RESUME, and what waited goes on (R472). -/
def State.releaseFreeze (s : State) : State :=
  let us := s.obs.frzUnits
  let s := (s.setFld F.OBS_FRZ_STATE 0 0).traceFree unitTime 0xB05
  let s := us.foldl State.clockResume s
  let s := s.obs.txHeld.foldl State.emit { s with obs := { s.obs with frzUnits := [], txHeld := [] } }
  s.resumeAll

def checksFreeze (c : Cmd) : Checks := Checks.all [lenIs c 1, unlisted c [(0x10, 1)], failRsv (1 < c.f 0x10 1) 0x10]

/-- FREEZE (R470, R472). -/
def execFreeze (r : CmdRef) (s : State) : Host.Outcome State Fault Refusal :=
  ok (s.run r 0xB004 (fun c =>
    let mode := c.f 0x10 1
    if s.fld F.OBS_FRZ_BASE 0 = 0 ∨ (mode = 0 ∧ s.frozen) ∨ (mode = 1 ∧ ¬ s.frozen) then s.finish r 0x0104 0
    else if mode = 0 then s.startFreeze.finish r 0 0
    else s.releaseFreeze.finish r 0 0))

/-- OBS_FRZ_FREEZE (R470): no effect while a Freeze is in force. -/
def execObsFrzFreeze (s : State) : Host.Outcome State Fault Refusal := ok (if s.running ∧ ¬ s.frozen then s.startFreeze else s)
/-- OBS_FRZ_RELEASE (R472). -/
def execObsFrzRelease (s : State) : Host.Outcome State Fault Refusal := ok (if s.running ∧ s.frozen then s.releaseFreeze else s)

/-- The first command of a class that a region's unit has in progress. -/
def State.workOf (s : State) (cl region : Nat) : Option Cmd :=
  s.cmds.find? (fun c => decide (c.opcode / 4096 = cl ∧ (c.phase = .issued ∨ c.phase = .running)) && ¬ c.held && decide (s.regionOf c.ref.q = region))

/-- Whether a stopped unit is BUSY, and its command (R471). -/
def State.unitWork (s : State) (u : Nat) : Bool × Option Cmd :=
  let r := u / 256; let c := u % 256
  let of (x : Option Cmd) : Bool × Option Cmd := (x.isSome, x)
  if r < 4 then
    if c < 4 then
      let e := s.engine (4 * r + c)
      let i := (e.compute <|> e.drain)
      (i.isSome, i.bind (fun x => s.cmd x.cmd))
    else if c = 4 then
      let a := s.acc r
      (decide (a.frames ≠ [] ∨ a.waiting ≠ []), a.frames.head?.bind (fun f => s.cmd f.cmd))
    else if c = 5 then of (s.workOf 3 r)
    else if c = 6 then of (s.workOf 4 r)
    else if c = 7 then of (s.workOf 1 r)
    else if c < 0x18 then
      let h := s.hoist (8 * r + c % 8)
      (decide (h.hints ≠ []) || (List.range 16).any (fun k => (s.hoistChan (16 * (8 * r + c % 8) + k)).swap.isSome),
        (h.hints.head?.bind (·.cmd)).bind s.cmd)
    else
      let w := s.upd (8 * r + c % 8)
      (decide (w.slices ≠ [] ∨ w.adds ≠ []), w.slices.head?.bind s.cmd)
  else if c = 0x4A then of (s.workOf 1 8)
  else if c = 0x4B then
    let j := (List.range 24).findSome? (fun k => s.lane true k)
    (j.isSome, j.bind (fun x => s.cmd x.cmd))
  else if c = 0x4C then
    let j := (List.range 4).findSome? (fun k => s.lane false k)
    (j.isSome, j.bind (fun x => s.cmd x.cmd))
  else if c = 0x4D then of (s.input.current.bind s.cmd)
  else if c = 0x4E then of (s.cmds.find? (fun x => decide (x.phase = .running ∧ x.opcode / 4096 = 6)))
  else (decide (s.qpsHeld 1 ≠ 0), none)

/-- STATE of a capture record. Rows and lines in flight are timing: free values (log 6). -/
def State.captureState (s : State) (u : Nat) : Nat × State :=
  let r := u / 256; let c := u % 256
  let (v, t) := s.draw 1
  let busy := (s.unitWork u).1
  if ¬ busy then (0, s)
  else if r < 4 ∧ c < 4 then
    let e := s.engine (4 * r + c)
    match (e.compute <|> e.drain) with
    | some i => (put 0 8 (i.index + i.chunk <<< 48) + put 8 4 i.kstep + put 12 4 (b2n e.activeY + (v / 2 % 65536) <<< 16), t)
    | none => (0, s)
  else if c = 7 ∨ c = 0x4A then (put 0 16 v, t)
  else if r < 4 ∧ 0x18 ≤ c then
    let entry := match (s.unitWork u).2 with | some x => (match x.work with | .upd w => w.entry | _ => 0) | none => 0
    (put 0 8 v + put 8 4 entry, t)
  else if r < 4 ∧ 0x10 ≤ c then
    (put 0 2 ((List.range 16).foldl (fun m k => m + b2n ((s.hoistChan (16 * (8 * r + c % 8) + k)).swap.isSome) <<< k) 0), s)
  else (0, s)

/-- The capture record of a stopped unit (R471). -/
def State.captureRecord (s : State) (u : Nat) : Nat × State :=
  let (busy, c) := s.unitWork u
  let (cyc, s) := s.draw 1
  let (out, s) := s.draw 1
  let (st, s) := s.captureState u
  let cmd := match c with | some x => put 0x18 4 x.seqNo + put 0x1C 1 x.ref.q + put 0x1E 2 x.opcode | none => 0
  (put 1 1 1 + put 2 2 u + put 4 1 (b2n busy + 2 * b2n (decide (s.stretch u ≠ 0))) + put 8 8 s.obs.frzAt + put 0x10 8 cyc + cmd + put 0x20 4 out
    + put 0x30 16 st, s)

/-- Every unit of the unit code table. -/
def allUnits : List Nat := ((List.range 4).flatMap (fun r => (List.range 160).map (unitId r)) ++ (List.range 94).map (unitId 8)).filter unitExists

/-- FREEZE_CAPTURE: firmware writes the capture records (R471). Without a capture area it writes none (log 27). -/
def execFreezeCapture (s : State) : Host.Outcome State Fault Refusal :=
  ok (if ¬ s.running ∨ s.fld F.OBS_FRZ_STATE 0 ≠ 1 then s
    else
      let base := s.fld F.OBS_FRZ_BASE 0 <<< 16
      let t := if base = 0 then s else allUnits.foldl (fun (t : State) u =>
        let (img, t) := if t.obs.frzUnits.contains u then t.captureRecord u else (0, t)
        t.hubWrites (base + 64 * (256 * ringOf (u / 256) + u % 256)) img 64) s
      t.setFld F.OBS_FRZ_STATE 0 2)

/-! ## Trace and counters -/

def checksTraceCfg (s : State) (c : Cmd) : Checks :=
  let mode := c.f 0x11 1
  let n := c.f 0x12 1
  Checks.all [lenIs c 1, unlisted c (if mode = 0 then [(0x10, 2)] else [(0x10, 3), (0x14, 2), (0x18, 16)]),
    failRsv (4 < c.f 0x10 1 ∧ c.f 0x10 1 ≠ 0xFF) 0x10, failRsv (2 < mode) 0x11, failLen (mode ≠ 0 ∧ (n < 6 ∨ 24 < n)) 0x12,
    if mode = 0 then {} else s.addrCheck .ilv c 0x20 64 (32 * 2 ^ min n 24)]

/-- TRACE_CFG: sets a ring up; records already queued go to the new configuration (R458). -/
def execTraceCfg (r : CmdRef) (s : State) : Host.Outcome State Fault Refusal :=
  ok (s.run r 0xB001 (fun c =>
    let rings := if c.f 0x10 1 = 0xFF then List.range 5 else [c.f 0x10 1]
    (rings.foldl (fun (t : State) k =>
      let old := t
      let t := (((t.setFld F.OBS_TRC_BASE_MODE k (c.f 0x11 1)).setFld F.OBS_TRC_BASE_SIZE_LOG2 k (c.f 0x12 1)).setFld F.OBS_TRC_BASE_BASE k
        (c.fb 0x20 47 6)).setR .OBS_TRC_PTR k 0
      let t := ((t.setFld F.OBS_TRC_CFG_DROPS k 0).setFld F.OBS_TRC_CFG_CLASS_MASK k (c.f 0x14 2)).setFld F.OBS_TRC_CFG_THRESH k (c.f 0x18 4)
      t.wire old 6) s).finish r 0 0))

/-- The oldest record that a trace ring has gathered, written as half a line: a merge (R239). -/
def State.ringHalf (s : State) (r : Nat) : State :=
  let q := Tab.get ({} : TraceRing) s.obs.rings r
  match q.queued with
  | [] => s
  | a :: rest =>
    let p := s.fld F.OBS_TRC_PTR_PROD r
    let at_ := s.fld F.OBS_TRC_BASE_BASE r <<< 6 + 32 * (p % 2 ^ s.fld F.OBS_TRC_BASE_SIZE_LOG2 r)
    let t := (s.writeMem at_ (a % 2 ^ 256) 32).carry (if r < 4 then r else 8) false [(at_, 32)]
    let t := t.setFld F.OBS_TRC_PTR_PROD r ((p + 1) % 2 ^ 25)
    { t with obs := { t.obs with rings := Tab.set {} t.obs.rings r { q with queued := rest } } }

/-- Every record that a trace ring has gathered: the second half of a line begun before, the whole lines, and a last half. -/
def State.ringOut (s : State) (r : Nat) : State :=
  let t := if s.fld F.OBS_TRC_PTR_PROD r % 2 = 1 then s.ringHalf r else s
  ((t.flushRing r).ringHalf r).wire s 6

/-- TRACE_LINE_FLUSH: 1 µs after a partial line was begun, it is written (R458). -/
def execTraceLineFlush (ring : Fin 5) (s : State) : Host.Outcome State Fault Refusal :=
  ok (if s.running ∧ (Tab.get ({} : TraceRing) s.obs.rings ring.val).queued ≠ [] then s.ringOut ring.val else s)

def checksTraceMark (c : Cmd) : Checks := Checks.app (lenIs c 1) (unlisted c [(0x10, 8)])

/-- TRACE_MARK: a MARK record of the controller that services the queue (R460). -/
def execTraceMark (r : CmdRef) (s : State) : Host.Outcome State Fault Refusal :=
  ok (s.run r 0xB002 (fun c => (s.traceAs (unitCtl (s.regionOf r.q)) 0xB00 c.layer c.operator (c.f 0x10 8) true).finish r 0 0))

/-- OBS_MARK_WRITE: a MARK record of the writer; a core's keys come from its uvtopid (R460). -/
def State.obsMark (s : State) (a : Agent) (v : Nat) : State :=
  let key := match a with | .hart h => (s.fld F.uvtopid_LAYER_ID h.val, s.fld F.uvtopid_OPERATOR_ID h.val) | _ => (0, 0)
  s.traceAs (Agent.unit a) 0xB00 key.1 key.2 v true

/-- OBS_MARK_WRITE (R460). -/
def execObsMarkWrite (a : Agent) (v : Nat) (s : State) : Host.Outcome State Fault Refusal := ok (if s.running then s.obsMark a v else s)

/-- A write of OBS_PROF_SEL (R474). -/
def State.profSel (s : State) (n mask v : Nat) : State :=
  let old := (s.getR .OBS_PROF_SEL n).toNat
  let new := (old &&& (2 ^ 64 - 1 - mask)) ||| (v &&& mask)
  let u := bits new 27 16; let sig := bits new 15 8
  if unitExists u ∧ ringOf (u / 256) = n / 16 ∧ signalListed u sig then (s.putFields .OBS_PROF_SEL n mask v).setFld F.OBS_PROF_COUNT n 0 else s

/-- OBS_PROF_SEL_WRITE (R474). -/
def execObsProfSelWrite (n : Fin 80) (v : Nat) (s : State) : Host.Outcome State Fault Refusal :=
  ok (if s.running then s.profSel n.val (2 ^ 64 - 1) v else s)

def checksCounterSnap (s : State) (c : Cmd) : Checks :=
  let set_ := c.f 0x18 1
  Checks.all [lenIs c 1, unlisted c [(0x10, 9), (0x20, 8)], bitsZero c.pkt 0x18 7 3, failLen (set_ = 0) 0x18,
    s.addrCheck .ilv c 0x10 64 (snapLen set_)]

/-- COUNTER_SNAP begins: it waits for its time of capture, at least 2 µs after issue (R447). -/
def execCounterSnap (r : CmdRef) (s : State) : Host.Outcome State Fault Refusal :=
  ok (s.run r 0xB003 (fun c =>
    let t := max (c.f 0x20 8) (s.now (ringOf (s.regionOf r.q)) + 2000)
    s.modCmd r (fun d => { d with phase := .running, work := .snap t })))

/-- COUNTER_SNAP_LATCH: the counters are latched and the snapshot block is written (R447, R448). -/
def execCounterSnapLatch (r : CmdRef) (s : State) : Host.Outcome State Fault Refusal :=
  ok (match s.cmd r with
    | none => s
    | some c =>
      match c.work with
      | .snap t =>
        if ¬ s.running ∨ c.phase ≠ .running ∨ s.now (ringOf (s.regionOf r.q)) < t then s
        else
          let a := c.fb 0x10 47 0
          let set_ := c.f 0x18 1
          let s := s.hubWrites a (put 1 1 1 + put 2 1 set_ + put 8 8 t) 64
          let s := if set_.testBit 0 then s.putValues (a + 64) 53 State.aonValue else s
          let a := a + 64 + 8 * 53 * b2n (set_.testBit 0)
          let s := if set_.testBit 1 then s.putValues a 80 (fun (u : State) n =>
              let (v, u) := u.profValue n
              (v + u.fld F.OBS_PROF_SEL_OVF n <<< 63, u)) else s
          let a := a + 8 * 80 * b2n (set_.testBit 1)
          let s := if set_.testBit 2 then s.putValues a 38 State.compatValue else s
          (s.wrote r).finish r 0 0
      | _ => s)

end Sys2Proof.Machine
end

