-- ==== Sys2Proof/Machine/Errors.lean ====
section
/-! DEFINITION. Quarantine, engine tests, the error ring, channel and memory tests, and the chip-level faults: R18, R20, R475 to
R488. -/
namespace Sys2Proof.Machine

/-! ## QUARANTINE (R483, R484) -/

/-- The part that a unit ID of QUARANTINE names. -/
inductive QuarPart where
  | engine (g : Nat)
  | lane (video : Bool)
  | port (p : Nat)
  | upd (st : Nat)
  deriving DecidableEq, Repr

/-- The units that the online service table lists as taken out by QUARANTINE. -/
def targetOf (u : Nat) : Option QuarPart :=
  let r := u / 256; let c := u % 256
  if r < 4 ∧ c < 4 then some (.engine (4 * r + c))
  else if r < 4 ∧ 0x18 ≤ c ∧ c < 0x20 then some (.upd (8 * r + c % 8))
  else if u = unitBolter then some (.lane true)
  else if u = unitTok then some (.lane false)
  else if r = 8 ∧ 0x50 ≤ c ∧ c < 0x58 then some (.port (c - 0x50))
  else none

/-- Lanes of a part; a part without lanes takes LANE 0 alone. -/
def QuarPart.lanes (t : QuarPart) : Nat := match t with | .lane v => laneCount v | _ => 1

def checksQuarantine (c : Cmd) : Checks :=
  let u := c.f 0x10 2
  Checks.all [lenIs c 1, unlisted c [(0x10, 4)], failRsv (1 < c.f 0x13 1) 0x13,
    failAdr (match targetOf u with | some t => decide (t.lanes ≤ c.f 0x12 1) | none => true) 0x10 u]

/-- Sets or clears the quarantine bit of a lane. -/
def State.laneQuar (s : State) (video : Bool) (k : Nat) (on : Bool) : State :=
  if video then s.setFld F.BLT_STATUS_QUAR 0 (setBits (s.fld F.BLT_STATUS_QUAR 0) k k (b2n on))
  else s.setFld F.TOK_STATUS_QUAR 0 (setBits (s.fld F.TOK_STATUS_QUAR 0) k k (b2n on))

/-- Whether an engine is quarantined. -/
def State.engineOut (s : State) (g : Nat) : Bool := (s.fld F.RC_ENGMAP_QUAR (g / 4)).testBit (g % 4)

/-- Takes a part out of service (R484). -/
def State.takeOut (s : State) (r : CmdRef) (lane : Nat) : QuarPart → State
  | .engine g => if s.engineOut g then s else (s.quarantineEngine g 4 (some r) 0).settleLost (g / 4)
  | .lane v => (s.laneQuar v lane true).runInput
  | .port p => if s.fld F.PORT_STATUS_STATE p = 4 then s else s.portLeaves p 4 4
  | .upd st => s.setFld F.UPD_CTL_MODE st 1

/-- QUARANTINE (R484). MODE 0 ends once the unit has finished the work it holds; the RESTORE of an update unit once it is not BUSY. A
restored port is DOWN until PORT_CTL UP (log 28). -/
def execQuarantine (r : CmdRef) (s : State) : Host.Outcome State Fault Refusal :=
  ok (s.run r 0x9002 (fun c =>
    let u := c.f 0x10 2; let lane := c.f 0x12 1
    match targetOf u with
    | none => s.finish r 0x0104 u
    | some t =>
      if c.f 0x13 1 = 0 then ((s.takeOut r lane t).phaseCmd r .running).settleQuars
      else match t with
        | .engine g =>
          if ¬ s.engineOut g then s.finish r 0 0
          else if ¬ s.obs.katPassed.contains g then s.finish r 0x0104 u
          else (s.setEngMap (g / 4) (setBits (s.fld F.RC_ENGMAP_QUAR (g / 4)) (g % 4) (g % 4) 0)).finish r 0 0
        | .lane v => (s.laneQuar v lane false).runInput.finish r 0 0
        | .port p => (if s.fld F.PORT_STATUS_STATE p = 4 then s.portState p 3 3 else s).finish r 0 0
        | .upd st => if s.fld F.UPD_CTL_MODE st ≠ 1 then s.finish r 0 0 else (s.phaseCmd r .running).settleQuars))

/-! ## The error ring (R478) -/

def checksErrorRingCfg (s : State) (c : Cmd) : Checks :=
  let base := c.fb 0x10 47 0; let n := c.f 0x18 1
  Checks.all [lenIs c 1, unlisted c [(0x10, 10)], bitsZero c.pkt 0x19 7 4,
    if base = 0 then addrRsv c.pkt 0x10
    else Checks.app (failLen (n < 6 ∨ 20 < n) 0x18) (s.addrCheck .ilv c 0x10 64 (64 * 2 ^ min n 20))]

/-- ERROR_RING_CFG (R478). -/
def execErrorRingCfg (r : CmdRef) (s : State) : Host.Outcome State Fault Refusal :=
  ok (s.run r 0x9005 (fun c =>
    let base := c.fb 0x10 47 0
    let w := (if base = 0 then 0 else c.f 0x18 1) <<< 59 + ((c.f 0x19 1 ||| 8) % 16) <<< 48 + base
    let t := (s.setR .ERR_RING_BASE 0 (BitVec.ofNat 64 w)).setR .ERR_RING_PTR 0 0
    ({ t with obs := { t.obs with ringLost := false, ringed := [] } }).finish r 0 0))

/-! ## KAT_RUN (R485, R486) -/

def checksKatRun (s : State) (c : Cmd) : Checks :=
  Checks.all [lenIs c 1, unlisted c [(0x10, 3), (0x18, 8)], bitsZero c.pkt 0x11 7 4, bitsZero c.pkt 0x12 7 6, s.addrCheck .ilv c 0x18 64 64]

/-- The lowest failing set of an engine among the sets that are run. -/
def firstFault (faults : List KatFault) (m sets : Nat) : Option KatFault :=
  (List.range 6).findSome? (fun k => faults.find? (fun f => decide (f.engine.val = m ∧ f.set_ = k) && sets.testBit k))

/-- KAT_RUN: what each engine answers to the vector sets comes from the engine; `faults` names the sets that fail (R485, R486). -/
def execKatRun (r : CmdRef) (faults : List KatFault) (s : State) : Host.Outcome State Fault Refusal :=
  ok (s.runUnit r 0xB005 (fun c =>
    let region := c.f 0x10 1; let phys := c.f 0x11 1; let sets := c.f 0x12 1
    let mine := s.regionOf r.q
    let named := (List.range 4).filter (fun m => phys.testBit m)
    if 3 < region ∨ (mine < 4 ∧ region ≠ mine) then s.finish r 0x0104 region
    else if named.any (fun m => ¬ s.engineOut (4 * region + m)) then s.finish r 0x0104 phys
    else
      let bad := named.filterMap (fun m => (firstFault faults m sets).map (fun f => (m, f)))
      let ran : Bool := decide (sets ≠ 0)
      let entry (m : Nat) : Nat :=
        if ¬ ran ∨ ¬ phys.testBit m then put 0 1 2
        else match firstFault faults m sets with
          | none => 0
          | some f => put 0 1 1 + put 1 1 f.set_ + put 2 2 f.row + put 4 2 f.column + put 6 1 f.stage
      let img := put 1 1 1 + (List.range 4).foldl (fun a m => a + (entry m) <<< (8 * (0x10 + 8 * m))) 0
      let s := named.foldl (fun (t : State) m => t.respare (4 * region + m)) s
      let s := bad.foldl (fun (t : State) p =>
        t.report { code := 0x0102, cls := 2, level := 1, unit := unitEngine (4 * region + p.1), seq := c.seqNo, queue := r.q, action := 3,
                   detail := 4 * region + p.1 + 3 <<< 16 }) s
      let good := if ran then (named.filter (fun m => ¬ bad.any (fun p => p.1 = m))).map (4 * region + ·) else []
      let s := { s with obs := { s.obs with katPassed := (s.obs.katPassed ++ good).eraseDups } }
      ((s.hubWrites (c.fb 0x18 47 0) img 64).wrote r).finish r 0 0))

/-! ## Channels: quiesce and test (R487, R488) -/

/-- Whether the device is quiesced (R487). -/
def State.quiesced (s : State) : Bool :=
  (List.range 256).all (fun q => decide (s.qState q = 0)) && s.cmds.all (fun c => decide (c.phase = .completed))
    && (List.range 32).all (fun st => (s.hoist st).hints.isEmpty && (List.range 16).all (fun k => (s.hoistChan (16 * st + k)).swap.isNone))
    && (List.range 2).all (fun n => (s.net n).qps.all (fun p => decide (p.2.st = 0)))

/-- CH_STATE.STATE written by firmware (R240, R487): TEST only while the device is quiesced; RETIRED only while it starts. A retired
channel stays retired while the device runs. -/
def State.chState (s : State) (g v : Nat) : State :=
  let x := v % 4; let old := s.fld F.CH_STATE_STATE g
  if (x = 2 ∧ ¬ s.quiesced) ∨ (x = 3 ∧ s.running) ∨ (old = 3 ∧ s.running) then s else s.setFld F.CH_STATE_STATE g x

/-- CH_STATE_WRITE (R254, R487). -/
def execChStateWrite (a : Agent) (ch : Fin 512) (v : Nat) (s : State) : Host.Outcome State Fault Refusal :=
  ok (if ¬ s.running then s else if Agent.firmware a then s.chState ch.val v else s.mmioRefuse (chanPa ch.val 8) (unitChan ch.val) true)

/-- The content of a channel is lost (R488). -/
def State.loseChan (s : State) (g : Nat) : State :=
  let inChan (pa : Nat) : Bool := match chanOf s.localGib pa with | some c => decide (c.gch = g) | none => false
  { s with mem := s.mem.filter (fun (p : Host.Cell) => ¬ inChan p.1), ecc := s.ecc.filter (fun (p : Nat × Nat) => ¬ inChan (64 * p.1)) }

/-- A write of TST_MBIST_CTL by firmware or the IEEE 1687 network (R492). -/
def State.mbistWrite (s : State) (mask v : Nat) : State :=
  let s := s.putFields .TST_MBIST_CTL 0 mask v
  if ¬ (v &&& mask).testBit 63 then s
  else
    let g := s.fld F.TST_MBIST_CTL_CHANNEL 0
    if s.flag F.TST_MBIST_STATUS_BUSY 0 ∨ s.fld F.CH_STATE_STATE g ≠ 2 then s.setFld F.TST_MBIST_STATUS_RESULT 0 3
    else
      let s := { s with obs := { s.obs with mbist := some (s.fld F.TST_MBIST_CTL_ALG 0, g, s.fld F.TST_MBIST_CTL_DIE 0) } }
      s.setFld F.TST_MBIST_STATUS_BUSY 0 1

/-- Address of TST_MBIST_CTL. -/
def mbistCtlPa : Nat := 0x700000400020

/-- MBIST_START (R488, R492). -/
def execMbistStart (a : Agent) (v : Nat) (s : State) : Host.Outcome State Fault Refusal :=
  ok (if ¬ s.running then s
    else if Agent.firmware a then s.mbistWrite (2 ^ 64 - 1) (v ||| 2 ^ 63) else s.mmioRefuse mbistCtlPa unitTest true)

/-- MBIST_DONE: the rows and lanes that failed, as the hardware finds them (R488). The log of a run begins at its first entry
(log 29). -/
def execMbistDone (rows : List MbistRow) (lanes : Nat) (s : State) : Host.Outcome State Fault Refusal :=
  ok (match s.obs.mbist with
    | none => s
    | some (alg, g, _) =>
      if ¬ s.running then s
      else
        let room := 2 ^ s.fld F.TST_MBIST_LOG_ENTRIES_LOG2 0
        let base := s.fld F.TST_MBIST_LOG_BASE 0 <<< 4
        let kept := rows.take room
        let bad : Bool := decide (rows ≠ []) || decide (alg = 1 ∧ lanes % 2 ^ 36 ≠ 0)
        let s := s.loseChan g
        let s := kept.zipIdx.foldl (fun (t : State) p =>
          t.hubWrites (base + 16 * p.2) (put 0 1 p.1.die + put 1 1 p.1.bank + put 2 2 p.1.row + put 4 8 (p.1.lanes % 2 ^ 36)) 16) s
        let s := if alg = 1 then s.setFld F.TST_MBIST_STATUS_LANES 0 lanes else s
        let s := (s.setFld F.TST_MBIST_STATUS_ROWS 0 kept.length).setFld F.TST_MBIST_STATUS_RESULT 0
          (if kept.length < rows.length then 2 else if bad then 1 else 0)
        { s.setFld F.TST_MBIST_STATUS_BUSY 0 0 with obs := { s.obs with mbist := none } })

/-! ## Chip-level faults (R18, R20, R476, R480) -/

/-- A fault that stops the device while it runs. -/
def State.fatalNow (s : State) (code unit addr detail : Nat) : State := if s.running then s.fatal code unit addr detail else s

/-- D2D_LANE_SUBSTITUTION: a spare lane takes over while the link runs; it has no other effect (R18). -/
def execD2dLaneSubstitution (link : Fin 8) (lane : Nat) (s : State) : Host.Outcome State Fault Refusal :=
  let x := Tab.get ({} : Link) s.links link.val
  ok (if s.running ∧ x.full then { s with links := Tab.set {} s.links link.val { x with subs := (x.subs ++ [lane]).eraseDups } } else s)

/-- LINK_WIDTH_LOSS (R18). -/
def execLinkWidthLoss (link : Fin 8) (s : State) : Host.Outcome State Fault Refusal :=
  let x := Tab.get ({} : Link) s.links link.val
  ok (if s.running then
      ({ s with links := Tab.set {} s.links link.val { x with full := false } }).fatal 0x0F02 (if link.val < 4 then unitFabric link.val else unitHubFabric) 0 link.val
    else s)

/-- The stack that is lost: every stack that is not itself the failed part keeps its contents (R222). -/
def stacksLost (p : Part) : List Nat :=
  match p with
  | .stack st => [st.val]
  | .region _ => []

/-- The directories of a region's homes are lost with it (R298). -/
def State.loseHomes (s : State) (q : Nat) : State :=
  { s with dir := s.dir.filter (fun (p : Nat × Option DirEntry) => decide (s.homeOf p.1 / 8 ≠ q)) }

/-- A lost stack loses its contents and its journal; a lost region its weight region table and its directories (R222, R298, R405). -/
def State.losePart (s : State) (p : Part) : State :=
  let s := (stacksLost p).foldl (fun (t : State) st => (t.loseStack st).setR .UPD_JRNL st (Reg.UPD_JRNL.resetWord st)) s
  match p with
  | .stack _ => s
  | .region .hub => s
  | .region (.q n) => (s.loseHomes n.val).setR .RC_WRT n.val (Reg.RC_WRT.resetWord n.val)

/-- The power domains of a part (R402). -/
def Part.domains (p : Part) : List Nat :=
  match p with
  | .stack st => [28 + st.val]
  | .region .hub => [71]
  | .region (.q n) => (List.range 7).map (7 * n.val + ·)

/-- The domains that the fatal reset switches off because they belong to the failed part (R405). -/
def State.failedPart (s : State) (ds : List Nat) : State := { s with pwr := { s.pwr with failed := ds } }

/-- A part is lost: a fatal device error (R20). -/
def State.partLost (s : State) (part : Part) : State :=
  let (unit, d) := match part with
    | .stack st => (unitStack st.val, 0x20 + st.val)
    | .region .hub => (unitHubFabric, 8)
    | .region (.q n) => (unitFabric n.val, n.val)
  ((s.losePart part).failedPart (Part.domains part)).fatal 0x0F03 unit 0 d

/-- PART_LOST (R20). -/
def execPartLost (part : Part) (s : State) : Host.Outcome State Fault Refusal := ok (if s.running then s.partLost part else s)

/-- The part that the number of a 0x0F03 record names (R476). -/
def partOf (d : Nat) : Option Part :=
  if h : d < 4 then some (.region (.q ⟨d, h⟩))
  else if d = 8 then some (.region .hub)
  else if h : 0x20 ≤ d ∧ d < 0x40 then some (.stack ⟨d - 0x20, by omega⟩)
  else none

/-- CONTROLLER_FAULT (R476): the failed part is the controllers' own domain; the device controller lies in the always-on one. -/
def execControllerFault (region : Region) (s : State) : Host.Outcome State Fault Refusal :=
  let n := match region with | .hub => 8 | .q k => k.val
  ok (if s.running then (s.failedPart (if n < 4 then [7 * n + 6] else [])).fatal 0x0F09 (unitCtl n) 0 n else s)

/-- FATAL_DEVICE_ERROR: one of the chip-level faults of the error code table (R476, R480). For a coherence failure the number its record names is the
CF_FATAL word (R297), which is captured, and for a lost part it is the part. -/
def execFatalDeviceError (f : FatalFault) (s : State) : Host.Outcome State Fault Refusal :=
  ok (if ¬ s.running then s
    else if f.code = 0x0F01 ∧ 1 ≤ bits f.arg 63 61 ∧ bits f.arg 63 61 ≤ 3 then
      s.coherenceFatal (bits f.arg 63 61) (bits f.arg 60 57) (bits f.arg 47 6)
    else if f.code = 0x0F03 ∧ (partOf f.arg).isSome then (partOf f.arg).elim s s.partLost
    else if 0x0F01 ≤ f.code ∧ f.code ≤ 0x0F09 then s.fatalNow f.code f.unit f.addr f.arg else s)

end Sys2Proof.Machine
end

