-- ==== Sys2Proof/Machine/Reset.lean ====
section
/-! DEFINITION. What the resets of the device keep: R11, R81, R222, R257, R298, R405, R411, R444, R480 to R482, R500. -/
namespace Sys2Proof.Machine

/-- The resets of the device. -/
inductive ResetKind where
  | powerLoss     -- the input falls below the converter minimum (R398)
  | held          -- RESET_N, and the end of a hold-up sequence (R411, R500)
  | restart       -- SEC_BOOT_CTL.RESTART (R444)
  | fatal         -- the reset that follows a fatal device error (R405)
  deriving DecidableEq, Repr

/-- The registers that hold the Governor's state (R420), in the always-on domain. -/
def govRegs : List Reg :=
  [.GOV_INPUT, .GOV_CAP, .GOV_STATUS, .GOV_EVT, .GOV_DOM_CTL, .GOV_DOM_ON_LO, .GOV_DOM_ON_HI, .GOV_DROOP, .GOV_LG]

/-- The registers that a reset keeps (log 31). -/
def ResetKind.regs : ResetKind → List Reg
  | .powerLoss => []
  | .held => [.RC_ENGMAP, .ERR_STATUS, .SEC_BOOT_CTL]
  | .restart => [.RC_ENGMAP, .ERR_STATUS, .SEC_BOOT_CTL] ++ govRegs
  | .fatal => [.RC_ENGMAP, .ERR_STATUS, .SEC_BOOT_CTL, .AMR_CFG, .UPD_JRNL, .RC_WRT, .CH_LANE_MAP, .ERR_RING_BASE, .ERR_RING_PTR, .CF_FATAL]

/-- The entries of the register file that belong to the registers listed. -/
def keepRegs (t : Tab (BitVec 64)) (kept : List Reg) : Tab (BitVec 64) :=
  t.filter (fun (p : Nat × BitVec 64) => kept.any (fun r => decide (r.ctorIdx = p.1 / 4096)))

/-- What outlives every reset: the flash, the non-volatile repair cells of the stacks, the pins, the commands that wait outside, the
frames already sent, and, but for a power loss, the always-on memories (R500). -/
def State.bare (s : State) (k : ResetKind) : State :=
  let lost : Bool := decide (k = .powerLoss)
  let pw : Power := { phase := .off, vinMv := s.pwr.vinMv, pwrGood := s.pwr.pwrGood, resetN := s.pwr.resetN, refclk := s.pwr.refclk }
  let sec : Secure := if lost then {} else { s.sec with meas := [], seed := none, keyId := 0, challenge := none, attempts := 0, recover := {},
                                                        env := {}, image := 0, ctlCode := [], dieCode := [], queue := [], fatalStart := false }
  let ob : Observe := if lost then {} else { head := s.obs.head, ringed := s.obs.ringed }
  { pending := s.pending, draws := s.draws, tx := s.tx, flash := s.flash,
    regs := keepRegs s.regs k.regs,
    time := if lost then 0 else s.time,
    chans := s.chans.foldl (fun (t : Tab Chan) (p : Nat × Chan) => Tab.set {} t p.1 { nvMap := p.2.nvMap }) [],
    stks := s.stks.foldl (fun (t : Tab Stack) (p : Nat × Stack) =>
      let banks := p.2.repBanks.foldl (fun (b : Tab BankRep) (q : Nat × BankRep) => Tab.set {} b q.1 { hard := q.2.hard }) []
      Tab.set {} t p.1 { repBanks := banks }) [],
    pwr := pw, sec := sec, obs := ob }

/-- Parts quarantined in service stay so until the next power-on (R481): lanes, bypassed update units and ports beside the engines of
RC_ENGMAP. -/
def State.requar (s old : State) : State :=
  let s := (s.setFld F.BLT_STATUS_QUAR 0 (old.fld F.BLT_STATUS_QUAR 0)).setFld F.TOK_STATUS_QUAR 0 (old.fld F.TOK_STATUS_QUAR 0)
  let s := (List.range 32).foldl (fun (t : State) st => if old.fld F.UPD_CTL_MODE st = 1 then t.setFld F.UPD_CTL_MODE st 1 else t) s
  (List.range 8).foldl (fun (t : State) p =>
    if old.fld F.PORT_STATUS_STATE p = 4 then (t.setFld F.PORT_STATUS_STATE p 4).setFld F.PORT_STATUS_REASON p 4 else t) s

/-- The Governor's own state beside its registers (log 31). -/
def Power.always (p : Power) (k : ResetKind) (q : Power) : Power :=
  let q := if k = .powerLoss then q else { q with statInput := p.statInput, statTemp := p.statTemp, cml := p.cml }
  match k with
  | .restart => { q with capCl := p.capCl, capStretch := p.capStretch, capBulk := p.capBulk, thCl := p.thCl, thStretch := p.thStretch,
                         thBulk := p.thBulk, boardCap := p.boardCap, commit := p.commit }
  | .fatal => { q with jlines := p.jlines, commit := p.commit }
  | _ => q

/-- Every switched domain is off. -/
def State.domsOff (s : State) : State := (s.setR .GOV_DOM_ON_LO 0 0#64).setR .GOV_DOM_ON_HI 0 0#64

/-- Clears MMIO_DROPS, which no reset keeps. -/
def State.noDrops (s : State) : State := s.setFld F.ERR_STATUS_MMIO_DROPS 0 0

/-- The power loss of R398: only the flash and the non-volatile repair cells are left. -/
def State.lossReset (s : State) : State :=
  let t := s.bare .powerLoss
  { t with pwr := s.pwr.always .powerLoss t.pwr }

/-- Held in reset (R411, R500): every switched domain is off, and stack contents are lost. -/
def State.heldReset (s : State) : State :=
  let t := ((s.bare .held).noDrops).requar s
  { t with pwr := { s.pwr.always .held t.pwr with phase := .held, faultOut := s.pwr.faultOut } }

/-- SEC_BOOT_CTL.RESTART (R444): as at power-on, but for the always-on domain. The start follows. -/
def State.restartReset (s : State) : State :=
  let t := (((s.bare .restart).noDrops).requar s).domsOff
  { t with pwr := { s.pwr.always .restart t.pwr with phase := .booting } }

/-- The domains that the fatal reset keeps on (R405): hub fabric, region controllers, region fabrics and stacks that are on. -/
def fatalKeeps (d : Nat) : Bool := decide (28 ≤ d ∧ d < 60) || decide (d = 71) || (decide (d < 28) && decide (5 ≤ d % 7))

/-- Whether the fatal reset leaves a domain on: it was on, and does not belong to the failed part (R405). -/
def State.staysOn (s : State) (d : Nat) : Bool := fatalKeeps d && ! s.pwr.failed.contains d && s.domOn d

/-- What the fatal reset leaves of the registers (R405, R480): the domains named stay on, and the reset is counted. -/
def State.fatalRegs (s : State) : State :=
  let t := ((s.bare .fatal).noDrops).requar s
  let mask (lo n : Nat) : Nat := (List.range n).foldl (fun (m : Nat) k => m + b2n (s.staysOn (lo + k)) <<< k) 0
  (((t.setFld F.GOV_DOM_ON_LO_ON 0 (mask 0 64)).setFld F.GOV_DOM_ON_HI_ON 0 (mask 64 8)).setFld F.ERR_RING_PTR_DROPS 0 0).incSat F.ERR_STATUS_FATALS 0 1

/-- What the fatal reset keeps of the stacks and of the units at them (R81, R222, R255, R405). The stacks that stay on are in self-refresh
throughout the reset. -/
def State.fatalMems (t s : State) : State :=
  let stks := s.stks.foldl (fun (b : Tab Stack) (p : Nat × Stack) => Tab.set {} b p.1 { repBanks := p.2.repBanks }) []
  let stks := (List.range 32).foldl (fun (b : Tab Stack) st =>
    if s.staysOn (28 + st) then Tab.set {} b st { Tab.get {} b st with selfRef := true, srSince := s.time } else b) stks
  let hoistCh := s.hoistCh.foldl (fun (b : Tab HoistChan) (p : Nat × HoistChan) => Tab.set {} b p.1 { p.2 with swap := none }) []
  let upds := s.upds.foldl (fun (b : Tab UpdUnit) (p : Nat × UpdUnit) => Tab.set {} b p.1 { fresh := p.2.fresh }) []
  { t with mem := s.mem, ecc := s.ecc, dir := s.dir, stks := stks, hoistCh := hoistCh, upds := upds,
           pwr := { s.pwr.always .fatal t.pwr with phase := .booting }, sec := { t.sec with fatalStart := true } }

/-- The reset that follows a fatal device error (R405): the stacks keep their contents, and what R81, R222, R255, R298 and R480 name
is kept; the start that follows is marked. The fault output is released at its end (R419). -/
def State.fatalResetNow (s : State) : State := s.fatalRegs.fatalMems s

/-- FATAL_RESET: within 100 µs of a fatal device error (R405, R480); without REFCLK or with RESET_N asserted there is none. -/
def execFatalReset (s : State) : Host.Outcome State Fault Refusal :=
  ok (if s.pwr.phase = .fatal ∧ s.pwr.refclk ∧ s.pwr.resetN then s.fatalResetNow else s)

/-- Whether an agent reaches the register windows (R41): cores, firmware and the IEEE 1687 network do. -/
def Agent.reachesRegs (a : Agent) : Bool := match a with | .hart _ => true | _ => Agent.firmware a

/-- SEC_BOOT_CTL_RESTART: written by software or firmware (R444). -/
def execSecBootCtlRestart (a : Agent) (s : State) : Host.Outcome State Fault Refusal :=
  ok (if s.running && Agent.reachesRegs a then s.restartReset else s)

end Sys2Proof.Machine
end

