-- ==== Sys2Proof/Machine/Power.lean ====
section
/-! DEFINITION. The Governor: the input and the hold-up sequence, throttling, droop, junction temperature and PMBus: R398 to R420,
R500. -/
namespace Sys2Proof.Machine

/-- Whether the always-on domain runs and the detectors are armed (R399). -/
def State.alive (s : State) : Bool :=
  match s.pwr.phase with
  | .booting | .recovery | .running | .fatal => true
  | _ => false

/-- Sets a bit of GOV_EVT; APLIC source 4 follows it (R420). -/
def State.govEvt (s : State) (f : Fld) : State := (s.setFld f 0 1).wire s 4

/-- Latches bits of STATUS_INPUT and STATUS_TEMPERATURE (R418). -/
def State.statInput (s : State) (b : Nat) : State := { s with pwr := { s.pwr with statInput := s.pwr.statInput ||| b } }
def State.statTemp (s : State) (b : Nat) : State := { s with pwr := { s.pwr with statTemp := s.pwr.statTemp ||| b } }

/-! ## The hold-up sequence (R411 to R414) -/

/-- Detection and shedding (R411): the fault output is asserted, nothing issues, every switched domain goes off; only what the
always-on domain holds is left (R412). A sequence that runs is not begun again. -/
def State.holdUp (s : State) (cause : Nat) : State :=
  if ¬ s.alive then s
  else
    let t := (s.bare .held).noDrops.requar s
    let gov := keepRegs s.regs [.GOV_LG]
    let t := gov.foldl (fun (u : State) (p : Nat × BitVec 64) => { u with regs := Tab.set 0#64 u.regs p.1 p.2 }) t
    { t with pwr := { s.pwr.always .held t.pwr with phase := .holdup, cause := cause, holdAt := s.time, holdMv := s.pwr.vinMv,
                                                    fatalWas := decide (s.pwr.phase = .fatal), faultOut := true, jlines := s.pwr.jlines, commit := s.pwr.commit } }

/-- The records of the error head whatever their class, newest first by RSEQ (R414). -/
def State.newestErrors (s : State) : List Nat := (sortBy (fun b => 2 ^ 32 - le b 0x20 4) s.obs.head.flatten).take 32

/-- Concatenates fields of `size` bytes, the first lowest. -/
def joinFields (size : Nat) (xs : List Nat) : Nat := xs.foldr (fun x acc => x % 2 ^ (8 * size) + acc <<< (8 * size)) 0

/-- The boot journal as 1,024 bytes (R433). -/
def State.journalImage (s : State) : Nat := joinFields 8 (s.sec.journal.take 128)

/-- A last-gasp record (R414): shedding took `us` µs. SEAL_CRC lies in its last four bytes. -/
def State.lastGasp (s : State) (us : Nat) : Nat :=
  let step := match s.pwr.commit with | some n => n | none => 2 ^ 64 - 1
  let body := put 0 2 0x100 + put 2 1 s.pwr.cause + put 3 1 (b2n (decide (50 < us)) + 2 * b2n s.pwr.fatalWas) + put 4 4 (s.fld F.GOV_LG_SEQ 0)
    + put 8 8 s.pwr.holdAt + put 0x10 8 step + put 0x18 2 s.pwr.holdMv + put 0x1A 2 us
    + (joinFields 16 ((List.range 32).map (fun st => (Tab.get Power.emptyJLine s.pwr.jlines st).toNat))) <<< (8 * 0x40)
    + s.journalImage <<< (8 * 0x240) + (joinFields 64 s.newestErrors) <<< (8 * 0x640)
  body + put 0x1FFC 4 (crc32c body 0x1FFC)

/-- Programs `n` bytes of the flash from `off`: programming only clears bits. -/
def State.program (s : State) (off v : Nat) : Nat → State
  | 0 => s
  | n + 1 =>
    let old := (Tab.get flashBlank s.flash off).toNat
    State.program { s with flash := Tab.set flashBlank s.flash off (BitVec.ofNat 8 (old &&& v % 256)) } (off + 1) (v >>> 8) n

/-- Erases `n` bytes of the flash from `off`. -/
def State.erase (s : State) (off n : Nat) : State :=
  { s with flash := s.flash.filter (fun (p : Host.Cell) => ¬ (off ≤ p.1 ∧ p.1 < off + n)) }

/-- The slot that a record goes to (R412, R413). -/
def State.gaspSlot (s : State) : Option Nat :=
  if s.flag F.GOV_LG_ARMED 0 then lowest 8 (fun k => (s.fld F.GOV_LG_ERASED 0).testBit k) else none

/-- Writes the first `n` bytes of the record; the time that shedding took is a free value (log 6). -/
def State.writeGasp (s : State) (n : Nat) : State :=
  match s.gaspSlot with
  | none => s
  | some k =>
    let (us, s) := s.draw 9
    s.program (0x30000 + 0x2000 * k) (s.lastGasp (us % 65536)) n

/-- How much of the record has been programmed at the end of a hold-up sequence (R411): all of it where the end comes before 20 ms; at 20 ms
how far its programming came is a free value (log 6), and a record not finished has no seal. -/
def State.gaspDone (s : State) : Nat × State :=
  if s.time < s.pwr.holdAt + 20000000 then (0x2000, s)
  else
    let (n, s) := s.draw 12
    (n % 0x2001, s)

/-- HOLDUP_END: the record is written and the device holds itself in reset with its fault output asserted (R399, R411). -/
def execHoldupEnd (s : State) : Host.Outcome State Fault Refusal :=
  ok (if s.pwr.phase = .holdup then (s.gaspDone.2.writeGasp s.gaspDone.1).heldReset else s)

/-! ## The input (R398) -/

/-- The state with the input voltage at the balls, in mV. -/
def State.inputAt (s : State) (mv : Nat) : State := { s with pwr := { s.pwr with vinMv := mv } }

/-- VIN_LOW: the input enters the low range, from 31.0 V up to 32.0 V. -/
def execVinLow (mv : Nat) (s : State) : Host.Outcome State Fault Refusal :=
  ok (if mv < 31000 ∨ 32000 ≤ mv then s
    else if s.alive then ((s.inputAt mv).govEvt F.GOV_EVT_VIN_LOW).statInput 0x20 else s.inputAt mv)

/-- The input has fallen below 31.0 V: where the detectors are armed, the hold-up sequence with cause 1 begins. -/
def State.sag (s : State) (mv : Nat) : State := if s.alive then ((s.inputAt mv).statInput 0x10).holdUp 1 else s.inputAt mv

/-- INPUT_SAG: the input falls below 31.0 V: cause 1. -/
def execInputSag (mv : Nat) (s : State) : Host.Outcome State Fault Refusal := ok (if 31000 ≤ mv then s else s.sag mv)

/-- POWER_LOSS: conversion stops below 24.0 V. The input passes 31.0 V first, which begins the hold-up sequence; a record in progress is left
without its seal, and how far its programming came is a free value (R398, R411, log 6). -/
def execPowerLoss (mv : Nat) (s : State) : Host.Outcome State Fault Refusal :=
  let t := if s.pwr.phase = .holdup then s.inputAt mv else s.sag mv
  ok (if 31000 ≤ mv then s
    else if 24000 ≤ mv then t
    else if t.pwr.phase = .holdup then
      let (n, t) := t.draw 12
      (t.writeGasp (n % 0x1FFD)).lossReset
    else t.lossReset)

/-- OVER_VOLTAGE: the input above 41.0 V for 5 µs: cause 2. Above the 48 V of the absolute maximum ratings the device may be damaged
(R495), and the spec gives no behaviour. -/
def execOverVoltage (mv : Nat) (s : State) : Host.Outcome State Fault Refusal :=
  if mv ≤ 41000 then ok s
  else if 48000 < mv then .fault .beyondAbsoluteMaximum
  else
    let s := s.inputAt mv
    ok (if s.alive then (s.statInput 0x80).holdUp 2 else s)

/-- PWR_GOOD_LOST: cause 3. -/
def execPwrGoodLost (s : State) : Host.Outcome State Fault Refusal :=
  let s := { s with pwr := { s.pwr with pwrGood := false } }
  ok (s.holdUp 3)

/-! ## RESET_N and REFCLK (R417, R500) -/

/-- RESET_N_ASSERT: the device is held; an assertion during a hold-up sequence takes effect when it has ended, and one after a fatal
device error abandons its reset (R500). -/
def execResetNAssert (s : State) : Host.Outcome State Fault Refusal :=
  let s := { s with pwr := { s.pwr with resetN := false } }
  ok (match s.pwr.phase with
    | .off | .holdup => s
    | _ => s.heldReset)

/-- RESET_N_DEASSERT: the count toward a start begins (R500). -/
def execResetNDeassert (s : State) : Host.Outcome State Fault Refusal := ok { s with pwr := { s.pwr with resetN := true, scan := none } }

/-- REFCLK_LOSS: no edge for 1 µs is a fatal device error; the time base stops (R417). -/
def execRefclkLoss (s : State) : Host.Outcome State Fault Refusal :=
  let s := { s with pwr := { s.pwr with refclk := false } }
  ok (if s.alive then s.fatal 0x0F06 unitTime 0 0 else s)

/-- REFCLK_RETURN: REFCLK has run for 10 ms; the time base unit emits CLOCK_RESUME with the last count before the loss (R417, R453). -/
def execRefclkReturn (s : State) : Host.Outcome State Fault Refusal :=
  ok (if s.pwr.refclk then s
    else
      let s := { s with pwr := { s.pwr with refclk := true } }
      if s.alive then s.trace unitTime 0x010 s.time else s)

/-! ## Throttling (R406, R408) -/

/-- GOV_STATUS and STATUS_INPUT as the cap and thermal steps stand: where both act on one setting the stronger applies. -/
def State.throttle (s : State) : State :=
  let p := s.pwr
  let s := (s.setFld F.GOV_STATUS_CL_CAP 0 (min p.capCl p.thCl)).setFld F.GOV_STATUS_STRETCH 0 (max p.capStretch p.thStretch)
  s.setFld F.GOV_STATUS_BULK_CAP 0 (b2n (p.capBulk || p.thBulk))

/-- A throttle state: cluster cap, stretch, joint cap. -/
abbrev Steps := Nat × Nat × Bool

/-- One step further, in the order of the throttle table. -/
def stepOn (t : Steps) : Steps :=
  if 8 < t.1 then (t.1 - 1, t.2.1, t.2.2) else if t.2.1 < 16 then (t.1, t.2.1 + 1, t.2.2) else (t.1, t.2.1, true)

/-- One step released, in reverse order. -/
def stepOff (t : Steps) : Steps :=
  if t.2.2 then (t.1, t.2.1, false) else if 0 < t.2.1 then (t.1, t.2.1 - 1, t.2.2) else (min 30 (t.1 + 1), t.2.1, t.2.2)

/-- Every setting at its limit. -/
def atLimit (t : Steps) : Bool := decide (t.1 ≤ 8) && decide (16 ≤ t.2.1) && t.2.2
/-- No step taken. -/
def noSteps (t : Steps) : Bool := decide (30 ≤ t.1) && decide (t.2.1 = 0) && !t.2.2

/-- CAP_EVALUATION: the power averaged over the window, in mW, against the effective cap (R406). -/
def execCapEvaluation (mw : Nat) (s : State) : Host.Outcome State Fault Refusal :=
  let cap := 1000 * s.fld F.GOV_STATUS_EFF_CAP_W 0
  let t : Steps := (s.pwr.capCl, s.pwr.capStretch, s.pwr.capBulk)
  let exceeds : Bool := decide (cap < mw)
  let limit : Bool := exceeds && atLimit t
  let t' := if exceeds then stepOn t else if 100 * mw < 97 * cap then stepOff t else t
  ok (if ¬ s.running then s
    else
      let s := if limit && ! s.flag F.GOV_STATUS_AT_LIMIT 0 then s.govEvt F.GOV_EVT_AT_LIMIT else s
      let s := s.setFld F.GOV_STATUS_AT_LIMIT 0 (b2n limit)
      let s := if noSteps t' then s else s.statInput 1
      ({ s with pwr := { s.pwr with capCl := t'.1, capStretch := t'.2.1, capBulk := t'.2.2 } }).throttle)

/-- JUNCTION_SAMPLE: the highest reading in 1/16 °C (R410): 108.0 °C trips, 100.0 °C throttles, below 97.0 °C a step is released. -/
def execJunctionSample (t : Int) (s : State) : Host.Outcome State Fault Refusal :=
  let st : Steps := (s.pwr.thCl, s.pwr.thStretch, s.pwr.thBulk)
  ok (if ¬ s.alive then s
    else
      let s := s.setFld F.GOV_STATUS_TJ 0 (unsigned t 16)
      let hot : Bool := decide (1600 ≤ t)
      let s := if hot then ((s.setFld F.GOV_STATUS_THERMAL 0 1).govEvt F.GOV_EVT_TJ_WARN).statTemp 0x40 else s
      if 1728 ≤ t then (s.statTemp 0x80).holdUp 4
      else
        let st' := if hot then stepOn st else if t < 1552 then stepOff st else st
        let s := if noSteps st' then s.setFld F.GOV_STATUS_THERMAL 0 0 else s
        ({ s with pwr := { s.pwr with thCl := st'.1, thStretch := st'.2.1, thBulk := st'.2.2 } }).throttle)

/-- The thermal alert output (R419): THERMAL, or a stack at CRITICAL. -/
def State.thermalAlert (s : State) : Bool :=
  s.alive && (s.flag F.GOV_STATUS_THERMAL 0 || (List.range 32).any (fun st => decide (3 ≤ s.fld F.STK_THERM_GRADE st)))

/-! ## Droop (R409) -/

/-- DROOP_STRETCH: a rail below 95 %: the clocks of the domain stretch to k = 16 and the event is counted. -/
def execDroopStretch (d : Fin 72) (s : State) : Host.Outcome State Fault Refusal :=
  ok (if ¬ s.alive ∨ s.pwr.droop.contains d.val then s
    else
      let s := { s with pwr := { s.pwr with droop := s.pwr.droop ++ [d.val] } }
      ((s.incSat F.GOV_DROOP_COUNT 0 1).setFld F.GOV_DROOP_LAST 0 d.val).govEvt F.GOV_EVT_DROOP)

/-- DROOP_RECOVER: the rail has been above 97 % for 1 µs. -/
def execDroopRecover (d : Fin 72) (s : State) : Host.Outcome State Fault Refusal :=
  ok { s with pwr := { s.pwr with droop := s.pwr.droop.filter (· ≠ d.val) } }

/-- DROOP_FATAL: a rail below 88 % for 100 ns is a fatal device error. -/
def execDroopFatal (d : Fin 72) (s : State) : Host.Outcome State Fault Refusal :=
  ok (if ¬ s.alive then s else (s.setFld F.GOV_DROOP_LAST 0 d.val).fatal 0x0F05 unitGov 0 d.val)

/-! ## The cap (R406, R407, R418) -/

/-- The effective cap: the lower of GOV_CAP.CAP_W and the board cap. -/
def State.effCap (s : State) : State := s.setFld F.GOV_STATUS_EFF_CAP_W 0 (min (s.fld F.GOV_CAP_CAP_W 0) s.pwr.boardCap)

/-- Whether a cap lies in the range of R406. -/
def capInRange (w : Nat) : Bool := decide (1050 ≤ w ∧ w ≤ 1500)

def checksPowerCap (c : Cmd) : Checks :=
  Checks.all [lenIs c 1, unlisted c [(0x10, 4)], failLen (¬ capInRange (c.f 0x10 2)) 0x10, failLen (c.f 0x12 2 < 1 ∨ 1000 < c.f 0x12 2) 0x12]

/-- POWER_CAP (R407). -/
def execPowerCap (r : CmdRef) (s : State) : Host.Outcome State Fault Refusal :=
  ok (s.run r 0x9003 (fun c =>
    (((s.setFld F.GOV_CAP_CAP_W 0 (c.f 0x10 2)).setFld F.GOV_CAP_WINDOW_MS 0 (c.f 0x12 2)).effCap).finish r 0 0))

/-! ## PMBus (R418) -/

/-- The codes of the PMBus command table. -/
def pmbusCodes : List Nat := [0x03, 0x19, 0x79, 0x7C, 0x7D, 0x88, 0x89, 0x8D, 0x8E, 0x97, 0x98, 0xD0]

/-- PMBUS_CLEAR_FAULTS: clears status bits whose condition has ended. -/
def execPmbusClearFaults (s : State) : Host.Outcome State Fault Refusal :=
  let p := s.pwr
  let throttled : Bool := ! noSteps (p.capCl, p.capStretch, p.capBulk)
  let tj := signed (s.fld F.GOV_STATUS_TJ 0) 16
  let stands := 0x80 * b2n (decide (41000 < p.vinMv)) + 0x20 * b2n (decide (31000 ≤ p.vinMv ∧ p.vinMv < 32000))
    + 0x10 * b2n (decide (p.vinMv < 31000)) + b2n throttled
  let hot := 0x80 * b2n (decide (1728 ≤ tj)) + 0x40 * b2n (decide (1600 ≤ tj))
  ok (if s.alive then { s with pwr := { p with statInput := p.statInput &&& stands, statTemp := p.statTemp &&& hot, cml := false } } else s)

/-- PMBUS_MFR_POWER_CAP: a value out of range is not stored and sets CML. -/
def execPmbusMfrPowerCap (v : Nat) (s : State) : Host.Outcome State Fault Refusal :=
  ok (if ¬ s.alive then s
    else if capInRange v then ({ s with pwr := { s.pwr with boardCap := v } }).effCap
    else { s with pwr := { s.pwr with cml := true } })

/-- The 7-bit address of the PMBus target (R418): that of the configuration block in force, 0x58 without one. The PMBus rows are transactions
at it; one whose error check does not hold, or at another address, is no command to the device. -/
def State.pmbusAddr (s : State) : Nat := if s.sec.cfg = 0 then 0x58 else le s.sec.cfg 0xD 1

/-- STATUS_WORD: the summary of the status bits, at the places that PMBus 1.4 gives them (R418; PRESUMED, log 66). -/
def Power.statusWord (p : Power) : Nat :=
  b2n p.cml <<< 1 + b2n (decide (p.statTemp ≠ 0)) <<< 2 + b2n (p.statInput.testBit 4) <<< 3 + b2n (decide (p.statInput ≠ 0)) <<< 13

/-- What a read command of the PMBus command table answers (R418). The LINEAR11 readings are averages over the last 1 ms: free values of 16
bits (log 6). -/
def State.pmbusRead (s : State) (code : Nat) : Option (Nat × State) :=
  match code with
  | 0x19 => some (0xA0, s)
  | 0x79 => some (s.pwr.statusWord, s)
  | 0x7C => some (s.pwr.statInput, s)
  | 0x7D => some (s.pwr.statTemp, s)
  | 0x98 => some (0x44, s)
  | 0xD0 => some (s.pwr.boardCap, s)
  | 0x88 | 0x89 | 0x8D | 0x8E | 0x97 =>
    let (v, t) := s.draw 15
    some (v % 2 ^ 16, t)
  | _ => none

/-- PMBUS_UNSUPPORTED: any other command is answered with NACK and sets CML; a code whose read the table lists is answered. -/
def execPmbusUnsupported (code : Nat) (s : State) : Host.Outcome State Fault Refusal :=
  ok (if ¬ s.alive then s
    else match s.pmbusRead code with
    | some (v, t) => { t with resp := .data v }
    | none => if pmbusCodes.contains code then s else { s with pwr := { s.pwr with cml := true }, resp := .nack })

end Sys2Proof.Machine
end

