-- ==== Sys2Proof/Machine/RegRead.lean ====
section
/-! DEFINITION. What a read of a register answers (R6 to R10): the word stored for it, with the fields that show other state of the
block as it stands, and the direct accesses that are refused (R10, R31). -/
namespace Sys2Proof.Machine

/-! ## Fields that show other state -/

/-- Whether an engine is in test: it is quarantined and a KAT_RUN that names it is in progress (R485). -/
def State.inTest (s : State) (g : Nat) : Bool :=
  s.engineOut g && s.cmds.any (fun c => decide (c.opcode = 0xB005 ∧ c.phase = .issued ∧ c.f 0x10 1 = g / 4) && (c.f 0x11 1).testBit (g % 4))

/-- ENG_STATUS (R138). -/
def State.engStatus (s : State) (g : Nat) : Nat :=
  let e := s.engine g
  let r := if s.engineBusy g then e.cmd else none
  let st := if s.inTest g then 5 else if s.engineOut g then 4 else if e.saving.isSome then 2 else if r.isSome then 1 else 0
  let (q, sq) := match r with
    | some r => (r.q % 256, match s.cmd r with | some c => c.seqNo | none => 0)
    | none => (0, 0)
  put 4 4 sq + put 3 1 q + (match s.logicalOf g with | some l => l | none => 0xF) <<< 20 + b2n (e.retrying && r.isSome) <<< 3 + st

/-- SPW_STATUS (R146): 8,192 Spillway rows. -/
def State.spwStatus (s : State) (q : Nat) : Nat :=
  let a := s.acc q
  let used := (a.frames.map (fun f => f.rows)).sum
  (8192 - used) <<< 32 + (min 0xFF a.waiting.length) <<< 16 + min 0xFF a.frames.length

/-- PK_COUNTS (R179): FREE and DEFERRED pages of the pool. -/
def State.pkCounts (s : State) (q : Nat) : Nat :=
  match (s.vec q).pool with
  | none => 0
  | some p =>
    let n (st : Nat) : Nat := (List.range p.pages).countP (fun k => decide ((s.page p k).st = st))
    n 0 <<< 32 + n 3

/-- The slice, replay or restore in progress for a stack: its queue, 0xFF for a replay or a restore, and its SEQ. -/
def State.updBusy (s : State) (st : Nat) : Option (Nat × Nat) :=
  match (s.upd st).slices with
  | r :: _ => some (r.q % 256, match s.cmd r with | some c => c.seqNo | none => 0)
  | [] => s.cmds.findSome? (fun c => match c.work with
    | .recon w => (match w.todo with | p :: _ => if p.1 = st ∧ c.phase ≠ .ended then some (0xFF, s.readMem (s.jAddr st p.2 + 0x14) 4) else none | [] => none)
    | _ => none)

/-- UPD_STATUS (R228). -/
def State.updStatus (s : State) (st : Nat) : Nat :=
  let used := (s.jUsed st).length
  match s.updBusy st with
  | some (q, sq) => put 4 4 sq + put 3 1 q + 1 <<< 12 + used % 4096
  | none => used % 4096

/-- RC_WREF (R216): the counts of the selected weight region. -/
def State.wref (s : State) (q : Nat) : Nat :=
  let w := q <<< 14 + s.fld F.RC_WREF_SEL_INDEX q
  (min 0xFF (s.waitersOf w)) <<< 56 + (s.liveRefs w 1 % 2 ^ 24) <<< 24 + s.liveRefs w 0 % 2 ^ 24

/-- Whether a poison hold defers a swap of a Hoist (R268, R274): one in progress, the next one of the hint in progress, or those of a hint
that waits for the hold and raises a frame that is not fast yet. -/
def State.swapDeferred (s : State) (st : Nat) : Bool :=
  let heldUnit (f : Nat) : Bool := s.unitHeld (s.unitOfFrame st f)
  (List.range 16).any (fun c =>
    let g := 16 * st + c
    match (s.hoistChan g).swap with
    | some w => heldUnit w.slow || heldUnit w.victim
    | none => match (s.hoist st).hints with
      | x :: _ => match s.nextSlow g x with
        | some f => if x.begun then heldUnit f || (match s.victim g x with | some v => heldUnit v | none => false) else x.range.any heldUnit
        | none => false
      | [] => false)

/-- HST_STATUS (R257 to R265). -/
def State.hstStatus (s : State) (st : Nat) : Nat :=
  let h := s.hoist st
  let moving := (List.range 16).countP (fun c => (s.hoistChan (16 * st + c)).swap.isSome)
  let open_ := (List.range 8).foldl (fun (m : Nat) k => m + b2n (Tab.get none h.streams k).isSome <<< k) 0
  (s.pinnedFrames st).length <<< 48 + (min 0xFFFF h.hints.length) <<< 32 + moving <<< 16 + open_ <<< 8 + b2n (s.swapDeferred st)

/-- HST_MAP (R257). -/
def State.hstMap (s : State) (st : Nat) : Nat :=
  let w := (s.getR .HST_MAP st).toNat
  let f := bits w 59 44
  setBits (setBits w 43 28 (s.slotOf (16 * st + bits w 63 60) f)) 15 0 (Tab.get 0#16 (s.hoist st).attrs f).toNat

/-- RC_HOLD and RC_HOLD_UNIT (R268): the slot that RC_HOLD_CTL.INDEX selects. -/
def State.holdWord (s : State) (q : Nat) (unit : Bool) : Nat :=
  match s.hold q (s.fld F.RC_HOLD_CTL_INDEX q) with
  | none => 0
  | some h =>
    if unit then h.unit
    else
      let n := s.cmds.countP (fun c => c.held && s.touches c h.unit)
      (min 0xFFFF h.bursts.length) <<< 48 + (min 0xFFFF n) <<< 32 + h.state

/-- HA_DIR.ENTRIES of the selected home (R279). -/
def State.dirEntries (s : State) (q : Nat) : Nat :=
  s.dir.countP (fun (p : Nat × Option DirEntry) => p.2.isSome && decide (s.homeOf p.1 = 8 * q + s.fld F.HA_SEL_STACK q))

/-- Lanes that hold a sample, as bits. -/
def State.busyLanes (s : State) (video : Bool) : Nat :=
  (List.range 24).foldl (fun (m : Nat) k => m + b2n (s.lane video k).isSome <<< k) 0

/-- HOP_STATUS and HOP_STATS (R339, R341). -/
def State.hopStatus (s : State) : Nat :=
  let w := (s.getR .HOP_STATUS 0).toNat
  setBits (setBits (setBits w 47 40 (s.hopCount .taken)) 39 32 (s.hopCount .ready)) 31 24 (s.hopCount .filling)

def State.starvedNs (s : State) : Nat :=
  (s.fld F.HOP_STATS_STARVED_NS 0 + (match s.input.starved with | some t => s.time - t | none => 0)) % 2 ^ 64

/-- CT_STATUS.ACTIVE: collectives in progress (R397). -/
def State.collActive (s : State) : Nat :=
  min 0xFFFF (s.cmds.countP (fun c => match c.work, c.phase with
    | .coll _, .issued | .coll _, .waiting | .coll _, .running => true
    | _, _ => false))

/-- REP_AVAIL (R251): free entries and rows of the selected bank. -/
def State.repAvail (s : State) (st : Nat) : Nat :=
  let w := (s.getR .REP_AVAIL st).toNat
  let b := s.bankRep st (bits w 27 24) (bits w 31 28) (bits w 23 19)
  setBits (setBits w 5 3 (4 - b.hard.length)) 2 0 (4 - b.soft.length)

/-- STK_TENT.SHARE (R250): the highest share of any channel over the last 1 ms, in thousandths of a percent. -/
def State.tentShare (s : State) (st : Nat) : Nat := ((List.range 16).map (fun c => s.tentSlots (16 * st + c) * 16 / 100)).foldl max 0

/-- SEC_MEAS (R444): the selected word of the selected measurement register. -/
def State.secMeas (s : State) : Nat :=
  le (Tab.get 0 s.sec.meas (s.fld F.SEC_MEAS_SEL_INDEX 0)) (8 * s.fld F.SEC_MEAS_SEL_WORD 0) 8

/-- The word that a read of a register answers. Cycle counts and measured electrical values are free values (log 6). -/
def State.readReg (s : State) (r : Reg) (i : Nat) : Nat × State :=
  let w := (s.getR r i).toNat
  match r with
  | .AMR_ILV_TOP => (ilvTop s.localGib, s)
  | .ENG_STATUS => (s.engStatus i, s)
  | .ENG_CYCLES | .ENG_BUSY => s.engCount r i
  | .ENG_CTL => (if s.inTest i then setBits w 1 0 2 else w, s)
  | .OBS_RCYC => s.regionCycles i
  | .SPW_STATUS => (s.spwStatus i, s)
  | .PK_COUNTS => (s.pkCounts i, s)
  | .VEC_TABLE => (setBits w 63 32 builtinCrc, s)
  | .NTEL_SRT_OUT =>
    (srWord (s.fld F.NTEL_SRT_SEED_SEED 0) (s.fld F.NTEL_SRT_STEP_STEP 0) (s.fld F.NTEL_SRT_TID_TID 0) (s.fld F.NTEL_SRT_IDX_IDX 0), s)
  | .UPD_STATUS => (s.updStatus i, s)
  | .UPD_JLINE => (s.jrnlLine i (fun _ => true) >>> 64, s)
  | .RC_WREF => (s.wref i, s)
  | .STK_THERM =>
    (setBits w 47 32 (if (s.stack i).selfRef then min 0xFFFF ((s.time - (s.stack i).srSince) / 1000000) else 0), s)
  | .STK_TENT => (setBits w 15 0 (s.tentShare i), s)
  | .REP_AVAIL => (s.repAvail i, s)
  | .HST_STATUS => (s.hstStatus i, s)
  | .HST_MAP => (s.hstMap i, s)
  | .RC_HOLD => (s.holdWord i false, s)
  | .RC_HOLD_UNIT => (s.holdWord i true, s)
  | .HA_DIR => (setBits (s.getR r (8 * i + s.fld F.HA_SEL_STACK i)).toNat 18 0 (s.dirEntries i), s)
  | .HA_BACKINV => ((s.getR r (8 * i + s.fld F.HA_SEL_STACK i)).toNat, s)
  | .HA_FORWARD => ((s.getR r (8 * i + s.fld F.HA_SEL_STACK i)).toNat, s)
  | .BLT_STATUS => (setBits w 23 0 (s.busyLanes true), s)
  | .TOK_STATUS => (setBits w 51 48 (s.busyLanes false), s)
  | .HOP_STATUS => (s.hopStatus, s)
  | .HOP_STATS => (s.starvedNs, s)
  | .PORT_PFC => (if i < 4 then w else 0, s)
  | .NET_VC_MAP => (if i = 0 then w else 0, s)
  | .CT_STATUS => (setBits w 63 48 s.collActive, s)
  | .CT_MAP => (s.phaseMap (s.fld F.CT_PHASE_SEL 0), s)
  | .GOV_INPUT =>
    let (a, t) := s.draw 10
    let (b, t) := t.draw 10
    ((a % 65536) <<< 48 + (b % 65536) <<< 32 + (s.pwr.vinMv % 65536) <<< 16, t)
  | .SEC_ID => (Config.serial % 2 ^ 64, s)
  | .SEC_MEAS => (s.secMeas, s)
  | .OBS_TIME => (s.now 4 % 2 ^ 64, s)
  | .OBS_AON => s.aonValue i
  | .OBS_COMPAT => s.compatValue i
  | .OBS_PROF => s.profValue i
  | .ERR_RING_BASE => (if s.fld F.ERR_RING_BASE_SIZE_LOG2 0 = 0 then w else w ||| 1 <<< 51, s)
  | _ => (w, s)

/-- Whether a register holds a SNAP field (R6). -/
def Reg.isSnap (r : Reg) : Bool := r.layout.any (fun (f : Nat × Nat × Acc) => decide (f.2.2 = Acc.snap))

/-! ## Direct accesses -/

/-- The unit whose block an address lies in. -/
def blockUnit (l pa : Nat) : Nat :=
  match (match rangeOf l pa with | .hub off => hubBlock off | .region q off => regionBlock q off | _ => none) with
  | some (b, i, _) => b.unit i
  | none => unitAmr

/-- A 32-bit read of a word of a register (R7): of a SNAP register the low word captures the whole register in its latch, and the high
word answers the latched upper half. -/
def State.readWord (s : State) (r : Reg) (i : Nat) (high : Bool) : State :=
  if r.isSnap && high then { s with resp := .data ((Tab.get 0#64 s.snap (r.key i)).toNat / 2 ^ 32) }
  else
    let (v, t) := s.readReg r i
    let t := if r.isSnap then { t with snap := Tab.set 0#64 t.snap (r.key i) (BitVec.ofNat 64 v) } else t
    { t with resp := .data (if high then v / 2 ^ 32 else v % 2 ^ 32) }

/-- An access fault is answered; for a core it is the load access fault (R10, R31). -/
def State.accessFault (s : State) (a : Agent) (kind pa : Nat) : State :=
  match a with
  | .hart h => s.coreFault h.val kind pa
  | _ => { s with resp := .accessFault }

/-- SNAP_LOW_READ: a 32-bit read of the low word of a SNAP register, at its offset, or of the high word that follows, four bytes on (R7).
One that a hart's PMP entries refuse raises a load access fault (R302). -/
def execSnapLowRead (a : Agent) (pa : Nat) (s : State) : Host.Outcome State Fault Refusal :=
  ok (if ¬ s.running ∨ ¬ Agent.reachesRegs a ∨ pa % 4 ≠ 0 then s
    else if s.coreDenied a 5 pa 4 then s.accessFault a 5 pa
    else match slotAt s.localGib pa with
      | .reg r i => if r.isSnap then s.readWord r i (decide (pa % 8 = 4)) else s
      | _ => s)

/-- Whether an access to a register block or an interrupt controller is refused by R10. -/
def State.refusedByR10 (s : State) (pa size : Nat) : Bool :=
  match slotAt s.localGib pa with
  | .blkId _ _ | .reg _ _ | .imsic _ _ | .aplic _ _ => decide ((size ≠ 4 ∧ size ≠ 8) ∨ pa % size ≠ 0)
  | .unlisted => true
  | .unpopulated => false

/-- A core's misaligned access to region scratch or a doorbell page raises an access fault before it leaves the core (R38, R302). -/
def State.coreMisaligned (s : State) (a : Agent) (pa size : Nat) : Bool :=
  match a, rangeOf s.localGib pa with
  | .hart _, .scratch _ | .hart _, .doorbell _ _ => decide (size = 0 ∨ pa % size ≠ 0)
  | _, _ => false

/-- A store that is refused raises a store access fault in the core that made it; other agents are not told (R10, R302). -/
def State.storeFault (s : State) (a : Agent) (pa : Nat) : State :=
  match a with
  | .hart h => s.coreFault h.val 7 pa
  | _ => s

/-- MMIO_READ_FAULT: a read that R10 refuses, or a core's misaligned read of region scratch or a doorbell page, or one that its
PMP entries refuse (R302). -/
def execMmioReadFault (a : Agent) (pa size : Nat) (s : State) : Host.Outcome State Fault Refusal :=
  ok (if ¬ s.running then s
    else if s.coreMisaligned a pa size ∨ s.coreDenied a 5 pa size then s.accessFault a 5 pa
    else if Agent.reachesRegs a && s.refusedByR10 pa size then
      (s.mmioRefuse pa (blockUnit s.localGib pa) false).accessFault a 5 pa
    else s)

/-- Whether an agent may address a range (R41); the debug port reaches the coherent ranges, the IEEE 1687 network the registers
(R489, R490). -/
def Agent.mayReach (a : Agent) (r : Range) : Bool :=
  match a, r with
  | _, .none => false
  | .hart _, .rom | .hart _, .sram => false
  | .rgnctl _, .rom | .rgnctl _, .sram => false
  | .hart _, _ | .rgnctl _, _ | .devctl, _ => true
  | .netA, .ilv | .netA, .apt _ | .netA, .scratch _ => true
  | .netB, .ilv | .netB, .apt _ | .netB, .doorbell _ _ => true
  | .debug, .ilv | .debug, .apt _ => true
  | .ijtag, .hub _ | .ijtag, .region _ _ => true
  | _, _ => false

/-- Whether an address is populated, and in a range of the agent's; a channel in TEST or RETIRED serves none (R487). -/
def State.reachable (s : State) (a : Agent) (pa : Nat) : Bool :=
  let r := rangeOf s.localGib pa
  Agent.mayReach a r && ! s.holeAt pa && (match r with
    | .hub _ | .region _ _ => decide (slotAt s.localGib pa ≠ .unpopulated)
    | _ => true)

/-- The number of a core's access fault for a kind of access. -/
def faultOf : AccKind → Nat
  | .fetch => 1
  | .read => 5
  | .write | .amo => 7

/-- An access to an unpopulated address (R31, R44): a read answers a fault, a write is dropped, and it is captured. -/
def State.accessUnpopulated (s : State) (a : Agent) (k : AccKind) (pa : Nat) : State :=
  let s := s.unpopulated (Agent.unit a) pa (match k with | .write | .amo => 1 | _ => 0)
  match a, k with
  | .hart h, k => s.coreFault h.val (faultOf k) pa
  | _, .write | _, .amo => s
  | _, _ => { s with resp := .accessFault }

/-- An AMO, LR or SC of a core outside the ranges that have them raises a store/AMO access fault (R292). -/
def State.amoFault (s : State) (a : Agent) (pa : Nat) : State :=
  match a, rangeOf s.localGib pa with
  | .hart _, .ilv | .hart _, .apt _ => s
  | .hart h, _ => s.coreFault h.val 7 pa
  | _, _ => s

/-- UNPOPULATED_ACCESS (R31): a direct access of at most 64 bytes that touches an address that does not exist for the agent; an AMO, LR
or SC to a range that has none (R292) faults too. One that a hart's PMP entries refuse faults before it leaves the core (R302). -/
def execUnpopulatedAccess (a : Agent) (pa len : Nat) (k : AccKind) (s : State) : Host.Outcome State Fault Refusal :=
  ok (if ¬ s.running then s
    else if s.coreDenied a (faultOf k) pa len then s.accessFault a (faultOf k) pa
    else match (List.range (min 64 len)).find? (fun n => ¬ s.reachable a (pa + n)) with
      | some n => s.accessUnpopulated a k (pa + n)
      | none => if k = .amo then s.amoFault a pa else s)

end Sys2Proof.Machine
end

