-- ==== Sys2Proof/Machine/RegAccess.lean ====
section
/-! DEFINITION. Writes to registers: the access codes of R6 with the conditions that each register map adds, the interrupt
controllers of R311 to R314, and the ranges that a direct write reaches. -/
namespace Sys2Proof.Machine

/-! ## Interrupt controllers (R312 to R314) -/

/-- Whether a source is pending: its sources are level-sensitive, so one is pending only while its condition stands (R314). -/
def State.aplicPend (s : State) (n : Nat) : Bool := (Tab.get ({} : AplicSrc) s.aplic n).pend && s.source n

/-- A pending APLIC source whose interrupt may go is sent (log 30). -/
def State.aplicDeliver (s : State) (n : Nat) : State :=
  let a := Tab.get ({} : AplicSrc) s.aplic n
  if a.sm = 6 ∧ a.enable ∧ s.aplicPend n ∧ s.aplicIe.testBit (b2n a.super) then
    ({ s with aplic := Tab.set {} s.aplic n { a with pend := false } }).msi ((if a.super then 64 else 0) + a.hart) a.eiid
  else s

/-- The state with a source changed, and its interrupt sent where it may go. -/
def State.aplicSet (s : State) (n : Nat) (a : AplicSrc) : State :=
  ({ s with aplic := Tab.set {} s.aplic n a }).aplicDeliver n

/-- SOURCES 1 to 21 exist (R314). -/
def aplicSources : List Nat := (List.range 21).map (· + 1)

/-- sourcecfg: in the root domain bit 10 delegates the source to the supervisor-level domain; the level-high mode, 6, is the one that
can be set (R314, log 30). -/
def State.sourceCfg (s : State) (dom n v : Nat) : State :=
  let a := Tab.get ({} : AplicSrc) s.aplic n
  let child : Bool := decide (dom = 1)
  if ¬ aplicSources.contains n ∨ (child ∧ ¬ a.super) then s
  else
    let deleg := !child && bit v 10
    let sm := if ! deleg && decide (bits v 2 0 = 6) then 6 else 0
    let a := { a with super := child || deleg, sm := sm, enable := a.enable && decide (sm = 6), pend := false }
    s.aplicSet n { a with pend := decide (sm = 6) && s.source n }

/-- Applies a change to the listed sources of a domain whose mode is set. -/
def State.aplicEach (s : State) (dom : Nat) (ns : List Nat) (f : State → AplicSrc → Nat → AplicSrc) : State :=
  ns.foldl (fun (t : State) n =>
    let a := Tab.get ({} : AplicSrc) t.aplic n
    if aplicSources.contains n ∧ a.sm = 6 ∧ b2n a.super = dom then t.aplicSet n (f t a n) else t) s

/-- The sources that a bit map of word 0 names. -/
def bitsOf (v : Nat) : List Nat := (List.range 32).filter (fun k => v.testBit k)

/-- The bit maps and numbers of an interrupt domain (log 30): setip, clrip, setie, clrie and their numbered forms. -/
def State.aplicBits (s : State) (dom off v : Nat) : State :=
  let ns : List Nat := if off = 0x1C00 ∨ off = 0x1D00 ∨ off = 0x1E00 ∨ off = 0x1F00 then bitsOf v else [v]
  if off = 0x1C00 ∨ off = 0x1CDC ∨ off = 0x2000 then s.aplicEach dom ns (fun t a n => { a with pend := a.pend || t.source n })
  else if off = 0x1D00 ∨ off = 0x1DDC then s.aplicEach dom ns (fun _ a _ => { a with pend := false })
  else if off = 0x1E00 ∨ off = 0x1EDC then s.aplicEach dom ns (fun _ a _ => { a with enable := true })
  else if off = 0x1F00 ∨ off = 0x1FDC then s.aplicEach dom ns (fun _ a _ => { a with enable := false })
  else s

/-- domaincfg: the interrupt enable of a domain (log 30). -/
def State.aplicDomain (s : State) (dom v : Nat) : State :=
  aplicSources.foldl State.aplicDeliver { s with aplicIe := setBits s.aplicIe dom dom (bits v 8 8) }

/-- What a 32-bit read of the APLIC answers (R314, log 30): domaincfg with DM 1, the sources of the domain, and 0 elsewhere. -/
def State.aplicRead (s : State) (dom off : Nat) : Nat :=
  let src (n : Nat) : AplicSrc := Tab.get {} s.aplic n
  let of (n : Nat) : Bool := decide ((src n).sm = 6 ∧ b2n (src n).super = dom)
  let mask (f : Nat → Bool) : Nat := aplicSources.foldl (fun a n => a + b2n (of n && f n) <<< n) 0
  let n := off % 0x1000 / 4
  if off = 0 then 0x80000004 + b2n (s.aplicIe.testBit dom) <<< 8
  else if off < 0x1000 then
    if aplicSources.contains n then (if dom = 0 ∧ (src n).super then 2 ^ 10 else if b2n (src n).super = dom then (src n).sm else 0) else 0
  else if off = 0x1C00 then mask s.aplicPend
  else if off = 0x1D00 then mask s.source
  else if off = 0x1E00 then mask (fun n => (src n).enable)
  else if 0x3000 < off ∧ off < 0x4000 then
    if aplicSources.contains n && of n then (src n).hart <<< 18 + (src n).eiid else 0
  else 0

/-- A 32-bit write to the APLIC (log 30). An offset that the AIA leaves reserved ignores it (DESIGN CHOICE, log 30). -/
def State.aplicWrite (s : State) (dom off v : Nat) : State :=
  if off = 0 then s.aplicDomain dom v
  else if off < 0x1000 then s.sourceCfg dom (off / 4) v
  else if off < 0x3000 then s.aplicBits dom off v
  else if off = 0x3000 then s.msi (64 * dom + bits v 31 18 % 64) (bits v 10 0)
  else if off < 0x4000 then
    s.aplicEach dom [(off - 0x3000) / 4] (fun _ a _ => { a with hart := bits v 31 18 % 64, eiid := bits v 10 0 })
  else s

/-! ## Registers -/

/-- The registers that accept writes only from firmware (R139, R158, R229, R254, R274, R299, R342, R368, R397, R420, R474, R492). -/
def Reg.firmwareOnly (r : Reg) : Bool :=
  match r with
  | .ENG_CTL | .MP_SPARE | .UPD_CTL | .CH_ARB | .CH_ECC_CFG | .CH_LANE_MAP | .CH_SCRUB | .CH_UE_WINDOW | .CH_STATE | .STK_TENT_CFG
  | .REP_CMD | .REP_STATUS | .REP_AVAIL | .RC_RTAB | .RC_HOLD_CFG | .CF_AGENTS | .CF_SNP_TIMEOUT | .BLT_CTL | .TOK_CTL | .PORT_CFG
  | .PORT_MAC | .NET_CFG | .NET_VC_MAP | .NET_IPV4 | .NET_IPV6_LO | .NET_IPV6_HI | .NET_TIME_CFG | .NET_TIME_ADJ | .NET_TIME_STEP
  | .NET_TIME_STAT | .NET_PPS_IN | .CT_CFG | .CT_STAGING | .GOV_CAP | .GOV_DOM_CTL | .GOV_LG | .OBS_BRAKE_CFG | .TST_MBIST_CTL => true
  | _ => false

/-- A REP_CMD write (R251 to R254). -/
def State.repWrite (s : State) (a : Agent) (st v : Nat) : State :=
  repCmd a st (fun t =>
    let chan := bits v 31 28; let die := bits v 27 24; let bank := bits v 23 19; let row := bits v 12 0
    match bits v 34 32 with
    | 1 => t.softRowOp st chan die bank row
    | 2 => t.hardRowOp st chan die bank row
    | 3 => t.undoSoftOp st chan die bank row
    | 4 => t.laneCommitOp st chan
    | _ => t.repResult st 4) s

/-- Whether a reference to a weight region of a region is live, or a slice waits for one (R229). -/
def State.wrtBusy (s : State) (q : Nat) : Bool :=
  s.cmds.any (fun c => (c.holdsRefs && c.refs.any (fun (x : Nat × Nat × Nat) => decide (x.1 = q)))
    || (match c.targets with | some (x, w) => w && decide (x.1 / 2 ^ 14 = q) | none => false))

/-- OBS_ACCT (R450): the two size fields are stored together or not at all. -/
def State.acctWrite (s : State) (mask v : Nat) : State :=
  let new := ((s.getR .OBS_ACCT 0).toNat &&& (2 ^ 64 - 1 - mask)) ||| (v &&& mask)
  let l := bits new 63 59; let o := bits new 58 55
  if 16 < l ∨ 8 < o ∨ 20 < l + o then s.putFields .OBS_ACCT 0 (mask &&& (2 ^ 55 - 1)) v else s.putFields .OBS_ACCT 0 mask v

/-- PORT_PFC (R352): a write that gives XON_KIB ≥ XOFF_KIB, or XOFF_KIB above the share, is not stored; P4 to P7 ignore it. -/
def State.pfcWrite (s : State) (p mask v : Nat) : State :=
  let t := s.putFields .PORT_PFC p mask v
  if 4 ≤ p ∨ t.fld F.PORT_PFC_XOFF_KIB p ≤ t.fld F.PORT_PFC_XON_KIB p
    ∨ pfcShare (t.fld F.PORT_PFC_EN p) < 1024 * t.fld F.PORT_PFC_XOFF_KIB p then s else t

/-- CH_ARB (R254): a write whose weights do not sum to 64 is not stored. -/
def State.arbWrite (s : State) (g mask v : Nat) : State :=
  let t := s.putFields .CH_ARB g mask v
  if t.fld F.CH_ARB_BACK_W g + t.fld F.CH_ARB_BULK_W g + t.fld F.CH_ARB_COLL_W g + t.fld F.CH_ARB_CRIT_W g = 64 then t else s

/-- Q_CTL (R79, R80, R87): exactly one bit acts. -/
def State.qCtl (s : State) (q v : Nat) : State :=
  if v % 8 = 1 then s.qEnable q else if v % 8 = 2 then s.qDisable q else if v % 8 = 4 then s.qRestart q else s

/-- A write to CL_HART_CTL (R309): both bits together have no effect. -/
def State.hartCtl (s : State) (a : Agent) (h mask v : Nat) : State :=
  let m := v &&& mask
  if m.testBit 63 && m.testBit 62 then s
  else
    let s := s.putFields .CL_HART_CTL h mask v
    let s := if m.testBit 63 then s.hartStart h (s.fld F.CL_HART_CTL_VEC h * 4) else s
    if m.testBit 62 then s.hartStop a h else s

/-- RC_HOLD_CTL (R268, R272): RELEASE frees the selected hold once it is HELD. -/
def State.holdCtl (s : State) (q m : Nat) : State :=
  if m.testBit 4 then
    match s.hold q (s.fld F.RC_HOLD_CTL_INDEX q) with
    | some h => if h.state = 3 then s.freeHold q (s.fld F.RC_HOLD_CTL_INDEX q) else s
    | none => s
  else s

/-- GOV_DOM_CTL (R404): a request for one domain, to be on or off; both bits together ask for nothing. -/
def State.domCtl (s : State) (m : Nat) : State :=
  let d := m % 128
  if 72 ≤ d then s
  else if m.testBit 63 && ! m.testBit 62 then s.domRequest d true
  else if m.testBit 62 && ! m.testBit 63 then s.domRequest d false
  else s

/-- OBS_BRAKE: CANCEL or RELEASE, each in the states it acts in (R463, R467); a write with both has no effect. -/
def State.brakeCtl (s : State) (m : Nat) : State :=
  if m.testBit 6 && m.testBit 7 then s
  else if m.testBit 6 then s.cancelBrake
  else if m.testBit 7 then s.releaseBrake
  else s

/-- OBS_FRZ: BASE is not stored while a Freeze is in force, FREEZE and RELEASE act in the states they fit (R470, R472), and a write
with both has no effect. -/
def State.frzCtl (s : State) (mask v m : Nat) : State :=
  if m.testBit 0 && m.testBit 1 then s
  else
    let t := if s.frozen then s else s.putFields .OBS_FRZ 0 mask v
    if m.testBit 0 then (if t.frozen then t else t.startFreeze)
    else if m.testBit 1 then (if t.frozen then t.releaseFreeze else t)
    else t

/-- A register with a START and a STOP bit of which exactly one acts. -/
def State.oneOf (s : State) (m : Nat) (one two : State → State) : State :=
  if m % 4 = 1 then one s else if m % 4 = 2 then two s else s

/-- The state `t` where a write is stored, else the one before it. -/
def State.storedIf (s : State) (c : Bool) (t : State) : State := if c then t else s

/-- A write to a register of a command queue (R79, R80). -/
def State.queueWrite (s : State) (r : Reg) (q mask v : Nat) : State :=
  match r with
  | .Q_CTL => s.qCtl q (v &&& mask)
  | .Q_PTR => s.storedIf (decide (s.qState q = 0 ∨ s.qState q = 5)) (s.putFields r q mask v)
  | _ => s.storedIf (decide (s.qState q = 0)) (s.putFields r q mask v)

/-- A write to a register of the stacks, the update units, the region controllers and the homes. -/
def State.regionWrite (s : State) (a : Agent) (r : Reg) (i mask v : Nat) : State :=
  match r with
  | .UPD_JRNL => s.writeJrnl i mask v
  | .RC_WRT => s.storedIf (!s.wrtBusy i) (s.putFields r i mask v)
  | .CH_ARB => s.arbWrite i mask v
  | .CH_STATE => s.storedIf (decide (mask % 4 = 3)) (s.chState i (v &&& mask))
  | .CH_LANE_MAP => s.laneMapWrite i mask v
  | .REP_CMD => s.repWrite a i (v &&& mask)
  | .RC_HOLD_CTL => (s.putFields r i mask v).holdCtl i (v &&& mask)
  | .CF_AGENTS => s.writeAgents mask v
  | _ => s.putFields r i mask v

/-- A write to a register of the clusters, the input pipeline, the networks and the collective unit. -/
def State.hubWrite (s : State) (a : Agent) (r : Reg) (i mask v : Nat) : State :=
  match r with
  | .CL_CTL => s.oneOf (v &&& mask) (fun t => t.clusterOff i) (fun t => t.clusterOn i)
  | .CL_HART_CTL => s.hartCtl a i mask v
  | .CL_TIMECMP => (s.putFields r i mask v).timerLevel i
  | .BLT_CTL | .TOK_CTL => (s.putFields r i mask v).runInput
  | .BLT_DMG_BASE => (s.putFields r i mask v).setFld F.BLT_DMG_PTR_DROPS 0 0
  | .CT_SLOG_BASE => (s.putFields r i mask v).setFld F.CT_SLOG_PTR_DROPS 0 0
  | .HOP_BASE | .HOP_CFG => s.storedIf (!s.flag F.HOP_STATUS_EN 0) (s.putFields r i mask v)
  | .HOP_CTL => s.oneOf (v &&& mask) (fun t => t.hopEnable) (fun t => t.hopDisable)
  | .PORT_PFC => s.pfcWrite i mask v
  | .NET_VC_MAP => s.storedIf (decide (i = 0)) (s.putFields r i mask v)
  | .NET_MR | .NET_QPT => s.storedIf ((s.net i).qps.all (fun (p : Nat × Qp) => decide (p.2.st = 0))) (s.putFields r i mask v)
  | .NET_DB => s.netDb i (v &&& mask) ((v &&& mask).testBit 63)
  | .NET_TIME_STEP => s.timeStep (v &&& mask)
  | _ => s.putFields r i mask v

/-- A write to a register of the Governor, of security, of the observation unit and of the test unit. -/
def State.ctlWrite (s : State) (a : Agent) (r : Reg) (i mask v : Nat) : State :=
  match r with
  | .AMR_FAULT_STATUS =>
    let t := s.putFields r i mask v
    if (v &&& mask).testBit 0 then t.setFld F.AMR_FAULT_STATUS_COUNT 0 0 else t
  | .GOV_CAP => (s.putFields r i mask v).effCap
  | .GOV_DOM_CTL => s.domCtl (v &&& mask)
  | .SEC_BOOT_CTL =>
    let t := s.putFields r i mask v
    if (v &&& mask).testBit 1 then t.restartReset else t
  | .OBS_MARK => s.obsMark a (v &&& mask)
  | .OBS_BRAKE => s.brakeCtl (v &&& mask)
  | .OBS_FRZ => s.frzCtl mask v (v &&& mask)
  | .OBS_ACCT => s.acctWrite mask v
  | .OBS_PROF_SEL => s.profSel i mask v
  | .TST_MBIST_CTL => s.mbistWrite mask v
  | _ => s.putFields r i mask v

/-- The registers of the command queues that a write treats alike. -/
def Reg.ofQueue (r : Reg) : Bool :=
  match r with
  | .Q_RING_BASE | .Q_STS_BASE | .Q_CTX_BASE | .Q_CFG | .Q_IRQ | .Q_PTR | .Q_CTL => true
  | _ => false

/-- The registers whose writes State.regionWrite treats in a way of their own. -/
def Reg.ofRegion (r : Reg) : Bool :=
  match r with
  | .UPD_JRNL | .RC_WRT | .CH_ARB | .CH_STATE | .CH_LANE_MAP | .REP_CMD | .RC_HOLD_CTL | .CF_AGENTS => true
  | _ => false

/-- The registers whose writes State.hubWrite treats in a way of their own. -/
def Reg.ofHub (r : Reg) : Bool :=
  match r with
  | .CL_CTL | .CL_HART_CTL | .CL_TIMECMP | .BLT_CTL | .TOK_CTL | .BLT_DMG_BASE | .CT_SLOG_BASE | .HOP_BASE | .HOP_CFG | .HOP_CTL
  | .PORT_PFC | .NET_VC_MAP | .NET_MR | .NET_QPT | .NET_DB | .NET_TIME_STEP => true
  | _ => false

/-- A write of `v` to a register, of which the bits of `mask` are written, by an agent that may write it. -/
def State.regWrite (s : State) (a : Agent) (r : Reg) (i mask v : Nat) : State :=
  if r.ofQueue then s.queueWrite r i mask v
  else if r.ofRegion then s.regionWrite a r i mask v
  else if r.ofHub then s.hubWrite a r i mask v
  else s.ctlWrite a r i mask v

/-- A write to what stands at an address of a register window (R10, R31): `size` bytes of `v`. -/
def State.slotWrite (s : State) (a : Agent) (x : Slotted) (pa size v : Nat) : State :=
  let drop : State := s.mmioRefuse pa (blockUnit s.localGib pa) true
  let refuse : State := drop.storeFault a pa
  let aligned : Bool := decide ((size = 4 ∨ size = 8) ∧ pa % size = 0)
  match x with
  | .unpopulated => s.accessUnpopulated a .write pa
  | .unlisted => refuse
  | .blkId _ _ => if aligned then s else refuse
  | .reg r i =>
    if ¬ aligned then refuse
    else if r.firmwareOnly ∧ ¬ Agent.firmware a then drop
    else if (r = .CL_HART_CTL ∨ r = .CL_TIMECMP) ∧ ¬ Agent.coreOrFirmware a then drop
    else
      let sh := 8 * (pa % 8)
      s.regWrite a r i ((2 ^ (8 * size) - 1) <<< sh) ((v % 2 ^ (8 * size)) <<< sh)
  | .imsic file off => if ¬ aligned then refuse else if size = 4 ∧ off = 0 then s.msi file (v % 2 ^ 32) else s
  | .aplic dom off => if ¬ aligned then refuse else if size = 4 then s.aplicWrite dom off (v % 2 ^ 32) else s

/-- A write to an address of a register window by an agent that reaches them. -/
def State.windowWrite (s : State) (a : Agent) (pa size v : Nat) : State := s.slotWrite a (slotAt s.localGib pa) pa size v

/-- Whether an access is naturally aligned, of 1 to 64 bytes (R38). -/
def naturalAccess (pa size : Nat) : Bool := [1, 2, 4, 8, 16, 32, 64].contains size && decide (pa % size = 0)

/-- A direct write of `size` bytes to an address of the range `x`. Region scratch and the boot SRAM take naturally aligned writes; the
coherent ranges are written through the caches and homes, by the commands of R276 (R38, R41). -/
def State.rangeWrite (s : State) (a : Agent) (x : Range) (pa size v : Nat) : State :=
  match x with
  | .hub _ | .region _ _ => if Agent.reachesRegs a then s.windowWrite a pa size v else s.accessUnpopulated a .write pa
  | .doorbell q off =>
    if Agent.mayReach a (.doorbell q off) then (if off % size = 0 then s.doorbellWrite q off size v else s.doorbellWrite q 8 size v)
    else s.accessUnpopulated a .write pa
  | .scratch q => if ¬ Agent.mayReach a (.scratch q) then s.accessUnpopulated a .write pa else if naturalAccess pa size then s.writeMem pa v size else s
  | .sram => if ¬ Agent.mayReach a .sram then s.accessUnpopulated a .write pa else if naturalAccess pa size then s.writeMem pa v size else s
  | .rom => if Agent.mayReach a .rom then s else s.accessUnpopulated a .write pa
  | .none => s.accessUnpopulated a .write pa
  | _ => s

/-- A direct write of `size` bytes. An address that no channel serves is unpopulated (R487). -/
def State.directWrite (s : State) (a : Agent) (pa size v : Nat) : State :=
  if s.coreMisaligned a pa size ∨ s.coreDenied a 7 pa size then s.storeFault a pa
  else if s.holeAt pa then s.accessUnpopulated a .write pa
  else s.rangeWrite a (rangeOf s.localGib pa) pa size v

/-- REGISTER_WRITE (R6). -/
def execRegisterWrite (a : Agent) (pa size v : Nat) (s : State) : Host.Outcome State Fault Refusal :=
  ok (if s.running then s.directWrite a pa size v else s)

end Sys2Proof.Machine
end

