-- ==== Sys2Proof/Machine/Sha.lean ====
section
/-! DEFINITION. SHA-256 and the RSASSA-PSS verification of R424. A byte string is a little-endian number beside its length: its first
byte is the least significant one. -/
namespace Sys2Proof.Machine
namespace Sha

/-- The 64 round constants: the first 32 bits of the fractions of the cube roots of the first 64 primes. -/
def consts : List Nat :=
    [0x428A2F98, 0x71374491, 0xB5C0FBCF, 0xE9B5DBA5, 0x3956C25B, 0x59F111F1, 0x923F82A4, 0xAB1C5ED5] ++
    [0xD807AA98, 0x12835B01, 0x243185BE, 0x550C7DC3, 0x72BE5D74, 0x80DEB1FE, 0x9BDC06A7, 0xC19BF174] ++
    [0xE49B69C1, 0xEFBE4786, 0x0FC19DC6, 0x240CA1CC, 0x2DE92C6F, 0x4A7484AA, 0x5CB0A9DC, 0x76F988DA] ++
    [0x983E5152, 0xA831C66D, 0xB00327C8, 0xBF597FC7, 0xC6E00BF3, 0xD5A79147, 0x06CA6351, 0x14292967] ++
    [0x27B70A85, 0x2E1B2138, 0x4D2C6DFC, 0x53380D13, 0x650A7354, 0x766A0ABB, 0x81C2C92E, 0x92722C85] ++
    [0xA2BFE8A1, 0xA81A664B, 0xC24B8B70, 0xC76C51A3, 0xD192E819, 0xD6990624, 0xF40E3585, 0x106AA070] ++
    [0x19A4C116, 0x1E376C08, 0x2748774C, 0x34B0BCB5, 0x391C0CB3, 0x4ED8AA4A, 0x5B9CCA4F, 0x682E6FF3] ++
    [0x748F82EE, 0x78A5636F, 0x84C87814, 0x8CC70208, 0x90BEFFFA, 0xA4506CEB, 0xBEF9A3F7, 0xC67178F2]

/-- The initial hash value: the first 32 bits of the fractions of the square roots of the first eight primes. -/
def init : List Nat := [0x6A09E667, 0xBB67AE85, 0x3C6EF372, 0xA54FF53A, 0x510E527F, 0x9B05688C, 0x1F83D9AB, 0x5BE0CD19]

/-- Rotation of a 32-bit word to the right. -/
def rotr (x n : Nat) : Nat := (x >>> n) ||| ((x <<< (32 - n)) % 2 ^ 32)

/-- The two schedule functions and the two round functions. -/
def small0 (x : Nat) : Nat := rotr x 7 ^^^ rotr x 18 ^^^ (x >>> 3)
def small1 (x : Nat) : Nat := rotr x 17 ^^^ rotr x 19 ^^^ (x >>> 10)
def big0 (x : Nat) : Nat := rotr x 2 ^^^ rotr x 13 ^^^ rotr x 22
def big1 (x : Nat) : Nat := rotr x 6 ^^^ rotr x 11 ^^^ rotr x 25

/-- The message schedule, newest word first, extended by `n` words. -/
def extend (w : List Nat) : Nat → List Nat
  | 0 => w
  | n + 1 => extend (((small1 (w.getD 1 0) + w.getD 6 0 + small0 (w.getD 14 0) + w.getD 15 0) % 2 ^ 32) :: w) n

/-- The 64 schedule words of a block, in order. -/
def schedule (block : Nat) : List Nat :=
  (extend ((List.range 16).map (fun t => swapBytes (le block (4 * t) 4) 4)).reverse 48).reverse

/-- The working variables a to h. -/
structure Vars where
  a : Nat
  b : Nat
  c : Nat
  d : Nat
  e : Nat
  f : Nat
  g : Nat
  h : Nat

/-- One round. -/
def round (v : Vars) (k w : Nat) : Vars :=
  let t1 := (v.h + big1 v.e + ((v.e &&& v.f) ^^^ ((v.e ^^^ 0xFFFFFFFF) &&& v.g)) + k + w) % 2 ^ 32
  let t2 := (big0 v.a + ((v.a &&& v.b) ^^^ (v.a &&& v.c) ^^^ (v.b &&& v.c))) % 2 ^ 32
  { a := (t1 + t2) % 2 ^ 32, b := v.a, c := v.b, d := v.c, e := (v.d + t1) % 2 ^ 32, f := v.e, g := v.f, h := v.g }

/-- The hash value after one block. -/
def block (h : List Nat) (x : Nat) : List Nat :=
  let v0 : Vars := { a := h.getD 0 0, b := h.getD 1 0, c := h.getD 2 0, d := h.getD 3 0, e := h.getD 4 0, f := h.getD 5 0, g := h.getD 6 0, h := h.getD 7 0 }
  let v := (consts.zip (schedule x)).foldl (fun (v : Vars) (p : Nat × Nat) => round v p.1 p.2) v0
  (h.zip [v.a, v.b, v.c, v.d, v.e, v.f, v.g, v.h]).map (fun (p : Nat × Nat) => (p.1 + p.2) % 2 ^ 32)

/-- The hash value after `n` blocks. -/
def blocks (h : List Nat) (x : Nat) : Nat → List Nat
  | 0 => h
  | n + 1 => blocks (block h (x % 2 ^ 512)) (x >>> 512) n

end Sha

/-- SHA-256 of the `n` low bytes of `x`: 32 bytes. -/
def sha256 (x n : Nat) : Nat :=
  let m := (n + 8) / 64 + 1
  let padded := x % 2 ^ (8 * n) + 0x80 <<< (8 * n) + swapBytes (8 * n) 8 <<< (8 * (64 * m - 8))
  (Sha.blocks Sha.init padded m).zipIdx.foldl (fun (d : Nat) (p : Nat × Nat) => d + swapBytes p.1 4 <<< (32 * p.2)) 0

/-- MGF1 with SHA-256 of a 32-byte seed: `n` blocks of 32 bytes. -/
def mgf1 (seed n : Nat) : Nat :=
  (List.range n).foldl (fun (d : Nat) k => d + sha256 (seed + swapBytes k 4 <<< 256) 36 <<< (256 * k)) 0

/-- `b ^ (2 ^ k)` modulo `m`. -/
def squares (b m : Nat) : Nat → Nat
  | 0 => b % m
  | k + 1 => squares (b * b % m) m k

/-- `b ^ e` modulo `m`, for an exponent of at most as many bits as the last operand but one says. -/
def powMod (b m : Nat) : Nat → Nat → Nat
  | 0, _ => 1 % m
  | k + 1, e =>
    let r := powMod b m k (e / 2)
    if e % 2 = 1 then r * r % m * b % m else r * r % m

/-- The encoded message of RSASSA-PSS (R424) of a message digest and a 32-byte salt, 384 bytes in their order, the first lowest. -/
def pssEncode (hash salt : Nat) : Nat :=
  let h := sha256 ((hash % 2 ^ 256) <<< 64 + (salt % 2 ^ 256) <<< 320) 72
  let db := put 318 1 1 + put 319 32 salt
  let masked := db ^^^ (mgf1 h 11 % 2 ^ 2808)
  put 0 1 (masked % 128) + put 1 350 (masked / 256) + put 351 32 h + put 383 1 0xBC

/-- RSASSA-PSS of R424: the signature of a message digest under the modulus `n` with the private exponent `d`, big-endian as stored. -/
def pssSign (n d hash salt : Nat) : Nat := swapBytes (powMod (swapBytes (pssEncode hash salt) 384) n 3072 d) 384

/-- RSASSA-PSS of R424 with exponent 65,537: whether `sig`, 384 bytes, signs a message with SHA-256 digest `hash` under the modulus
`n`. The modulus is a number; the signature is a byte string, big-endian as RFC 8017 stores it. -/
def pssVerify (n hash sig : Nat) : Bool :=
  let s := swapBytes sig 384
  let em := swapBytes (squares s n 16 * (s % n) % n) 384
  let h := le em 351 32
  let db := (le em 0 351 ^^^ (mgf1 h 11 % 2 ^ 2808))
  let db := (db / 256) * 256 + db % 128
  let salt := le db 319 32
  decide (s < n ∧ 2 ^ 3071 ≤ n ∧ le em 383 1 = 0xBC ∧ le em 0 1 < 128 ∧ le db 0 318 = 0 ∧ le db 318 1 = 1)
    && decide (sha256 (hash <<< 64 + salt <<< 320) 72 = h)

end Sys2Proof.Machine
end

