-- ==== Sys2Proof/Machine/Boot.lean ====
section
/-! DEFINITION. Starting the device: straps and flash, the firmware image, the configuration block, the boot steps, their journal and
log, identity and measurement: R421 to R437. -/
namespace Sys2Proof.Machine

/-! ## Flash (R422) -/

/-- `n` bytes of the flash from `off`. -/
def State.flashRead (s : State) (off n : Nat) : Nat :=
  (List.range n).foldr (fun k acc => (Tab.get flashBlank s.flash (off + k)).toNat + 256 * acc) 0

/-- Whether any byte of a range of the flash has been programmed. -/
def State.flashUsed (s : State) (off n : Nat) : Bool := s.flash.any (fun (p : Host.Cell) => decide (off ≤ p.1 ∧ p.1 < off + n))

/-- Whether bytes `off` to `off + n - 1` of a byte string are zero. -/
def zeros (x off n : Nat) : Bool := decide (le x off n = 0)

/-! ## The firmware image (R423, R425, R426) -/

/-- Entry `i` of the segment list. -/
def segment (img i : Nat) : Nat := le img (0x40 + 64 * i) 64

/-- The header checks of R423, for an image of which `have_` bytes are at hand. -/
def headerOk (img have_ : Nat) : Bool :=
  let n := le img 3 1
  let len := le img 8 4
  let segs := (List.range n).map (segment img)
  let apart := (List.range n).all (fun i => (List.range n).all (fun j =>
    decide (i = j) || (overlapAt (le (segment img i) 8 4) (le (segment img i) 0xC 4) (le (segment img j) 8 4) (le (segment img j) 0xC 4)).isNone))
  decide (le img 1 1 = 1 ∧ le img 2 1 = 1 ∧ 1 ≤ n ∧ n ≤ 16 ∧ 0x1000 ≤ len ∧ len ≤ 0x300000 ∧ len ≤ have_)
    && zeros img 0xC 52 && zeros img (0x40 + 64 * n) (64 * (16 - n)) && zeros img 0x440 2624
    && segs.all (fun e =>
      let kind := le e 0 1
      decide (1 ≤ kind ∧ kind ≤ 4) && zeros e 1 7 && decide (le e 8 4 % 64 = 0 ∧ le e 8 4 + le e 0xC 4 ≤ len) && (decide (kind = 1) || zeros e 0x10 8)
        && zeros e 0x38 8)
    && decide (segs.countP (fun e => decide (le e 0 1 = 1)) = 1) && apart

/-- The result of R425, as the RESULT frame of R442 codes it: 0 accepted, 1 header or signature, 2 below MIN_FW, 4 segment digest. -/
def imageResult (img have_ minFw : Nat) : Nat :=
  if ¬ headerOk img have_ then 1
  else if ¬ pssVerify Config.vendorKey (sha256 img 0xE80) (le img 0xE80 384) then 1
  else if le img 4 4 < minFw then 2
  else if (List.range (le img 3 1)).all (fun i =>
    let e := segment img i
    decide (sha256 (le img (le e 8 4) (le e 0xC 4)) (le e 0xC 4) = le e 0x18 32)) then 0
  else 4

/-! ## The configuration block (R427) -/

/-- Whether the block is valid. -/
def configValid (b : Nat) : Bool :=
  let regs := (List.range (le b 0xE 2)).all (fun i =>
    let a := le b (0xC00 + 16 * i) 8
    match rangeOf (le b 0xC 1) a with | .hub _ | .region _ _ => true | _ => false)
  decide (le b 1 1 = 1 ∧ le b 2 2 < 4 ∧ le b 0xC 1 ≤ 16 ∧ le b 0xD 1 < 128 ∧ le b 0xE 2 ≤ 256 ∧ le b 0x20 8 % 4 = 0 ∧ le b 0x20 8 < 2 ^ 48
      ∧ le b 0x28 1 ≤ 8 ∧ le b 0x280 4 = 65537)
    && zeros b 0x29 215 && zeros b 0x288 8 && zeros b 0x410 1008 && zeros b 0x1C00 640
    && (List.range 8).all (fun i => zeros b (0x800 + 128 * i + 104) 24)
    && pssVerify Config.vendorKey (sha256 (le b 0x100 0x190) 0x190) (le b 0x290 384)
    && pssVerify (swapBytes (le b 0x100 384) 384) (sha256 (le b 0 0x1E80) 0x1E80) (le b 0x1E80 384)
    && decide (le b 0x10 8 = 0 ∨ le b 0x10 8 = Config.serial % 2 ^ 64) && regs

def State.debugAllowed (s : State) : Bool := (le s.sec.cfg 2 2).testBit 0
def State.netRecovery (s : State) : Bool := (le s.sec.cfg 2 2).testBit 1
def State.minFw (s : State) : Nat := le s.sec.cfg 8 4

/-! ## The boot journal (R433) -/

/-- Word `k` of the boot journal. -/
def State.jword (s : State) (k : Nat) : Nat := s.sec.journal.getD k 0
def State.setJword (s : State) (k v : Nat) : State := { s with sec := { s.sec with journal := s.sec.journal.set k v } }
/-- A field of a journal word. -/
def State.setJbits (s : State) (k hi lo v : Nat) : State := s.setJword k (setBits (s.jword k) hi lo v)

def State.bootCount (s : State) : Nat := bits (s.jword 0) 63 32
def State.altMask (s : State) : Nat := bits (s.jword 2) 47 32
def State.skipMask (s : State) : Nat := bits (s.jword 2) 63 48

/-- The journal of a new start. -/
def State.newJournal (s : State) (count : Nat) : State :=
  let w0 := 0x100 + b2n s.sec.fatalStart <<< 16 + (count % 2 ^ 32) <<< 32
  { s with sec := { s.sec with journal := [w0, s.time % 2 ^ 64] ++ List.replicate 126 0 } }

/-- An entry of the journal; a 121st is not written. -/
def State.jEntry (s : State) (step outcome detail : Nat) : State :=
  let n := bits (s.jword 2) 31 16
  if 120 ≤ n then s
  else
    let us := (s.time - s.sec.aon.getD s.time) / 1000 % 2 ^ 32
    (s.setJword (8 + n) (step + outcome <<< 8 + detail <<< 16 + us <<< 32)).setJbits 2 31 16 (n + 1)

/-- A note of the journal (R421, R430): its code in the low byte of DETAIL, its argument in the high one (log 33). -/
def State.jNote (s : State) (step code arg : Nat) : State := s.jEntry step 5 (code + 256 * arg)

/-- The steps that the journal records as failed. -/
def State.journalFails (s : State) : List Nat :=
  ((List.range (min 120 (bits (s.jword 2) 31 16))).map (fun i => s.jword (8 + i))).filterMap (fun w => if bits w 15 8 = 3 then some (w % 256) else none)

/-! ## The boot progress log (R431, R432) -/

/-- Base of the log. -/
def logBase : Nat := 0x40000
/-- The positions of the log that have been programmed, rising. -/
def State.logUsed (s : State) : List Nat :=
  (s.flash.filterMap (fun (p : Host.Cell) => if logBase ≤ p.1 ∧ p.1 < logBase + 0x10000 then some ((p.1 - logBase) / 16) else none)).eraseDups
/-- Entry `p` of the log. -/
def State.logEntry (s : State) (p : Nat) : Nat := s.flashRead (logBase + 16 * p) 16
/-- The valid entries, newest first. -/
def State.logValid (s : State) : List Nat := (s.logUsed.filter (fun p => decide (le (s.logEntry p) 0 2 = 0xB007))).reverse

/-- Whether a valid last-gasp record carries the journal of a start (R432). -/
def State.gaspOf (s : State) (count : Nat) : Bool :=
  (List.range 8).any (fun k =>
    let a := 0x30000 + 0x2000 * k
    s.flashUsed a 0x2000 && (let r := s.flashRead a 0x2000
      decide (le r 1 1 = 1 ∧ le r 0x1FFC 4 = crc32c r 0x1FFC ∧ le r (0x240 + 4) 4 = count)))

/-- The steps that an entry shows started and not done. -/
def State.logFails (s : State) (p : Nat) : List Nat :=
  let e := s.logEntry p
  if s.gaspOf (le e 2 4) then []
  else (List.range 14).filter (fun c => decide (1 ≤ c) && ! (le e 6 4).testBit c && (le e 10 4).testBit c)

/-- The steps that failed on the previous start (R432). -/
def State.previousFails (s : State) : List Nat :=
  let xs := s.journalFails ++ (match s.logValid with | p :: _ => s.logFails p | [] => [])
  (List.range 14).filter (fun c => xs.contains c)

/-- Consecutive starts, the newest entry first, that the log shows failed at a step. -/
def State.failRun (s : State) (c : Nat) : Nat := (s.logValid.takeWhile (fun p => (s.logFails p).contains c)).length

/-- Whether a step is optional. -/
def optionalStep (c : Nat) : Bool := [0x08, 0x0A, 0x0B].contains c

/-- Programs the bit of a step in STARTED (offset 6) or DONE (offset 10) of this start's entry. -/
def State.logBit (s : State) (off c : Nat) : State :=
  match s.logValid with
  | p :: _ => s.program (logBase + 16 * p + off) (2 ^ 32 - 1 - 2 ^ c) 4
  | [] => s

/-- A step is recorded in the journal before its bit in the log. -/
def State.stepBegins (s : State) (c : Nat) : State := (s.jEntry c 1 0).logBit 6 c
def State.stepDone (s : State) (c : Nat) : State := (s.jEntry c 2 0).logBit 10 c
def State.stepFails (s : State) (c : Nat) : State := s.jEntry c 3 0
def State.stepSkipped (s : State) (c : Nat) : State := (s.jEntry c 4 0).setJbits 2 (48 + c) (48 + c) 1
/-- The step runs in its alternative form. -/
def State.stepAlt (s : State) (c : Nat) : State := s.setJbits 2 (32 + c) (32 + c) 1

/-- A mandatory failure ends the start, and the device is in reset again until the next one (log 34); after three consecutive starts
that fail at the same step it halts there with the fault output asserted (R432). -/
def State.bootFails (s : State) (c : Nat) : State :=
  let s := s.stepFails c
  if 3 ≤ s.failRun c then
    let s := ((s.setJbits 0 31 24 2).setJbits 3 7 0 c).heldReset
    { s with pwr := { s.pwr with phase := .halted, faultOut := true } }
  else s.heldReset

/-! ## Measurement (R437) -/

/-- Extends a measurement register with a digest. -/
def State.extend (s : State) (k d : Nat) : State :=
  let m := Tab.get 0 s.sec.meas k
  { s with sec := { s.sec with meas := Tab.set 0 s.sec.meas k (sha256 (m + (d % 2 ^ 256) <<< 256) 64) } }

/-! ## Identity (R434 to R436) -/

/-- The seed that the PUF bits and the helper data yield, if every block decodes and CHECK matches. -/
def State.pufSeed (s : State) : Option Nat :=
  let h := s.flashRead 0x10000 0x1000
  let blocks := (List.range 16).map (fun i =>
    Config.bchDecode (le h 0 2) (bits s.sec.pufRead (255 * i + 254) (255 * i) ^^^ bits (le h (0x20 + 32 * i) 32) 254 0))
  if blocks.any (·.isNone) then none
  else
    let k := joinFields 16 (blocks.map (fun b => b.getD 0))
    let seed := sha256 k 256
    let name := 0x4B43454843385456   -- "VT8CHECK", first byte lowest
    if sha256 (seed + name <<< 256) 40 = le h 0x220 32 then some seed else none

/-- The stored certificate: its length and its DER (R436). -/
def State.certificate (s : State) : Option (Nat × Nat) :=
  let n := s.flashRead 0x20000 4
  if 1 ≤ n ∧ n ≤ 8188 then some (n, s.flashRead 0x20004 n) else none

/-- Step 0x08. -/
def State.identityStep (s : State) : State × Bool :=
  match s.pufSeed with
  | none => (s, false)
  | some seed =>
    let key := Config.identityKey seed (Config.serial % 2 ^ 64)
    let s := { s with sec := { s.sec with seed := some seed, keyId := Config.keyId key } }
    let s := s.setFld F.SEC_DEBUG_IDENTITY 0 1
    let same := match s.certificate with | some (n, der) => decide (Config.certKey der n = key) | none => false
    (s.setFld F.SEC_DEBUG_CERT_MATCH 0 (b2n same), true)

/-! ## The steps (R428 to R430) -/

/-- Switches domains on as their step brings them up. -/
def State.domsOn (s : State) (ds : List Nat) : State := ds.foldl (fun (t : State) d => t.setDom d true) s

/-- Every stack leaves self-refresh, and the stacks listed run one oscillator and one Vref window on each channel as they do (R430). -/
def State.leaveRefresh (s : State) (kept : List Nat) : State :=
  let s := (List.range 32).foldl (fun (t : State) st => t.setStack st { t.stack st with selfRef := false, srSince := 0 }) s
  kept.foldl (fun (t : State) st => (List.range 16).foldl (fun (u : State) c =>
    (u.window (16 * st + c) (TentKind.slots .oscillator)).window (16 * st + c) (TentKind.slots .vref)) t) s

/-- Step 0x07: memory training. In its retention form each stack runs its windows, and a stack that
fails it is trained in full: its contents and its journal are lost, and a note is written (R430). The hard lane substitutions apply at power-on (R253). -/
def State.trainMemory (s : State) (alt : Bool) : State :=
  let s := s.domsOn ((List.range 32).map (28 + ·))
  if s.sec.fatalStart then
    let bad : List Nat := if alt then List.range 32 else s.sec.env.retentionFails.map (·.val)
    bad.foldl (fun (t : State) st =>
      let t := (t.loseStack st).setR .UPD_JRNL st (Reg.UPD_JRNL.resetWord st)
      let t := t.setUpd st { t.upd st with fresh := true }
      if alt then t else t.jNote 0x07 0x02 st) (s.leaveRefresh ((List.range 32).filter (fun st => ! bad.contains st)))
  else s.chans.foldl (fun (t : State) (p : Nat × Chan) => t.setR .CH_LANE_MAP p.1 (BitVec.ofNat 64 p.2.nvMap)) s

/-- Step 0x09: each failing engine is quarantined and remapped in the alternative form. -/
def State.testEngines (s : State) : State × Bool :=
  let s := s.domsOn ((List.range 4).flatMap (fun q => (List.range 5).map (7 * q + ·)))
  let e := s.sec.env
  if e.badEngines = [] ∧ ¬ e.failNormal.contains 9 then (s, true)
  else
    let s := s.stepAlt 9
    let bad := e.badEngines.map (·.val)
    let s := bad.foldl (fun (t : State) g => if t.engineOut g then t else t.quarantineEngine g 3 none 0) s
    (s, ! e.failAlt.contains 9 && (List.range 16).any (fun g => ! bad.contains g))

/-- The ports that the configuration sets up: those with a PORT_CFG entry in its register list. -/
def State.portsSetUp (s : State) : List Nat :=
  (List.range 8).filter (fun p => (List.range (le s.sec.cfg 0xE 2)).any (fun i =>
    decide (le s.sec.cfg (0xC00 + 16 * i) 8 = 0x700004000008 + 0x100000 * p)))

/-- How the register list goes on after an entry (R428): with the next one, not at all because the entry is one that R31 rejects, or not at
all because the write restarted the device (R444). -/
inductive ListState where
  | going | failed | restarted
  deriving DecidableEq, Repr

/-- A register write of the register list, where its address names `x`: one 64-bit write by firmware, which also loads the read-only "cfg"
fields: CL_DVFS.CUR, and CL_CTL.ON, with which the cluster is powered and attached. -/
def State.configSlot (s : State) (x : Slotted) (pa v : Nat) : State × ListState :=
  match x with
  | .unpopulated => (s, .failed)
  | .reg .CL_DVFS k => ((s.windowWrite .devctl pa 8 v).setFld F.CL_DVFS_CUR k (bits v 15 8), .going)
  | .reg .CL_CTL k =>
    ((if bit v 2 then (((s.setDom (60 + k) true).setFld F.CL_CTL_ON k 1).writeAgents (2 ^ k) (2 ^ k)) else s).windowWrite .devctl pa 8 v, .going)
  | .reg .SEC_BOOT_CTL _ => (s.windowWrite .devctl pa 8 v, if v.testBit 1 then .restarted else .going)
  | _ => (s.windowWrite .devctl pa 8 v, .going)

/-- One entry of the register list (R428). -/
def State.configReg (s : State) (pa v : Nat) : State × ListState := s.configSlot (slotAt s.localGib pa) pa v

/-- Whether an entry of the queue list names a queue that its checks and rules allow (R428). -/
def State.queueAllowed (s : State) (e : Nat) : Bool :=
  let c : Cmd := { ref := { q := 512, idx := 0 }, pkt := 2 <<< 112 + 0x9001 <<< 16 + (e % 2 ^ 832) <<< 128, len := 2 }
  ! ((checksQueueSetup c).first.isSome || decide (s.qState (le e 0 1) ≠ 0) || (decide (le e 0x38 1 = 1) && (s.setupFault e 8).isSome))

/-- One entry of the queue list (R428). Its status ring and completion word are cleared first; they lie in the interleaved range. -/
def State.configQueue (s : State) (e : Nat) : State × Bool :=
  let q := le e 0 1
  let base := leBits e 0x10 47 0
  if ilvTop s.localGib ≤ base then (s, false)
  else
    let s := s.putMem base 0 (32 * 2 ^ leBits e 0x20 20 16 + 8)
    if ! s.queueAllowed e then (s, false)
    else
      let t := s.loadQueue q e 8
      (if le e 0x38 1 = 1 then t.enableQueue q else t, true)

/-- Step 0x0C: the configuration takes effect in order; the first entry that fails ends it (R428). -/
def State.applyConfig (s : State) : State × ListState :=
  let b := s.sec.cfg
  let (s, r1) := (List.range (le b 0xE 2)).foldl (fun (x : State × ListState) i =>
    match x.2 with
    | .going => x.1.configReg (le b (0xC00 + 16 * i) 8) (le b (0xC00 + 16 * i + 8) 8)
    | _ => x) (s, .going)
  match r1 with
  | .failed => (s, .failed)
  | .restarted => (s, .restarted)
  | .going =>
    let (s, ok2) := (List.range (le b 0x28 1)).foldl (fun (x : State × Bool) i =>
      if x.2 then x.1.configQueue (le b (0x800 + 128 * i) 128) else x) (s, true)
    if ¬ ok2 then (s, .failed)
    else ((List.range 64).foldl (fun (t : State) h => if (le b 0x18 8).testBit h then t.hartStart h (le b 0x20 8) else t) s, .going)

/-- Lines that a directory records as EXCL or OWNED are written in the poisoned form, keeping the bytes memory holds, and every
directory is cleared (R298). -/
def State.clearDirectories (s : State) : State :=
  let lines := s.dir.filterMap (fun (p : Nat × Option DirEntry) => match p.2 with | some e => if e.mode = 0 then none else some p.1 | none => none)
  let t := lines.foldl (fun (t : State) ln => t.storeLine ln (t.burstData ln) true) s
  { t with dir := [] }

/-- Every APPLYING entry of every journal becomes DAMAGED (R222). -/
def State.damageApplying (s : State) : State :=
  (List.range 32).foldl (fun (t : State) st => ((t.jUsed st).filter (fun i => decide (t.jState st i = 2))).foldl (fun (u : State) i => u.setJState st i 4) t) s

/-- The records of the error head that the ring does not hold go into it in RSEQ order (R480). -/
def State.ringHead (s : State) : State :=
  let xs := s.obs.head.flatten.filter (fun b => ! s.obs.ringed.contains (le b 0x20 4))
  (sortBy (fun b => le b 0x20 4) xs).foldl State.ringWrite s

/-- Firmware's care of the last-gasp area (R413): SEQ one above the highest valid one, the slots that hold a record, which the
start has read, erased, and records enabled (log 38). -/
def State.armGasp (s : State) : State :=
  let at_ (k : Nat) : Nat := 0x30000 + 0x2000 * k
  let used := (List.range 8).filter (fun k => s.flashUsed (at_ k) 0x2000)
  let seqs := used.filterMap (fun k => let r := s.flashRead (at_ k) 0x2000
    if le r 1 1 = 1 ∧ le r 0x1FFC 4 = crc32c r 0x1FFC then some (le r 4 4) else none)
  let s := used.foldl (fun (t : State) k => t.erase (at_ k) 0x2000) s
  ((s.setFld F.GOV_LG_SEQ 0 (seqs.foldl (fun m q => max m (q + 1)) 0)).setFld F.GOV_LG_ERASED 0 0xFF).setFld F.GOV_LG_ARMED 0 1

/-- What software reads of the start (R444). -/
def State.showBoot (s : State) : State :=
  (((s.setFld F.SEC_BOOT_BOOT_COUNT 0 s.bootCount).setFld F.SEC_BOOT_PREV_FAILED 0 (s.jword 2 % 256)).setFld F.SEC_BOOT_RECOVERY 0
    (bits (s.jword 0) 17 17)).setFld F.SEC_BOOT_ALT_MASK 0 s.altMask

/-- Every engine in service mode, as firmware leaves them (R139). -/
def State.serviceMode (s : State) : State := (List.range 16).foldl (fun (t : State) e => t.setFld F.ENG_CTL_SVC_MODE e 0) s

/-- Step 0x0D: the fix-ups, M2, and software access (R139, R222, R298, R437, R480). The log is erased when fewer than 16 positions
remain. -/
def State.grantAccess (s : State) : State :=
  let s := if s.sec.fatalStart then (s.damageApplying).clearDirectories else s
  let s := s.ringHead
  let s := s.extend 2 (sha256 (s.altMask + s.skipMask <<< 16) 4)
  let s := ((s.stepDone 0x0D).armGasp).serviceMode
  let s := if 4096 < s.logUsed.length + 16 then s.erase logBase 0x10000 else s
  let s := ((s.setJbits 0 31 24 1).showBoot).setFld F.CT_STATUS_GANG_ROLE 0 (if s.sec.strapGang = 3 then 0 else s.sec.strapGang)
  { s with pwr := { s.pwr with phase := .running } }

/-- A step that has no alternative form in this start, or has one that runs when it failed before: whether it succeeds. -/
def State.stepOk (s : State) (c : Nat) (alt : Bool) : Bool := ! (if alt then s.sec.env.failAlt.contains c else s.sec.env.failNormal.contains c)

/-- A mandatory step: begun, run by `f`, and done or the end of the start. -/
def State.mandatory (s : State) (c : Nat) (alt : Bool) (f : State → State × Bool) (next : State → State) : State :=
  let s := s.stepBegins c
  let s := if alt then s.stepAlt c else s
  let (s, good) := f s
  if good && s.stepOk c alt then next (s.stepDone c) else s.bootFails c

/-- An optional step: skipped when it failed on the previous start; when it fails the start continues. -/
def State.optional (s : State) (c : Nat) (f : State → State × Bool) : State :=
  if s.sec.failed.contains c then s.stepSkipped c
  else
    let s := s.stepBegins c
    let (t, good) := f s
    if good && s.stepOk c false then t.stepDone c else s.stepFails c

/-- The segments of a KIND of the image in boot SRAM, as copies. -/
def State.codeOf (s : State) (kind : Nat) : List Code :=
  let img := s.sec.image
  (((List.range (le img 3 1)).map (segment img)).filter (fun e => decide (le e 0 1 = kind))).map (fun e =>
    { len := le e 0xC 4, data := le img (le e 8 4) (le e 0xC 4) })

/-- Whether copies match the digests that the image's header gives the segments of a KIND (R425). -/
def State.codeGood (s : State) (kind : Nat) (xs : List Code) : Bool :=
  let img := s.sec.image
  decide (xs.map (fun x => sha256 x.data x.len)
    = (((List.range (le img 3 1)).map (segment img)).filter (fun e => decide (le e 0 1 = kind))).map (fun e => le e 0x18 32))

/-- Step 0x05: the KIND 2 segment goes to the controller cores of every powered accelerator region and the KIND 3 segment to every stack base
die; cores and sequencers are released on copies whose digest matches (R425). -/
def State.copySegments (s : State) : State × Bool :=
  let two := s.codeOf 2; let three := s.codeOf 3
  let ctl := (List.range 4).foldl (fun (t : Tab (List Code)) q => if s.domOn (7 * q + 6) then Tab.set [] t q two else t) []
  let die := (List.range 32).foldl (fun (t : Tab (List Code)) st => Tab.set [] t st three) []
  if s.codeGood 2 two && s.codeGood 3 three then ({ s with sec := { s.sec with ctlCode := ctl, dieCode := die } }, true) else (s, false)

/-- Step 0x06: the die-to-die links come up, at half width in the alternative form (R18, R429). -/
def State.trainLinks (s : State) (half : Bool) : State :=
  let s := s.domsOn ((List.range 4).map (fun q => 7 * q + 5))
  { s with links := (List.range 8).foldl (fun (t : Tab Link) l => Tab.set {} t l { half := half }) [] }

/-- Step 0x0A: a port that the configuration sets up begins its training, with the PORT_CFG that the configuration gives it (R363, R368,
R429). -/
def State.trainPort (s : State) (p : Nat) : State :=
  if s.fld F.PORT_STATUS_STATE p = 4 then s
  else
    let b := s.sec.cfg
    let v := ((List.range (le b 0xE 2)).find? (fun i => decide (le b (0xC00 + 16 * i) 8 = 0x700004000008 + 0x100000 * p))).elim 0
      (fun i => le b (0xC00 + 16 * i + 8) 8)
    let t := s.portState p 1 0
    t.setPort p { t.port p with cfg := v }

/-- Step 0x0C, and `next` after it. A list that restarts the device leaves the steps to the start that follows. -/
def State.configuration (s : State) (next : State → State) : State :=
  match (s.stepBegins 0x0C).applyConfig with
  | (t, .restarted) => t
  | (t, .failed) => t.bootFails 0x0C
  | (t, .going) => if t.stepOk 0x0C false then next (t.stepDone 0x0C) else t.bootFails 0x0C

/-- Steps 0x05 to 0x0D, after the image is accepted. -/
def State.bootRest (s : State) : State :=
  let failed (c : Nat) : Bool := s.sec.failed.contains c
  let skip8 := failed 8
  let s := if skip8 then s else s.stepBegins 8
  s.mandatory 5 false (fun t => (t.domsOn (71 :: (List.range 4).map (fun q => 7 * q + 6))).copySegments) (fun s =>
  s.mandatory 6 (failed 6) (fun t => (t.trainLinks (failed 6), true)) (fun s =>
  s.mandatory 7 (failed 7) (fun t => (t.trainMemory (failed 7), true)) (fun s =>
    let s :=
      if skip8 then s.stepSkipped 8
      else
        let (t, good) := s.identityStep
        if good && s.stepOk 8 false then t.stepDone 8 else s.stepFails 8
    let s := s.stepBegins 9
    let (s, good) := s.testEngines
    if ¬ good then s.bootFails 9
    else
      let s := s.stepDone 9
      let s := s.optional 0x0A (fun t =>
        let t := t.domsOn [68, 69]
        (t.portsSetUp.foldl State.trainPort t, true))
      let s := s.optional 0x0B (fun t => (t.domsOn [70], true))
      s.configuration (fun s =>
        let s := s.stepBegins 0x0D
        if s.stepOk 0x0D false then s.grantAccess else s.bootFails 0x0D))))

/-- The image, held in boot SRAM, is accepted: M0 is extended with its header and its version is shown (R425, R437, R444). -/
def State.imageTaken (s : State) (img : Nat) : State :=
  let s := { s with sec := { s.sec with image := img } }
  let s := s.extend 0 (sha256 (le img 0 0x1000) 0x1000)
  (s.setFld F.SEC_IMAGE_FW_VERSION 0 (le img 4 4)).setFld F.SEC_IMAGE_CFG_SEQ 0 (le s.sec.cfg 4 4)

/-- Step 0x04 (R425, R432): the flash image, or the recovery protocol where BOOT_SRC and NET_RECOVERY allow it. -/
def State.imageStep (s : State) : State :=
  let s := s.stepBegins 4
  let src := s.sec.strapSrc
  let mayRecover : Bool := decide (src ≠ 0) && s.netRecovery
  let recover : State := { s.stepAlt 4 with pwr := { s.pwr with phase := .recovery }, sec := { (s.stepAlt 4).sec with recover := {} } }
  if mayRecover && (decide (src = 2) || s.sec.failed.contains 4 || s.flag F.SEC_BOOT_CTL_RECOVER_NEXT 0) then recover
  else
    let img := s.flashRead 0x100000 (max 0x1000 (min 0x300000 (s.flashRead 0x100008 4)))
    if decide (src ≠ 2) && s.stepOk 4 false && decide (imageResult img 0x300000 s.minFw = 0) then ((s.imageTaken img).stepDone 4).bootRest
    else if mayRecover then recover
    else s.bootFails 4

/-- A valid configuration block takes effect as step 0x03 says, and is measured (R427, R437). -/
def State.takeConfig (s : State) (b : Nat) (valid : Bool) : State × Bool :=
  if valid then ((({ s with sec := { s.sec with cfg := b } }).setFld F.AMR_CFG_LOCAL_GIB 0 (le b 0xC 1)).extend 1 (sha256 b 0x2000), true)
  else (s, false)

/-- Step 0x02: the straps; a reserved GANG strap is noted (R421). -/
def State.strapStep (s : State) : State × Bool := (if s.sec.strapGang = 3 then s.jNote 2 1 0 else s, true)

/-- Step 0x03: the configuration block. -/
def State.configStep (s : State) : State × Bool :=
  let b := s.flashRead 0 0x2000
  s.takeConfig b (configValid b)

/-- Steps 0x01 to 0x04. -/
def State.bootSteps (s : State) : State :=
  s.mandatory 1 false (fun t => (t, true)) (fun s =>
  s.mandatory 2 (s.sec.failed.contains 2) State.strapStep (fun s =>
  s.mandatory 3 false State.configStep State.imageStep))

/-- A start: the straps are sampled when the always-on domain starts, the previous start is judged, and the steps run (R399, R421,
R429, R432). -/
def State.startDevice (s : State) (env : StartEnv) : State :=
  let cold : Bool := match s.pwr.phase with | .off => true | _ => false
  let fresh : Bool := match s.pwr.phase with | .off | .held => true | _ => false
  let failed := s.previousFails
  let count := match s.logValid with | p :: _ => le (s.logEntry p) 2 4 + 1 | [] => 1
  let x := s.sec
  let x := if cold then { x with pufRead := env.pufBits } else x
  let x := if fresh then { x with strapGang := env.straps % 4, strapSrc := (let b := env.straps / 4 % 4; if b = 3 then 1 else b),
                                  strapWidth := env.straps / 16 % 4, aon := some s.time } else x
  let s := { s with sec := { x with env := env, failed := failed, meas := [], recover := {} },
                    pwr := { s.pwr with phase := .booting, vinMv := env.vinMv, pwrGood := true, faultOut := false } }
  let prev := (failed.find? (fun c => ! optionalStep c)).getD (failed.headD 0)
  let run := if prev = 0 then 0 else max 1 (s.failRun prev)
  let s := ((s.newJournal count).setJbits 2 7 0 prev).setJbits 2 15 8 (min 255 run)
  let used := s.logUsed
  let s := match lowest 4096 (fun p => ! used.contains p) with
    | some p => s.program (logBase + 16 * p) (put 0 2 0xB007 + put 2 4 count + put 6 4 (2 ^ 32 - 1) + put 10 4 (2 ^ 32 - 1) + put 14 2 0xFFFF) 16
    | none => s
  s.bootSteps

/-- DEVICE_START: the input and PWR_GOOD have been good, and RESET_N deasserted, for 10 ms (R399, R500); or a reset is followed by its
start (R405, R444). -/
def execDeviceStart (env : StartEnv) (s : State) : Host.Outcome State Fault Refusal :=
  let may : Bool := match s.pwr.phase with | .off | .held | .booting => true | _ => false
  ok (if may && s.pwr.resetN && s.pwr.refclk && decide (32000 ≤ env.vinMv) then s.startDevice env else s)

end Sys2Proof.Machine
end

