-- ==== Sys2Proof/Machine/Security.lean ====
section
/-! DEFINITION. What the security block does in service, and the recovery protocol: R436 to R443. -/
namespace Sys2Proof.Machine

/-! ## Class 0xA commands (R437 to R441) -/

/-- The class 0xA command whose turn it is: the one decoded first that has not ended (R438). -/
def State.secHead (s : State) : Option CmdRef :=
  s.sec.queue.find? (fun r => match s.cmd r with
    | some c => (match c.phase with | .ended | .completed => false | _ => true)
    | none => false)

/-- Runs a class 0xA command in its turn. -/
def State.secRun (s : State) (r : CmdRef) (op : Nat) (k : Cmd → State) : State := if s.secHead = some r then s.run r op k else s

def checksMeasureExtend (c : Cmd) : Checks :=
  Checks.all [lenIs c 1, unlisted c [(0x10, 1), (0x18, 0x20)], failAdr (c.f 0x10 1 < 4 ∨ 7 < c.f 0x10 1) 0x10 (c.f 0x10 1)]

/-- MEASURE_EXTEND (R437). -/
def execMeasureExtend (r : CmdRef) (s : State) : Host.Outcome State Fault Refusal :=
  ok (s.secRun r 0xA001 (fun c => (s.extend (c.f 0x10 1) (c.f 0x18 32)).finish r 0 0))

def checksAttest (s : State) (c : Cmd) : Checks :=
  Checks.all [lenIs c 1, unlisted c [(0x10, 0x20), (0x30, 8)], s.addrCheck .ilv c 0x30 64 768]

/-- RFLAGS of the report (R439). -/
def State.rflags (s : State) : Nat :=
  b2n (s.flag F.SEC_DEBUG_DEBUG_EVER 0) + 2 * b2n (s.flag F.SEC_DEBUG_CERT_MATCH 0) + 4 * b2n (decide (s.altMask ≠ 0 ∨ s.skipMask ≠ 0))
    + 8 * bits (s.jword 0) 16 16

/-- The report without its signature: 384 bytes (R439). -/
def State.reportBody (s : State) (nonce : Nat) : Nat :=
  put 1 1 1 + put 2 2 s.rflags + put 4 4 s.bootCount + put 8 8 Config.serial + put 0x10 8 (s.now 4) + put 0x18 4 (s.fld F.SEC_IMAGE_FW_VERSION 0)
    + put 0x1C 4 (le s.sec.cfg 4 4) + put 0x20 32 s.sec.keyId + put 0x40 32 nonce
    + (joinFields 32 ((List.range 8).map (fun k => Tab.get 0 s.sec.meas k))) <<< (8 * 0x60)

/-- ATTEST (R439): the report with its signature of R424, whose salt is random: a free value (log 6, log 32). -/
def execAttest (r : CmdRef) (s : State) : Host.Outcome State Fault Refusal :=
  ok (s.secRun r 0xA002 (fun c =>
    match s.sec.seed with
    | none => s.finish r 0x0104 0
    | some seed =>
      let body := s.reportBody (c.f 0x10 32)
      let key := Config.identityKey seed (Config.serial % 2 ^ 64)
      let (salt, s) := s.draw 14
      let sig := pssSign key (Config.privateExponent key) (sha256 body 0x180) (salt % 2 ^ 256)
      ((s.hubWrites (c.fb 0x30 47 0) (body + put 0x180 384 sig) 768).wrote r).finish r 0 0))

def checksCertRead (s : State) (c : Cmd) : Checks :=
  Checks.all [lenIs c 1, unlisted c [(0x10, 12)], s.addrCheck .ilv c 0x10 64 64]

/-- CERT_READ: the length and the DER of the device certificate (R436). -/
def execCertRead (r : CmdRef) (s : State) : Host.Outcome State Fault Refusal :=
  ok (s.secRun r 0xA003 (fun c =>
    match s.certificate with
    | none => s.finish r 0x0104 0
    | some (n, der) =>
      if c.f 0x18 4 < n + 4 then s.finish r 0x0402 0x18
      else match s.spanFault .ilv (c.fb 0x10 47 0) (n + 4) with
        | some a => s.finish r 0x0104 a
        | none => ((s.hubWrites (c.fb 0x10 47 0) (n + der <<< 32) (n + 4)).wrote r).finish r 0 0))

/-! ## Debug unlock (R440, R441) -/

/-- A new challenge replaces the one that stands: the SHA-256 of SERIAL, BOOT_COUNT, the current time and the attempt count. -/
def State.newChallenge (s : State) : Nat × State :=
  let v := sha256 (put 0 8 Config.serial + put 8 4 s.bootCount + put 12 8 s.time + put 20 4 s.sec.attempts) 24
  (v, { s with sec := { s.sec with challenge := some { value := v, time := s.time } } })

/-- A response: 384 signature bytes for a level. Whether it unlocks, and the state after it; each challenge admits one response. -/
def State.unlock (s : State) (level sig : Nat) : State × Bool :=
  let fails := s.fld F.SEC_DEBUG_FAILS 0
  let good : Bool := match s.sec.challenge with
    | none => false
    | some ch =>
      let msg := ch.value + put 32 8 Config.serial + put 40 1 level
      decide (fails < 8 ∧ (level = 1 ∨ level = 2) ∧ s.time ≤ ch.time + 60000000000)
        && pssVerify (swapBytes (le s.sec.cfg 0x100 384) 384) (sha256 msg 41) sig
  let value := match s.sec.challenge with | some ch => ch.value | none => 0
  let s := { s with sec := { s.sec with challenge := none, attempts := s.sec.attempts + 1 } }
  if good then
    let s := (s.setFld F.SEC_DEBUG_LEVEL 0 level).setFld F.SEC_DEBUG_DEBUG_EVER 0 1
    ((s.extend 3 (sha256 (put 0 1 level + value <<< 8) 33)).traceFree unitSec 0xA10, true)
  else (s.setFld F.SEC_DEBUG_FAILS 0 (min 8 (fails + 1)), false)

/-- Relocks the IEEE 1687 network. -/
def State.relock (s : State) : State := s.setFld F.SEC_DEBUG_LEVEL 0 0

def checksDebugUnlock (s : State) (c : Cmd) : Checks :=
  let m := c.f 0x10 1
  Checks.all [lenIs c 1, unlisted c [(0x10, 2), (0x18, 8)], failRsv (2 < m) 0x10,
    if m = 2 then addrRsv c.pkt 0x18 else s.addrCheck .ilv c 0x18 64 (if m = 0 then 64 else 384)]

/-- DEBUG_UNLOCK (R440). -/
def execDebugUnlock (r : CmdRef) (s : State) : Host.Outcome State Fault Refusal :=
  ok (s.secRun r 0xA004 (fun c =>
    let a := c.fb 0x18 47 0
    let m := c.f 0x10 1
    if m = 2 then s.relock.finish r 0 0
    else if ¬ s.debugAllowed then s.finish r 0x0104 0
    else if m = 0 then
      let (v, t) := s.newChallenge
      ((t.hubWrites a (v + put 32 8 Config.serial) 64).wrote r).finish r 0 0
    else s.readingThen r [(a, 384)] (fun s =>
      let (t, good) := s.unlock (c.f 0x11 1) (s.readMem a 384)
      if good then t.finish r 0 0 else t.finish r 0x0103 0x18)))

/-! ## The recovery protocol (R442, R443) -/

/-- Whether the ROM runs the protocol and its link is up. -/
def State.recovering (s : State) : Bool := (match s.pwr.phase with | .recovery => true | _ => false) && s.sec.recover.linkUp

/-- The state with the protocol's own changed. -/
def State.setRecover (s : State) (f : Recovery → Recovery) : State := { s with sec := { s.sec with recover := f s.sec.recover } }

/-- RECOVERY_ANNOUNCE: every 1 s, SERIAL, BOOT_COUNT, PREV_FAILED and MIN_FW to broadcast (R442). -/
def execRecoveryAnnounce (s : State) : Host.Outcome State Fault Refusal :=
  ok (if s.recovering ∧ s.sec.recover.session = none then
      s.send (.announce 4 (put 0 8 Config.serial + put 8 4 s.bootCount + put 12 1 (s.jword 2 % 256) + put 13 4 s.minFw))
    else s)

/-- RECOVERY_LINK_TIMEOUT: after 2 s without a link the next port mode is tried (R442). -/
def execRecoveryLinkTimeout (s : State) : Host.Outcome State Fault Refusal :=
  ok (match s.pwr.phase with
    | .recovery => if s.sec.recover.linkUp then s else s.setRecover (fun x => { x with mode := (x.mode + 1) % 3 })
    | _ => s)

/-- Whether a frame of the protocol is taken: on P4, of major version 1. -/
def RecFrame.taken (f : RecFrame) : Bool := decide (f.port.val = 4 ∧ f.version / 16 = 1)

/-- OFFER: the first one is accepted; above 3 MiB it receives RESULT 3 (R443). -/
def execOffer (f : RecFrame) (s : State) : Host.Outcome State Fault Refusal :=
  ok (if ¬ s.recovering ∨ ¬ RecFrame.taken f ∨ s.sec.recover.session ≠ none ∨ f.len ≠ 4 then s
    else
      let n := f.data % 2 ^ 32
      if 0x300000 < n then s.send (.recoveryResult 4 f.session 3)
      else
        let s := s.setRecover (fun x => { x with session := some f.session, imgLen := n, next := 0, sinceAck := 0, program := bit f.flags 0 })
        { s with sec := { s.sec with image := 0 } })

/-- DATA: accepted only at the next expected OFFSET; an ACK follows every 64 accepted frames, and at once a gap (R443). -/
def execData (f : RecFrame) (s : State) : Host.Outcome State Fault Refusal :=
  let x := s.sec.recover
  ok (if ¬ s.recovering ∨ ¬ RecFrame.taken f ∨ x.session ≠ some f.session then s
    else if f.offset = x.next ∧ f.offset % 1024 = 0 ∧ 1 ≤ f.len ∧ f.len ≤ 1024 ∧ f.offset + f.len ≤ x.imgLen then
      let next := x.next + f.len
      let s := { s with sec := { s.sec with image := s.sec.image + put f.offset f.len f.data } }
      if x.sinceAck + 1 = 64 then (s.setRecover (fun y => { y with next := next, sinceAck := 0 })).send (.recoveryAck 4 f.session next)
      else s.setRecover (fun y => { y with next := next, sinceAck := x.sinceAck + 1 })
    else if x.next < f.offset then s.send (.recoveryAck 4 f.session x.next)
    else s)

/-- The image area is erased and programmed with the recovered image and read back; where the flash fails, what it holds is a free
value (log 6). -/
def State.programImage (s : State) : State × Bool :=
  let n := s.sec.recover.imgLen
  let s := s.erase 0x100000 0x400000
  if s.sec.env.flashBad then
    let (v, s) := s.draw 13
    (s.program 0x100000 v n, false)
  else (s.program 0x100000 s.sec.image n, true)

/-- DONE: with every byte received the ROM applies R425 and answers; an accepted image is programmed where PROGRAM is set, and runs;
after any other RESULT the device resumes ANNOUNCE (R443). -/
def execDone (f : RecFrame) (s : State) : Host.Outcome State Fault Refusal :=
  let x := s.sec.recover
  ok (if ¬ s.recovering ∨ ¬ RecFrame.taken f ∨ x.session ≠ some f.session ∨ x.next ≠ x.imgLen then s
    else
      let res := imageResult s.sec.image x.imgLen s.minFw
      let s := s.send (.recoveryResult 4 f.session res)
      if res ≠ 0 then s.setRecover (fun y => { y with session := none })
      else
        let (s, good) := if x.program ∨ bit f.flags 0 then s.programImage else (s, true)
        let s := if good then s else s.send (.recoveryResult 4 f.session 5)
        let s := (s.setJbits 0 17 17 1).imageTaken s.sec.image
        ({ s.stepDone 4 with pwr := { s.pwr with phase := .booting } }).bootRest)

end Sys2Proof.Machine
end

