-- ==== Sys2Proof/Machine/Jtag.lean ====
section
/-! DEFINITION. The test access port and its instruments: R440, R489 to R491. -/
namespace Sys2Proof.Machine

/-- The debug level in force (R440): an instruction below its level acts as BYPASS. -/
def State.debugLevel (s : State) : Nat := if s.running then s.fld F.SEC_DEBUG_LEVEL 0 else 0

/-- IDCODE of the test access port (R489). -/
def idcode : Nat := 0x15608A2F

/-- The instructions of the test access port (R489). -/
inductive TapInstr where
  | extest | idcode | sample | dbgAuth | ijtag | fabric | stackRead | bypass
  deriving DecidableEq, Repr

/-- The instruction that a code of the TAP instruction table selects at a debug level: one issued below its level, EXTEST while the reset input
is deasserted, and every other code act as BYPASS (R489). -/
def tapInstr (code level : Nat) (resetAsserted : Bool) : TapInstr :=
  match code with
  | 0x00 => if resetAsserted then .extest else .bypass
  | 0x01 => .idcode
  | 0x02 => .sample
  | 0x10 => .dbgAuth
  | 0x20 => if level < 1 then .bypass else .ijtag
  | 0x21 => if level < 1 then .bypass else .fabric
  | 0x22 => if level < 1 then .bypass else .stackRead
  | _ => .bypass

/-- JTAG_DBG_AUTH: the protocol of R440 through the TAP; the status code is answered, and the challenge with SERIAL. A response is the
384 signature bytes and the level (log 35). -/
def execJtagDbgAuth (k : AuthOp) (s : State) : Host.Outcome State Fault Refusal :=
  ok (if ¬ s.running then s
    else match k with
      | .relock => { s.relock with resp := .data 0 }
      | .challenge =>
        if ¬ s.debugAllowed then { s with resp := .data 0x0104 }
        else
          let (v, t) := s.newChallenge
          { t with resp := .data (v + put 32 8 Config.serial) }
      | .response b =>
        if ¬ s.debugAllowed then { s with resp := .data 0x0104 }
        else
          let (t, good) := s.unlock (le b 384 1) (b % 2 ^ 3072)
          { t with resp := .data (if good then 0 else 0x0103) })

/-- A request of the debug port to the home of a line. It reaches the coherent ranges only: at a line of another range the fabric rejects it
(R31, R40, R41). -/
def State.debugRequest (s : State) (line : Nat) (k : AccKind) (r : HReq) : State :=
  if s.coherent line then s.request1 line unitTest r .clean else s.accessUnpopulated .debug k (64 * line)

/-- JTAG_FABRIC: the debug port's coherent accesses: ReadOnce at level 1, InvWrite and MergeWrite at level 2 (R489). -/
def execJtagFabric (k : FabricOp) (s : State) : Host.Outcome State Fault Refusal :=
  ok (match k with
    | .readOnce line => if s.debugLevel < 1 then s else s.debugRequest line .read (.readOnce 2)
    | .invWrite line data => if s.debugLevel < 2 then s else s.debugRequest line .write (.invWrite 2 data false)
    | .mergeWrite line mask data => if s.debugLevel < 2 then s else s.debugRequest line .write (.mergeWrite 2 mask data))

/-- Status byte of a stored burst (R491). -/
def State.burstStatus (s : State) (line : Nat) : Nat :=
  match s.burst line with
  | .clean => 0
  | .corrected _ => 1
  | .uncorrectable => 2
  | .poison => 3

/-- The line whose bytes the slot of a frame holds at a burst, with no regard to a swap's cursor (R291, R491). -/
def State.slotLine (s : State) (g off : Nat) : Nat :=
  let frame := off >>> 16
  let b := off % 65536 / 64
  let other : Nat := match (s.hoistChan g).swap with
    | some w => if b < w.cursor ∧ frame = w.slow then w.victim else if b < w.cursor ∧ frame = w.victim then w.slow else frame
    | none => frame
  lineOf (paOf s.localGib { gch := g, choff := other <<< 16 + off % 65536 })

/-- JTAG_STACK_READ: the 72 stored bytes of a burst and its status; nothing is written back and no hold is placed (R491). -/
def execJtagStackRead (ch : Fin 512) (off : Nat) (s : State) : Host.Outcome State Fault Refusal :=
  let g := ch.val
  ok (if s.debugLevel < 1 ∨ off % 64 ≠ 0 ∨ 57344 ≤ off >>> 16 then s
    else if s.fld F.CH_STATE_STATE g = 3 ∨ (s.stack (g / 16)).selfRef then { s with resp := .stack 0 0xFF }
    else
      let line := s.slotLine g off
      { s with resp := .stack (Rs.encode (s.rawMem (64 * line) 64) ^^^ Tab.get 0 s.ecc line) (s.burstStatus line) })

/-- Whether an engine's memories may be read (R490): it is quarantined, or a Freeze is in force. -/
def State.engineOpen (s : State) (g : Nat) : Bool := s.frozen || s.engineOut g

/-- A 48-bit Millpond word: the row value, its check bits and the spare bit. The spec does not give the code, so the check bits are a free
value (log 6). The spare bit in use holds the word's bit that it replaces, whose own cell then reads a free value (R158). -/
def State.millpondWord (s : State) (g word : Nat) : State :=
  let e := s.engine g
  let (v, t) := s.draw 14
  let w := (Tab.get 0#40 e.millpond word).toNat + (v % 128) <<< 40
  let b := e.spare - 1
  let w := if e.spare = 0 then w + (v / 128 % 2) <<< 47
    else setBits (w + (bits w b b) <<< 47) b b (v / 128 % 2)
  { t with resp := .data w }

/-- A Spillway word: the value of a row and column, and its check bits, a free value (log 6). -/
def State.spillwayWord (s : State) (q row col : Nat) : State :=
  let (v, t) := s.draw 14
  { t with resp := .data ((Tab.get 0#64 (s.acc q).rows (512 * row + col)).toNat + (v % 256) <<< 64) }

/-- A read over the IEEE 1687 network that R10 refuses. -/
def State.ijtagRefuse (s : State) (pa : Nat) : State :=
  { s.mmioRefuse pa (blockUnit s.localGib pa) false with resp := .accessFault }

/-- A read of a register over the IEEE 1687 network, where its address names `x` (R10, R31, R490): of 64 bits, or of 32 where it names the
high word. -/
def State.ijtagSlot (s : State) (x : Slotted) (pa : Nat) : State :=
  match x with
  | .unpopulated => s.accessUnpopulated .ijtag .read pa
  | .unlisted => s.ijtagRefuse pa
  | .imsic _ _ => if pa % 4 ≠ 0 then s.ijtagRefuse pa else { s with resp := .data 0 }
  | .aplic dom off => if pa % 4 ≠ 0 then s.ijtagRefuse pa else { s with resp := .data (s.aplicRead dom off) }
  | .blkId b i =>
    if pa % 4 ≠ 0 then s.ijtagRefuse pa
    else { s with resp := .data ((blkIdWord b i).toNat / 2 ^ (8 * (pa % 8))) }
  | .reg r i =>
    if pa % 4 ≠ 0 then s.ijtagRefuse pa
    else if pa % 8 = 4 then s.readWord r i true
    else
      let (v, t) := s.readReg r i
      { t with resp := .data v }

/-- A read of a register over the IEEE 1687 network. -/
def State.ijtagRead (s : State) (pa : Nat) : State := s.ijtagSlot (slotAt s.localGib pa) pa

/-- The capture record of a unit, once a Freeze has written it (R471, R490). -/
def State.captureShown (s : State) (u : Nat) : State :=
  let base := s.fld F.OBS_FRZ_BASE 0 <<< 16
  if base = 0 ∨ s.fld F.OBS_FRZ_STATE 0 ≠ 2 ∨ ¬ unitExists u then s
  else { s with resp := .data (s.readMem (base + 64 * (256 * ringOf (u / 256) + u % 256)) 64) }

/-- IJTAG_ACCESS: the instruments of the instrument table, reads at level 1 and writes at level 2 (R490). -/
def execIjtagAccess (k : Ijtag) (s : State) : Host.Outcome State Fault Refusal :=
  let rd (t : State) : State := if s.debugLevel < 1 then s else t
  let wr (t : State) : State := if s.debugLevel < 2 then s else t
  let word (x : Nat × State) : State := { x.2 with resp := .data x.1 }
  ok (match k with
    | .regRead pa => rd (s.ijtagRead pa)
    | .regWrite pa v => wr (s.windowWrite .ijtag pa 8 v)
    | .freeze => wr (if s.frozen then s else s.startFreeze)
    | .freezeRelease => wr (if s.frozen then s.releaseFreeze else s)
    | .freezeState => rd (word (s.readReg .OBS_FRZ 0))
    | .millpond e w => rd (if s.engineOpen e.val then s.millpondWord e.val w else s)
    | .spillway q row col =>
      rd (if s.frozen ∨ (List.range 4).any (fun m => s.engineOut (4 * q.val + m)) then s.spillwayWord q.val row col else s)
    | .mbistStart v => wr (s.mbistWrite (2 ^ 64 - 1) (v ||| 2 ^ 63))
    | .mbistStatus => rd (word (s.readReg .TST_MBIST_STATUS 0))
    | .repCmd st v => wr (s.repWrite .ijtag st.val v)
    | .laneMapWrite ch v => wr (s.laneMapWrite ch.val (2 ^ 64 - 1) v)
    | .laneMapRead ch => rd (word (s.readReg .CH_LANE_MAP ch.val))
    | .repAvail st => rd (word (s.readReg .REP_AVAIL st.val))
    | .remap ch f => rd (word (s.slotOf ch.val f, s))
    | .captureRead u => rd (s.captureShown u.val)
    | .mbistLog k => rd { s with resp := .data (s.readMem (s.fld F.TST_MBIST_LOG_BASE 0 <<< 4 + 16 * k) 16) })

/-- JTAG_EXTEST: boundary scan drives the pins while RESET_N is asserted; otherwise it acts as BYPASS (R489). -/
def execJtagExtest (pins : Nat) (s : State) : Host.Outcome State Fault Refusal :=
  let powered : Bool := match s.pwr.phase with | .off => false | _ => true
  ok (if powered && ! s.pwr.resetN then { s with pwr := { s.pwr with scan := some pins } } else s)

end Sys2Proof.Machine
end

