-- ==== Sys2Proof/Machine/CommandProc.lean ====
section
/-! DEFINITION. The command processor: packets fetched and their seals checked, validated and issued (R46 to R64, R85, R123, R129,
R149, R151, R169, R181, R189, R215 to R218, R248, R269, R327, R404, R466). -/
namespace Sys2Proof.Machine

/-! ## Checks of the engine commands (R113, R117 to R121, R128 to R133, R142, R149, R150) -/

/-- Formats of the operands of an engine command (R120). -/
def Fmt.engineA (f : Fmt) : Bool := f.code ≤ 9 || f.code = 0xB
def Fmt.engineB (f : Fmt) : Bool := f.code ≤ 0xB

/-- Shapes of MATMUL (R119). -/
def matmulShape (g : Geo) : Checks :=
  Checks.all [failLen (g.a.rank ≠ 2 ∧ g.a.rank ≠ 3) 0x18, failLen (g.b.rank ≠ 2 ∧ g.b.rank ≠ 3) 0x48, failLen (g.d.rank ≠ g.a.rank) 0x78,
    failLen (g.b.e (if g.transB then 0 else 1) ≠ g.k) (if g.transB then 0x4C else 0x50),
    failLen (g.b.rank = 3 ∧ g.b.e 2 ≠ g.nb) 0x54, extMatch g.d [g.n, g.m, g.nb, 1]]

/-- Shapes of MATMUL_WGRAD (R128). -/
def wgradShape (g : Geo) : Checks :=
  Checks.all [failLen (g.a.rank ≠ 2) 0x18, failLen (g.b.rank ≠ 2) 0x48, failLen (g.d.rank ≠ 2) 0x78, failLen (g.b.e 1 ≠ g.k) 0x50,
    extMatch g.d [g.n, g.m, 1, 1]]

/-- Parameters and shapes of CONV (R132, R133): the filter and the output follow from the input. -/
def convShape (c : Cmd) (g : Geo) : Checks :=
  let v := g.cv
  let x := if v.dir = 1 then g.d else g.a
  let y := if v.dir = 0 then g.d else if v.dir = 1 then g.a else g.b
  let w := if v.dir = 2 then g.d else g.b
  let rng (off lo hi : Nat) : Checks := failLen (c.f off 1 < lo ∨ hi < c.f off 1) off
  let differs (k : Nat) (want : Int) : Checks := failLen ((y.e k : Int) ≠ want) (y.off + 0xC + 4 * k)
  Checks.all [failLen (2 < v.dir) 0x100, failLen (v.fs = 0 ∨ x.e 3 % v.fs ≠ 0) 0x102, rng 0x104 1 16, rng 0x105 1 16, rng 0x106 1 16,
    rng 0x108 1 8, rng 0x109 1 8, rng 0x10A 1 8, rng 0x10C 0 15, rng 0x10D 0 15, rng 0x10E 0 15, rng 0x110 1 8, rng 0x111 1 8, rng 0x112 1 8,
    failLen (x.rank ≠ 4) (x.off + 8), failLen (y.rank ≠ 4) (y.off + 8), failLen (w.rank ≠ 2) (w.off + 8),
    failLen (w.e 1 ≠ x.e 0 * v.r * v.s * v.u) (w.off + 0x10),
    failLen (w.e 0 ≠ y.e 0) (if w.off < y.off then y.off + 0xC else w.off + 0xC),
    differs 1 (convOut (x.e 1) v.pw v.dw v.r v.sw), differs 2 (convOut (x.e 2) v.ph v.dh v.s v.sh),
    differs 3 (if v.fs = 0 then 0 else ((x.e 3 / v.fs : Nat) : Int) * convOut v.fs v.pf v.df v.u v.sf)]

/-- The epilogue operand (R149, R150). -/
def epiChecks (s : State) (c : Cmd) (g : Geo) : Checks :=
  let like (ext : List Nat) : Checks := Checks.app (failLen (g.e.rank ≠ g.d.rank) 0xA8) (extMatch g.e ext)
  if g.epi = 0 then mustZero c.pkt 0xA0 48
  else if g.epi ≤ 2 then Checks.all [tdChecks c.pkt true (fun f => f.code ≤ 4) g.e, s.tdRange .compute g.e, like g.d.ext]
  else if g.epi ≤ 4 then Checks.all [tdChecks c.pkt false (fun f => f = .fp32) g.e, s.tdRange .compute g.e, like (g.d.ext.set 0 1)]
  else failRsv true 0xD5

/-- Checks of MATMUL, MATMUL_WGRAD and CONV. -/
def checksMat (s : State) (c : Cmd) : Checks :=
  let g := c.geo
  let p := c.pkt
  let conv : Bool := decide (c.opcode = 0x2003)
  let hasW : Bool := decide (c.opcode = 0x2001) || (conv && decide (g.cv.dir ≤ 1))
  let hasM : Bool := decide (c.opcode = 0x2002) || (conv && decide (g.cv.dir = 2))
  let used := [(0x10, 0xC0), (0xD0, 2), (0xD5, 3)] ++ (if hasW then [(0xD2, 3)] else []) ++ (if hasM then [(0xD8, 2), (0xE0, 0x1C)] else [])
    ++ (if conv then [(0x100, 1), (0x102, 5), (0x108, 3), (0x10C, 3), (0x110, 3)] else [])
  let mask := c.fb 0xE0 47 0
  let meets (x : Td) : Option Nat := g.d.overlap x
  let met := lowerOf (lowerOf (meets g.a) (meets g.b))
    (lowerOf (if g.epi = 0 then none else meets g.e) (if hasM ∧ g.maskMode ≠ 0 then overlapAt g.d.base g.d.spanLen mask c.maskLen else none))
  Checks.all [lenIs c (if c.opcode = 0x2001 then 4 else 5), unlisted c used,
    tdChecks p true Fmt.engineA g.a, s.tdRange .compute g.a, tdChecks p true Fmt.engineB g.b, s.tdRange .compute g.b,
    tdChecks p false (fun f => if g.dmode = 1 then f = .fp32 else Fmt.engineA f) g.d, s.tdRange (if g.dmode = 1 then .apts else .compute) g.d,
    (if c.opcode = 0x2001 then matmulShape g else if conv then convShape c g else wgradShape g), epiChecks s c g,
    bitsZero p 0xD0 7 6, failRsv (c.fb 0xD0 5 4 = 3 ∨ g.passes = 0 ∨ (c.opcode ≠ 0x2001 ∧ c.fb 0xD0 3 2 ≠ 0)) 0xD0,
    bitsZero p 0xD1 7 4, failLen (g.mask = 0) 0xD1,
    (if hasW then failRsv (1 < c.f 0xD4 1 ∨ (c.f 0xD2 2 = 0xFFFF ∧ c.f 0xD4 1 ≠ 0)) 0xD4 else {}),
    (if hasM then Checks.all [failRsv (2 < g.maskMode) 0xD8, failRsv (1 < g.dmode) 0xD9, addrRsv p 0xE0,
        (if g.maskMode = 0 then mustZero p 0xE0 8 else s.addrCheck .compute c 0xE0 64 c.maskLen),
        (if g.dmode = 0 then mustZero p 0xE8 0x14 else {})] else {}),
    failFmt (2 ≤ g.passes ∧ g.a.fmt ≠ .fp32 ∧ g.b.fmt ≠ .fp32) 0x10,
    (if 2 ^ 24 < g.k ∧ 1 < g.s then { limit := [(0xD0, 0xD0)] } else {}),
    failAdrO met 0x70]

/-! ## Validation (R49, R62 to R64) -/

/-- MAX_FUNC of each class (R86). -/
def maxFunc : List Nat := [5, 6, 4, 6, 6, 7, 9, 5, 5, 5, 4, 5]

/-- Whether an opcode is implemented (R64): function 0 exists in class 0 alone. -/
def opcodeExists (op : Nat) : Bool :=
  decide (op / 4096 < 12 ∧ op % 4096 ≤ maxFunc.getD (op / 4096) 0) && (decide (op / 4096 = 0) || decide (op % 4096 ≠ 0))

/-- Whether a queue of a servicing region accepts an opcode (R49). -/
def accepts (region op : Nat) : Bool :=
  let h : Bool := decide (region = 8)
  match op / 4096 with
  | 0 | 1 | 8 | 11 => true
  | 2 | 3 | 4 => !h
  | 5 => h == decide (op = 0x5005 ∨ op = 0x5006)
  | _ => h

/-- The checks that an opcode puts on its packet. -/
def State.checksOf (s : State) (c : Cmd) : Checks :=
  match c.opcode with
  | 0x0000 | 0x0001 => checksNop c
  | 0x0002 | 0x0003 => checksWait s c
  | 0x0004 => checksQueryCaps s c
  | 0x0005 => checksBrake s c
  | 0x1001 => checksMove s c
  | 0x1002 => checksConvert s c
  | 0x1003 => checksFill s c
  | 0x1004 => checksGather s c
  | 0x1005 => checksScatter s c
  | 0x1006 => checksAccWrite s c
  | 0x2001 | 0x2002 | 0x2003 => checksMat s c
  | 0x2004 => checksCombine s c
  | 0x3001 => checksEltwise s c
  | 0x3002 => checksNorm s c
  | 0x3003 => checksActivate s c
  | 0x3004 => checksActivateGrad s c
  | 0x3005 => checksTableLoad s c
  | 0x3006 => checksReduce s c
  | 0x4001 => checksAttnFwd s c
  | 0x4002 => checksAttnBwd s c
  | 0x4003 => checksKvAppend s c
  | 0x4004 => checksPageCopy s c
  | 0x4005 => checksPageFree s c
  | 0x4006 => checksPoolCfg s c
  | 0x5001 | 0x5002 | 0x5003 => checksUpd s c
  | 0x5004 => checksGradClear s c
  | 0x5005 => checksCommitStep c
  | 0x5006 => checksStepReconcile s c
  | 0x5007 => checksTelemetryFlush c
  | 0x6001 | 0x6002 | 0x6003 | 0x6004 | 0x6005 => checksCollective s c
  | 0x6006 => checksLate c
  | 0x6007 => checksGroupLoad s c
  | 0x6008 => checksPhaseSelect c
  | 0x6009 => checksSliceFetch s c
  | 0x7001 => checksDecode s c
  | 0x7002 => checksTokenize s c
  | 0x7003 => checksDictLoad s c
  | 0x7004 => checksAssemble s c
  | 0x7005 => checksHopperTake s c
  | 0x8001 | 0x8002 | 0x8003 | 0x8004 => checksHint s c
  | 0x8005 => checksStream s c
  | 0x9001 => checksQueueSetup c
  | 0x9002 => checksQuarantine c
  | 0x9003 => checksPowerCap c
  | 0x9004 => checksPortCtl c
  | 0x9005 => checksErrorRingCfg s c
  | 0xA001 => checksMeasureExtend c
  | 0xA002 => checksAttest s c
  | 0xA003 => checksCertRead s c
  | 0xA004 => checksDebugUnlock s c
  | 0xB001 => checksTraceCfg s c
  | 0xB002 => checksTraceMark c
  | 0xB003 => checksCounterSnap s c
  | 0xB004 => checksFreeze c
  | 0xB005 => checksKatRun s c
  | _ => {}

/-- The header's own reserved bits (R58). -/
def headerChecks (c : Cmd) : Checks :=
  Checks.all [bitsZero c.pkt 0x0C 15 7, failRsv (¬ c.resume ∧ c.resumeSlot ≠ 0) 0x0C, mustZero c.pkt 0x0F 1]

/-- The code and DETAIL of the first check of R62 that a packet fails. -/
def State.decodeFault (s : State) (c : Cmd) : Option (Nat × Nat) :=
  let op := c.opcode
  if c.f 1 1 ≠ 1 ∧ op ≠ 0x0004 then some (0x0101, 0x01000100)
  else if ¬ opcodeExists op ∨ ¬ accepts (s.regionOf c.ref.q) op then some (0x0100, op)
  else (Checks.app (headerChecks c) (s.checksOf c)).first

/-! ## Fetch and the seal (R51, R52, R59 to R61) -/

/-- The slots of a ring from an index on, as spans. -/
def State.ringSpans (s : State) (q idx n : Nat) : List (Nat × Nat) :=
  (List.range n).map (fun k => (s.ringBase q + 64 * ((idx + k) % 2 ^ s.qLog q), 64))

/-- `n` slots of a ring from an index on. -/
def State.readRing (s : State) (q idx n : Nat) : Nat :=
  ((s.ringSpans q idx n).zipIdx).foldl (fun (a : Nat) p => a + s.readMem p.1.1 64 <<< (512 * p.2)) 0

/-- LEN of the packet at FETCH, if a packet of that length may stand there (R60). -/
def State.packetLen (s : State) (q : Nat) : Option Nat :=
  let qs := s.queue q
  let len := le (s.readRing q qs.fetch 1) 0xE 1
  if 1 ≤ len ∧ len ≤ 64 ∧ len ≤ sub32 (s.qTail q) qs.fetch then some len else none

/-- The spans of the packet at FETCH that are read: its first slot tells its length. -/
def State.packetSpans (s : State) (q : Nat) : List (Nat × Nat) := s.ringSpans q (s.queue q).fetch ((s.packetLen q).getD 1)

/-- The packet at FETCH with its LEN, if it matches its seal (R60). A packet that reads poisoned is judged by its seal alone (DESIGN CHOICE,
log 66). -/
def State.sealed (s : State) (q : Nat) : Option (Nat × Nat) :=
  match s.packetLen q with
  | none => none
  | some len =>
    let qs := s.queue q
    let p := s.readRing q qs.fetch len
    if le p 8 4 = qs.seq ∧ le p (64 * len - 8) 4 = qs.seq ∧ le p (64 * len - 4) 4 = crc32c p (64 * len - 4) then some (p, len) else none

/-- The command of a packet of a queue, validated: one that fails a check has ended with no effect (R62). -/
def State.decodeCmd (s : State) (q p len : Nat) : Cmd :=
  let c : Cmd := { ref := ⟨q, (s.queue q).fetch⟩, pkt := p, len := len, seen := s.time }
  match s.decodeFault c with
  | some (st, d) => { c with phase := .ended, status := st, detail := d }
  | none => c

/-- A matching packet is decoded: FETCH and the expected SEQ advance, and the queue runs. Class 0xA commands take their turn in the
order of their decoding (R438). -/
def State.takePacket (s : State) (q p len : Nat) : State :=
  let c := s.decodeCmd q p len
  let qs := s.queue q
  let s := (s.setQueue q { qs with fetch := (qs.fetch + len) % 2 ^ 32, seq := (qs.seq + 1) % 2 ^ 32, rereads := 0 }).setQState q 1
  let s := { s with cmds := s.cmds ++ [c] }
  if c.opcode / 4096 = 10 ∧ c.phase = .decoded then
    { s with sec := { s.sec with queue := s.sec.queue.filter (fun r => (s.cmd r).isSome) ++ [c.ref] } }
  else s

/-- Whether the command processor fetches and re-reads for a queue: a Freeze stops it but for the control queue (R470). -/
def State.fetches (s : State) (q : Nat) : Bool := s.running && (!s.frozen || s.isCtrl q)

/-- PACKET_FETCH: the packet at FETCH is read by ReadOnce (R48, R237, R238) and its seal checked; a mismatch begins the re-reads (R60, R61).
While a stack of the ring is in protective self-refresh the read waits (R248), and the event does not occur (log 2). -/
def execPacketFetch (q : Fin 256) (s : State) : Host.Outcome State Fault Refusal :=
  ok (if ¬ s.fetches q.val ∨ s.qState q.val ≠ 1 ∨ s.qTail q.val = (s.queue q.val).fetch ∨ s.asleep (s.packetSpans q.val) then s
    else
      let s := s.hubReads (s.packetSpans q.val)
      match s.sealed q.val with
      | some (p, len) => s.takePacket q.val p len
      | none => (s.setQueue q.val { s.queue q.val with rereads := 0 }).setQState q.val 2)

/-- The SEAL_TIMEOUT reply and the halt after the 64th failed re-read (R61, R74, R75). -/
def State.sealTimeout (s : State) (q : Nat) : State :=
  let qs := s.queue q
  let got := le (s.readRing q qs.fetch 1) 8 4
  (s.writeReply q qs.fetch (replyImage q (s.qLog q) qs.fetch qs.seq 0x0200 0 0 0 false true (got <<< 32 + qs.fetch) (s.now (ringOf (s.regionOf q))))).haltQueue q 0x0200

/-- SEAL_REREAD: the whole packet is read again (R61), or waits as in PACKET_FETCH; so does the reply to the last re-read. -/
def execSealReread (q : Fin 256) (s : State) : Host.Outcome State Fault Refusal :=
  ok (if ¬ s.fetches q.val ∨ s.qState q.val ≠ 2 ∨ s.asleep (s.packetSpans q.val ++ s.replySpans q.val (s.queue q.val).fetch) then s
    else
      let s := s.hubReads (s.packetSpans q.val)
      match s.sealed q.val with
      | some (p, len) => s.takePacket q.val p len
      | none =>
        let qs := s.queue q.val
        let s := s.setQueue q.val { qs with rereads := qs.rereads + 1 }
        if 64 ≤ qs.rereads + 1 then s.sealTimeout q.val else s)

/-! ## When a command may issue (R48, R67, R169, R193, R217, R218, R327, R340, R462, R466) -/

/-- The command of a queue whose turn it is to issue. -/
def State.issueHead (s : State) (q : Nat) : Option Cmd := (s.queueCmds q).find? (fun c => c.phase = .decoded)

/-- Whether a command is in progress: issued, and not yet ended. -/
def Cmd.inProgress (c : Cmd) : Bool := match c.phase with | .decoded | .ended | .completed => false | _ => true

/-- Whether a command holds the later ones of its queue: a WAIT, a take of the Hopper, or one that waits for an epoch. -/
def Cmd.holdsQueue (c : Cmd) : Bool :=
  c.inProgress && (decide (c.phase = .waiting ∨ c.opcode = 0x0002) || decide (c.opcode = 0x7005 ∧ c.f 0x10 1 = 0))

/-- Whether a command issues only when every earlier one of its queue has completed. -/
def Cmd.barred (c : Cmd) : Bool := c.barrier || decide (c.opcode = 0x0001 ∨ c.opcode = 0x0003 ∨ c.opcode = 0x5007)

/-- The storage slot of a unit that a command names: a function table of a region's vector unit, or a dictionary. -/
def State.slotNamed (s : State) (c : Cmd) : Option (Nat × Nat) :=
  match c.opcode with
  | 0x3003 => some (s.regionOf c.ref.q, c.f 0x70 1)
  | 0x3004 => some (s.regionOf c.ref.q, c.f 0xA0 1)
  | 0x3005 => some (s.regionOf c.ref.q, c.f 0x18 1)
  | 0x7002 | 0x7004 => some (8, c.dictSlot)
  | 0x7003 => some (8, c.f 0x18 1)
  | _ => none

/-- Whether a command loads the slot it names. -/
def Cmd.loadsSlot (c : Cmd) : Bool := decide (c.opcode = 0x3005 ∨ c.opcode = 0x7003)

/-- Whether the slot that a command names keeps it waiting: a load waits for the commands in progress that name it, and the others
for the loads decoded before them. -/
def State.slotTaken (s : State) (c : Cmd) : Bool :=
  match s.slotNamed c with
  | none => false
  | some k =>
    let same (x : Cmd) : Bool := decide (x.ref ≠ c.ref) && decide (s.slotNamed x = some k) && decide (x.phase ≠ .completed)
    (c.loadsSlot && s.cmds.any (fun x => same x && decide (x.phase ≠ .decoded)))
      || (s.cmds.takeWhile (fun x => x.ref ≠ c.ref)).any (fun x => same x && x.loadsSlot)

/-- The weight region and epoch that an engine command names (R123). -/
def Cmd.weightOf (c : Cmd) : Option (Nat × Nat) :=
  if (c.opcode = 0x2001 ∨ (c.opcode = 0x2003 ∧ c.f 0x100 1 ≤ 1)) ∧ c.f 0xD2 2 ≠ 0xFFFF then some (c.f 0xD2 2, c.f 0xD4 1) else none

/-- Whether a slice that writes the epoch a command names keeps it waiting (R218). -/
def State.epochBusy (s : State) (c : Cmd) : Bool := match c.weightOf with | some (w, e) => s.writerOf w e | none => false

/-- Whether a Brake or a Freeze lets a command issue: on the control queue, classes 0x0 and 0xB (R466). -/
def State.stopAllows (s : State) (c : Cmd) : Bool :=
  !(s.braking || s.frozen) || (s.isCtrl c.ref.q && decide (c.opcode / 4096 = 0 ∨ c.opcode / 4096 = 11))

/-- Whether the command whose turn it is may issue now. -/
def State.mayIssue (s : State) (c : Cmd) : Bool :=
  let earlier := (s.queueCmds c.ref.q).takeWhile (fun x => x.ref ≠ c.ref)
  s.running && s.stopAllows c && decide (s.qState c.ref.q ≠ 6) && !earlier.any Cmd.holdsQueue
    && (!c.barred || earlier.all (fun x => decide (x.phase = .completed))) && !s.slotTaken c

/-! ## What is checked at issue -/

/-- Where a command's AMAX_IDX stands (R151). -/
def amaxOff (op : Nat) : Option Nat :=
  match op with
  | 0x2001 | 0x2002 | 0x2003 => some 0xD6
  | 0x2004 => some 0x70
  | 0x3001 => some 0xAC
  | 0x3002 => some 0x132
  | 0x3003 => some 0x72
  | _ => none

/-- The AMAX word must lie in the interleaved range (R151). -/
def State.amaxChecks (s : State) (c : Cmd) : Checks :=
  match amaxOff c.opcode with
  | none => {}
  | some o =>
    let a := s.amaxWord (s.regionOf c.ref.q) (c.f o 2)
    failAdr (c.f o 2 ≠ 0xFFFF ∧ (s.spanFault .ilv a 4).isSome) o a

/-- What an engine command is refused for at issue (R149, R204, R482). -/
def State.engineChecks (s : State) (c : Cmd) : Checks :=
  let g := c.geo
  let region := s.regionOf c.ref.q
  let inService : Bool := (List.range 4).any (fun l => g.mask.testBit l && match s.physOf region l with
    | some p => decide (s.fld F.ENG_CTL_SVC_MODE (4 * region + p) = 0)
    | none => false)
  Checks.all [failRsv ((g.epi = 3 ∨ g.epi = 4) ∧ inService) 0xD5, failAdr (s.maskLost region g.mask) 0xD1 g.mask,
    if g.dmode = 1 then failAdrO (s.gradConflict g.d.base g.d.spanLen) 0x70 else {}]

/-- Checks of R62 that need what stands when a command issues. -/
def State.issueChecks (s : State) (c : Cmd) : Checks :=
  let scales := Checks.all ((tdOffsets c.opcode).map (fun o => failFmt (s.scaleEntry (tdAt c.pkt o)).2 o))
  let domain := failAdr (c.opcode / 4096 = 7 ∧ ¬ s.domOn 70) 0x10 70
  Checks.all [scales, domain, s.amaxChecks c, if c.opcode = 0x2001 ∨ c.opcode = 0x2002 ∨ c.opcode = 0x2003 then s.engineChecks c else {},
    if c.opcode = 0x5001 ∨ c.opcode = 0x5002 ∨ c.opcode = 0x5003 then s.updIssueChecks c else {}]

/-- The weight region entry and B's place in the copy named (R123, R215). -/
def State.weightFault (s : State) (c : Cmd) : Option (Nat × Nat) :=
  match c.weightOf with
  | none => none
  | some (w, e) =>
    match s.weightEntry w 0x00D2 with
    | .inr f => some f
    | .inl (ba, bb, n) =>
      let b := tdAt c.pkt 0x40
      (outside b.base b.spanLen (if e = 0 then ba else bb) n).map (fun a => (0x0104, a))

/-- The spans whose stacks the NOWAIT test of R248 looks at: a command's operand spans, and the ranges of the open streams that a STREAM
ADVANCE moves (R264). -/
def State.testedSpans (s : State) (c : Cmd) : List (Nat × Nat) :=
  c.operandSpans ++ if c.opcode = 0x8005 ∧ c.f 0x10 1 = 1 then
      (s.openOn (c.f 0x11 1)).map (fun p => (p.2.base, p.2.segments * p.2.segUnits * s.hintUnit p.2.base))
    else []

/-- What a command with NOWAIT ends with instead of waiting (R218, R248); to a take of the Hopper it does not apply (R340). -/
def State.nowaitFault (s : State) (c : Cmd) : Option (Nat × Nat) :=
  if ¬ c.nowait ∨ c.opcode = 0x7005 then none
  else match (if c.bulk then s.hotStack 3 (s.testedSpans c) else none) with
  | some st => some (0x0600, st)
  | none =>
    if s.epochBusy c then
      match c.weightOf with
      | some (w, _) => match s.weightEntry w 0x00D2 with | .inl (ba, _, _) => some (0x0400, ba) | .inr f => some f
      | none => none
    else none

/-- The status and DETAIL with which a command ends at issue. -/
def State.issueFault (s : State) (c : Cmd) : Option (Nat × Nat) :=
  if c.resume ∧ ¬ s.resumeOk c then some (0x0104, s.slotAddr c.ref.q c.resumeSlot)
  else match (s.issueChecks c).first with
  | some f => some f
  | none => match s.weightFault c with
    | some f => some f
    | none => match s.regionFault c with
      | some f => some f
      | none => s.nowaitFault c

/-! ## Issue -/

/-- The slots of the command that a RESUME packet continues pass to it (R85). Where that command is saved and still in progress, it goes on
beside the RESUME, with the work it had (DESIGN CHOICE, log 54). -/
def State.claimSlots (s : State) (c : Cmd) : State :=
  let qs := s.queue c.ref.q
  match qs.slots.find? (fun p => p.1 = c.resumeSlot) with
  | none => s
  | some (_, old) =>
    s.setQueue c.ref.q { qs with slots := qs.slots.map (fun p => if p.2.ref = old.ref ∧ p.2.kept = old.kept then (p.1, { p.2 with ref := c.ref, kept := none }) else p) }

/-- An engine command issues with the work it has: its references are taken, and its mask is read unless a poison hold holds the command
before its first read (R123, R129, R269). -/
def State.beginMat (s : State) (c : Cmd) (w : MatWork) : State :=
  let refs := match c.weightOf with | some (w, e) => [(w >>> 14, w % 0x4000, e)] | none => []
  let s := s.modCmd c.ref (fun x => { x with phase := .issued, refs := refs, work := .mat w })
  if c.held then s else s.readMask { c with work := .mat w } (fun s => s)

/-- An engine command issues: a RESUME takes up the saved work (R85). -/
def State.issueMat (s : State) (c : Cmd) : State :=
  if c.resume then
    match s.resumeWork c with
    | .inr a => s.finish c.ref 0x0104 a
    | .inl w => (s.claimSlots c).beginMat c w
  else s.beginMat c {}

/-- What a command does as it issues to its unit. -/
def State.issueWork (s : State) (c : Cmd) : State :=
  let r := c.ref
  let region := s.regionOf r.q
  let cl := c.opcode
  if cl = 0x2001 ∨ cl = 0x2002 ∨ cl = 0x2003 then s.issueMat c
  else if cl = 0x4001 then
    let s := s.phaseCmd r .issued
    if (attnP c.pkt 0x100).paged ∧ ¬ c.held then s.attnPin region c (fun s => s) else s
  else if cl = 0x4003 then (s.phaseCmd r .issued).kvIssue region c
  else if cl = 0x5001 ∨ cl = 0x5002 ∨ cl = 0x5003 then s.updIssue c
  else if cl = 0x7004 then
    let s := s.phaseCmd r .issued
    { s with input := { s.input with queue := s.input.queue ++ [r] } }
  else if (0x6001 ≤ cl ∧ cl ≤ 0x6005) ∨ cl = 0x6009 then
    match s.collIssue c with
    | .inl w => s.modCmd r (fun x => { x with phase := .issued, work := .coll w })
    | .inr (st, d) => s.finish r st d
  else s.phaseCmd r .issued

/-- What a command reads as it issues: the scale entries of its operands, and what a collective reads then (R189, R384, R391). -/
def State.issueSpans (s : State) (c : Cmd) : List (Nat × Nat) :=
  (tdOffsets c.opcode).flatMap (fun o => s.scaleSpans (tdAt c.pkt o)) ++ if c.opcode / 4096 = 6 ∧ c.opcode ≤ 0x6005 then s.collSpans c else []

/-- A command issues (R48): its ISSUE record, its reads at issue, which end it where they find poison (R269), its checks at issue, its scale
entries (R189), and its work; one that touches a held unit is held before its first read of an operand (R269). -/
def State.issue (s : State) (c : Cmd) : State :=
  let s := s.traceAs unitCmdProc 0x100 c.layer c.operator (c.tracePayload c.opcode) false
  let s := s.fetchSpans c.ref (s.issueSpans c)
  match (s.firstBad (s.issueSpans c)).elim (s.issueFault c) (fun pa => some (0x0300, pa)) with
  | some (st, d) => s.finish c.ref st d
  | none =>
    let entries := (tdOffsets c.opcode).filterMap (fun o => (s.scaleEntry (tdAt c.pkt o)).1)
    let held := s.heldNow c
    let s := s.modCmd c.ref (fun x => { x with scales := entries, held := held, ntel := s.ntelNow })
    s.issueWork { c with scales := entries, held := held, ntel := s.ntelNow }

/-- COMMAND_ISSUE: the command of a queue whose turn it is issues when nothing holds it (R48). -/
def execCommandIssue (q : Fin 256) (s : State) : Host.Outcome State Fault Refusal :=
  ok (match s.issueHead q.val with
    | none => s
    | some c => if ¬ s.mayIssue c ∨ (s.epochBusy c ∧ ¬ c.nowait ∧ (s.issueFault c).isNone) then s else s.issue c)

end Sys2Proof.Machine
end

