-- ==== Sys2Proof/Machine/Dispatch.lean ====
section
/-! DEFINITION. One arm per command: its meaning. -/
namespace Sys2Proof.Machine

/-- The effect of a command on everything but the queue. -/
def exec (i : Instr) (s : State) : Host.Outcome State Fault Refusal :=
  match i with
  | .registerWrite a pa size v => Sys2Proof.Machine.execRegisterWrite a pa size v s
  | .snapLowRead a pa => Sys2Proof.Machine.execSnapLowRead a pa s
  | .unpopulatedAccess a pa len k => Sys2Proof.Machine.execUnpopulatedAccess a pa len k s
  | .dbTailWrite q v => Sys2Proof.Machine.execDbTailWrite q v s
  | .qCtlEnable q => Sys2Proof.Machine.execQCtlEnable q s
  | .qCtlDisable q => Sys2Proof.Machine.execQCtlDisable q s
  | .qCtlRestart q => Sys2Proof.Machine.execQCtlRestart q s
  | .packetFetch q => Sys2Proof.Machine.execPacketFetch q s
  | .sealReread q => Sys2Proof.Machine.execSealReread q s
  | .commandIssue q => Sys2Proof.Machine.execCommandIssue q s
  | .commandComplete r => Sys2Proof.Machine.execCommandComplete r s
  | .nop r => Sys2Proof.Machine.execNop r s
  | .fence r => Sys2Proof.Machine.execFence r s
  | .wait r => Sys2Proof.Machine.execWait r s
  | .waitPoll r => Sys2Proof.Machine.execWaitPoll r s
  | .signal r => Sys2Proof.Machine.execSignal r s
  | .queryCaps r => Sys2Proof.Machine.execQueryCaps r s
  | .brake r => Sys2Proof.Machine.execBrake r s
  | .move r => Sys2Proof.Machine.execMove r s
  | .convert r => Sys2Proof.Machine.execConvert r s
  | .fill r => Sys2Proof.Machine.execFill r s
  | .gather r => Sys2Proof.Machine.execGather r s
  | .scatter r => Sys2Proof.Machine.execScatter r s
  | .accWrite r => Sys2Proof.Machine.execAccWrite r s
  | .accWriteLine stack => Sys2Proof.Machine.execAccWriteLine stack s
  | .matmul r => Sys2Proof.Machine.execMatmul r s
  | .matmulWgrad r => Sys2Proof.Machine.execMatmulWgrad r s
  | .conv r => Sys2Proof.Machine.execConv r s
  | .tileDispatch e => Sys2Proof.Machine.execTileDispatch e s
  | .frameGrant region => Sys2Proof.Machine.execFrameGrant region s
  | .kstepEnd e ev => Sys2Proof.Machine.execKstepEnd e ev s
  | .tileDrain e ev => Sys2Proof.Machine.execTileDrain e ev s
  | .preemption e => Sys2Proof.Machine.execPreemption e s
  | .contextSaveComplete e ev => Sys2Proof.Machine.execContextSaveComplete e ev s
  | .contextRestore e => Sys2Proof.Machine.execContextRestore e s
  | .combine r => Sys2Proof.Machine.execCombine r s
  | .eltwise r ev => Sys2Proof.Machine.execEltwise r ev s
  | .reduce r ev => Sys2Proof.Machine.execReduce r ev s
  | .norm r ev => Sys2Proof.Machine.execNorm r ev s
  | .activate r ev => Sys2Proof.Machine.execActivate r ev s
  | .activateGrad r ev => Sys2Proof.Machine.execActivateGrad r ev s
  | .tableLoad r => Sys2Proof.Machine.execTableLoad r s
  | .attnFwd r ev => Sys2Proof.Machine.execAttnFwd r ev s
  | .attnBwd r ev => Sys2Proof.Machine.execAttnBwd r ev s
  | .kvAppend r ev => Sys2Proof.Machine.execKvAppend r ev s
  | .pageCopy r => Sys2Proof.Machine.execPageCopy r s
  | .pageFree r => Sys2Proof.Machine.execPageFree r s
  | .poolCfg r => Sys2Proof.Machine.execPoolCfg r s
  | .updAdamw r ev => Sys2Proof.Machine.execUpdAdamw r ev s
  | .updSgdm r ev => Sys2Proof.Machine.execUpdSgdm r ev s
  | .updSignm r ev => Sys2Proof.Machine.execUpdSignm r ev s
  | .epochWaitEnd r evs => Sys2Proof.Machine.execEpochWaitEnd r s evs
  | .gradClear r => Sys2Proof.Machine.execGradClear r s
  | .commitStep r => Sys2Proof.Machine.execCommitStep r s
  | .stepReconcile r evs => Sys2Proof.Machine.execStepReconcile r s evs
  | .telemetryFlush r => Sys2Proof.Machine.execTelemetryFlush r s
  | .allreduce r => Sys2Proof.Machine.execAllreduce r s
  | .reduceScatter r => Sys2Proof.Machine.execReduceScatter r s
  | .allgather r => Sys2Proof.Machine.execAllgather r s
  | .broadcast r => Sys2Proof.Machine.execBroadcast r s
  | .permute r => Sys2Proof.Machine.execPermute r s
  | .late r => Sys2Proof.Machine.execLate r s
  | .groupLoad r => Sys2Proof.Machine.execGroupLoad r s
  | .phaseSelect r => Sys2Proof.Machine.execPhaseSelect r s
  | .sliceFetch r => Sys2Proof.Machine.execSliceFetch r s
  | .readyWordPoll r => Sys2Proof.Machine.execReadyWordPoll r s
  | .autoLate r => Sys2Proof.Machine.execAutoLate r s
  | .maskDeadline r => Sys2Proof.Machine.execMaskDeadline r s
  | .progressTimeout r => Sys2Proof.Machine.execProgressTimeout r s
  | .collectiveRetransmit r peer => Sys2Proof.Machine.execCollectiveRetransmit r peer s
  | .arrive p f => Sys2Proof.Machine.execArrive p f s
  | .lateFrame p f => Sys2Proof.Machine.execLateFrame p f s
  | .go p f => Sys2Proof.Machine.execGo p f s
  | .up p f => Sys2Proof.Machine.execUp p f s
  | .down p f => Sys2Proof.Machine.execDown p f s
  | .sideUp p f => Sys2Proof.Machine.execSideUp p f s
  | .sideDown p f => Sys2Proof.Machine.execSideDown p f s
  | .xfer p f => Sys2Proof.Machine.execXfer p f s
  | .collectiveAck p f => Sys2Proof.Machine.execCollectiveAck p f s
  | .fetchReq p f => Sys2Proof.Machine.execFetchReq p f s
  | .fetchData p f => Sys2Proof.Machine.execFetchData p f s
  | .fetchNak p f => Sys2Proof.Machine.execFetchNak p f s
  | .brakeFrame p f => Sys2Proof.Machine.execBrakeFrame p f s
  | .abort p f => Sys2Proof.Machine.execAbort p f s
  | .decode r => Sys2Proof.Machine.execDecode r s
  | .tokenize r => Sys2Proof.Machine.execTokenize r s
  | .dictLoad r => Sys2Proof.Machine.execDictLoad r s
  | .assemble r => Sys2Proof.Machine.execAssemble r s
  | .sampleDone lane ev => Sys2Proof.Machine.execSampleDone lane ev s
  | .textDone lane ev => Sys2Proof.Machine.execTextDone lane ev s
  | .hopperTake r => Sys2Proof.Machine.execHopperTake r s
  | .hopCtlEnable => Sys2Proof.Machine.execHopCtlEnable s
  | .hopCtlDisable => Sys2Proof.Machine.execHopCtlDisable s
  | .hoist r => Sys2Proof.Machine.execHoist r s
  | .lower r => Sys2Proof.Machine.execLower r s
  | .pin r => Sys2Proof.Machine.execPin r s
  | .unpin r => Sys2Proof.Machine.execUnpin r s
  | .stream r => Sys2Proof.Machine.execStream r s
  | .swapComplete ch => Sys2Proof.Machine.execSwapComplete ch s
  | .queueSetup r => Sys2Proof.Machine.execQueueSetup r s
  | .quarantine r => Sys2Proof.Machine.execQuarantine r s
  | .powerCap r => Sys2Proof.Machine.execPowerCap r s
  | .portCtl r => Sys2Proof.Machine.execPortCtl r s
  | .errorRingCfg r => Sys2Proof.Machine.execErrorRingCfg r s
  | .measureExtend r => Sys2Proof.Machine.execMeasureExtend r s
  | .attest r => Sys2Proof.Machine.execAttest r s
  | .certRead r => Sys2Proof.Machine.execCertRead r s
  | .debugUnlock r => Sys2Proof.Machine.execDebugUnlock r s
  | .traceCfg r => Sys2Proof.Machine.execTraceCfg r s
  | .traceMark r => Sys2Proof.Machine.execTraceMark r s
  | .counterSnap r => Sys2Proof.Machine.execCounterSnap r s
  | .counterSnapLatch r => Sys2Proof.Machine.execCounterSnapLatch r s
  | .freeze r => Sys2Proof.Machine.execFreeze r s
  | .katRun r faults => Sys2Proof.Machine.execKatRun r faults s
  | .burstSlot ch err => Sys2Proof.Machine.execBurstSlot ch err s
  | .refreshDue ch die bank => Sys2Proof.Machine.execRefreshDue ch die bank s
  | .refreshRateLower stack => Sys2Proof.Machine.execRefreshRateLower stack s
  | .scrubRead ch => Sys2Proof.Machine.execScrubRead ch s
  | .tenteringWindow ch k count => Sys2Proof.Machine.execTenteringWindow ch k count s
  | .stackThermalSample stack dies => Sys2Proof.Machine.execStackThermalSample stack dies s
  | .selfRefreshTimeout stack => Sys2Proof.Machine.execSelfRefreshTimeout stack s
  | .softRow a stack chan die bank row => Sys2Proof.Machine.execSoftRow a stack chan die bank row s
  | .hardRow a stack chan die bank row => Sys2Proof.Machine.execHardRow a stack chan die bank row s
  | .hardRowProgramDone stack => Sys2Proof.Machine.execHardRowProgramDone stack s
  | .undoSoft a stack chan die bank row => Sys2Proof.Machine.execUndoSoft a stack chan die bank row s
  | .laneCommit a stack chan => Sys2Proof.Machine.execLaneCommit a stack chan s
  | .chLaneMapWrite a ch v => Sys2Proof.Machine.execChLaneMapWrite a ch v s
  | .chStateWrite a ch v => Sys2Proof.Machine.execChStateWrite a ch v s
  | .mbistStart a v => Sys2Proof.Machine.execMbistStart a v s
  | .mbistDone rows lanes => Sys2Proof.Machine.execMbistDone rows lanes s
  | .poisonHold pa => Sys2Proof.Machine.execPoisonHold pa s
  | .holdRepairCheck region slot => Sys2Proof.Machine.execHoldRepairCheck region slot s
  | .rcHoldCtlRelease region slot => Sys2Proof.Machine.execRcHoldCtlRelease region slot s
  | .readShared k line ev => Sys2Proof.Machine.execReadShared k line s ev
  | .readUnique k line mask data zero ev => Sys2Proof.Machine.execReadUnique k line mask data s zero ev
  | .upgrade k line mask data zero ev => Sys2Proof.Machine.execUpgrade k line mask data s zero ev
  | .evict k line => Sys2Proof.Machine.execEvict k line s
  | .writeBack k line keep level => Sys2Proof.Machine.execWriteBack k line s keep level
  | .readOnce line ev cls => Sys2Proof.Machine.execReadOnce line s ev cls
  | .invWrite line data poison ev cls => Sys2Proof.Machine.execInvWrite line data poison s ev cls
  | .mergeWrite line mask data ev cls => Sys2Proof.Machine.execMergeWrite line mask data s ev cls
  | .homeAtomic line op ev cls => Sys2Proof.Machine.execHomeAtomic line op s ev cls
  | .transactionAck line => Sys2Proof.Machine.execTransactionAck line s
  | .snpShared k line => Sys2Proof.Machine.execSnpShared k line s
  | .snpUnique k line => Sys2Proof.Machine.execSnpUnique k line s
  | .snpOnce k line => Sys2Proof.Machine.execSnpOnce k line s
  | .snpInv k line => Sys2Proof.Machine.execSnpInv k line s
  | .snoopTimeout k line => Sys2Proof.Machine.execSnoopTimeout k line s
  | .agentAttach a k => Sys2Proof.Machine.execAgentAttach a k s
  | .agentDetach a k => Sys2Proof.Machine.execAgentDetach a k s
  | .detachComplete k => Sys2Proof.Machine.execDetachComplete k s
  | .corePoisonedAccess h k pa => Sys2Proof.Machine.execCorePoisonedAccess h k pa s
  | .cboInval h line => Sys2Proof.Machine.execCboInval h line s
  | .uvtopidWrite h v cycles => Sys2Proof.Machine.execUvtopidWrite h v cycles s
  | .coreCycleCharge h cycles => Sys2Proof.Machine.execCoreCycleCharge h cycles s
  | .timerCompare h => Sys2Proof.Machine.execTimerCompare h s
  | .clHartStart a h vec => Sys2Proof.Machine.execClHartStart a h vec s
  | .clHartStop a h => Sys2Proof.Machine.execClHartStop a h s
  | .hartStopAtWfi h => Sys2Proof.Machine.execHartStopAtWfi h s
  | .clCtlOffReq k => Sys2Proof.Machine.execClCtlOffReq k s
  | .clCtlOnReq k => Sys2Proof.Machine.execClCtlOnReq k s
  | .clDvfsReq k v => Sys2Proof.Machine.execClDvfsReq k v s
  | .dvfsChangeDone k => Sys2Proof.Machine.execDvfsChangeDone k s
  | .portTrainingDone p => Sys2Proof.Machine.execPortTrainingDone p s
  | .portLinkFault p => Sys2Proof.Machine.execPortLinkFault p s
  | .portFecFault p n => Sys2Proof.Machine.execPortFecFault p n s
  | .portAutoUpRetry p => Sys2Proof.Machine.execPortAutoUpRetry p s
  | .serdesAdaptWindow p corr lane => Sys2Proof.Machine.execSerdesAdaptWindow p corr s lane
  | .arpRequest p target sender mac h => Sys2Proof.Machine.execArpRequest p target sender mac s h
  | .neighborSolicitation p target sender mac h => Sys2Proof.Machine.execNeighborSolicitation p target sender mac s h
  | .icmpEchoRequest p f => Sys2Proof.Machine.execIcmpEchoRequest p f s
  | .unsupportedProtocolFrame p h len => Sys2Proof.Machine.execUnsupportedProtocolFrame p h len s
  | .pfcFrame p enable quanta h => Sys2Proof.Machine.execPfcFrame p enable quanta s h
  | .pfcPauseExpiry p prio => Sys2Proof.Machine.execPfcPauseExpiry p prio s
  | .pfcXoffRepeat p prio bytes => Sys2Proof.Machine.execPfcXoffRepeat p prio bytes s
  | .ptpEventMessage p seqId sent h => Sys2Proof.Machine.execPtpEventMessage p seqId s sent h
  | .roceSend p k => Sys2Proof.Machine.execRoceSend p k s
  | .rdmaWrite p k => Sys2Proof.Machine.execRdmaWrite p k s
  | .rdmaWriteImmediate p k => Sys2Proof.Machine.execRdmaWriteImmediate p k s
  | .rdmaRead p k => Sys2Proof.Machine.execRdmaRead p k s
  | .roceAck p qpn psn h => Sys2Proof.Machine.execRoceAck p qpn psn s h
  | .roceNak p qpn psn k h => Sys2Proof.Machine.execRoceNak p qpn psn k s h
  | .readResponse p k => Sys2Proof.Machine.execReadResponse p k s
  | .roceAckTimeout net qpn => Sys2Proof.Machine.execRoceAckTimeout net qpn s
  | .cnpReceived p qpn h => Sys2Proof.Machine.execCnpReceived p qpn s h
  | .netDbSend net v => Sys2Proof.Machine.execNetDbSend net v s
  | .netDbReceive net v => Sys2Proof.Machine.execNetDbReceive net v s
  | .ppsInEdge => Sys2Proof.Machine.execPpsInEdge s
  | .netTimeStepWrite a v => Sys2Proof.Machine.execNetTimeStepWrite a v s
  | .timeReplicaResync k => Sys2Proof.Machine.execTimeReplicaResync k s
  | .deviceStart env => Sys2Proof.Machine.execDeviceStart env s
  | .recoveryAnnounce => Sys2Proof.Machine.execRecoveryAnnounce s
  | .recoveryLinkTimeout => Sys2Proof.Machine.execRecoveryLinkTimeout s
  | .offer f => Sys2Proof.Machine.execOffer f s
  | .data f => Sys2Proof.Machine.execData f s
  | .done f => Sys2Proof.Machine.execDone f s
  | .vinLow mv => Sys2Proof.Machine.execVinLow mv s
  | .inputSag mv => Sys2Proof.Machine.execInputSag mv s
  | .overVoltage mv => Sys2Proof.Machine.execOverVoltage mv s
  | .pwrGoodLost => Sys2Proof.Machine.execPwrGoodLost s
  | .holdupEnd => Sys2Proof.Machine.execHoldupEnd s
  | .powerLoss mv => Sys2Proof.Machine.execPowerLoss mv s
  | .resetNAssert => Sys2Proof.Machine.execResetNAssert s
  | .resetNDeassert => Sys2Proof.Machine.execResetNDeassert s
  | .refclkLoss => Sys2Proof.Machine.execRefclkLoss s
  | .refclkReturn => Sys2Proof.Machine.execRefclkReturn s
  | .droopStretch d => Sys2Proof.Machine.execDroopStretch d s
  | .droopRecover d => Sys2Proof.Machine.execDroopRecover d s
  | .droopFatal d => Sys2Proof.Machine.execDroopFatal d s
  | .junctionSample t => Sys2Proof.Machine.execJunctionSample t s
  | .capEvaluation mw => Sys2Proof.Machine.execCapEvaluation mw s
  | .govDomOn a d => Sys2Proof.Machine.execGovDomOn a d s
  | .govDomOff a d => Sys2Proof.Machine.execGovDomOff a d s
  | .domainSwitchDone d => Sys2Proof.Machine.execDomainSwitchDone d s
  | .pmbusClearFaults => Sys2Proof.Machine.execPmbusClearFaults s
  | .pmbusMfrPowerCap v => Sys2Proof.Machine.execPmbusMfrPowerCap v s
  | .pmbusUnsupported code => Sys2Proof.Machine.execPmbusUnsupported code s
  | .d2dLaneSubstitution link lane => Sys2Proof.Machine.execD2dLaneSubstitution link lane s
  | .linkWidthLoss link => Sys2Proof.Machine.execLinkWidthLoss link s
  | .partLost part => Sys2Proof.Machine.execPartLost part s
  | .controllerFault region => Sys2Proof.Machine.execControllerFault region s
  | .fatalDeviceError f => Sys2Proof.Machine.execFatalDeviceError f s
  | .fatalReset => Sys2Proof.Machine.execFatalReset s
  | .secBootCtlRestart a => Sys2Proof.Machine.execSecBootCtlRestart a s
  | .updJrnlWrite a stack v => Sys2Proof.Machine.execUpdJrnlWrite a stack v s
  | .brakeTimeReached => Sys2Proof.Machine.execBrakeTimeReached s
  | .brakeCut => Sys2Proof.Machine.execBrakeCut s
  | .obsBrakeRelease => Sys2Proof.Machine.execObsBrakeRelease s
  | .obsBrakeCancel => Sys2Proof.Machine.execObsBrakeCancel s
  | .obsFrzFreeze => Sys2Proof.Machine.execObsFrzFreeze s
  | .freezeCapture => Sys2Proof.Machine.execFreezeCapture s
  | .obsFrzRelease => Sys2Proof.Machine.execObsFrzRelease s
  | .obsMarkWrite a v => Sys2Proof.Machine.execObsMarkWrite a v s
  | .obsProfSelWrite n v => Sys2Proof.Machine.execObsProfSelWrite n v s
  | .traceLineFlush ring => Sys2Proof.Machine.execTraceLineFlush ring s
  | .jtagDbgAuth k => Sys2Proof.Machine.execJtagDbgAuth k s
  | .jtagFabric k => Sys2Proof.Machine.execJtagFabric k s
  | .jtagStackRead ch off => Sys2Proof.Machine.execJtagStackRead ch off s
  | .ijtagAccess k => Sys2Proof.Machine.execIjtagAccess k s
  | .jtagExtest pins => Sys2Proof.Machine.execJtagExtest pins s
  | .mmioReadFault a pa size => Sys2Proof.Machine.execMmioReadFault a pa size s
  | .ppsOutPulse => Sys2Proof.Machine.execPpsOutPulse s
  | .modeMismatch p => Sys2Proof.Machine.execModeMismatch p s
  | .noPortUpTimeout r => Sys2Proof.Machine.execNoPortUpTimeout r s
  | .brakePfcRepeat => Sys2Proof.Machine.execBrakePfcRepeat s

end Sys2Proof.Machine
end

