-- ==== Sys2Proof/Safety.lean ====
section
/-! DEFINITION. What counts as a safe run, and the terms in which claims about commands are made. -/
namespace Sys2Proof

/-- An outcome that is a next state. -/
def Completes (o : Host.Outcome Machine.State Machine.Fault Machine.Refusal) : Prop := ∃ t, o = .next t

/-- A state whose step completes. -/
def Machine.State.Safe (s : Machine.State) : Prop := Completes (Machine.step s)

/-- A state from which every step of the first `n` completes. -/
def Machine.State.SafeFor : Nat → Machine.State → Prop
  | 0, _ => True
  | n + 1, s => ∃ t, Machine.step s = .next t ∧ SafeFor n t

namespace Machine

/-- Memory and flash are in their canonical form: equal contents are equal data. -/
structure State.Canonical (s : State) : Prop where
  mem   : Memory.wf s.mem = true
  flash : Tab.wf (fun _ => flashBlank) s.flash = true

/-- Memory as a program finds it without errors: no stored burst has an error or poison, no agent holds a line, no home is busy with a
line, and no scrub read waits at a channel. -/
structure State.Plain (s : State) : Prop where
  ecc    : s.ecc = []
  caches : s.caches = []
  homes  : s.homes = []
  scrubs : ∀ g, ∀ q ∈ (s.chan g).queue, q.op.isScrub = false

/-- No trace ring takes records: a record is only counted as suppressed. -/
def State.Untraced (s : State) : Prop := ∀ r, r < 5 → s.fld F.OBS_TRC_BASE_MODE r = 0

/-- Nothing observes: no trace ring takes records and no profiling counter counts. -/
structure State.Quiet (s : State) : Prop where
  trace : s.Untraced
  prof  : ∀ k, k < 80 → s.flag F.OBS_PROF_SEL_EN k = false

/-- A command of an opcode has issued to its unit, and nothing holds it: no poison hold, no hot stack, no home busy with a line of
its operands. -/
structure State.Ready (s : State) (r : CmdRef) (op : Nat) (c : Cmd) : Prop where
  cmd     : s.cmd r = some c
  opcode  : c.opcode = op
  phase   : c.phase = .issued
  held    : c.held = false
  running : s.running = true
  stalled : s.stalled c = false
  idle    : s.homeWaits c.operandSpans = false

/-- The same for a unit that a Freeze stops (R470): none is in force, and it is the turn of the command's queue at the unit (R47). -/
structure State.UnitReady (s : State) (r : CmdRef) (op : Nat) (c : Cmd) : Prop where
  ready  : s.Ready r op c
  frozen : s.frozen = false
  turn   : s.turn c = true

/-- A command has ended with a status code and a DETAIL; COMMAND_COMPLETE has still to report it. -/
def State.Ended (s : State) (r : CmdRef) (status detail : Nat) : Prop :=
  ∃ c, s.cmd r = some c ∧ c.phase = .ended ∧ c.status = status ∧ c.detail = detail

/-- A command stands in a phase. -/
def State.InPhase (s : State) (r : CmdRef) (p : Phase) : Prop := ∃ c, s.cmd r = some c ∧ c.phase = p

/-- The commands other than one are as before. -/
def State.OthersKept (s t : State) (r : CmdRef) : Prop := ∀ x, x ≠ r → t.cmd x = s.cmd x

/-! How much of a state two states share. -/

/-- The same but for the bytes of memory and the directory. -/
structure State.MemOnly (s t : State) : Prop where
  eq : t = { s with mem := t.mem, dir := t.dir }

/-- No counter has changed but those of the bytes on the die-to-die links (R448, indices 6 to 21 of the compatibility list). -/
def State.LinksOnly (s t : State) : Prop := ∀ k, k < 70 ∨ 86 ≤ k → Tab.get 0 t.counters k = Tab.get 0 s.counters k

/-- The same but for the commands in flight, and for what a command's use of its unit and of the links leaves behind: the turns of the
units (R47) and the bytes that the links counted. -/
structure State.CmdOnly (s t : State) : Prop where
  eq    : t = { s with cmds := t.cmds, lastAt := t.lastAt, counters := t.counters }
  links : s.LinksOnly t

/-- The same, but also for the bytes of memory and the directory. -/
structure State.CmdMemOnly (s t : State) : Prop where
  eq    : t = { s with cmds := t.cmds, lastAt := t.lastAt, counters := t.counters, mem := t.mem, dir := t.dir }
  links : s.LinksOnly t

/-- A data movement command gives no hint, or the Hoists are idle (R266). -/
def State.HintsReady (s : State) (c : Cmd) : Prop := c.f 0x71 1 = 0 ∨ ∀ st, (s.hoist st).hints = []

/-- The same but for registers. -/
structure State.RegOnly (s t : State) : Prop where
  eq : t = { s with regs := t.regs }

/-- The same but for the commands in flight, registers, the turns of the units and the bytes that the links counted. -/
structure State.CmdRegOnly (s t : State) : Prop where
  eq    : t = { s with cmds := t.cmds, lastAt := t.lastAt, counters := t.counters, regs := t.regs }
  links : s.LinksOnly t

/-- Every register but the listed ones is as before. -/
def State.RegsKept (s t : State) (l : List (Reg × Nat)) : Prop := ∀ q j, j < 4096 → (q, j) ∉ l → t.getR q j = s.getR q j

/-- `n` bytes of memory from an address hold a number, little-endian. -/
def State.BytesAre (s : State) (pa n v : Nat) : Prop := ∀ k, k < n → s.rawByte (pa + k) = (v >>> (8 * k)) % 256

/-- Every byte of memory outside a span is as before. -/
def State.BytesKept (s t : State) (pa n : Nat) : Prop := ∀ a, a < pa ∨ pa + n ≤ a → t.rawByte a = s.rawByte a

/-- A command has ended, and the other commands are as before. -/
def State.EndsAlone (s t : State) (r : CmdRef) (status detail : Nat) : Prop := t.Ended r status detail ∧ s.OthersKept t r

/-- A Brake in force has been released, and nothing that it held has gone on yet (R467): each FROZEN queue is back in the state it left, the
Brake is IDLE, and of what the commands hold only the times at which their timers run out have moved. -/
structure State.BrakeReleased (s u : State) : Prop where
  idle   : u.fld F.OBS_BRAKE_STATE 0 = 0 ∧ u.fld F.OBS_BRAKE_T_T 0 = 0 ∧ u.obs.brake = {}
  states : ∀ q : Fin 256, u.qState q = if s.qState q = 6 then (s.queue q).prior % 8 else s.qState q
  queues : u.queues = s.queues
  mem    : u.mem = s.mem
  phases : u.cmds.map (fun c => c.phase) = s.cmds.map (fun c => c.phase)

/-- The hold-up sequence of R411 has begun: the cause and the input voltage are noted, the fault output is asserted, nothing runs and
what the stacks held is lost (log 5); the flash is as before. -/
structure State.HeldUp (s t : State) (cause mv : Nat) : Prop where
  phase : t.pwr.phase = .holdup
  noted : t.pwr.cause = cause ∧ t.pwr.holdAt = s.time ∧ t.pwr.holdMv = mv
  fault : t.pwr.faultOut = true
  idle  : t.cmds = [] ∧ t.running = false
  flash : t.flash = s.flash
  lost  : ∀ a, t.rawByte a = 0

/-- A fatal device error has stopped a running device (R480): the fault output is asserted and the error is numbered; memory and, but
for the listed ones and those of the error, the Brake and the Freeze, every register are as before. -/
structure State.Stops (s t : State) (l : List (Reg × Nat)) : Prop where
  phase : t.pwr.phase = .fatal
  fault : t.pwr.faultOut = true
  rseq  : t.fld F.ERR_STATUS_RSEQ 0 = if s.fld F.ERR_STATUS_RSEQ 0 = 0xFFFFFFFF then 1 else s.fld F.ERR_STATUS_RSEQ 0 + 1
  halts : t.fld F.OBS_BRAKE_STATE 0 = 0 ∧ t.fld F.OBS_FRZ_STATE 0 = 0
  regs  : s.RegsKept t ([(.ERR_STATUS, 0), (.OBS_BRAKE, 0), (.OBS_FRZ, 0)] ++ l)
  cmds  : t.cmds = s.cmds

/-- A frame is one that its port accepts, of a priority that has room there (R347, R351). -/
structure State.Accepts (s : State) (p : Nat) (h : RxHdr) : Prop where
  mac  : ∀ m, h.dst = some m → s.macOk p m = true
  tag  : ∀ vid pcp, h.tag = some (vid, pcp) → vid = 0 ∨ vid = s.fld F.NET_CFG_VID (netOf p)
  len  : h.len ≤ 9216
  room : (s.fld F.PORT_PFC_EN p).testBit (RxHdr.prio h) = true ∨ s.bufferFull p = false

/-- A collective frame reaches the collective unit: an UP port of network A accepts it, its UDP port is CT_CFG.UDP_PORT and its checksum
holds (R347, R372). -/
structure State.TakesFrame (s : State) (p : Fin 4) (f : CFrame) : Prop where
  up     : s.takes p = true
  rx     : s.Accepts p.val f.rx
  port   : f.rx.dport = none ∨ f.rx.dport = some (s.fld F.CT_CFG_UDP_PORT 0)
  sum    : f.rx.sumOk = true

/-- Frames of a priority leave a port: no pause of it is in force, and none of them waits (R351). -/
structure State.Clear (s : State) (p prio : Nat) : Prop where
  pause : Tab.get 0 (s.port p).pausedTill prio ≤ s.time
  queue : ∀ y ∈ (s.port p).waiting, y.hdr.pcp ≠ prio

/-- No stack is in protective self-refresh (R248). -/
def State.Awake (s : State) : Prop := ∀ spans, s.asleep spans = false

/-- A collective as its issue leaves it: of its progress nothing has begun. -/
def Cmd.Fresh (c : Cmd) : Prop :=
  c.work = .coll { slot := c.cw.slot, group := c.cw.group, cfg := c.cw.cfg, staging := c.cw.staging, exps := c.cw.exps, ptab := c.cw.ptab }

/-- A collective frame as a port of network A puts it on the wire. -/
def State.collSent (s : State) (p : Nat) (f : CFrame) : Sent := s.framed (.coll p (s.pcpOf f.vc) f)

/-- A packet for a queue pair is taken: its port is UP and accepts the frame, its checksum holds, and the queue pair is in RTS, on stacks
cool enough for its network (R248, R347, R351, R353, R354). -/
structure State.RoceReady (s : State) (p q : Nat) (h : RxHdr) : Prop where
  port : s.portTakes p = true
  rx   : s.Accepts p h
  udp  : (h.dport = none ∨ h.dport = some 4791) ∧ h.sumOk = true
  pair : 2 ≤ q ∧ q < s.fld F.NET_QPT_COUNT (netOf p) ∧ (s.qp (netOf p) q).st = 1
  cool : s.netWaits (netOf p) (s.qpSpans (netOf p) q) = false

/-- An address of memory, not of a doorbell page. -/
def State.InMemory (s : State) (pa : Nat) : Prop := ∀ q off, rangeOf s.localGib pa ≠ .doorbell q off

/-- The field at `off` names a sequence whose descriptor and page table pass their checks (R178, R506). -/
structure State.SeqReady (s : State) (off a : Nat) (q : SeqD) : Prop where
  seq   : s.seqAt a = some q
  sound : s.seqFault off a = none
  place : s.spanFault .ilv a 64 = none

/-! Rows of a destination. -/

/-- A destination as the checks on a packet leave it: whole blocks and whole bytes in a row, and no two rows share a byte. -/
structure Td.Regular (d : Td) : Prop where
  blocks : d.e 0 % d.fmt.blockLen = 0
  bytes  : d.e 0 * d.fmt.elemBits % 8 = 0
  apart  : ∀ p ∈ d.rows, ∀ q ∈ d.rows, p ≠ q →
    d.rowAddr p.1 p.2.1 p.2.2 + d.rowLen ≤ d.rowAddr q.1 q.2.1 q.2.2 ∨ d.rowAddr q.1 q.2.1 q.2.2 + d.rowLen ≤ d.rowAddr p.1 p.2.1 p.2.2

/-- An address outside every row of a tensor. -/
def Td.Outside (d : Td) (a : Nat) : Prop := ∀ q ∈ d.rows, a < d.rowAddr q.1 q.2.1 q.2.2 ∨ d.rowAddr q.1 q.2.1 q.2.2 + d.rowLen ≤ a

/-- No two rows of two tensors share a byte. -/
def Td.Apart (a b : Td) : Prop := ∀ p ∈ a.rows, ∀ q ∈ b.rows,
  a.rowAddr p.1 p.2.1 p.2.2 + a.rowLen ≤ b.rowAddr q.1 q.2.1 q.2.2 ∨ b.rowAddr q.1 q.2.1 q.2.2 + b.rowLen ≤ a.rowAddr p.1 p.2.1 p.2.2

/-- Every row of a destination holds its values as the destination's format and overflow policy encode them. -/
def State.RowsHold (t : State) (c : Cmd) (d : Td) (val : Nat → Nat → Nat → List Val) : Prop :=
  ∀ q ∈ d.rows, t.BytesAre (d.rowAddr q.1 q.2.1 q.2.2) d.rowLen (c.encodeRowOf d q.1 q.2.1 q.2.2 (val q.1 q.2.1 q.2.2)).1

/-- A command that writes rows of values has ended with OK: its destination holds them, the AMAX word that its index names (none for
0xFFFF) has taken the largest magnitude, every other byte of memory is as before, its flags are added to those of its unit, and no
register but that one and the listed ones has changed. -/
structure State.RowsDone (s t : State) (r : CmdRef) (c : Cmd) (d : Td) (idx : Nat) (flags : Reg) (others : List (Reg × Nat))
    (val : Nat → Nat → Nat → List Val) : Prop where
  ended : s.EndsAlone t r 0 0
  rows  : t.RowsHold c d val
  amax  : idx ≠ 0xFFFF →
    let w := s.amaxWord (s.regionOf r.q) idx
    let b := (amaxBits ((d.rows.flatMap (fun q => val q.1 q.2.1 q.2.2)).foldl (fun a v => a.maxv v.abs) .zero)).1
    t.readMem w 4 = if s.readMem w 4 < b then b % 2 ^ 32 else s.readMem w 4
  kept  : ∀ a, d.Outside a → (idx = 0xFFFF ∨ a < s.amaxWord (s.regionOf r.q) idx ∨ s.amaxWord (s.regionOf r.q) idx + 4 ≤ a) →
    t.rawByte a = s.rawByte a
  flag  : ∃ fl : NumFlags, t.getR flags (s.regionOf r.q) = s.getR flags (s.regionOf r.q) ||| BitVec.ofNat 64 fl.toNat
  regs  : s.RegsKept t ((flags, s.regionOf r.q) :: others)

/-- A destination that can take its rows, with an AMAX word, if any, apart from them. -/
structure State.RowsReady (s : State) (r : CmdRef) (d : Td) (idx : Nat) : Prop where
  plain : s.Plain
  quiet : s.Quiet
  reg   : d.Regular
  word  : idx = 0xFFFF ∨ ∀ k, k < 4 → d.Outside (s.amaxWord (s.regionOf r.q) idx + k)

/-- A destination that a data mover can write. -/
structure State.MoverReady (s : State) (c : Cmd) (d : Td) : Prop where
  plain : s.Plain
  quiet : s.Quiet
  hints : s.HintsReady c
  reg   : d.Regular

/-- A data mover has ended with OK and changed no byte outside the rows of its destination and no register; without hints nothing but
memory has changed. -/
structure State.MoverDone (s t : State) (r : CmdRef) (c : Cmd) (d : Td) : Prop where
  ended : s.EndsAlone t r 0 0
  kept  : ∀ a, d.Outside a → t.rawByte a = s.rawByte a
  regs  : s.RegsKept t []
  only  : c.f 0x71 1 = 0 → s.CmdMemOnly t

/-- A MOVE, GATHER or SCATTER as its checks leave it, whose format has whole bytes and no blocks: every element of the source that it
takes lies in the source, and source and destination share no byte. -/
structure State.CopyReady (s : State) (c : Cmd) (op : Nat) (idx : List Nat) : Prop where
  mover  : s.MoverReady c (tdAt c.pkt 0x40)
  apart  : (tdAt c.pkt 0x10).Apart (tdAt c.pkt 0x40)
  same   : (tdAt c.pkt 0x10).fmtc = (tdAt c.pkt 0x40).fmtc
  flat   : (tdAt c.pkt 0x40).fmt.isBlock = false ∧ (tdAt c.pkt 0x40).fmt.rowed = false
  whole  : (tdAt c.pkt 0x40).fmt.elemBits % 8 = 0
  perm   : permOk (c.f 0x70 1) = true
  len    : permOf (c.f 0x70 1) 0 = 0 → (tdAt c.pkt 0x10).rowLen = (tdAt c.pkt 0x40).rowLen
  inside : ∀ i0 < (tdAt c.pkt 0x40).e 0, ∀ q ∈ (tdAt c.pkt 0x40).rows, ∀ e,
    sourceOf op (c.f 0x70 1) idx [i0, q.1, q.2.1, q.2.2] = some e →
    (e.getD 1 0, e.getD 2 0, e.getD 3 0) ∈ (tdAt c.pkt 0x10).rows ∧ e.getD 0 0 < (tdAt c.pkt 0x10).e 0

/-- A MOVE, GATHER or SCATTER has ended with OK: each element of its destination holds the bits of the source element that PERM and the
indices name, or its own where SCATTER gives it none. -/
structure State.Copied (s t : State) (r : CmdRef) (c : Cmd) (op : Nat) (idx : List Nat) : Prop where
  done  : s.MoverDone t r c (tdAt c.pkt 0x40)
  elems : let a := tdAt c.pkt 0x10
    let d := tdAt c.pkt 0x40
    let es := d.fmt.elemBits / 8
    ∀ i0 < d.e 0, ∀ q ∈ d.rows, t.readMem (d.rowAddr q.1 q.2.1 q.2.2 + es * i0) es =
      match sourceOf op (c.f 0x70 1) idx [i0, q.1, q.2.1, q.2.2] with
      | some e => s.readMem (a.rowAddr (e.getD 1 0) (e.getD 2 0) (e.getD 3 0) + es * e.getD 0 0) es
      | none => s.readMem (d.rowAddr q.1 q.2.1 q.2.2 + es * i0) es

end Machine
end Sys2Proof
end

