-- ==== Sys2Proof/Certificates/Slice0/Obligations.lean ====
section
/-! DEFINITION. What is claimed of the block, for its provers: the queue and the step, registers and memory, then each family of
commands. A command that is ready has issued to its unit and nothing holds it; a plain state has no memory errors and no cached lines. -/

open Sys2Proof Sys2Proof.Machine

/-! ## The step, memory and registers -/

/-- A step runs the command at the front of the queue on the state with the rest of the queue. -/
def Obligations.StepRunsFrontCommand : Prop :=
  ∀ (c : Instr) (s : State), step { s with pending := c :: s.pending } = exec c s

/-- With no command waiting the time base counts one nanosecond while REFCLK runs, and the fraction of one by which NET_TIME_ADJ.FREQ slews it
(R367, R451), and nothing else changes: the model's choice (log 1). The only command without a next state is OVER_VOLTAGE beyond the
absolute maximum of R495, which faults. -/
def Obligations.IdleTimePassesAndStopsAreRare : Prop :=
  (∀ s : State, s.pending = [] → s.pwr.timeFrac < 2 ^ 32 →
     let freq : Int := signed (s.fld F.NET_TIME_ADJ_FREQ 0) 32
     (s.pwr.refclk = true → ∃ n f : Nat, f < 2 ^ 32 ∧ ((2 ^ 32 * n + f : Nat) : Int) = (s.pwr.timeFrac : Int) + 2 ^ 32 + freq ∧
       step s = .next { s with time := s.time + n, pwr := { s.pwr with timeFrac := f } }) ∧
     (s.pwr.refclk = true → freq = 0 → step s = .next { s with time := s.time + 1 }) ∧
     (s.pwr.refclk = false → step s = .next s)) ∧
  (∀ (c : Instr) (s : State),
     (∀ mv, c = .overVoltage mv → 48000 < mv → exec c s = .fault .beyondAbsoluteMaximum) ∧
     ((∀ mv, c = .overVoltage mv → mv ≤ 48000) → Completes (exec c s)))

/-- Every step keeps memory and flash in their canonical form, takes at most the front command from the queue and never draws a free value
twice. -/
def Obligations.EveryStepKeepsCanonicalForm : Prop :=
  ∀ s t : State, step s = .next t →
    (s.Canonical → t.Canonical) ∧ t.pending = s.pending.tail ∧ s.draws ≤ t.draws

/-- The state after reset is canonical, no command waits, every register holds its reset word and no byte of memory is listed. -/
def Obligations.ResetIsCanonicalAndIdle : Prop :=
  State.reset.Canonical ∧ State.reset.pending = [] ∧ State.reset.running = true ∧
    (∀ r i, State.reset.getR r i = r.resetWord i) ∧ ∀ a, State.reset.rawByte a = 0

/-- In a plain state a write of memory is read back, every other byte is as before, and beside memory only the directory may change. -/
def Obligations.MemoryWriteIsReadBack : Prop :=
  ∀ (s : State) (pa v n : Nat), s.Plain →
    (s.writeMem pa v n).readMem pa n = v % 2 ^ (8 * n) ∧ (s.writeMem pa v n).BytesAre pa n v ∧ s.BytesKept (s.writeMem pa v n) pa n ∧
    s.MemOnly (s.writeMem pa v n)

/-- A register write treats each field by its access code (R6) and stores no reserved encoding (R9): of the bits of the mask, an RW field
takes those of the value, a W1C field loses those that are 1, and RO, WO and SNAP fields keep theirs. Bits of no field, every other
register and the rest of the state are as before, and so are the bits that a field's map reserves (R8). -/
def Obligations.RegisterWriteFollowsAccessCodes : Prop :=
  ∀ (s : State) (r : Reg) (i mask v : Nat), i < 4096 →
    let t := s.putFields r i mask v
    (∀ hi lo k, (hi, lo, Acc.rw) ∈ r.layout → lo ≤ k → k ≤ hi →
      let m := mask &&& (2 ^ 64 - 1 ^^^ reservedBits r lo <<< lo)
      (t.getR r i).getLsbD k =
        if reservedVal r lo (bits ((s.getR r i).toNat &&& (2 ^ 64 - 1 ^^^ m) ||| v &&& m) hi lo) then (s.getR r i).getLsbD k
        else if m.testBit k then v.testBit k else (s.getR r i).getLsbD k) ∧
    (∀ hi lo k, (hi, lo, Acc.w1c) ∈ r.layout → lo ≤ k → k ≤ hi →
      (t.getR r i).getLsbD k = ((s.getR r i).getLsbD k && !(mask.testBit k && v.testBit k))) ∧
    (∀ k, (∀ hi lo a, (hi, lo, a) ∈ r.layout → lo ≤ k → k ≤ hi → a ≠ .rw ∧ a ≠ .w1c) → (t.getR r i).getLsbD k = (s.getR r i).getLsbD k) ∧
    s.RegsKept t [(r, i)] ∧ s.RegOnly t

/-! ## Queues, packets and completion -/

/-- DB_TAIL_WRITE (R56): the four cases of a doorbell value v, with d = (v - TAIL) mod 2^32 and a = (v - HEAD) mod 2^32. COMMAND_ISSUE (R48,
R189, R269): the first decoded command of the queue issues when nothing holds it, with its scale entries read; one that reads poison then,
or is refused at issue, ends with its code. With BARRIER, and a FENCE or SIGNAL, it waits for every earlier command to complete. An
ASSEMBLE joins the queue of its unit (R336). -/
def Obligations.DoorbellsMoveTailAndCommandsIssue : Prop :=
  (∀ (q : Fin 256) (v : Nat) (s : State),
     let st := s.qState q
     let d := sub32 (v % 2 ^ 32) (s.qTail q)
     let a := sub32 (v % 2 ^ 32) (s.qHead q)
     ∃ t, exec (.dbTailWrite q v) s = .next t ∧
       ((st = 0 ∨ st = 3) →
         t.fld F.Q_STATE_DROPS q = min (s.fld F.Q_STATE_DROPS q + 1) 0xFFFF ∧ t.qState q = st ∧
         t.fld F.Q_STATE_LAST_STATUS q = s.fld F.Q_STATE_LAST_STATUS q ∧ s.RegsKept t [(.Q_STATE, q)] ∧ s.RegOnly t) ∧
       (st ≠ 0 ∧ st ≠ 3 → (d = 0 ∨ 2 ^ 31 ≤ d) → t = s) ∧
       (st ≠ 0 ∧ st ≠ 3 → (0 < d ∧ d < 2 ^ 31) → 2 ^ s.qLog q < a →
         t.qTail q = s.qTail q ∧ t.fld F.Q_STATE_DROPS q = min (s.fld F.Q_STATE_DROPS q + 1) 0xFFFF ∧
         t.fld F.Q_STATE_LAST_STATUS q = 0x0105 ∧
         t.qState q = (if st = 1 ∨ st = 2 then (if s.queueCmds q = [] then 5 else 4) else st) ∧
         s.RegsKept t [(.Q_STATE, q)] ∧ t = { s with regs := t.regs, queues := t.queues }) ∧
       (st ≠ 0 ∧ st ≠ 3 → (0 < d ∧ d < 2 ^ 31) → a ≤ 2 ^ s.qLog q →
         t.qTail q = v % 2 ^ 32 ∧ s.RegsKept t [(.Q_TAIL, q)] ∧ s.RegOnly t)) ∧
  (∀ (q : Fin 256) (s : State) (c : Cmd), s.issueHead q = some c → s.cmd c.ref = some c → c.ref.q = q →
     let v := s.traceAs unitCmdProc 0x100 c.layer c.operator (c.tracePayload c.opcode) false
     let u := v.fetchSpans c.ref (v.issueSpans c)
     let fault := match u.firstBad (u.issueSpans c) with | some pa => some (0x0300, pa) | none => u.issueFault c
     (s.mayIssue c = true → s.epochBusy c = false →
       (∀ st d, fault = some (st, d) → ∃ t, exec (.commandIssue q) s = .next t ∧ t.Ended c.ref st d ∧ u.EndsAlone t c.ref st d ∧
         u.CmdOnly t) ∧
       (fault = none → (c.opcode < 0x2000 ∨ 0x3000 ≤ c.opcode ∧ c.opcode < 0x4000 ∨ 0x7000 ≤ c.opcode ∨ c.opcode = 0x2004) →
         ∃ t d, exec (.commandIssue q) s = .next t ∧ t.cmd c.ref = some d ∧ d.phase = .issued ∧ d.pkt = c.pkt ∧
           d.held = u.heldNow c ∧ d.scales = (tdOffsets c.opcode).filterMap (fun o => (u.scaleEntry (tdAt c.pkt o)).1) ∧
           u.OthersKept t c.ref ∧ (c.opcode ≠ 0x7004 → u.CmdOnly t) ∧
           (c.opcode = 0x7004 → t.input.queue = u.input.queue ++ [c.ref] ∧ t.mem = u.mem ∧ t.regs = u.regs))) ∧
     ((c.barrier = true ∨ c.opcode = 0x0001 ∨ c.opcode = 0x0003) →
       (∃ e ∈ (s.queueCmds q).takeWhile (fun x => x.ref ≠ c.ref), e.phase ≠ .completed) → exec (.commandIssue q) s = .next s))

/-- Q_CTL.ENABLE (R50, R79): in DISABLED, with each area in the interleaved range, the queue runs from HEAD and the SEQ of Q_PTR; with an area
that is not, it stays DISABLED with LAST_STATUS BAD_ADDRESS; in any other state nothing happens. Q_CTL.DISABLE and Q_CTL.RESTART (R79,
R80): a queue with nothing in flight drains at once, one with a command that has yet to complete waits in DRAINING; RESTART resumes a
HALTED queue at the index and SEQ of Q_PTR and does nothing elsewhere. QUEUE_SETUP (R65): a queue that is not DISABLED refuses it; the
control byte 0x00 loads the six registers; 0x01 also checks the areas of R50 on the values of the body, in order, and enables the queue. -/
def Obligations.QueuesEnableDrainAndLoad : Prop :=
  (∀ (q : Fin 256) (s : State),
     let fits (a n : Nat) : Prop := a + n ≤ ilvTop s.localGib
     let good : Prop := fits (s.ringBase q) (64 * 2 ^ s.qLog q) ∧ fits (s.stsBase q) (32 * 2 ^ s.qLog q + 8) ∧
       (s.fld F.Q_CFG_CTX_SLOTS q = 0 ∨ fits (s.fld F.Q_CTX_BASE_BASE q <<< 16) (s.fld F.Q_CFG_CTX_SLOTS q * 0xA10000))
     ∃ t, exec (.qCtlEnable q) s = .next t ∧
       (s.qState q ≠ 0 → t = s) ∧
       (s.qState q = 0 → good → t.qState q = 1 ∧ t.qTail q = s.qHead q ∧ t.fld F.Q_STATE_DROPS q = 0 ∧
         t.fld F.Q_STATE_LAST_STATUS q = s.fld F.Q_STATE_LAST_STATUS q ∧
         (t.queue q).fetch = s.qHead q ∧ (t.queue q).seq = s.fld F.Q_PTR_SEQ q ∧
         s.RegsKept t [(.Q_STATE, q), (.Q_TAIL, q)] ∧ t = { s with regs := t.regs, queues := t.queues }) ∧
       (s.qState q = 0 → ¬ good → t.qState q = 0 ∧ t.fld F.Q_STATE_LAST_STATUS q = 0x0104 ∧
         t.fld F.Q_STATE_DROPS q = s.fld F.Q_STATE_DROPS q ∧ s.RegsKept t [(.Q_STATE, q)] ∧ s.RegOnly t)) ∧
  (∀ (q : Fin 256) (s : State),
     (s.qState q = 0 ∨ s.qState q = 3 → exec (.qCtlDisable q) s = .next s) ∧
     (s.qState q ≠ 0 → s.qState q ≠ 3 → (s.queueCmds q = [] ∨ ∃ c ∈ s.queueCmds q, c.phase = .issued ∨ c.phase = .decoded ∨ c.phase = .ended) →
       ∃ t, exec (.qCtlDisable q) s = .next t ∧ t.qState q = (if s.queueCmds q = [] then 0 else 3) ∧ t.cmds = s.cmds ∧
         t.qHead q = s.qHead q ∧ t.qTail q = s.qTail q ∧ s.RegsKept t [(.Q_STATE, q)] ∧ t = { s with regs := t.regs, queues := t.queues }) ∧
     (s.qState q = 5 → ∃ t, exec (.qCtlRestart q) s = .next t ∧ t.qState q = 1 ∧ (t.queue q).fetch = s.qHead q ∧
       (t.queue q).seq = s.fld F.Q_PTR_SEQ q ∧ (t.queue q).rereads = 0 ∧ s.RegsKept t [(.Q_STATE, q)] ∧
       t = { s with regs := t.regs, queues := t.queues }) ∧
     (s.qState q ≠ 5 → exec (.qCtlRestart q) s = .next s)) ∧
  (∀ (s : State) (r : CmdRef) (c : Cmd), s.Ready r 0x9001 c →
     let q := c.f 0x10 1
     let word (off : Nat) : BitVec 64 := BitVec.ofNat 64 (c.f off 8)
     ∃ t, exec (.queueSetup r) s = .next t ∧
       (s.qState q ≠ 0 → s.EndsAlone t r 0x0104 q ∧ s.CmdOnly t) ∧
       (s.qState q = 0 → c.f 0x48 1 = 0 → s.EndsAlone t r 0 0 ∧
         t.getR .Q_RING_BASE q = word 0x18 ∧ t.getR .Q_STS_BASE q = word 0x20 ∧ t.getR .Q_CTX_BASE q = word 0x28 ∧
         t.getR .Q_CFG q = word 0x30 ∧ t.getR .Q_PTR q = word 0x38 ∧ t.getR .Q_IRQ q = word 0x40 ∧ t.qState q = 0 ∧
         s.RegsKept t [(.Q_RING_BASE, q), (.Q_STS_BASE, q), (.Q_CTX_BASE, q), (.Q_CFG, q), (.Q_PTR, q), (.Q_IRQ, q)] ∧ s.CmdRegOnly t) ∧
       (s.qState q = 0 → c.f 0x48 1 = 1 → ∀ a, s.setupFault c.pkt 0x18 = some a → s.EndsAlone t r 0x0104 a ∧ s.CmdOnly t) ∧
       (s.qState q = 0 → c.f 0x48 1 = 1 → s.setupFault c.pkt 0x18 = none → s.EndsAlone t r 0 0 ∧
         t.getR .Q_RING_BASE q = word 0x18 ∧ t.getR .Q_STS_BASE q = word 0x20 ∧ t.getR .Q_CTX_BASE q = word 0x28 ∧
         t.getR .Q_CFG q = word 0x30 ∧ t.getR .Q_PTR q = word 0x38 ∧ t.getR .Q_IRQ q = word 0x40 ∧
         t.qState q = 1 ∧ t.qTail q = c.f 0x38 4 ∧ t.fld F.Q_STATE_DROPS q = 0 ∧ (t.queue q).fetch = c.f 0x38 4 ∧
         (t.queue q).seq = c.f 0x3C 4 ∧
         s.RegsKept t [(.Q_RING_BASE, q), (.Q_STS_BASE, q), (.Q_CTX_BASE, q), (.Q_CFG, q), (.Q_PTR, q), (.Q_IRQ, q), (.Q_TAIL, q), (.Q_STATE, q)]))

/-- PACKET_FETCH (R48, R60 to R62): the packet at FETCH is read, in the state `u` that the read leaves. One that matches its seal is decoded,
FETCH advances by LEN and the expected SEQ by 1; one that fails a check has ended with its code before any effect; one that does not match
puts the queue in SEAL_WAIT. While a stack of the ring is in protective self-refresh the read waits (R248). SEAL_REREAD (R61, R79): a
match lets the packet proceed; a mismatch counts, and the 64th writes SEAL_TIMEOUT to the packet's status entry with HALTED and halts the
queue. `u` is the state that the read leaves. -/
def Obligations.PacketsAreFetchedUnderTheirSeal : Prop :=
  (∀ (q : Fin 256) (s : State), s.fetches q = true → s.qState q = 1 → s.qTail q ≠ (s.queue q).fetch →
     let u := s.hubReads (s.packetSpans q)
     (s.asleep (s.packetSpans q) = true → exec (.packetFetch q) s = .next s) ∧
     (s.asleep (s.packetSpans q) = false → ∀ p len, u.sealed q = some (p, len) → ∃ t c, exec (.packetFetch q) s = .next t ∧ t.cmds = u.cmds ++ [c] ∧
       c.ref = ⟨q, (u.queue q).fetch⟩ ∧ c.pkt = p ∧ c.len = len ∧
       (match u.decodeFault c with | some (st, d) => c.phase = .ended ∧ c.status = st ∧ c.detail = d | none => c.phase = .decoded) ∧
       (t.queue q).fetch = ((u.queue q).fetch + len) % 2 ^ 32 ∧ (t.queue q).seq = ((u.queue q).seq + 1) % 2 ^ 32 ∧
       t.qState q = 1 ∧ u.RegsKept t [(.Q_STATE, q)] ∧
       t = { u with cmds := t.cmds, regs := t.regs, queues := t.queues, sec := { u.sec with queue := t.sec.queue } }) ∧
     (s.asleep (s.packetSpans q) = false → u.sealed q = none → ∃ t, exec (.packetFetch q) s = .next t ∧ t.qState q = 2 ∧ (t.queue q).rereads = 0 ∧
       (t.queue q).fetch = (u.queue q).fetch ∧ (t.queue q).seq = (u.queue q).seq ∧ u.RegsKept t [(.Q_STATE, q)] ∧
       t = { u with regs := t.regs, queues := t.queues })) ∧
  (∀ (q : Fin 256) (s : State), s.Plain → s.fetches q = true → s.qState q = 2 →
     s.asleep (s.packetSpans q ++ s.replySpans q (s.queue q).fetch) = false →
     let u := s.hubReads (s.packetSpans q)
     (∀ p len, u.sealed q = some (p, len) → ∃ t, exec (.sealReread q) s = .next t ∧ t.cmds = s.cmds ++ [u.decodeCmd q p len] ∧
       t.qState q = 1 ∧ (t.queue q).fetch = ((s.queue q).fetch + len) % 2 ^ 32 ∧ (t.queue q).rereads = 0) ∧
     (u.sealed q = none → (s.queue q).rereads + 1 < 64 →
       exec (.sealReread q) s = .next (u.setQueue q { s.queue q with rereads := (s.queue q).rereads + 1 })) ∧
     (u.sealed q = none → 64 ≤ (s.queue q).rereads + 1 → ∃ t, exec (.sealReread q) s = .next t ∧
       (let x := (s.queue q).fetch
        let a := s.stsBase q + 32 * (x % 2 ^ s.qLog q)
        t.BytesAre a 32 (replyImage q (s.qLog q) x (s.queue q).seq 0x0200 0 0 0 false true
          (le (s.readRing q x 1) 8 4 <<< 32 + x) (s.now (ringOf (s.regionOf q)))) ∧ s.BytesKept t a 32) ∧
       t.qState q = (if s.queueCmds q = [] then 5 else 4) ∧ t.fld F.Q_STATE_LAST_STATUS q = 0x0200 ∧ t.cmds = s.cmds ∧
       s.RegsKept t [(.Q_STATE, q)]))

/-- COMMAND_COMPLETE (R53, R54, R74, R78): the reply goes to the command's status entry unless QUIET suppresses it. Where every earlier
command of the queue has completed and the next one has not, HEAD passes it and the completion word carries its SEQ; where the oldest
command has not completed, HEAD stays. While the stack of the status ring is in protective self-refresh the writes wait (R248). -/
def Obligations.CompletionWritesReplyAndHead : Prop :=
  ∀ (s : State) (c : Cmd), s.Plain → s.cmd c.ref = some c → c.phase = .ended → s.running = true → c.ref.q < 256 → c.counts = [] →
    s.flag F.OBS_ACCT_EN 0 = false → s.fld F.OBS_TRC_BASE_MODE 4 = 0 → s.braking = false → s.qState c.ref.q = 1 →
    let q := c.ref.q
    let n := s.qLog q
    let reply := s.stsBase q + 32 * (c.ref.idx % 2 ^ n)
    let word := s.stsBase q + 32 * 2 ^ n
    let quiet := c.quiet && decide (c.report.1 = 0)
    (s.asleep (s.replySpans q c.ref.idx) = true → exec (.commandComplete c.ref) s = .next s) ∧
    (s.asleep (s.replySpans q c.ref.idx) = false → ∃ t, exec (.commandComplete c.ref) s = .next t ∧
      (quiet = false → t.BytesAre reply 32 (replyImage q n c.ref.idx c.seqNo c.report.1 c.opcode c.layer c.operator c.partialBit false
        c.report.2 (s.now (ringOf (s.regionOf q))))) ∧
      (∀ rest, s.queueCmds q = c :: rest → (∀ d ∈ rest.head?, d.phase ≠ .completed) → (∀ d ∈ rest, d.ref ≠ c.ref) →
        t.qHead q = (s.qHead q + c.len) % 2 ^ 32 ∧ t.fld F.Q_PTR_SEQ q = (s.fld F.Q_PTR_SEQ q + 1) % 2 ^ 32 ∧ t.cmd c.ref = none ∧
        t.BytesAre word 8 c.seqNo ∧
        ∀ a, (quiet = true ∨ a < reply ∨ reply + 32 ≤ a) → (a < word ∨ word + 8 ≤ a) → t.rawByte a = s.rawByte a) ∧
      (∀ d rest, s.queueCmds q = d :: rest → d.ref ≠ c.ref → d.phase ≠ .completed →
        t.qHead q = s.qHead q ∧ t.InPhase c.ref .completed ∧
        ∀ a, (quiet = true ∨ a < reply ∨ reply + 32 ≤ a) → t.rawByte a = s.rawByte a))

/-! ## Control packets -/

/-- NOP and FENCE complete with OK and touch nothing but their own command (R64, R67). WAIT and its later reads (R66, R67): the first read
that meets the condition completes it with the value read in DETAIL; until then it waits. A Brake holds it unless its queue is the control
queue. SIGNAL (R66, R67): MODE 0 writes VALUE to the word at ADDR, MODE 1 adds it modulo 2^64; it completes with OK, and no other byte,
register or command changes. QUERY_CAPS (R86) writes its 256 bytes, with the values of the VT8 at the offsets of the capability block, and
no other byte. -/
def Obligations.ControlPacketsComplete : Prop :=
  (∀ (s : State) (r : CmdRef) (c : Cmd),
     (s.Ready r 0x0000 c → ∃ t, exec (.nop r) s = .next t ∧ s.EndsAlone t r 0 0 ∧ s.CmdOnly t) ∧
     (s.Ready r 0x0001 c → ∃ t, exec (.fence r) s = .next t ∧ s.EndsAlone t r 0 0 ∧ s.CmdOnly t)) ∧
  (∀ (s : State) (r : CmdRef) (c : Cmd), s.Plain → s.heldAtCut r.q = false →
     let v := s.readMem (c.fb 0x10 47 0) 8
     let met : Prop := (c.f 0x20 1 = 0 ∧ c.f 0x18 8 ≤ v) ∨ (c.f 0x20 1 ≠ 0 ∧ v = c.f 0x18 8)
     (s.Ready r 0x0002 c → ∃ t, exec (.wait r) s = .next t ∧ (met → s.EndsAlone t r 0 v) ∧ (¬ met → t.InPhase r .waiting ∧ s.OthersKept t r) ∧
       s.CmdOnly t) ∧
     (s.cmd r = some c → c.opcode = 0x0002 → c.phase = .waiting → s.running = true → ∃ t, exec (.waitPoll r) s = .next t ∧
       (met → s.EndsAlone t r 0 v) ∧ (¬ met → t.InPhase r .waiting ∧ s.OthersKept t r) ∧ s.CmdOnly t)) ∧
  (∀ (s : State) (r : CmdRef) (c : Cmd), s.Plain → s.Ready r 0x0003 c →
     let a := c.fb 0x10 47 0
     let v := if c.f 0x20 1 = 0 then c.f 0x18 8 else (s.readMem a 8 + c.f 0x18 8) % 2 ^ 64
     ∃ t, exec (.signal r) s = .next t ∧ t.readMem a 8 = v ∧ s.BytesKept t a 8 ∧ s.EndsAlone t r 0 0 ∧ s.CmdMemOnly t) ∧
  (∀ (s : State) (r : CmdRef) (c : Cmd), s.Plain → s.Ready r 0x0004 c →
     ∃ t, exec (.queryCaps r) s = .next t ∧ s.BytesKept t (c.fb 0x10 47 0) 256 ∧ s.EndsAlone t r 0 0 ∧ s.CmdMemOnly t ∧
       let field (off n : Nat) := t.readMem (c.fb 0x10 47 0 + off) n
       field 1 1 = 1 ∧ field 0xC 1 = 4 ∧ field 0xD 1 = 4 ∧ field 0xE 1 = 32 ∧ field 0x10 2 = 256 ∧ field 0x14 1 = 6 ∧ field 0x15 1 = 20 ∧
       field 0x17 1 = s.localGib ∧ field 0x18 8 = 0xA10000 ∧ field 0x20 2 = 1792 ∧ field 0x22 2 = 2400 ∧ field 0x48 8 = 0x1F)

/-- Writes to the registers of a queue (R87, R88): the area, configuration and interrupt registers take a write only while the queue is
DISABLED, Q_PTR also while it is HALTED; a write of Q_CTL with one of its three bits acts, one with more than one has no effect. -/
def Obligations.QueueRegistersTakeWritesInTheirStates : Prop :=
  ∀ (s : State) (a : Agent) (pa size v : Nat) (r : Reg) (q : Fin 256), s.running = true → (∃ off, rangeOf s.localGib pa = .hub off) →
    Agent.reachesRegs a = true → (size = 4 ∨ size = 8) → pa % size = 0 → slotAt s.localGib pa = .reg r q → s.coreDenied a 7 pa size = false →
    let sh := 8 * (pa % 8)
    let put := s.putFields r q ((2 ^ (8 * size) - 1) <<< sh) ((v % 2 ^ (8 * size)) <<< sh)
    (r ∈ [.Q_RING_BASE, .Q_STS_BASE, .Q_CTX_BASE, .Q_CFG, .Q_IRQ] →
      (s.qState q = 0 → exec (.registerWrite a pa size v) s = .next put) ∧ (s.qState q ≠ 0 → exec (.registerWrite a pa size v) s = .next s)) ∧
    (r = .Q_PTR → (s.qState q = 0 ∨ s.qState q = 5 → exec (.registerWrite a pa size v) s = .next put) ∧
      (s.qState q ≠ 0 → s.qState q ≠ 5 → exec (.registerWrite a pa size v) s = .next s)) ∧
    (r = .Q_CTL → pa % 8 = 0 →
      (v % 8 = 1 → exec (.registerWrite a pa size v) s = exec (.qCtlEnable q) s) ∧ (v % 8 = 2 → exec (.registerWrite a pa size v) s = exec (.qCtlDisable q) s) ∧
      (v % 8 = 4 → exec (.registerWrite a pa size v) s = exec (.qCtlRestart q) s) ∧
      (v % 8 = 3 ∨ v % 8 = 5 ∨ v % 8 = 6 ∨ v % 8 = 7 → exec (.registerWrite a pa size v) s = .next s))

/-! ## Stops, trace and counters -/

/-- BRAKE (R461, R467, R468) answers a next state in every state of the Brake. MODE 0 in IDLE schedules T and RECORD, MODE 1 in SCHEDULED
cancels, MODE 2 in CUTTING or BRAKED releases; in another state the command ends with BAD_ADDRESS and the current T, or 0 for MODE 2.
Without GANG it ends with OK. With GANG it ends with BAD_ADDRESS, DETAIL 0, but on a gang master with a KIND 5 group loaded, where MODE 0
and MODE 2 run on until the members have answered its BRAKE frames. -/
def Obligations.BrakeCommandChecksItsState : Prop :=
  ∀ (s : State) (r : CmdRef) (c : Cmd), s.Ready r 0x0005 c → s.Untraced →
    let st := s.fld F.OBS_BRAKE_STATE 0
    let mode := c.f 0x10 1
    let gang : Prop := c.f 0x11 1 = 1
    let able : Prop := gang → s.fld F.CT_STATUS_GANG_ROLE 0 = 1 ∧ s.gangGroup ≠ none
    ∃ t, exec (.brake r) s = .next t ∧
      ((mode = 0 ∧ st ≠ 0) ∨ (mode = 1 ∧ st ≠ 1) → s.EndsAlone t r 0x0104 (s.fld F.OBS_BRAKE_T_T 0) ∧ s.CmdOnly t) ∧
      (mode = 2 → st < 2 → s.EndsAlone t r 0x0104 0 ∧ s.CmdOnly t) ∧
      ((mode = 0 ∧ st = 0) ∨ (mode = 1 ∧ st = 1) ∨ (mode = 2 ∧ 2 ≤ st) → ¬ able → s.EndsAlone t r 0x0104 0 ∧ s.CmdOnly t) ∧
      (mode = 0 → st = 0 → able → t.fld F.OBS_BRAKE_STATE 0 = 1 ∧ t.fld F.OBS_BRAKE_T_T 0 = c.f 0x18 8 ∧
        t.fld F.OBS_BRAKE_GANG 0 = (if c.f 0x11 1 = 1 then 1 else 0) ∧ t.obs.brake = { record := c.fb 0x20 47 0 } ∧
        s.RegsKept t [(.OBS_BRAKE, 0), (.OBS_BRAKE_T, 0), (.OBS_STATUS, 0)] ∧ t.mem = s.mem ∧ t.queues = s.queues ∧ s.OthersKept t r ∧
        (¬ gang → t.Ended r 0 0 ∧ t.tx = s.tx) ∧
        (gang → ∀ g, s.gangGroup = some g → (List.range g.n).filter (· ≠ g.rank) ≠ [] → ∃ d, t.cmd r = some d ∧ d.phase = .running ∧
          d.work = .gang (c.f 0x18 8) (((List.range g.n).filter (· ≠ g.rank)).map (fun i => (i, 0))) s.time)) ∧
      (mode = 1 → st = 1 → able → s.EndsAlone t r 0 0 ∧ t.fld F.OBS_BRAKE_STATE 0 = 0 ∧ t.fld F.OBS_BRAKE_T_T 0 = 0 ∧
        s.RegsKept t [(.OBS_BRAKE, 0), (.OBS_BRAKE_T, 0)] ∧ t.mem = s.mem ∧ t.queues = s.queues) ∧
      (mode = 2 → 2 ≤ st → able → ∃ u, s.BrakeReleased u ∧ t = if c.f 0x11 1 = 1 then u.resumeAll.gangSend c 0 else u.resumeAll.finish r 0 0)

/-- OBS_BRAKE_RELEASE and OBS_BRAKE_CANCEL (R461, R467, R474) answer a next state in every state of a running device. RELEASE acts in CUTTING
and BRAKED: each FROZEN queue returns to the state it left, STATE is IDLE, and from that state everything that was held goes on. CANCEL
acts in SCHEDULED: the Brake is IDLE and nothing else changes. In every other state each leaves the device as it is. -/
def Obligations.BrakeReleaseReturnsQueues : Prop :=
  ∀ s : State, s.running = true → s.Untraced →
    (∃ t, exec .obsBrakeRelease s = .next t ∧
      (s.fld F.OBS_BRAKE_STATE 0 < 2 → t = s) ∧
      (2 ≤ s.fld F.OBS_BRAKE_STATE 0 → ∃ u, s.BrakeReleased u ∧ t = u.resumeAll)) ∧
    (∃ t, exec .obsBrakeCancel s = .next t ∧
      (s.fld F.OBS_BRAKE_STATE 0 ≠ 1 → t = s) ∧
      (s.fld F.OBS_BRAKE_STATE 0 = 1 → t.fld F.OBS_BRAKE_STATE 0 = 0 ∧ t.fld F.OBS_BRAKE_T_T 0 = 0 ∧
        t.fld F.OBS_BRAKE_GANG 0 = 0 ∧ t.fld F.OBS_BRAKE_LATE_START 0 = 0 ∧ s.RegsKept t [(.OBS_BRAKE, 0), (.OBS_BRAKE_T, 0)] ∧
        t = { s with regs := t.regs, obs := { s.obs with brake := {} } }))

/-- BRAKE_TIME_REACHED (R462, R464): at T, STATE becomes CUTTING, every queue in RUNNING or SEAL_WAIT but the control queue becomes FROZEN and
keeps what it left, and the commands issued before T are noted. Before T nothing happens. BRAKE_CUT (R465): once every command issued
before T has completed or stands at its checkpoint, the record is written unless RECORD is 0 and STATE is BRAKED, with APLIC source 5
asserted; until then nothing happens. BRAKE_PFC_REPEAT (R464): quanta 0xFFFF on every enabled priority of network A's UP ports but that of
CTRL_VC. BRAKE_FRAME (R396, R468): taken from rank 0 of the loaded KIND 5 group, acknowledged, and acted on once. T = 0 releases the
member; a later T schedules its Brake, and a T that has passed is applied at once with LATE_START; while a Brake is in force it is
ignored. -/
def Obligations.BrakeCutsFreezesAndRecords : Prop :=
  (∀ s : State, s.running = true → s.fld F.OBS_BRAKE_STATE 0 = 1 →
     (s.time < s.fld F.OBS_BRAKE_T_T 0 → exec .brakeTimeReached s = .next s) ∧
     (s.fld F.OBS_BRAKE_T_T 0 ≤ s.time → ∃ t, exec .brakeTimeReached s = .next t ∧ t.fld F.OBS_BRAKE_STATE 0 = 2 ∧ t.obs.brake.start = s.time ∧
       (∀ q : Fin 256, (s.qState q = 1 ∨ s.qState q = 2) → s.isCtrl q = false →
         t.qState q = 6 ∧ t.queue q = { s.queue q with prior := s.qState q }) ∧
       (∀ q : Fin 256, ((s.qState q ≠ 1 ∧ s.qState q ≠ 2) ∨ s.isCtrl q = true) → t.qState q = s.qState q ∧ t.queue q = s.queue q) ∧
       t.obs.brake.issuedBefore = (s.cmds.filter (fun c => decide (c.ref.q < 256 ∧ c.phase ≠ .decoded ∧ c.phase ≠ .completed))).map (·.ref) ∧
       t.cmds = s.cmds ∧ t.mem = s.mem)) ∧
  (∀ s : State, s.Plain → s.Untraced → s.running = true →
     (s.fld F.OBS_BRAKE_STATE 0 = 2 → s.frozen = false → (∀ r ∈ s.obs.brake.issuedBefore, s.atCut r = true) →
       ∃ t, exec .brakeCut s = .next t ∧ t.fld F.OBS_BRAKE_STATE 0 = 3 ∧ t.source 5 = true ∧
         (if s.obs.brake.record = 0 then t.mem = s.mem
          else t.BytesAre s.obs.brake.record 64 s.brakeRecord ∧ s.BytesKept t s.obs.brake.record 64) ∧
         s.RegsKept t [(.OBS_BRAKE, 0), (.OBS_STATUS, 0)] ∧ t.cmds = s.cmds ∧ t.queues = s.queues) ∧
     (s.fld F.OBS_BRAKE_STATE 0 ≠ 2 ∨ s.frozen = true ∨ (∃ r ∈ s.obs.brake.issuedBefore, s.atCut r = false) →
       exec .brakeCut s = .next s) ∧
     (s.braking = true → exec .brakePfcRepeat s = .next { s with tx := s.tx ++ (List.range 4).flatMap (fun p =>
       if s.portUp p then ((List.range 8).filter (fun k => (s.fld F.PORT_PFC_EN p).testBit k ∧ k ≠ s.pcpOf (s.fld F.CT_CFG_CTRL_VC 0))).map
         (fun k => s.framed (.pfc p k 0xFFFF)) else []) })) ∧
  (∀ (p : Fin 4) (f : CFrame) (s : State) (g : Group), s.TakesFrame p f → f.major = 1 → f.typ = 13 → f.src = 0 →
     s.groups.find? (fun g => decide (g.kind = 5 ∧ g.gid = f.gid)) = some g →
     let a := s.sendAck (CFrame.key f) f.vc g.rank 0 1 (s.fld F.CT_CFG_WINDOW 0)
     let u : State := { a with coll := { a.coll with ended := (CFrame.key f :: a.coll.ended).take 64 } }
     let t0 := le f.data 0 8
     (a.coll.ended.contains (CFrame.key f) = true → exec (.brakeFrame p f) s = .next a) ∧
     (a.coll.ended.contains (CFrame.key f) = false → t0 = 0 → exec (.brakeFrame p f) s = .next u.releaseBrake) ∧
     (a.coll.ended.contains (CFrame.key f) = false → t0 ≠ 0 → a.braking = true → exec (.brakeFrame p f) s = .next u) ∧
     (a.coll.ended.contains (CFrame.key f) = false → t0 ≠ 0 → a.braking = false → ∃ t, exec (.brakeFrame p f) s = .next t ∧
       t.fld F.OBS_BRAKE_T_T 0 = t0 ∧ t.fld F.OBS_BRAKE_GANG 0 = 1 ∧
       (a.Untraced → s.time < t0 → t.fld F.OBS_BRAKE_STATE 0 = 1) ∧
       (t0 ≤ s.time → t.fld F.OBS_BRAKE_STATE 0 = 2 ∧ t.fld F.OBS_BRAKE_LATE_START 0 = 1)))

/-- FREEZE and OBS_FRZ (R470, R472): with a capture area, MODE 0 where no Freeze is in force stops the listed units, and MODE 1 under a Freeze
releases it; every other use of the command ends with BAD_ADDRESS, DETAIL 0. The register bits act in the same states. FREEZE_CAPTURE
(R471): every unit that did not stop gets an all-zero record at BASE + 64 (256 r + u), STATE becomes CAPTURED, and no byte outside the
capture area changes. -/
def Obligations.FreezeStopsCapturesAndReleases : Prop :=
  (∀ (s : State) (r : CmdRef) (c : Cmd), s.Untraced → s.running = true →
     (s.Ready r 0xB004 c → ∃ t, exec (.freeze r) s = .next t ∧
       (s.fld F.OBS_FRZ_BASE 0 = 0 ∨ (c.f 0x10 1 = 0 ∧ s.frozen = true) ∨ (c.f 0x10 1 = 1 ∧ s.frozen = false) →
         s.EndsAlone t r 0x0104 0 ∧ s.CmdOnly t) ∧
       (s.fld F.OBS_FRZ_BASE 0 ≠ 0 → c.f 0x10 1 = 1 → s.frozen = true → ∃ u : State, t = u.resumeAll.finish r 0 0 ∧ u.frozen = false) ∧
       (s.fld F.OBS_FRZ_BASE 0 ≠ 0 → c.f 0x10 1 = 0 → s.frozen = false → s.EndsAlone t r 0 0 ∧ t.frozen = true ∧ t.fld F.OBS_FRZ_STATE 0 = 1 ∧
         t.obs.frzAt = s.time ∧ (∀ u ∈ t.obs.frzUnits, u ∈ freezeUnits) ∧ t.mem = s.mem ∧ t.queues = s.queues ∧
         s.RegsKept t [(.OBS_FRZ, 0), (.OBS_STATUS, 0)])) ∧
     (s.frozen = false → exec .obsFrzRelease s = .next s ∧ ∃ t, exec .obsFrzFreeze s = .next t ∧ t.frozen = true ∧ t.obs.frzAt = s.time ∧
       t.cmds = s.cmds ∧ t.mem = s.mem ∧ s.RegsKept t [(.OBS_FRZ, 0), (.OBS_STATUS, 0)]) ∧
     (s.frozen = true → exec .obsFrzFreeze s = .next s ∧ ∃ u : State, exec .obsFrzRelease s = .next u.resumeAll ∧ u.frozen = false ∧
       ((∀ x ∈ s.obs.txHeld, s.pausedAt x = false) → u.tx = s.tx ++ s.obs.txHeld) ∧ u.obs.txHeld = [] ∧ u.obs.frzUnits = [] ∧ u.cmds = s.cmds ∧ u.mem = s.mem)) ∧
  (∀ s : State, s.Plain → s.running = true → s.fld F.OBS_FRZ_STATE 0 = 1 → s.fld F.OBS_FRZ_BASE 0 ≠ 0 →
     let base := s.fld F.OBS_FRZ_BASE 0 <<< 16
     ∃ t, exec .freezeCapture s = .next t ∧ t.fld F.OBS_FRZ_STATE 0 = 2 ∧
       (∀ u ∈ allUnits, u ∉ s.obs.frzUnits → t.BytesAre (base + 64 * (256 * ringOf (u / 256) + u % 256)) 64 0) ∧
       (∀ a, a < base ∨ base + 64 * 1280 ≤ a → t.rawByte a = s.rawByte a) ∧
       s.RegsKept t [(.OBS_FRZ, 0)] ∧ t.cmds = s.cmds)

/-- TRACE_CFG (R458): the ring named, or all five for 0xFF, takes MODE, SIZE_LOG2, CLASS_MASK, THRESH and BASE with PROD, CONS and DROPS 0;
the records queued stay queued. TRACE_LINE_FLUSH (R458): the records gathered go to the ring, PROD advances by their number, and the ring
holds none. -/
def Obligations.TraceRingsAreSetUpAndFlushed : Prop :=
  (∀ (s : State) (r : CmdRef) (c : Cmd), s.Ready r 0xB001 c → (c.f 0x10 1 ≤ 4 ∨ c.f 0x10 1 = 0xFF) →
     ∃ t, exec (.traceCfg r) s = .next t ∧ s.EndsAlone t r 0 0 ∧
       (∀ k, k ≤ 4 → (c.f 0x10 1 = k ∨ c.f 0x10 1 = 0xFF) →
         t.fld F.OBS_TRC_BASE_MODE k = c.f 0x11 1 % 4 ∧ t.fld F.OBS_TRC_BASE_SIZE_LOG2 k = c.f 0x12 1 % 32 ∧
         t.fld F.OBS_TRC_BASE_BASE k = c.fb 0x20 47 6 ∧ t.fld F.OBS_TRC_PTR_PROD k = 0 ∧ t.fld F.OBS_TRC_PTR_CONS k = 0 ∧
         t.fld F.OBS_TRC_CFG_DROPS k = 0 ∧ t.fld F.OBS_TRC_CFG_CLASS_MASK k = c.f 0x14 2) ∧
       (c.f 0x10 1 ≤ 4 → s.RegsKept t [(.OBS_TRC_BASE, c.f 0x10 1), (.OBS_TRC_PTR, c.f 0x10 1), (.OBS_TRC_CFG, c.f 0x10 1)]) ∧ t.obs = s.obs ∧ t.mem = s.mem) ∧
  (∀ (ring : Fin 5) (s : State) (b : Nat), s.Plain → s.running = true →
     (Tab.get ({} : TraceRing) s.obs.rings ring).queued = [b] →
     let a := s.fld F.OBS_TRC_BASE_BASE ring <<< 6 + 32 * (s.fld F.OBS_TRC_PTR_PROD ring % 2 ^ s.fld F.OBS_TRC_BASE_SIZE_LOG2 ring)
     ∃ t, exec (.traceLineFlush ring) s = .next t ∧ (Tab.get ({} : TraceRing) t.obs.rings ring).queued = [] ∧
       t.fld F.OBS_TRC_PTR_PROD ring = (s.fld F.OBS_TRC_PTR_PROD ring + 1) % 2 ^ 25 ∧ t.BytesAre a 32 b ∧ s.BytesKept t a 32 ∧
       s.RegsKept t [(.OBS_TRC_PTR, ring)] ∧ t.cmds = s.cmds)

/-- A record (R454, R457, R458, R460) of TRACE_MARK or of a write of OBS_MARK: where the ring takes no records of its class it is counted as
suppressed; in WRAP, where it does not complete a line, it is queued with its time, unit, event, keys and payload. OBS_PROF_SEL (R445,
R474): a selection of a listed signal of a unit of the counter's ring is stored and clears its count; any other is not stored.
COUNTER_SNAP (R447): it waits for AT, at least 2 µs after issue; then the header and the counters selected are written and it ends. -/
def Obligations.MarksAndCountersAreRecorded : Prop :=
  (∀ (s : State) (r : CmdRef) (c : Cmd) (a : Agent) (v : Nat), s.running = true →
     let mark (u layer op payload : Nat) (t : State) : Prop :=
       let k := ringOf (u / 256)
       let q := Tab.get ({} : TraceRing) s.obs.rings k
       (s.fld F.OBS_TRC_BASE_MODE k = 0 ∨ (s.fld F.OBS_TRC_CFG_CLASS_MASK k).testBit 11 = false →
         t.obs = s.obs ∧ t.fld F.OBS_STATUS_SUPPRESSED 0 = min (s.fld F.OBS_STATUS_SUPPRESSED 0 + 1) F.OBS_STATUS_SUPPRESSED.top) ∧
       (s.fld F.OBS_TRC_BASE_MODE k = 2 → (s.fld F.OBS_TRC_CFG_CLASS_MASK k).testBit 11 = true →
         (s.fld F.OBS_TRC_PTR_PROD k % 2 = 1 ∨ q.queued = []) →
         ∃ b, Tab.get ({} : TraceRing) t.obs.rings k = { queued := q.queued ++ [b], lost := false } ∧
           le b 0 8 = s.now k % 2 ^ 64 ∧ leBits b 8 11 0 = u % 4096 ∧ leBits b 8 23 12 = 0xB00 ∧ leBits b 8 24 24 = b2n q.lost ∧
           leBits b 8 25 25 = 1 ∧ le b 0xC 2 = layer % 65536 ∧ le b 0xE 2 = op % 65536 ∧ le b 0x10 8 = payload % 2 ^ 64 ∧
           le b 0x1E 1 = Tab.get 0 s.obs.seqs u % 256 ∧ t.regs = s.regs)
     (s.Ready r 0xB002 c → ∃ t, exec (.traceMark r) s = .next t ∧ s.EndsAlone t r 0 0 ∧
       mark (unitCtl (s.regionOf r.q)) c.layer c.operator (c.f 0x10 8) t) ∧
     ∃ t, exec (.obsMarkWrite a v) s = .next t ∧
       mark (Agent.unit a) (match a with | .hart h => s.fld F.uvtopid_LAYER_ID h.val | _ => 0)
         (match a with | .hart h => s.fld F.uvtopid_OPERATOR_ID h.val | _ => 0) v t) ∧
  ((∀ (n : Fin 80) (v : Nat) (s : State), s.running = true →
     let good := unitExists (bits v 27 16) ∧ ringOf (bits v 27 16 / 256) = n.val / 16 ∧ signalListed (bits v 27 16) (bits v 15 8)
     ∃ t, exec (.obsProfSelWrite n v) s = .next t ∧ (v < 2 ^ 64 → good → t.fld F.OBS_PROF_SEL_UNIT n = bits v 27 16 ∧
       t.fld F.OBS_PROF_SEL_SIGNAL n = bits v 15 8 ∧ t.fld F.OBS_PROF_COUNT n = 0 ∧
       s.RegsKept t [(.OBS_PROF_SEL, n), (.OBS_PROF, n)] ∧ s.RegOnly t) ∧ (v < 2 ^ 64 → ¬ good → t = s)) ∧
   (∀ (s : State) (r : CmdRef) (c : Cmd), s.Ready r 0xB003 c → ∃ t, exec (.counterSnap r) s = .next t ∧
     (∃ d, t.cmd r = some d ∧ d.phase = .running ∧ d.work = .snap (max (c.f 0x20 8) (s.now (ringOf (s.regionOf r.q)) + 2000))) ∧
     s.OthersKept t r ∧ s.CmdOnly t) ∧
   (∀ (s : State) (r : CmdRef) (c : Cmd) (at_ : Nat), s.Plain → s.running = true → s.cmd r = some c → c.phase = .running → c.work = .snap at_ →
     (s.now (ringOf (s.regionOf r.q)) < at_ → exec (.counterSnapLatch r) s = .next s) ∧
     (at_ ≤ s.now (ringOf (s.regionOf r.q)) → ∃ t, exec (.counterSnapLatch r) s = .next t ∧ s.EndsAlone t r 0 0 ∧
       t.BytesAre (c.fb 0x10 47 0) 64 (put 1 1 1 + put 2 1 (c.f 0x18 1) + put 8 8 at_) ∧
       s.BytesKept t (c.fb 0x10 47 0) (64 + 8 * (53 * b2n ((c.f 0x18 1).testBit 0) + 80 * b2n ((c.f 0x18 1).testBit 1) + 38 * b2n ((c.f 0x18 1).testBit 2))) ∧
       s.RegsKept t ((List.range 16).flatMap (fun e => [(.ENG_CYCLES, e), (.ENG_BUSY, e)])))))

/-! ## Data movement and the vector unit -/

/-- MOVE, GATHER and SCATTER (R71, R266) complete: in every format each answers a next state in which it has ended with OK, no byte outside
the rows of D has changed and no register. In a format of whole bytes without blocks each element of D takes the bits of the source
element that PERM and the indices name, and an element of D that SCATTER gives no index keeps its own. An index beyond its bound ends the
command with BAD_ADDRESS at the first such index, before any write. -/
def Obligations.MoversCopyElements : Prop :=
  (∀ (s : State) (r : CmdRef) (c : Cmd), s.UnitReady r 0x1001 c →
    (s.MoverReady c (tdAt c.pkt 0x40) → ∃ t, exec (.move r) s = .next t ∧ s.MoverDone t r c (tdAt c.pkt 0x40)) ∧
    (s.CopyReady c 0x1001 [] → ∃ t, exec (.move r) s = .next t ∧ s.Copied t r c 0x1001 [])) ∧
  (∀ (s : State) (r : CmdRef) (c : Cmd), s.UnitReady r 0x1004 c →
    let x := tdAt c.pkt 0x80
    (∀ j, (s.indices x).findIdx? (fun i => (tdAt c.pkt 0x10).e 1 ≤ i) = some j → s.Plain → s.Quiet →
      ∃ t, exec (.gather r) s = .next t ∧ s.EndsAlone t r 0x0104 (x.base + 4 * j) ∧ s.CmdOnly t) ∧
    ((∀ i ∈ s.indices x, i < (tdAt c.pkt 0x10).e 1) →
      (s.MoverReady c (tdAt c.pkt 0x40) → ∃ t, exec (.gather r) s = .next t ∧ s.MoverDone t r c (tdAt c.pkt 0x40)) ∧
      (s.CopyReady c 0x1004 (s.indices x) → ∃ t, exec (.gather r) s = .next t ∧ s.Copied t r c 0x1004 (s.indices x)))) ∧
  (∀ (s : State) (r : CmdRef) (c : Cmd), s.UnitReady r 0x1005 c →
    let x := tdAt c.pkt 0x80
    (∀ j, (s.indices x).findIdx? (fun i => (tdAt c.pkt 0x40).e 1 ≤ i) = some j → s.Plain → s.Quiet →
      ∃ t, exec (.scatter r) s = .next t ∧ s.EndsAlone t r 0x0104 (x.base + 4 * j) ∧ s.CmdOnly t) ∧
    ((∀ i ∈ s.indices x, i < (tdAt c.pkt 0x40).e 1) →
      (s.MoverReady c (tdAt c.pkt 0x40) → ∃ t, exec (.scatter r) s = .next t ∧ s.MoverDone t r c (tdAt c.pkt 0x40)) ∧
      (s.CopyReady c 0x1005 (s.indices x) → ∃ t, exec (.scatter r) s = .next t ∧ s.Copied t r c 0x1005 (s.indices x))))

/-- FILL (R71, R93, R266) completes: it answers a next state in which every row of D holds the row image of VALUE, in a format of whole bytes
without blocks every element holds the low bits of VALUE, and no other byte and no register changes. -/
def Obligations.FillRepeatsValue : Prop :=
  ∀ (s : State) (r : CmdRef) (c : Cmd), s.UnitReady r 0x1003 c →
    let d := tdAt c.pkt 0x40
    let es := d.fmt.elemBits / 8
    s.MoverReady c d →
    ∃ t, exec (.fill r) s = .next t ∧ s.MoverDone t r c d ∧
      (∀ q ∈ d.rows, t.BytesAre (d.rowAddr q.1 q.2.1 q.2.2) d.rowLen (fillRow d (c.f 0x10 8))) ∧
      (d.fmt.rowed = false → es * 8 = d.fmt.elemBits → ∀ q ∈ d.rows, ∀ i0 < d.e 0,
        t.readMem (d.rowAddr q.1 q.2.1 q.2.2 + es * i0) es = c.f 0x10 8 % 2 ^ d.fmt.elemBits)

/-- CONVERT (R71, R107): each row of D holds the decoded source elements that PERM names, encoded in D's format under its overflow policy; the
flags are added to DM_NUMFLAGS of the region's mover, and no other byte or register changes. -/
def Obligations.ConvertEncodesDecodedElements : Prop :=
  ∀ (s : State) (r : CmdRef) (c : Cmd), s.UnitReady r 0x1002 c →
    let a := tdAt c.pkt 0x10
    let d := tdAt c.pkt 0x40
    s.RowsReady r d 0xFFFF → s.HintsReady c →
    ∃ t, exec (.convert r) s = .next t ∧ s.RowsDone t r c d 0xFFFF .DM_NUMFLAGS [] (fun i j k => (List.range (d.e 0)).map (fun i0 =>
      let e := underPerm (c.f 0x70 1) [i0, i, j, k]
      (s.elemOf c a (e.getD 0 0) (e.getD 1 0) (e.getD 2 0) (e.getD 3 0)).val))

/-- ACC_WRITE and ACC_WRITE_LINE (R73, R103): the command hands its lines to the update units of their stacks, writes nothing itself and runs
until the last is added; a line of one element adds its value to the FP32 word with stochastic rounding by the bits of R200 under the
overflow policy of the destination, and its flags are added to UPD_NUMFLAGS. -/
def Obligations.AccWriteAddsLineByLine : Prop :=
  (∀ (s : State) (r : CmdRef) (c : Cmd), s.UnitReady r 0x1006 c → s.Plain → s.Quiet → c.f 0x71 1 = 0 →
    let d := tdAt c.pkt 0x40
    ∃ t, exec (.accWrite r) s = .next t ∧
      (∀ x, s.gradConflict d.base d.spanLen = some x → s.EndsAlone t r 0x0104 x ∧ s.CmdOnly t) ∧
      (s.gradConflict d.base d.spanLen = none → t.InPhase r .running ∧ s.OthersKept t r ∧ (∃ e n, t.cmd r = some e ∧ e.work = .acc n) ∧
        t = { s with cmds := t.cmds, upds := t.upds, lastAt := t.lastAt, counters := t.counters } ∧ s.LinksOnly t)) ∧
  (∀ (stack : Fin 32) (s : State) (l : AccLine) (rest : List AccLine) (x : Nat × Nat × Val) (c : Cmd), s.Plain → s.Quiet →
    (s.upd stack).adds = l :: rest → l.elems = [x] → s.frozen = false → s.running = true → s.fld F.UPD_CTL_MODE stack ≠ 2 →
    s.fld F.STK_THERM_GRADE stack < 3 → s.cmd l.cmd = some c → c.work = .acc 1 → c.phase = .running →
    (∀ e ∈ s.cmds, e.opcode ≠ 0x9002) →
    let sum := accAdd (s.readMem x.1 4) x.2.2 (srbits l.seed l.step l.tid x.2.1) l.ovp
    ∃ t, exec (.accWriteLine stack) s = .next t ∧ t.readMem x.1 4 = sum.1 % 2 ^ 32 ∧ s.BytesKept t x.1 4 ∧
      t.getR .UPD_NUMFLAGS stack = s.getR .UPD_NUMFLAGS stack ||| BitVec.ofNat 64 sum.2.toNat ∧ t.Ended l.cmd 0 0 ∧
      (t.upd stack).adds = rest ∧ s.RegsKept t [(.UPD_NUMFLAGS, stack.val)])

/-- A unit whose buffers met a second uncorrectable word (R186) ends each vector command with BUFFER_ECC and its unit, and writes no byte of
its destination; TABLE_LOAD (R169) takes an image of two good tables into its slot and refuses any other with BAD_FORMAT. REDUCE (R163)
along dimension 0, and ACTIVATE and ACTIVATE_GRAD (R168) by the tables of their slot; a slot without a table ends them with BAD_RESERVED
at the slot's field. -/
def Obligations.TablesLoadReduceAndActivate : Prop :=
  ((∀ (s : State) (r : CmdRef) (c : Cmd), s.UnitReady r 0x3005 c → s.Plain →
     let region := s.regionOf r.q
     let img := s.readMem (c.fb 0x10 47 0) 8320
     ∃ t, exec (.tableLoad r) s = .next t ∧
       (tableOk (le img 0 4160) = true ∧ tableOk (le img 4160 4160) = true → s.EndsAlone t r 0 0 ∧
         Tab.find (t.vec region).tables (c.f 0x18 1) = some img ∧ (∀ k, k ≠ c.f 0x18 1 → Tab.find (t.vec region).tables k = Tab.find (s.vec region).tables k) ∧
         s.RegsKept t [(.VEC_TABLE, region)] ∧ t = { s with cmds := t.cmds, vecs := t.vecs, regs := t.regs, lastAt := t.lastAt, counters := t.counters } ∧ s.LinksOnly t) ∧
       (tableOk (le img 0 4160) = false ∨ tableOk (le img 4160 4160) = false → s.EndsAlone t r 0x0103 0x10 ∧ s.CmdOnly t)) ∧
   (∀ (s : State) (r : CmdRef) (c : Cmd) (ev : BufEvents), s.UnitReady r 0x3006 c → s.Plain → s.Quiet → 2 ≤ ev.uncorrectable →
     s.fld F.ERR_RING_BASE_SIZE_LOG2 0 = 0 →
     ∃ t, exec (.reduce r ev) s = .next t ∧ s.EndsAlone t r 0x0302 (unitVec (s.regionOf r.q)) ∧ t.mem = s.mem)) ∧
  (∀ (s : State) (r : CmdRef) (c : Cmd) (ev : BufEvents), ev.uncorrectable < 2 →
     let region := s.regionOf r.q
     let vt : List (Reg × Nat) := [(.VEC_TABLE, region)]
     (s.UnitReady r 0x3006 c → s.RowsReady r (tdAt c.pkt 0x40) 0xFFFF →
       ∃ t, exec (.reduce r ev) s = .next t ∧ s.RowsDone t r c (tdAt c.pkt 0x40) 0xFFFF .VEC_NUMFLAGS vt (fun i j k =>
         [(reduceOp (c.f 0x70 1) (s.vecRow c (tdAt c.pkt 0x10) i j k).1).1])) ∧
     (s.UnitReady r 0x3003 c → s.RowsReady r (tdAt c.pkt 0x40) (c.f 0x72 2) → ∀ tb, s.table region (c.f 0x70 1) false = some tb →
       ∃ t, exec (.activate r ev) s = .next t ∧ s.RowsDone t r c (tdAt c.pkt 0x40) (c.f 0x72 2) .VEC_NUMFLAGS vt (fun i j k =>
         (s.vecRow c (tdAt c.pkt 0x10) i j k).1.map (fun x => (tblEval tb x).1))) ∧
     (s.UnitReady r 0x3003 c → s.table region (c.f 0x70 1) false = none →
       ∃ t, exec (.activate r ev) s = .next t ∧ s.EndsAlone t r 0x0102 0x70 ∧ s.CmdOnly t) ∧
     (s.UnitReady r 0x3004 c → s.RowsReady r (tdAt c.pkt 0x70) 0xFFFF → ∀ tb, s.table region (c.f 0xA0 1) true = some tb →
       ∃ t, exec (.activateGrad r ev) s = .next t ∧ s.RowsDone t r c (tdAt c.pkt 0x70) 0xFFFF .VEC_NUMFLAGS vt (fun i j k =>
         (List.zip (s.vecRow c (tdAt c.pkt 0x10) i j k).1 (s.vecRow c (tdAt c.pkt 0x40) i j k).1).map
           (fun p => (formAcc.mul p.2 (tblEval tb p.1).1).1))) ∧
     (s.UnitReady r 0x3004 c → s.table region (c.f 0xA0 1) true = none →
       ∃ t, exec (.activateGrad r ev) s = .next t ∧ s.EndsAlone t r 0x0102 0xA0 ∧ s.CmdOnly t))

/-- ELTWISE (R161, R162): D holds the operation of its element on x and y, with y repeated along dimensions of extent 1; AMAX, flags and frame
as for every command that writes rows. -/
def Obligations.EltwiseAppliesItsOperation : Prop :=
  ∀ (s : State) (r : CmdRef) (c : Cmd) (ev : BufEvents), s.UnitReady r 0x3001 c → ev.uncorrectable < 2 →
    let op := c.f 0xA0 1
    let x := tdAt c.pkt 0x10
    let y := tdAt c.pkt 0x40
    let d := tdAt c.pkt 0x70
    let al := fp32Val (c.f 0xA4 4)
    let be := fp32Val (c.f 0xA8 4)
    let at_ (k n : Nat) : Nat := if y.e k = 1 then 0 else n
    s.RowsReady r d (c.f 0xAC 2) →
    ∃ t, exec (.eltwise r ev) s = .next t ∧ s.RowsDone t r c d (c.f 0xAC 2) .VEC_NUMFLAGS [(.VEC_TABLE, s.regionOf r.q)] (fun i j k =>
      let ys := if op ≤ 6 ∨ op = 10 then (s.vecRow c y (at_ 1 i) (at_ 2 j) (at_ 3 k)).1 else []
      (s.vecRow c x i j k).1.zipIdx.map (fun p => (eltOp op al be p.1 (ys.getD (at_ 0 p.2) .zero)).1))

/-- NORM (R164): the forward modes write y to D and, for each row, μ and r to STATS; the backward modes write dx to D. COMBINE (R148) writes
the tree sums in W64 of the partials along S's last dimension. -/
def Obligations.NormAndCombine : Prop :=
  ∀ (s : State) (r : CmdRef) (c : Cmd) (ev : BufEvents), ev.uncorrectable < 2 →
    let region := s.regionOf r.q
    let mode := c.f 0x130 1
    let idx := c.f 0x132 2
    let w := s.amaxWord region idx
    let row (off i j k : Nat) : List Val := (s.vecRow c (tdAt c.pkt off) i j k).1
    let bs := if mode = 0 then row 0xA0 0 0 0 else []
    let fwd (i j k : Nat) := normFwd mode (builtinTable 6 false) (fp32Val (c.f 0x134 4)) (row 0x10 i j k) (row 0x70 0 0 0) bs
    (s.UnitReady r 0x3002 c → 2 ≤ mode → s.RowsReady r (tdAt c.pkt 0xD0) 0xFFFF →
      ∃ t, exec (.norm r ev) s = .next t ∧ s.RowsDone t r c (tdAt c.pkt 0xD0) 0xFFFF .VEC_NUMFLAGS [(.VEC_TABLE, region)] (fun i j k =>
        (normBwd mode ((row 0x100 i j k).getD 0 .zero) ((row 0x100 i j k).getD 1 .zero) (row 0x10 i j k) (row 0x40 i j k) (row 0x70 0 0 0)).1)) ∧
    (s.UnitReady r 0x3002 c → mode < 2 → s.RowsReady r (tdAt c.pkt 0xD0) idx → (tdAt c.pkt 0x100).Regular →
      (tdAt c.pkt 0xD0).Apart (tdAt c.pkt 0x100) → (idx = 0xFFFF ∨ ∀ k < 4, (tdAt c.pkt 0x100).Outside (w + k)) →
      ∃ t, exec (.norm r ev) s = .next t ∧ s.EndsAlone t r 0 0 ∧ t.RowsHold c (tdAt c.pkt 0xD0) (fun i j k => (fwd i j k).1) ∧
        t.RowsHold c (tdAt c.pkt 0x100) (fun i j k => [(fwd i j k).2.1, (fwd i j k).2.2.1]) ∧
        (idx ≠ 0xFFFF →
          let b := (amaxBits (((tdAt c.pkt 0xD0).rows.flatMap (fun q => (fwd q.1 q.2.1 q.2.2).1)).foldl (fun a v => a.maxv v.abs) .zero)).1
          t.readMem w 4 = if s.readMem w 4 < b then b % 2 ^ 32 else s.readMem w 4) ∧
        (∀ a, (tdAt c.pkt 0xD0).Outside a → (tdAt c.pkt 0x100).Outside a → (idx = 0xFFFF ∨ a < w ∨ w + 4 ≤ a) → t.rawByte a = s.rawByte a) ∧
        s.RegsKept t [(.VEC_NUMFLAGS, region), (.VEC_TABLE, region)]) ∧
    (s.UnitReady r 0x2004 c → s.RowsReady r (tdAt c.pkt 0x40) (c.f 0x70 2) →
      let a := tdAt c.pkt 0x10
      let part (i j k p : Nat) : List Val := (if a.rank = 2 then s.rowElems c a p j k else if a.rank = 3 then s.rowElems c a i p k
        else s.rowElems c a i j p).map (·.val)
      ∃ t, exec (.combine r) s = .next t ∧ s.RowsDone t r c (tdAt c.pkt 0x40) (c.f 0x70 2) .ACC_NUMFLAGS [] (fun i j k =>
        (List.range ((tdAt c.pkt 0x40).e 0)).map (fun i0 => (fixedTree formW64.add 8 ((List.range (a.e (a.rank - 1))).map (fun p =>
          (formW64.round ((part i j k p).getD i0 .zero)).1))).1)))

/-! ## The compute engines -/

/-- MATMUL, MATMUL_WGRAD and CONV (R119, R126, R482): with an item to run and a logical engine of the mask in service the command runs and its
items wait for engines; with every engine of the mask lost it ends with BAD_ADDRESS and the mask. FRAME_GRANT (R146) gives the request at
the front its frames of the Spillway. TILE_DISPATCH (R127): a free engine takes the next item of the one command ready for it, one that
needs no frames, and the command's list of items moves on. -/
def Obligations.MatrixCommandsReachTheEngines : Prop :=
  (∀ (s : State) (r : CmdRef) (c : Cmd) (op : Nat), (op = 0x2001 ∨ op = 0x2002 ∨ op = 0x2003) → s.UnitReady r op c → s.Plain →
     let i := if op = 0x2001 then Instr.matmul r else if op = 0x2002 then Instr.matmulWgrad r else Instr.conv r
     let region := s.regionOf r.q
     c.work = .none → 0 < c.geo.items → s.onEngines region r = false →
     (s.maskLost region c.geo.mask = false → ∃ t, exec i s = .next t ∧ t.InPhase r .running ∧ s.OthersKept t r ∧ s.CmdOnly t) ∧
     (s.maskLost region c.geo.mask = true → ∃ t, exec i s = .next t ∧ t.Ended r 0x0104 c.geo.mask ∧ s.OthersKept t r)) ∧
  ((∀ (region : Fin 4) (s : State) (c : Cmd) (tile : Nat) (rest : List (CmdRef × Nat)), (s.acc region).waiting = (c.ref, tile) :: rest →
     s.cmd c.ref = some c → s.frozen = false → (s.acc region).canGrant c.ref (c.geo.rowsOf tile) c.geo.frames = true →
     ∃ t, exec (.frameGrant region) s = .next t ∧ (t.acc region).waiting = rest ∧
       (t.acc region).frames.take (s.acc region).frames.length = (s.acc region).frames ∧
       (t.acc region).frames.length = (s.acc region).frames.length + c.geo.frames ∧
       (∀ f ∈ (t.acc region).frames.drop (s.acc region).frames.length, f.cmd = c.ref ∧ f.tile = tile ∧ f.rows = c.geo.rowsOf tile ∧ f.arrived = []) ∧
       t = { s with accs := t.accs }) ∧
   (∀ (e : Fin 16) (s : State) (l i : Nat) (c : Cmd), s.frozen = false → s.running = true → s.inService e = true → s.Untraced →
     (s.engine e).compute = none → (s.engine e).drain = none → (s.engine e).saving = none → (s.engine e).cmd = none →
     s.logicalOf e = some l → s.savedFor (e / 4) l = [] → s.cmds.filter (s.readyFor (e / 4) l) = [c] → s.pick (unitEngine e) [c] = some c → s.cmd c.ref = some c →
     c.nextItem = some i → c.geo.tileLive c.mat.mask (c.geo.tile i) = true → c.geo.frames = 0 →
     ∃ t d, exec (.tileDispatch e) s = .next t ∧ (t.engine e).compute = some { cmd := c.ref, index := i } ∧ (t.engine e).cmd = some c.ref ∧
       (∀ g, g < 16 → g ≠ e.val → t.engine g = s.engine g) ∧ t.cmd c.ref = some d ∧
       (if c.mat.pending = [] then d.mat.cursor = c.mat.cursor + 1 else d.mat.pending = c.mat.pending.drop 1) ∧ t.mem = s.mem))

/-- KSTEP_END (R124, R126, R127): the K step adds its products to every computed element of the engine's half of the Millpond and to no other;
after the last of the item's steps the item waits to drain. -/
def Obligations.KStepsAccumulate : Prop :=
  ∀ (e : Fin 16) (s : State) (i : Item) (c : Cmd), s.frozen = false → s.running = true → s.Quiet → (∀ d ∈ s.cmds, d.opcode ≠ 0x9002) →
    (s.engine e).compute = some i → (s.engine e).drain = none → (s.engine e).saving = none → s.cmd i.cmd = some c → c.mat.failed = false → s.Plain → c.mat.leaving = false →
    c.held = false → s.stalled c = false → c.geo.nc ≤ 1 →
    let g := c.geo
    let tile := g.tile i.index
    let lo := (g.range i.index i.chunk).1
    let hi := (g.range i.index i.chunk).2
    let old := fun row col => Tab.get 0#40 (s.engine e).millpond (pondKey i.half row col)
    i.kstep < hi - lo →
    ∃ t, exec (.kstepEnd e .none) s = .next t ∧
      (∀ p ∈ c.cellsOf g tile, Tab.get 0#40 (t.engine e).millpond (pondKey i.half p.1 p.2) = BitVec.ofNat 40 (accEncode
        (s.kstepElem c g (g.batch tile) (g.mtile tile * g.mt + p.1) (512 * g.ntile tile + p.2) (lo + i.kstep)
          (if i.begun then some (accDecode (old p.1 p.2).toNat) else none)).1)) ∧
      (∀ k, (∀ p ∈ c.cellsOf g tile, k ≠ pondKey i.half p.1 p.2) → Tab.get 0#40 (t.engine e).millpond k = Tab.get 0#40 (s.engine e).millpond k) ∧
      (i.kstep + 1 < hi - lo → ∃ j, (t.engine e).compute = some j ∧ j.kstep = i.kstep + 1 ∧ j.index = i.index ∧ j.begun = true) ∧
      (i.kstep + 1 = hi - lo → (t.engine e).compute = none ∧ ∃ j, (t.engine e).drain = some j ∧ j.index = i.index) ∧
      t.mem = s.mem ∧ t.regs = s.regs ∧ t.cmds = s.cmds

/-- TILE_DRAIN (R141, R145, R152) of an item in one Millpond half without epilogue or AMAX, D one tile wide: each computed row of D holds the
transferred values in D's format, no other byte changes, and the flags go to ENG_NUMFLAGS of the engine. -/
def Obligations.DrainsWriteTheirRows : Prop :=
  ∀ (e : Fin 16) (s : State) (i : Item) (c : Cmd), s.frozen = false → s.running = true → s.Plain → s.Quiet → (∀ d ∈ s.cmds, d.opcode ≠ 0x9002) →
    (s.engine e).drain = some i → s.cmd i.cmd = some c → c.ref = i.cmd → s.stalled c = false → c.opcode / 4096 = 2 →
    let g := c.geo
    let tile := g.tile i.index
    let ix := fun row => g.dRow (g.batch tile) (g.mtile tile * g.mt + row)
    let live := (List.range (g.rowsOf tile)).filter (fun row => g.computed c.mat.mask (g.mtile tile * g.mt + row) (g.ntile tile))
    g.wide = false → g.epi = 0 → g.amax = 0xFFFF → g.dmode = 0 → g.nt = 1 → g.d.e 0 = g.n → g.d.Regular → (∀ row ∈ live, ix row ∈ g.d.rows) →
    (∀ x ∈ live, ∀ y ∈ live, ix x = ix y → x = y) → (∀ p ∈ (s.queue i.cmd.q).slots, p.2.ref ≠ i.cmd) → c.mat.failed = false → c.mat.leaving = false →
    ∃ t, exec (.tileDrain e .none) s = .next t ∧ (t.engine e).drain = none ∧
      (∀ row ∈ live, t.BytesAre (g.d.rowAddr (ix row).1 (ix row).2.1 (ix row).2.2) g.d.rowLen
        (c.encodeRowOf g.d (ix row).1 (ix row).2.1 (ix row).2.2 ((List.range (g.colsOf tile)).map (fun col => (s.pondOut e c g i row col).1))).1) ∧
      (∀ a, g.d.Outside a → t.rawByte a = s.rawByte a) ∧
      ∃ fl : NumFlags, t.getR .ENG_NUMFLAGS e = s.getR .ENG_NUMFLAGS e ||| BitVec.ofNat 64 fl.toNat

/-- PREEMPTION, CONTEXT_SAVE_COMPLETE and CONTEXT_RESTORE (R82, R84, R155, R156): while a Brake is in force, or a command of a higher level
waits, a preemptible command's item takes the first free slot once a K step has ended; the save writes every row of its Millpond half and
frees the engine; the restore brings the rows, the item and its K step back to the engine and frees the slot. -/
def Obligations.SavedItemsComeBack : Prop :=
  ∀ (e : Fin 16) (s : State) (i : Item) (c : Cmd) (k : Nat), s.frozen = false → s.running = true → s.Plain → s.Quiet → s.cmd i.cmd = some c → c.ref = i.cmd →
    (∀ d ∈ s.cmds, d.opcode ≠ 0x9002) → i.cmd.q < 256 →
    let base := s.slotAddr i.cmd.q k
    let g := c.geo
    ((s.engine e).compute = some i → i.atEnd = true → (s.engine e).drain = none → (s.engine e).saving = none → s.preemptible i.cmd.q = true → s.braking = true →
      s.freeSlot i.cmd.q = some k → c.mat.failed = false → c.mat.leaving = false →
      ∃ t, exec (.preemption e) s = .next t ∧ (t.engine e).saving = some k ∧ (∃ sl, ((s.queue i.cmd.q).slots ++ [(k, sl)]) = (t.queue i.cmd.q).slots ∧
        sl.ref = i.cmd ∧ sl.pkt = c.pkt ∧ sl.brake = true) ∧ t.fld F.Q_STATE_SAVED i.cmd.q = 1 ∧ s.RegsKept t [(.Q_STATE, i.cmd.q)] ∧ t.mem = s.mem) ∧
    ((s.engine e).saving = some k → (s.engine e).compute = some i → (c.mat.primary = none ∨ c.mat.primary = some k) →
      (∀ q < 256, s.qState q ≠ 3) → c.mat.failed = false → c.mat.leaving = false → s.maskLost (s.regionOf c.ref.q) g.mask = false →
      ∃ t, exec (.contextSaveComplete e .none) s = .next t ∧ (t.engine e).compute = none ∧ (t.engine e).saving = none ∧ (t.engine e).cmd = none ∧
        (∀ row col, row < g.rowsOf (g.tile i.index) → col < 512 →
          t.readMem (base + 0x10000 + 2560 * row + 5 * col) 5 = (Tab.get 0#40 (s.engine e).millpond (pondKey i.half row col)).toNat) ∧
        t.readMem (base + 0x10) 8 = (i.index + i.chunk <<< 48) % 2 ^ 64 ∧ t.readMem (base + 0x1C) 4 = i.kstep % 2 ^ 32 ∧
        ∀ a, a < base ∨ base + 0xA10000 ≤ a → g.rowsOf (g.tile i.index) ≤ 4096 → t.rawByte a = s.rawByte a) ∧
    ((s.engine e).compute = none → (s.engine e).drain = none → (s.engine e).saving = none → s.inService e = true →
      s.braking = false → ∀ l index, s.logicalOf e = some l → c.mat.saved = [(k, index, l)] → c.mat.failed = false → c.mat.leaving = false → c.held = false →
      g.frames = 0 → (s.acc (e / 4)).waiting.contains (c.ref, g.tile index) = false → c.phase = .running →
      s.regionOf c.ref.q = e / 4 → s.cmds = [c] → s.fld F.Q_STATE_STATE c.ref.q ≠ 6 → (s.readMem (base + 0xA) 1).testBit 0 = false →
      s.pick (unitEngine e) [c] = some c → s.readMem (base + 0x18) 2 ≤ 4096 →
      ∃ t j, exec (.contextRestore e) s = .next t ∧ (t.engine e).compute = some j ∧ (t.engine e).cmd = some c.ref ∧ j.cmd = c.ref ∧
        j.kstep = s.readMem (base + 0x1C) 4 ∧ j.half = 0 ∧
        (∀ row col, row < s.readMem (base + 0x18) 2 → col < 512 → Tab.get 0#40 (t.engine e).millpond (pondKey 0 row col) =
          BitVec.ofNat 40 (s.readMem (base + 0x10000 + 2560 * row + 5 * col) 5)) ∧
        (∃ d, t.cmd c.ref = some d ∧ d.mat.saved = [] ∧ d.notes.contains (if ((s.queue c.ref.q).slots.find? (fun p => decide (p.1 = k))).any (fun p => p.2.brake) then 0x0701 else 0x0700)) ∧
        t.rawByte (base + 2) = 0)

/-! ## Attention, pages and memory tiers -/

/-- ATTN_FWD without pages (R173): each row of O and of STATS (m and l, under OVP 2) holds what the key tiles of its query give, and no other
byte changes. ATTN_BWD (R174): the rows of dQ, dK and dV hold the group sums over P and dS. -/
def Obligations.AttentionWritesItsRows : Prop :=
  ∀ (s : State) (r : CmdRef) (c : Cmd) (ev : BufEvents), ev.uncorrectable < 2 → s.Plain → s.Quiet → c.work = .none →
    let region := s.regionOf r.q
    let q := tdAt c.pkt 0x10
    let k := tdAt c.pkt 0x40
    let others : List (Reg × Nat) := [(.ATT_NUMFLAGS, region), (.PK_DROPS, region)]
    (s.UnitReady r 0x4001 c → (attnP c.pkt 0x100).paged = false →
      let a := attnP c.pkt 0x100
      let o := tdAt c.pkt 0xA0
      let st := { tdAt c.pkt 0xD0 with ovp := 2 }
      let row := fun i h b => attnRow a.scale (q.e 0) (s.attnVals c q i h b) ((List.range (k.e 1)).map (fun j =>
        (s.attnVals c k j (h / (q.e 2 / k.e 2)) b, s.attnVals c (tdAt c.pkt 0x70) j (h / (q.e 2 / k.e 2)) b, s.visible a (q.e 1) b i j)))
      o.Regular → st.Regular → o.Apart st → o.rows = q.rows → st.rows = q.rows →
      ∃ t, exec (.attnFwd r ev) s = .next t ∧ s.EndsAlone t r 0 0 ∧ t.RowsHold c o (fun i h b => (row i h b).1) ∧
        t.RowsHold c st (fun i h b => [(row i h b).2.1, (row i h b).2.2.1]) ∧
        (∀ x, o.Outside x → st.Outside x → t.rawByte x = s.rawByte x) ∧ s.RegsKept t others) ∧
    (s.UnitReady r 0x4002 c →
      let dq := tdAt c.pkt 0x130
      let dk := tdAt c.pkt 0x160
      let dv := tdAt c.pkt 0x190
      dq.Regular → dk.Regular → dv.Regular → dq.Apart dk → dq.Apart dv → dk.Apart dv → dq.rows = q.rows → dk.rows = k.rows → dv.rows = k.rows →
      0 < k.e 2 → q.e 2 % k.e 2 = 0 →
      ∃ t, exec (.attnBwd r ev) s = .next t ∧ s.EndsAlone t r 0 0 ∧
        t.RowsHold c dq (fun i h b => (s.dqRow c ((s.attnGrid c h b).1.getD i ([], [])).2 (h / (q.e 2 / k.e 2)) b).1) ∧
        t.RowsHold c dk (fun j h b => (s.dkvRow c (s.attnGrids c h b) false j b).1) ∧
        t.RowsHold c dv (fun j h b => (s.dkvRow c (s.attnGrids c h b) true j b).1) ∧
        (∀ x, dq.Outside x → dk.Outside x → dv.Outside x → t.rawByte x = s.rawByte x) ∧ s.RegsKept t others)

/-- KV_APPEND (R182) with the pages that its issue step reserved ends with OK, and where no page was shared the descriptor's length becomes
that of the issue step and the tokens. Starting on a fresh page, the entries of the page table name the reserved pages, which become used
once, and each token of K stands in its slot in the pool's format. -/
def Obligations.AppendFillsReservedPages : Prop :=
  ∀ (s : State) (r : CmdRef) (c : Cmd) (ev : BufEvents) (ks : List Nat) (cow : Option Nat) (len last table cap : Nat) (p : Pool),
    s.UnitReady r 0x4003 c → ev.uncorrectable < 2 → s.Plain → s.Quiet → c.work = .kv ks cow len last table →
    (s.vec (s.regionOf r.q)).pool = some p →
    let q : SeqD := { addr := c.fb 0x10 47 0, len := len, table := table, cap := cap, dropped := 0 }
    let k := tdAt c.pkt 0x20
    let away := fun a m b n : Nat => a + m ≤ b ∨ b + n ≤ a
    let pool := p.pb * p.pages
    ∃ t, exec (.kvAppend r ev) s = .next t ∧ s.EndsAlone t r 0 0 ∧
      (c.f 0x18 1 = 0 → cow = none → t.readMem (q.addr + 4) 4 = (len + k.e 1) % 2 ^ 32) ∧
      (c.f 0x18 1 = 0 → cow = none → len % 16 = 0 → ks.Nodup → (∀ n ∈ ks, n < p.pages) → ks.length = ceilDiv (k.e 1) 16 → p.pages < 2 ^ 24 →
        (len / 16 + ks.length) ≤ cap → 0 < p.d * p.elem → away p.base pool p.stateBase (16 * p.pages) → away p.base pool q.addr 64 →
        away p.base pool table (4 * cap) → away p.stateBase (16 * p.pages) q.addr 64 → away p.stateBase (16 * p.pages) table (4 * cap) →
        away q.addr 64 table (4 * cap) →
        (∀ j, j < ks.length → t.entry q (len / 16 + j) = ks.getD j 0) ∧ (∀ n ∈ ks, (t.page p n).st = 2 ∧ (t.page p n).ref = 1) ∧
        ∀ i < k.e 1, ∀ h < p.hkv, t.BytesAre (p.elemAt (ks.getD (i / 16) 0) false h (i % 16) 0) (p.d * p.elem)
          (((Fmt.ofCode p.fmt).getD .bf16).encodeRow 0 (fun _ => .one) (s.attnVals c k i h 0)).1)

/-- PAGE_COPY, PAGE_FREE and POOL_CFG (R176, R183, R184): a fork takes the length of its source, once the checks in their order pass; a free
shortens the sequence or marks its pages droppable; a pool with no page in use is released, and one whose pages are in use is not. -/
def Obligations.PagesAreSharedAndReleased : Prop :=
  (∀ (s : State) (r : CmdRef) (c : Cmd) (p : Pool) (a : SeqD), s.Plain → (s.vec (s.regionOf r.q)).pool = some p → s.SeqReady 0x10 (c.fb 0x10 47 0) a →
    (s.UnitReady r 0x4004 c → ∀ b, s.SeqReady 0x18 (c.fb 0x18 47 0) b → ∃ t, exec (.pageCopy r) s = .next t ∧
      (b.len ≠ 0 → s.EndsAlone t r 0x0104 b.addr ∧ s.CmdOnly t) ∧
      (b.len = 0 → b.cap < a.entries → s.EndsAlone t r 0x0402 0x18 ∧ s.CmdOnly t) ∧
      (b.len = 0 → a.entries ≤ b.cap → (∃ j < a.entries, s.entryDropped a j = true) → s.EndsAlone t r 0x0401 a.dropped ∧ s.CmdOnly t) ∧
      (b.len = 0 → a.entries ≤ b.cap → (∀ j < a.entries, s.entryDropped a j = false ∧ (s.page p (s.entryPage a j)).ref < 65535) →
        s.EndsAlone t r 0 0 ∧ t.readMem (b.addr + 4) 4 = a.len ∧ s.CmdMemOnly t)) ∧
    (s.UnitReady r 0x4005 c → ∃ t, exec (.pageFree r) s = .next t ∧ s.EndsAlone t r 0 0 ∧ s.CmdMemOnly t ∧
      (c.f 0x1C 1 = 0 → t.readMem (a.addr + 4) 4 = min a.len (c.f 0x18 4)) ∧
      (c.f 0x1C 1 ≠ 0 → (∀ j < a.entries, ceilDiv (c.f 0x18 4) 16 ≤ j → s.entryDropped a j = false →
        (t.page p (s.entryPage a j)).drop = true ∧ (t.page p (s.entryPage a j)).owner = a.addr) ∧ s.BytesKept t p.stateBase (16 * 2 ^ 24))) ∧
    (s.UnitReady r 0x4006 c → s.holds = [] → ∃ t, exec (.poolCfg r) s = .next t ∧
      ((∃ n < p.pages, (s.page p n).st ≠ 0) → s.EndsAlone t r 0x0104 p.base ∧ s.CmdOnly t) ∧
      ((∀ n < p.pages, (s.page p n).st = 0) → c.f 0x10 1 = 1 → t.Ended r 0 0 ∧ (t.vec (s.regionOf r.q)).pool = none ∧
        t.getR .PK_POOL (s.regionOf r.q) = 0 ∧ t.mem = s.mem))) ∧
  (∀ (s : State) (r : CmdRef) (c : Cmd), s.Plain → (s.vec (s.regionOf r.q)).pool = none → s.UnitReady r 0x4006 c → s.holds = [] →
    (∀ st, (s.hoist st).hints = []) → (∀ ch, (s.hoistChan ch).swap = none) →
    let p : Pool := { base := c.f 0x18 8, stateBase := c.f 0x28 8, pages := c.f 0x20 4, hkv := c.f 0x14 2, fmt := c.f 0x12 1, dcode := c.f 0x11 1 }
    ∃ t, exec (.poolCfg r) s = .next t ∧ (c.f 0x10 1 = 1 → s.EndsAlone t r 0 0 ∧ s.CmdOnly t) ∧
      (c.f 0x10 1 ≠ 1 → ∀ st d, s.hintFault .pin p.base p.span = some (st, d) → s.EndsAlone t r st d ∧ s.CmdOnly t) ∧
      (c.f 0x10 1 ≠ 1 → s.hintFault .pin p.base p.span = none → (t.vec (s.regionOf r.q)).pool = some p ∧ (∀ n < p.pages, (t.page p n).st = 0) ∧
        t.fld F.PK_DROPS_DROPS (s.regionOf r.q) = 0 ∧ (∀ st ∈ s.hoistsOf p.base, ∀ f ∈ s.framesOf p.base p.span, t.pins st f = s.pins st f + 1) ∧
        ((∃ st ∈ s.hoistsOf p.base, ∃ ch < 16, ∃ f ∈ s.framesOf p.base p.span, s.isFast (16 * st + ch) f = false) → t.InPhase r .running) ∧
        ((∀ st ∈ s.hoistsOf p.base, ∀ ch < 16, ∀ f ∈ s.framesOf p.base p.span, s.isFast (16 * st + ch) f = true) → t.Ended r 0 0)))

/-- HOIST, LOWER, PIN and UNPIN (R259, R260) with no earlier hint and no hold: PIN and UNPIN count in PINS of each frame in each Hoist
concerned, LOWER marks the unpinned ones; HOIST and PIN run on while a frame has to be raised. SWAP_COMPLETE (R263) exchanges the two
slots. STREAM (R259, R260, R265): OPEN records the stream on every Hoist its range concerns and gives its frames SID; ADVANCE and CLOSE
act on every Hoist on which SID is open, each on its own stream, and CLOSE removes it from each; a number in use, a base that another
stream covers, a window too large, a number not open and a position beyond the last segment of one of the streams are refused. -/
def Obligations.HintsAndStreamsActOnFrames : Prop :=
  ((∀ (s : State) (r : CmdRef) (c : Cmd) (op : Nat), s.Ready r op c → 0x8001 ≤ op → op ≤ 0x8004 → s.holds = [] → (∀ st, (s.hoist st).hints = []) →
     let exc := if op = 0x8001 then Instr.hoist r else if op = 0x8002 then Instr.lower r else if op = 0x8003 then Instr.pin r else Instr.unpin r
     let kind := if op = 0x8001 then HintKind.hoist else if op = 0x8002 then HintKind.lower else if op = 0x8003 then HintKind.pin else HintKind.unpin
     let stks := s.hoistsOf (c.fb 0x10 47 0)
     let fs := s.framesOf (c.fb 0x10 47 0) (c.f 0x18 8)
     ∃ t, exec exc s = .next t ∧
       (∀ st d, s.hintFault kind (c.fb 0x10 47 0) (c.f 0x18 8) = some (st, d) → s.EndsAlone t r st d ∧ s.CmdOnly t) ∧
       (s.hintFault kind (c.fb 0x10 47 0) (c.f 0x18 8) = none →
         (∀ st ∈ stks, ∀ f ∈ fs,
           t.pins st f = (if op = 0x8003 then s.pins st f + 1 else if op = 0x8004 then s.pins st f - 1 else s.pins st f) ∧
           (t.attr st f).testBit 11 = (if op = 0x8002 then !(s.pinned st f) || (s.attr st f).testBit 11 else if op = 0x8004 then (s.attr st f).testBit 11 else false)) ∧
         ((op = 0x8001 ∨ op = 0x8003) → (∃ st ∈ stks, ∃ ch < 16, ∃ f ∈ fs, s.isFast (16 * st + ch) f = false) → t.InPhase r .running) ∧
         ((op = 0x8002 ∨ op = 0x8004 ∨ ∀ st ∈ stks, ∀ ch < 16, ∀ f ∈ fs, s.isFast (16 * st + ch) f = true) →
           (∀ st ∈ stks, ∀ ch < 16, (s.hoistChan (16 * st + ch)).swap = none) → t.Ended r 0 0) ∧ t.mem = s.mem ∧ t.regs = s.regs)) ∧
   (∀ (ch : Fin 512) (s : State) (w : Swap), s.frozen = false → s.fld F.STK_THERM_GRADE (ch / 16) < 3 → s.holds = [] →
     (s.hoistChan ch).swap = some w → 1024 ≤ w.cursor → w.slow ≠ w.victim → (s.hoist (ch / 16)).hints = [] →
     ∃ t, exec (.swapComplete ch) s = .next t ∧ t.slotOf ch w.slow = s.slotOf ch w.victim ∧ t.slotOf ch w.victim = s.slotOf ch w.slow ∧
       (∀ f, f ≠ w.slow → f ≠ w.victim → t.slotOf ch f = s.slotOf ch f) ∧ (t.hoistChan ch).swap = none ∧
       (t.hoistChan ch).entered = (s.hoistChan ch).entered.filter (· ≠ w.victim) ++ [w.slow] ∧ t.mem = s.mem ∧ t.cmds = s.cmds ∧
       s.RegsKept t [(.HST_MIGRATED, ch / 16)])) ∧
  (∀ (s : State) (r : CmdRef) (c : Cmd), s.Ready r 0x8005 c → s.holds = [] → (∀ st, (s.hoist st).hints = []) →
     (∀ st ch, ch < 16 → (s.hoistChan (16 * st + ch)).swap = none) →
     let sid := c.f 0x11 1
     let x : Stream := { base := c.fb 0x18 47 0, segUnits := c.f 0x20 4, segments := c.f 0x24 4, win := c.f 0x14 4 }
     let stks := s.hoistsOf x.base
     let fs := s.segFrames x 0 x.segments
     let opened := s.openOn sid
     sid < 8 → ∃ t, exec (.stream r) s = .next t ∧ t.mem = s.mem ∧ t.regs = s.regs ∧
       (c.f 0x10 1 = 0 → (∃ st ∈ stks, (s.streamOf st sid).isSome) → s.EndsAlone t r 0x0104 sid ∧ s.CmdOnly t) ∧
       (c.f 0x10 1 = 0 → (∀ st ∈ stks, s.streamOf st sid = none) → ∀ b, s.streamClash stks fs = some b → s.EndsAlone t r 0x0104 b ∧ s.CmdOnly t) ∧
       (c.f 0x10 1 = 0 → (∀ st ∈ stks, s.streamOf st sid = none) → s.streamClash stks fs = none → 4096 < x.win * x.segUnits →
         s.EndsAlone t r 0x0402 0x14 ∧ s.CmdOnly t) ∧
       (c.f 0x10 1 = 0 → (∀ st ∈ stks, s.streamOf st sid = none) → s.streamClash stks fs = none → x.win * x.segUnits ≤ 4096 →
         t.Ended r 0 0 ∧ ∀ st ∈ stks, t.streamOf st sid = some x ∧ ∀ f ∈ fs, (t.attr st f).testBit 9 = true ∧ bits (t.attr st f) 8 6 = sid) ∧
       (c.f 0x10 1 ≠ 0 → opened = [] → s.EndsAlone t r 0x0104 sid ∧ s.CmdOnly t) ∧
       (c.f 0x10 1 = 1 → (∃ p ∈ opened, p.2.segments ≤ c.f 0x28 4) → s.EndsAlone t r 0x0105 0x28 ∧ s.CmdOnly t) ∧
       (c.f 0x10 1 = 1 → opened ≠ [] → (∀ p ∈ opened, c.f 0x28 4 < p.2.segments ∧
           ∀ ch < 16, ∀ f ∈ s.targetOf p.2 (c.f 0x12 1) (c.f 0x28 4), s.isFast (16 * p.1 + ch) f = true) → t.Ended r 0 0) ∧
       (c.f 0x10 1 = 2 → opened ≠ [] → t.Ended r 0 0 ∧ ∀ st < 32, t.streamOf st sid = none))

/-! ## The training step -/

/-- UPD_ADAMW, UPD_SGDM and UPD_SIGNM (R209 to R211, R220): the slice at the front of its unit ends with OK and its entry is APPLIED; where
its spans are apart each master weight is that of R210, and no byte outside its spans, its entry and its PARTIAL pair changes. -/
def Obligations.SlicesUpdateTheirWeights : Prop :=
  ∀ (s : State) (r : CmdRef) (c : Cmd) (ev : BufEvents) (op : Nat) (u : UpdWork), (op = 0x5001 ∨ op = 0x5002 ∨ op = 0x5003) → s.UnitReady r op c →
    ev.uncorrectable < 2 → s.Plain → s.Quiet → (∀ e ∈ s.cmds, e.opcode ≠ 0x9002) → c.work = .upd u → (s.upd u.stack).slices.head? = some r →
    u.waited = true → s.fld F.UPD_CTL_MODE u.stack ≠ 2 →
    let exc := if op = 0x5001 then Instr.updAdamw r ev else if op = 0x5002 then Instr.updSgdm r ev else Instr.updSignm r ev
    let w := tdAt c.pkt 0x40
    let v := fun k i => ((((List.zip (updOps op c.pkt) u.srcs).map (fun p => p.1.elemsOf p.2)).getD k []).map (·.val)).getD i .zero
    let lr0 := fp32Val (c.f 0x128 4)
    let lr := if updTrust c.pkt then (formFp32.mul lr0 (trustRatio (w64Decode u.sumW) (fp32Val (c.f 0x148 4)) (fp32Val (c.f 0x14C 4))).1).1 else lr0
    let part := c.ntel.uwRow c.layer + 16 * u.stack
    let others : List (Nat × Nat) := [((tdAt c.pkt 0x70).base, 4 * w.e 0), (s.jAddr u.stack u.entry, 64), (part, 16)] ++
      (if op = 0x5001 then [((tdAt c.pkt 0xA0).base, 4 * w.e 0)] else []) ++ (if updWc c.pkt then [((tdAt c.pkt 0xD0).base, (tdAt c.pkt 0xD0).rowLen)] else [])
    ∃ t, exec exc s = .next t ∧ s.EndsAlone t r 0 0 ∧ t.jState u.stack u.entry = 3 ∧ r ∉ (t.upd u.stack).slices ∧
      s.RegsKept t [(.UPD_NUMFLAGS, u.stack)] ∧
      ((∀ x ∈ others, w.base + 4 * w.e 0 ≤ x.1 ∨ x.1 + x.2 ≤ w.base) → (updWc c.pkt = true → (tdAt c.pkt 0xD0).Regular ∧ (tdAt c.pkt 0xD0).e 0 = w.e 0) →
        (∀ i < w.e 0, t.readMem (w.base + 4 * i) 4 = fp32Bits (updElem (updP op c.pkt lr) (v 0 i) (v 1 i) (v 2 i) (v 3 i)).1.1 % 2 ^ 32) ∧
        ∀ a, (∀ x ∈ (w.base, 4 * w.e 0) :: others, a < x.1 ∨ x.1 + x.2 ≤ a) → t.rawByte a = s.rawByte a)

/-- TELEMETRY_FLUSH (R193): one that fails its checks ends with their code; otherwise it is counted and ends with OK. One that only clears
census rows leaves the counts of those of a supported version 0 (R28). GRAD_CLEAR, COMMIT_STEP, STEP_RECONCILE, EPOCH_WAIT_END and
UPD_JRNL_WRITE (R204, R205, R216, R217, R223 to R225, R229). -/
def Obligations.FlushesJournalsAndEpochsAdvance : Prop :=
  (∀ (s : State) (r : CmdRef) (c : Cmd), s.UnitReady r 0x5007 c → s.Plain → s.Quiet →
     let ff := c.f 0x18 4
     ∃ t, exec (.telemetryFlush r) s = .next t ∧
       (∀ x d, s.flushFails c = some (x, d) → s.EndsAlone t r x d ∧ s.CmdOnly t) ∧
       (s.flushFails c = none → t.Ended r 0 0 ∧ t.fld F.NTEL_STATUS_FLUSHES 0 = (s.fld F.NTEL_STATUS_FLUSHES 0 + 1) % (F.NTEL_STATUS_FLUSHES.top + 1) ∧
         (ffEntries ff = false → ffUw ff = false → ffSnap ff = false → c.fb 0x40 47 0 = 0 →
           s.EndsAlone t r 0 0 ∧ s.RegsKept t [(.NTEL_STATUS, 0), (.ACC_NUMFLAGS, s.regionOf r.q)] ∧
           (ffClearCensus ff = true → ∀ k < c.f 0x2C 4, ∀ f < 16, let row := c.ntel.censusRow (c.f 0x28 4 + k) f
             t.readMem row 0x28 = if s.rowOk row 0x28 then 0 else s.readMem row 0x28) ∧
           (ffClearCensus ff = false → t.mem = s.mem)))) ∧
  (∀ (s : State) (r : CmdRef) (c : Cmd) (evs : List BufEvents), s.Plain → s.Quiet → s.running = true → s.frozen = false →
     let g := tdAt c.pkt 0x10
     let step := c.f 0x10 8
     let out := c.fb 0x20 47 0
     (s.UnitReady r 0x5004 c → ∃ t, exec (.gradClear r) s = .next t ∧
       (∀ x, s.gradConflict g.base g.spanLen = some x → s.EndsAlone t r 0x0104 x ∧ s.CmdOnly t) ∧
       (s.gradConflict g.base g.spanLen = none → s.EndsAlone t r 0 0 ∧ t.BytesAre g.base (4 * g.e 0) 0 ∧ s.BytesKept t g.base (4 * g.e 0) ∧ s.CmdMemOnly t)) ∧
     (s.UnitReady r 0x5005 c → ∃ t, exec (.commitStep r) s = .next t ∧
       ((∃ st ∈ stacksOf (c.f 0x18 4), ∃ i ∈ s.jUsed st, s.jStep st i ≤ step ∧ s.jState st i ≠ 3) → (∃ x, s.EndsAlone t r 0x0104 x) ∧ s.CmdOnly t) ∧
       ((∀ st ∈ stacksOf (c.f 0x18 4), ∀ i ∈ s.jUsed st, s.jStep st i ≤ step → s.jState st i = 3) → s.EndsAlone t r 0 0 ∧ t.pwr.commit = some step ∧
         (∀ st ∈ stacksOf (c.f 0x18 4), ∀ i ∈ s.jUsed st, s.jStep st i ≤ step → t.jState st i = 0) ∧ t.regs = s.regs)) ∧
     (s.UnitReady r 0x5006 c → s.reconTodo c = [] → ∃ t, exec (.stepReconcile r evs) s = .next t ∧ s.EndsAlone t r 0 0 ∧ t.regs = s.regs ∧
       (out = 0 → s.CmdOnly t) ∧ (out ≠ 0 → t.readMem (out + 8) 8 = step ∧ t.readMem (out + 0x18) 4 = 0 ∧ s.BytesKept t out 576 ∧
         ∀ st ∈ stacksOf (c.f 0x18 4), t.readMem (out + 0x40 + 16 * st) 16 = s.jrnlLine st (fun i => s.jStep st i = step))) ∧
     (s.UnitReady r 0x5006 c → ∀ st i, s.reconTodo c = [(st, i)] → c.f 0x1C 1 = 2 → out = 0 → updWc (s.jPacket st i) = false →
       ∃ t, exec (.stepReconcile r evs) s = .next t ∧ s.EndsAlone t r 0 0 ∧ t.jState st i = 3) ∧
     (s.cmd r = some c → c.phase = .waiting → s.heldAtCut r.q = false → ∀ u wreg e, c.work = .upd u → u.weight = some (wreg, e) →
       (s.liveRefs wreg e ≠ 0 → exec (.epochWaitEnd r evs) s = .next s) ∧
       (s.liveRefs wreg e = 0 → ∃ t d, exec (.epochWaitEnd r evs) s = .next t ∧ t.cmd r = some d ∧ d.phase = .issued ∧ d.work = .upd { u with waited := true } ∧
         (t.upd u.stack).slices = (s.upd u.stack).slices ++ [r] ∧ t = { s with cmds := t.cmds, upds := t.upds })) ∧
     (∀ (a : Agent) (stack : Fin 32) (v : Nat), v < 2 ^ 64 →
       (s.jUsed stack ≠ [] → exec (.updJrnlWrite a stack v) s = .next s) ∧
       (s.jUsed stack = [] → bit v 0 = true → (s.spanFault (.apt stack) (bits v 47 20 <<< 20) 0x100000).isSome = true →
         exec (.updJrnlWrite a stack v) s = .next s) ∧
       (s.jUsed stack = [] → bit v 0 = true → s.spanFault (.apt stack) (bits v 47 20 <<< 20) 0x100000 = none →
         ∃ t, exec (.updJrnlWrite a stack v) s = .next t ∧ t.flag F.UPD_JRNL_EN stack = true ∧ t.fld F.UPD_JRNL_BASE stack = bits v 47 20 ∧
           ((s.upd stack).fresh = true → (∀ i < 2048, t.jState stack i = 0) ∧ (t.upd stack).fresh = false) ∧ s.RegsKept t [(.UPD_JRNL, stack)] ∧
           s.BytesKept t (bits v 47 20 <<< 20) 0x100000)))

/-! ## Collectives and their frames -/

/-- GROUP_LOAD (R370) and PHASE_SELECT (R371): without staging memory and for a slot in use they end with BAD_ADDRESS; a group entry that
passes its checks is loaded with its signature and counted; an activation makes a phase active; a map with no group in a role is refused. -/
def Obligations.GroupsLoadAndPhasesSwitch : Prop :=
  ∀ (s : State) (r : CmdRef) (c : Cmd), s.Plain →
    (s.Ready r 0x6007 c →
      let slot := c.f 0x10 1
      let e := s.readMem (c.fb 0x18 47 0) 64
      let n := if le e 8 2 ≤ 4096 then le e 8 2 else 0
      let ms := if (s.spanFault .ilv (leBits e 0x18 47 0) (32 * n)).isSome then 0 else s.readMem (leBits e 0x18 47 0) (32 * n)
      ∃ t, exec (.groupLoad r) s = .next t ∧
        (s.noStaging = true → s.EndsAlone t r 0x0104 0 ∧ s.CmdOnly t) ∧
        (s.noStaging = false → s.slotBusy slot = true → s.EndsAlone t r 0x0104 slot ∧ s.CmdOnly t) ∧
        (s.noStaging = false → s.slotBusy slot = false → c.f 0x11 1 = 1 → s.EndsAlone t r 0 0 ∧ t.group slot = none ∧ t.mem = s.mem ∧
          (s.group slot = none → t.regs = s.regs)) ∧
        (s.noStaging = false → s.slotBusy slot = false → c.f 0x11 1 ≠ 1 →
          (∀ o, s.groupFault slot e ms = some o → s.EndsAlone t r 0x0103 o ∧ s.CmdOnly t) ∧
          (s.groupFault slot e ms = none → s.EndsAlone t r 0 0 ∧ s.RegsKept t [(.CT_STATUS, 0)] ∧ t.mem = s.mem ∧ t.group slot = some
            { entry := e, members := ms, gsig := crc32c (le e 2 8 + (le e 0xC 8) <<< 64 + ms <<< 128) (16 + 32 * n) }))) ∧
    (s.Ready r 0x6008 c → ∃ t, exec (.phaseSelect r) s = .next t ∧
      (s.noStaging = true → s.EndsAlone t r 0x0104 0 ∧ s.CmdOnly t) ∧
      (s.noStaging = false → c.f 0x10 1 = 0 → c.f 0x11 1 ≤ 3 → s.EndsAlone t r 0 0 ∧ t.fld F.CT_PHASE_ACTIVE 0 = c.f 0x11 1 ∧
        t.fld F.CT_STATUS_PHASE 0 = c.f 0x11 1 ∧ s.RegsKept t [(.CT_PHASE, 0), (.CT_STATUS, 0)] ∧ s.CmdRegOnly t) ∧
      (s.noStaging = false → c.f 0x10 1 ≠ 0 → (∀ k < 8, le (c.f 0x18 8) k 1 = 0xFF ∨ le (c.f 0x18 8) k 1 ≤ 63 ∧ (s.group (le (c.f 0x18 8) k 1)).isSome) →
        s.EndsAlone t r 0 0 ∧ t.phaseMap (c.f 0x11 1) = c.f 0x18 8 ∧ t.regs = s.regs))

/-- A collective that starts (R373, R380, R390, R391, R393) runs and grants credits to every other rank, none while its staging is full
(R389). A reduction whose ready word is short waits, one that is ready arrives (rank 0 notes it, another rank queues ARRIVE); ALLGATHER
and a root of BROADCAST put their own units in D; PERMUTE to another rank queues its units; SLICE_FETCH sends its request. -/
def Obligations.CollectivesStart : Prop :=
  ∀ (s : State) (r : CmdRef) (c : Cmd) (op : Nat), s.Ready r op c → s.Plain → s.frozen = false → c.ref = r → (∀ st, (s.hoist st).hints = []) →
    let g := c.cw.group
    let exc := if op = 0x6001 then Instr.allreduce r else if op = 0x6002 then Instr.reduceScatter r else if op = 0x6003 then Instr.allgather r
      else if op = 0x6004 then Instr.broadcast r else Instr.permute r
    (∃ w, c.work = .coll w) → 2 ≤ g.n →
    (0x6001 ≤ op → op ≤ 0x6005 → ∃ t d, exec exc s = .next t ∧ t.cmd r = some d ∧ d.cw.started = true ∧ d.pkt = c.pkt ∧ s.OthersKept t r ∧
      (c.Fresh → ∀ p, s.portA = some p → s.Clear p (s.pcpOf g.vc) → ∃ n fs, (n = 0 ∨ n = c.cw.window) ∧
        (s.cmds = [c] → c.stagedBytes < c.cw.staging → n = c.cw.window) ∧
        t.tx = s.tx ++ ((List.range g.n).filter (· ≠ g.rank)).map (fun i => s.collSent p
          { typ := 9, vc := g.vc, gid := g.gid, src := g.rank, dst := i, redId := c.collKey.redId, step := c.collKey.step,
            index := 2 ^ 32 - 1, plen := 4, data := n }) ++ fs) ∧
      (op ≤ 0x6002 → c.Fresh → c.readyAddr ≠ 0 → s.readMem c.readyAddr 8 < c.f 0x98 8 → (g.rank = 0 → s.deadlinePast c = false) →
        d.phase = .running ∧ d.cw.arrived = false ∧ (s.coll.grants = [] → d.cw.flows = []) ∧
        (∀ x, s.coll.grants = [x] → x.1 = c.collKey → d.cw.flows = [{ peer := x.2.1, credits := x.2.2 }]) ∧ t.mem = s.mem ∧ t.regs = s.regs) ∧
      (op ≤ 0x6002 → c.Fresh → c.readyAddr = 0 → g.rank ≠ 0 → s.coll.grants = [] →
        d.phase = .running ∧ d.cw.arrived = true ∧ ∃ x, (d.cw.flow 0).queued = [x] ∧ x.typ = 1 ∧ x.dst = 0 ∧ x.src = g.rank ∧ x.data = g.gsig ∧ x.seq = 0) ∧
      ((op = 0x6003 ∨ op = 0x6004 ∧ c.f 0x76 2 = g.rank) → c.Fresh → s.Awake → g.rank < g.n → ∀ x l y, c.srcTd.image = [(x, l)] →
        c.dstImage (if op = 0x6003 then g.rank else 0) = [(y, l)] →
        unitsOf (c.dstImage 0) = 1 → 0 < l → l ≤ 8192 → s.coll.grants = [] → t.readMem y l = s.readMem x l ∧ s.BytesKept t y l ∧ d.phase = .running ∧
          (if op = 0x6003 then g.rank else 0) ∈ d.cw.units) ∧
      (op = 0x6005 → c.Fresh → s.Awake → ∀ dest, c.cw.ptab.getD g.rank 0 = dest → dest ≠ g.rank → s.coll.grants = [] → d.phase = .running ∧ t.mem = s.mem ∧
        (d.cw.flow dest).queued.map (·.data) = (List.range (unitsOf c.srcTd.image)).map (fun k => s.gatherSegs (unitCut c.srcTd.image k)))) ∧
    (op = 0x6009 → ∃ t d, exec (.sliceFetch r) s = .next t ∧ t.cmd r = some d ∧ d.phase = .running ∧ s.OthersKept t r ∧ t.mem = s.mem ∧ t.regs = s.regs ∧
      ∃ q, (d.cw.flow (c.f 0x12 2)).unacked = [q] ∧ q.typ = 10 ∧ le q.data 0 8 = c.fb 0x18 47 0 ∧ le q.data 8 8 = c.f 0x28 8 ∧
        ∀ p, s.portA = some p → s.Clear p (s.pcpOf q.vc) → t.tx = s.tx ++ [s.collSent p q])

/-- What moves a started collective on without a frame (R373, R380 to R382, R386), the straggler log off: a short ready word changes nothing;
the lead time and LATE send LATE; the deadline fixes the mask of those that arrived in time; a SLICE_FETCH whose peer is overdue ends with
GROUP_FAULT and the peer (or its own rank while no port is UP); an unacknowledged flow goes again. -/
def Obligations.CollectivesMoveOn : Prop :=
  ∀ (s : State) (x : CmdRef) (c : Cmd), s.Plain → s.running = true → s.frozen = false → s.braking = false → s.fld F.CT_SLOG_BASE_SIZE_LOG2 0 = 0 →
    s.cmd x = some c → c.ref = x → c.phase = .running → c.opcode / 4096 = 6 → c.cw.started = true → (∃ w, c.work = .coll w) →
    let g := c.cw.group
    let late := fun t : State => ∃ d, t.cmd x = some d ∧ d.cw.late = true ∧ (g.rank ≠ 0 → (c.cw.flow 0).queued = [] → (c.cw.flow 0).credits = 0 →
      ∃ y, (d.cw.flow 0).queued = [y] ∧ y.typ = 2 ∧ y.seq = (c.cw.flow 0).nextSeq)
    (c.isReduction = true → c.cw.arrived = false → c.readyAddr ≠ 0 → s.readMem c.readyAddr 8 < c.f 0x98 8 →
      ∃ t, exec (.readyWordPoll x) s = .next t ∧ t.cmds = s.cmds ∧ s.CmdOnly t) ∧
    (c.isReduction = true → c.cw.arrived = false → (c.readyAddr = 0 ∨ s.Awake ∧ c.f 0x98 8 ≤ s.readMem c.readyAddr 8) →
      ∃ t d, exec (.readyWordPoll x) s = .next t ∧ t.cmd x = some d ∧ d.cw.arrived = true) ∧
    (c.isReduction = true → c.cw.arrived = false → c.cw.late = false → c.deadline ≠ 0 → c.cw.leadUs ≠ 0 →
      (s.now 4 + 1000 * c.cw.leadUs < c.deadline → exec (.autoLate x) s = .next s) ∧
      (c.deadline ≤ s.now 4 + 1000 * c.cw.leadUs → ∃ t, exec (.autoLate x) s = .next t ∧ late t)) ∧
    (∀ r e, s.Ready r 0x6006 e → e.ref = r → s.noStaging = false → s.cmds = [c, e] → x ≠ r →
      let match_ := c.isReduction = true ∧ c.cw.arrived = false ∧ (s.resolve (e.f 0x10 1)).map (·.1) = some c.cw.slot ∧
        c.f 0x78 4 = e.f 0x14 4 ∧ c.f 0x80 8 = e.f 0x18 8
      (¬ match_ → ∃ t, exec (.late r) s = .next t ∧ s.EndsAlone t r 0x0104 (e.f 0x14 4) ∧ s.CmdOnly t) ∧
      (match_ → ∃ t, exec (.late r) s = .next t ∧ t.Ended r 0 0 ∧ late t)) ∧
    (c.isReduction = true → (s.deadlinePast c = false → exec (.maskDeadline x) s = .next s) ∧
      (s.deadlinePast c = true → g.rank = 0 → c.cw.mask = none → c.cw.aborting = none →
        let inn := (List.range g.n).filter (fun i => c.cw.got.contains i && !(c.cw.lates.contains i))
        inn ≠ [] → ∃ t d, exec (.maskDeadline x) s = .next t ∧ t.cmd x = some d ∧ d.cw.mask = some (inn.foldl (fun m i => m + 2 ^ i) 0))) ∧
    (c.opcode = 0x6009 →
      (c.cw.seen (c.f 0x12 2) + 1000 * g.faultUs ≤ s.time → ∃ t, exec (.progressTimeout x) s = .next t ∧ s.EndsAlone t x 0x0501 (c.f 0x12 2 % 2 ^ 16 + 1 <<< 16 + c.seqNo <<< 32) ∧ s.RegsKept t [(.CT_ERR, 0)]) ∧
      (s.portA = none → max c.cw.lastSeen s.portsDownAt + 1000 * g.faultUs ≤ s.time → ∃ t, exec (.noPortUpTimeout x) s = .next t ∧ s.EndsAlone t x 0x0501 (g.rank % 2 ^ 16 + 7 <<< 16 + c.seqNo <<< 32) ∧
        s.RegsKept t [(.CT_ERR, 0)])) ∧
    (s.time < c.cw.lastSeen + 1000 * g.faultUs → exec (.progressTimeout x) s = .next s ∧ exec (.noPortUpTimeout x) s = .next s) ∧
    (∀ peer p, x.q ≠ 512 → s.portA = some p → (c.cw.flow peer).unacked ≠ [] → (c.cw.flow peer).retries < 7 → (c.cw.flow peer).peer = peer →
      ∃ t d, exec (.collectiveRetransmit x peer) s = .next t ∧ t.cmd x = some d ∧ d.cw.flow peer = { c.cw.flow peer with retries := (c.cw.flow peer).retries + 1 } ∧
        ((∀ f ∈ (c.cw.flow peer).unacked, s.Clear p (s.pcpOf f.vc)) → t.tx = s.tx ++ (c.cw.flow peer).unacked.map (s.collSent p)) ∧ s.RegsKept t [(.CT_ERR, 0)] ∧ t.mem = s.mem)

/-- What the next frame of a flow does to its collective (R377, R379, R382, R390), no stack being in protective self-refresh (R389): ARRIVE
and LATE are noted at rank 0, GO brings the mask, UP stages partial sums, DOWN counts results of D, side data gathers, XFER and FETCH_DATA
write their unit, the last one ending the fetch. -/
def Obligations.FramesAdvanceTheirCollective : Prop :=
  ∀ (p : Fin 4) (f : CFrame) (s : State) (c : Cmd), s.Plain → s.frozen = false → s.TakesFrame p f → s.Awake → f.major = 1 → s.collOf (CFrame.key f) = some c → s.cmd c.ref = some c →
    f.seq = (c.cw.flow f.src).recvSeq → s.fld F.CT_SLOG_BASE_SIZE_LOG2 0 = 0 →
    let w := c.cw
    let b := f.index / blockChunks c.elems w.group.n
    let ws := CFrame.wires f c.wire
    let waits := (∃ i < w.group.n, i ≠ f.src ∧ i ∉ w.got ∧ i ∉ w.lates) ∧ c.isReduction = true ∧ w.group.rank = 0 ∧ w.mask = none
    let next := fun (d : Cmd) => (d.cw.flow f.src).recvSeq = (f.seq + 1) % 2 ^ 32 ∧ Tab.get 0 d.cw.seenAt f.src = s.time
    (f.typ = 1 → waits → le f.data 0 4 = w.group.gsig → ∃ t d, exec (.arrive p f) s = .next t ∧ t.cmd c.ref = some d ∧ d.cw.got = f.src :: w.got ∧ next d ∧ t.mem = s.mem) ∧
    (f.typ = 2 → waits → ∃ t d, exec (.lateFrame p f) s = .next t ∧ t.cmd c.ref = some d ∧ d.cw.lates = f.src :: w.lates ∧ next d ∧ t.mem = s.mem) ∧
    (f.typ = 3 → c.isReduction = true → w.mask = none → ∃ t d, exec (.go p f) s = .next t ∧ t.cmd c.ref = some d ∧
      d.cw.mask = some (le f.data 4 (ceilDiv w.group.n 8)) ∧ d.cw.tMask < 2 ^ 64) ∧
    (f.typ = 4 → c.isReduction = true → w.mask = none → ∃ t d, exec (.up p f) s = .next t ∧ t.cmd c.ref = some d ∧ next d ∧ t.mem = s.mem ∧
      Tab.get 0 d.cw.upCount (b * 4096 + f.src) = Tab.get 0 w.upCount (b * 4096 + f.src) + ws.length ∧
      ∀ k < ws.length, Tab.get 0 d.cw.parts (f.src * 2 ^ 44 + (blockRange c.elems w.group.n b).1 + Tab.get 0 w.upCount (b * 4096 + f.src) + k) = ws.getD k 0) ∧
    (f.typ = 5 → c.opcode = 0x6001 → w.settled.length < w.group.n → ∃ t d, exec (.down p f) s = .next t ∧ t.cmd c.ref = some d ∧ d.phase = .running ∧
      d.wrote = true ∧ Tab.get 0 d.cw.downCount b = Tab.get 0 w.downCount b + ws.length ∧ ∀ v, ws = [v] →
        let i := (blockRange c.elems w.group.n b).1 + Tab.get 0 w.downCount b
        let x := c.dstTd.fmt.target.convert (wireDeq c.wire (w.expOf i) v) c.dstTd.ovp none
        t.BytesAre (c.dstTd.elemAddr i) (c.dstTd.fmt.elemBits / 8) x.raw ∧ s.BytesKept t (c.dstTd.elemAddr i) (c.dstTd.fmt.elemBits / 8)) ∧
    (f.typ = 6 → c.isReduction = true → w.settled.length < w.group.n → ∃ t d, exec (.sideUp p f) s = .next t ∧ t.cmd c.ref = some d ∧
      d.cw.sideIn = (w.sideTake f).sideIn ∧ next d ∧ t.mem = s.mem) ∧
    (f.typ = 7 → c.isReduction = true → w.settled.length < w.group.n → ∃ t d, exec (.sideDown p f) s = .next t ∧ t.cmd c.ref = some d ∧
      d.cw.sideIn = (w.sideTake f).sideIn ∧ (f.last = true → d.cw.sideDone = true) ∧ ((c.f 0x71 1).testBit 0 = false → t.mem = s.mem)) ∧
    (f.typ = 8 → (c.opcode = 0x6003 ∨ c.opcode = 0x6004 ∨ c.opcode = 0x6005 ∧ c.srcTd.base ≠ c.dstTd.base) → ∃ t d, exec (.xfer p f) s = .next t ∧ t.cmd c.ref = some d ∧
      f.index ∈ d.cw.units ∧ d.wrote = true) ∧
    (f.typ = 11 → c.opcode = 0x6009 →
      let a := c.fb 0x20 47 0 + 8192 * f.index
      ∃ t, exec (.fetchData p f) s = .next t ∧ t.BytesAre a f.plen f.data ∧ s.BytesKept t a f.plen ∧ s.OthersKept t c.ref ∧ t.regs = s.regs ∧
        (if ceilDiv (c.f 0x28 8) 8192 ≤ w.units.length + 1 then t.Ended c.ref 0 0 else t.InPhase c.ref .running))

/-- Acknowledgements, requests and the frames that end a collective (R373, R386, R393): an ACK removes what it covers and grants credits; a
FETCH_REQ is refused with NAK cause 3 while fetching is disabled and is served otherwise, on a flow of its own; the next frame of a flow,
where it is FETCH_NAK or ABORT, ends its command with GROUP_FAULT. The rules of R28, R347, R372, R373 and R396: a frame of an unsupported
major version is discarded and counted. For every frame of a flow: a port that is not UP takes none; one of an unknown group is discarded
and counted; one of the flow that came before is acknowledged again with the last SEQ accepted and, unless the staging is full, WINDOW
credits; a later one is not taken. -/
def Obligations.CollectiveFramesAreAnsweredInOrder : Prop :=
  (∀ (p : Fin 4) (f : CFrame) (s : State) (a : Nat), s.Plain → s.frozen = false → s.TakesFrame p f → f.major = 1 → s.portA = some a → s.gangOf (CFrame.key f) = none →
     (∀ c, f.typ = 9 → s.collOf (CFrame.key f) = some c → s.cmd c.ref = some c → c.isReduction = true → c.cw.settled.length < c.cw.group.n →
       (c.cw.flow f.src).queued = [] → (c.cw.flow f.src).peer = f.src → ∃ t d, exec (.collectiveAck p f) s = .next t ∧ t.cmd c.ref = some d ∧ d.phase = .running ∧
         (d.cw.flow f.src).unacked = (c.cw.flow f.src).unacked.filter (fun x => seqBefore f.index x.seq) ∧
         (d.cw.flow f.src).credits = le f.data 0 4 - (d.cw.flow f.src).unacked.length ∧ t.mem = s.mem ∧ t.regs = s.regs) ∧
     (∀ g, f.typ = 10 → s.groups.find? (fun g => g.gid = f.gid) = some g → (∀ x ∈ s.coll.served, x.1 ≠ CFrame.key f) →
       let remote := le f.data 0 8
       let len := le f.data 8 8
       let refused := s.flag F.CT_CFG_FETCH_EN 0 = false ∨ (s.spanFault .words remote len).isSome = true
       ∃ t, exec (.fetchReq p f) s = .next t ∧ t.mem = s.mem ∧ t.regs = s.regs ∧ t.cmds = s.cmds ∧
         (refused → ∃ fl x, t.coll.served = s.coll.served ++ [(CFrame.key f, fl)] ∧ fl.peer = f.src ∧ fl.unacked ++ fl.queued = [x] ∧ x.typ = 12 ∧
           x.dst = f.src ∧ x.data = 3) ∧
         (¬ refused → s.asleep [(remote, len)] = false → ∃ fl, t.coll.served = s.coll.served ++ [(CFrame.key f, fl)] ∧ fl.peer = f.src ∧
           (fl.unacked ++ fl.queued).map (fun x => (x.index, x.plen, x.data)) = (List.range (ceilDiv len 8192)).map (fun k =>
             (k, min 8192 (len - 8192 * k), s.readMem (remote + 8192 * k) (min 8192 (len - 8192 * k)))))) ∧
     (∀ c, s.collOf (CFrame.key f) = some c → s.cmd c.ref = some c → f.seq = (c.cw.flow f.src).recvSeq →
       (f.typ = 12 → c.opcode = 0x6009 → c.f 0x12 2 = f.src → ∃ t, exec (.fetchNak p f) s = .next t ∧
         s.EndsAlone t c.ref 0x0501 (f.src % 2 ^ 16 + le f.data 0 1 <<< 16 + c.seqNo <<< 32) ∧ s.RegsKept t [(.CT_ERR, 0)] ∧ t.mem = s.mem) ∧
       (f.typ = 14 → ∃ t, exec (.abort p f) s = .next t ∧
         s.EndsAlone t c.ref 0x0501 (le f.data 2 2 % 2 ^ 16 + le f.data 0 1 <<< 16 + f.redId <<< 32) ∧ s.RegsKept t [(.CT_ERR, 0)] ∧ t.mem = s.mem))) ∧
  (∀ (p : Fin 4) (f : CFrame) (s : State) (i : Instr) (typ : Nat), (i, typ) ∈ [(Instr.arrive p f, 1), (.lateFrame p f, 2), (.go p f, 3), (.up p f, 4),
       (.down p f, 5), (.sideUp p f, 6), (.sideDown p f, 7), (.xfer p f, 8), (.fetchData p f, 11), (.fetchNak p f, 12), (.abort p f, 14)] → s.frozen = false →
     let counted := fun t : State => t.fld F.CT_ERR_DISCARD 0 = min (s.fld F.CT_ERR_DISCARD 0 + 1) F.CT_ERR_DISCARD.top ∧
         s.RegsKept t [(.CT_ERR, 0)] ∧ s.RegOnly t
     (∀ j ∈ [i, .collectiveAck p f, .fetchReq p f, .brakeFrame p f], s.TakesFrame p f → f.major ≠ 1 → ∃ t, exec j s = .next t ∧ counted t) ∧
     (s.takes p = false → exec i s = .next s) ∧
     (s.TakesFrame p f → f.major = 1 → f.typ = typ → s.collOf (CFrame.key f) = none → s.coll.ended.contains (CFrame.key f) = false →
       ((∃ g ∈ s.groups, g.gid = f.gid) → exec i s = .next s) ∧
       ((∀ g ∈ s.groups, g.gid ≠ f.gid) → ∃ t, exec i s = .next t ∧ counted t)) ∧
     (s.TakesFrame p f → f.major = 1 → f.typ = typ → ∀ c a, s.collOf (CFrame.key f) = some c → s.cmd c.ref = some c → s.portA = some a →
       f.seq ≠ (c.cw.flow f.src).recvSeq →
       (seqBefore f.seq (c.cw.flow f.src).recvSeq = false → exec i s = .next s) ∧
       (seqBefore f.seq (c.cw.flow f.src).recvSeq = true → ∃ t, exec i s = .next t ∧ t.mem = s.mem ∧ t.regs = s.regs ∧ s.OthersKept t c.ref ∧
         (s.Clear a (s.pcpOf f.vc) → t.tx = s.tx ++ [s.collSent a
           { typ := 9, vc := f.vc, gid := f.gid, src := c.cw.group.rank, dst := f.src, redId := f.redId, step := f.step,
             index := ((c.cw.flow f.src).ackSeq + 2 ^ 32 - 1) % 2 ^ 32, plen := 4, data := if s.stagingFull c then 0 else c.cw.window }]))))

/-! ## The input pipeline -/

/-- DECODE and TOKENIZE (R329, R330, R336) take a free lane; a descriptor they cannot decode is refused; SAMPLE_DONE writes each row of D
(zeros for a dead sample) and the entry of REPORT, TEXT_DONE the tokens, and both end their command. DICT_LOAD (R327) takes a sound image
into its slot. -/
def Obligations.LanesDecodeAndTokenize : Prop :=
  ∀ (s : State) (r : CmdRef) (c : Cmd), s.Plain → s.Quiet → s.running = true → s.frozen = false → s.braking = false → s.fld F.BLT_DMG_BASE_SIZE_LOG2 0 = 0 →
    s.input.current = none → s.input.queue = [] → s.input.soloV = [] → s.input.soloT = [] → s.input.starved = none →
    (∀ e ∈ s.cmds, e.opcode ≠ 0x9002 ∧ e.opcode ≠ 0x7005) →
    let d := s.readMem (c.fb 0x10 47 0) 128
    let bad := s.malformed d c.tp.tt = true ∨ Desc.codec d = 0
    (s.UnitReady r 0x7001 c → ∃ t, exec (.decode r) s = .next t ∧
      (bad → s.EndsAlone t r 0x0105 0x10 ∧ s.CmdOnly t) ∧
      (¬ bad → (tdAt c.pkt 0x40).e 2 ≠ Desc.nout d / c.tp.tt → s.EndsAlone t r 0x0105 0x54 ∧ s.CmdOnly t) ∧
      (¬ bad → (tdAt c.pkt 0x40).e 2 = Desc.nout d / c.tp.tt → ∀ k, s.freeLane true = some k → t.InPhase r .running ∧
        t.lane true k = some { cmd := r, sample := 0 } ∧ s.OthersKept t r ∧ t.mem = s.mem ∧ t.regs = s.regs)) ∧
    (s.UnitReady r 0x7002 c → ∀ k, s.freeLane false = some k → ∃ t, exec (.tokenize r) s = .next t ∧ t.InPhase r .running ∧
      t.lane false k = some { cmd := r, sample := 0 } ∧ s.OthersKept t r ∧ t.mem = s.mem ∧ t.regs = s.regs) ∧
    (∀ (lane : Fin 24) (j : LaneJob), s.lane true lane = some j → j.cmd = r → s.cmd r = some c → c.ref = r → c.phase = .running → s.stalled c = false →
      c.opcode = 0x7001 →
      let rep := c.fb 0x18 47 0
      let desc := c.asmWork.descs.getD 0 0
      let out := { tdAt c.pkt 0x40 with ovp := c.tp.ovp }
      let gs := Desc.nout desc / c.tp.tt
      out.Regular → (∀ k < 64, out.Outside (rep + k)) →
      ∃ t, exec (.sampleDone lane {}) s = .next t ∧ s.EndsAlone t r 0 0 ∧ t.lane true lane = none ∧ s.RegsKept t [(.OBS_STATUS, 0)] ∧
        (∀ a, out.Outside a → (a < rep ∨ rep + 64 ≤ a) → t.rawByte a = s.rawByte a) ∧
        t.BytesAre rep 64 (sampleEntry desc { clip := some (s.clip desc) } { sample := 0, gn := gs }
          (if (s.clip desc).dead desc then 0 else gs * c.tp.ft) false) ∧
        ((s.clip desc).dead desc = false → t.RowsHold c out (fun i j _ => (s.clip desc).tubelet desc c.tp j i)) ∧
        ((s.clip desc).dead desc = true → ∀ q ∈ out.rows, t.BytesAre (out.rowAddr q.1 q.2.1 q.2.2) out.rowLen 0)) ∧
    (∀ (lane : Fin 4) (j : LaneJob), s.lane false lane = some j → j.cmd = r → s.cmd r = some c → c.ref = r → c.phase = .running → s.stalled c = false →
      c.opcode = 0x7002 → c.fb 0x30 47 0 = 0 →
      let out := (tokensOf (s.dict c.dictSlot) (s.readMem (c.fb 0x10 47 0) (c.f 0x18 4)) (c.f 0x18 4)).take (c.f 0x28 4)
      ∃ t, exec (.textDone lane {}) s = .next t ∧ s.EndsAlone t r 0 0 ∧ t.lane false lane = none ∧ t.regs = s.regs ∧
        t.BytesAre (c.fb 0x20 47 0) (4 * out.length) (packFields 32 out) ∧ s.BytesKept t (c.fb 0x20 47 0) (4 * out.length)) ∧
    (s.UnitReady r 0x7003 c →
      let h := s.readMem (c.fb 0x10 47 0) 64
      let n := 64 + 8 * le h 4 4 + Dict.poolLen h
      let img := s.readMem (c.fb 0x10 47 0) n
      ∃ t, exec (.dictLoad r) s = .next t ∧ t.mem = s.mem ∧
        (∀ o, dictFault h false = some o → s.EndsAlone t r 0x0103 o ∧ s.CmdOnly t) ∧
        (dictFault h false = none → ∀ x, s.spanFault .ilv (c.fb 0x10 47 0) n = some x → s.EndsAlone t r 0x0104 x ∧ s.CmdOnly t) ∧
        (dictFault h false = none → s.spanFault .ilv (c.fb 0x10 47 0) n = none → (∀ o, dictFault img true = some o → s.EndsAlone t r 0x0103 o ∧ s.CmdOnly t) ∧
          (dictFault img true = none → c.f 0x18 1 ≤ 1 → s.EndsAlone t r 0 0 ∧ t.dict (c.f 0x18 1) = img ∧ (t.fld F.TOK_STATUS_VALID 0).testBit (c.f 0x18 1) = true ∧
            s.RegsKept t [(.TOK_STATUS, 0)])))

/-- ASSEMBLE (R331, R342) is refused by a disabled Hopper, and in an idle pipeline starts with the descriptors its list names. HOPPER_TAKE
(R340) answers with the READY batch at the take index, or returns a taken slot; HOP_CTL enables, and disables a Hopper that is free
(R342). -/
def Obligations.HopperTakesAndReturns : Prop :=
  ∀ (s : State) (r : CmdRef) (c : Cmd), s.Plain → s.Quiet → s.running = true → s.frozen = false → s.braking = false →
    s.input.current = none → s.input.queue = [] → s.input.soloV = [] → s.input.soloT = [] → s.input.starved = none →
    (∀ e ∈ s.cmds, e.phase ≠ .waiting) →
    (s.UnitReady r 0x7004 c → c.ref = r → ∃ t d, exec (.assemble r) s = .next t ∧ t.cmd r = some d ∧ s.OthersKept t r ∧
      (s.hopOn = false → s.EndsAlone t r 0x0104 0 ∧ s.CmdOnly t) ∧
      (s.hopOn = true → d.asmWork.descs = (List.range (c.f 0x18 4)).map (fun i =>
          let a := s.readMem (c.fb 0x10 47 0 + 8 * i) 8
          if a % 64 = 0 ∧ a < 2 ^ 48 ∧ s.spanFault .ilv a 128 = none then s.readMem a 128 else 0) ∧
        (d.phase = .running → t.input.current = some r))) ∧
    (s.UnitReady r 0x7005 c → ∃ t, exec (.hopperTake r) s = .next t ∧
      (s.hopOn = false → s.EndsAlone t r 0x0104 0 ∧ s.CmdOnly t) ∧
      (s.hopOn = true → c.f 0x10 1 = 0 → s.fld F.HOP_CFG_LOW_WATER 0 = 0 →
        let k := s.fld F.HOP_STATUS_TAKE_IDX 0
        ((s.hopSlot k).st = .ready → s.EndsAlone t r 0 0 ∧ (t.hopSlot k).st = .taken ∧ t.fld F.HOP_STATUS_TAKE_IDX 0 = (k + 1) % s.hopSize % 256 ∧
          t.BytesAre (c.fb 0x18 47 0) 32 (s.takeReply k) ∧ s.BytesKept t (c.fb 0x18 47 0) 32) ∧
        ((s.hopSlot k).st ≠ .ready → t.InPhase r .waiting ∧ t.mem = s.mem ∧ t.regs = s.regs ∧ t.input.starved = some s.time)) ∧
      (s.hopOn = true → c.f 0x10 1 ≠ 0 → (s.hopSlot (c.f 0x11 1)).st ≠ .taken → s.EndsAlone t r 0x0104 (c.f 0x11 1) ∧ s.CmdOnly t) ∧
      (s.hopOn = true → c.f 0x10 1 ≠ 0 → (s.hopSlot (c.f 0x11 1)).st = .taken → s.EndsAlone t r 0 0 ∧ t.hopSlot (c.f 0x11 1) = {} ∧
        (∀ k, k ≠ c.f 0x11 1 → t.hopSlot k = s.hopSlot k) ∧ t.mem = s.mem ∧ t.regs = s.regs)) ∧
    (∃ t, exec .hopCtlEnable s = .next t ∧ (s.hopOn = true → t = s) ∧ (s.hopOn = false → t.hopOn = true ∧ t.fld F.HOP_STATUS_TAKE_IDX 0 = 0 ∧
      t.fld F.HOP_STATUS_FILL_IDX 0 = 0 ∧ (∀ k, t.hopSlot k = {}) ∧ s.RegsKept t [(.HOP_STATUS, 0)] ∧ t.cmds = s.cmds ∧ t.mem = s.mem)) ∧
    ∃ t, exec .hopCtlDisable s = .next t ∧
      (s.hopOn = false ∨ s.hopCount .free ≠ s.hopSize ∨ (∃ e ∈ s.cmds, e.opcode = 0x7004 ∧ (e.phase = .issued ∨ e.phase = .running)) → t = s) ∧
      (s.hopOn = true → s.hopCount .free = s.hopSize → (∀ e ∈ s.cmds, ¬ (e.opcode = 0x7004 ∧ (e.phase = .issued ∨ e.phase = .running))) →
        t.hopOn = false ∧ s.RegsKept t [(.HOP_STATUS, 0)] ∧ s.RegOnly t)

/-! ## Control of units -/

/-- QUARANTINE (R482, R484): a unit without work is taken out at once, an engine with the map rewritten and an error record, an update unit
into MODE 1, a lane with its bit, a port with reason QUARANTINED; RESTORE needs a passed KAT_RUN for an engine and leaves a port DOWN.
KAT_RUN (R485, R486), ERROR_RING_CFG (R478) and PORT_CTL UP and DOWN (R362), UP having an effect while the SerDes domain is on (R404). -/
def Obligations.UnitsAreTestedAndQuarantined : Prop :=
  (∀ (s : State) (r : CmdRef) (c : Cmd), s.Ready r 0x9002 c → s.Untraced → s.fld F.ERR_RING_BASE_SIZE_LOG2 0 = 0 → (∀ e ∈ s.cmds, e.opcode = 0x9002 → e.ref = r) →
     (∀ e ∈ s.cmds, e.opcode / 4096 ≠ 2) → s.input.current = none → s.input.queue = [] → s.input.soloV = [] → s.input.soloT = [] → s.input.starved = none →
     (∀ e ∈ s.cmds, e.phase ≠ .waiting) → c.ref = r →
     let u := c.f 0x10 2
     let lane := c.f 0x12 1
     ∃ t, exec (.quarantine r) s = .next t ∧ t.mem = s.mem ∧
       (targetOf u = none → s.EndsAlone t r 0x0104 u ∧ s.CmdOnly t) ∧
       (c.f 0x13 1 = 0 → s.unitBusy u lane = false → targetOf u ≠ none → (∀ p, targetOf u ≠ some (.port p)) → s.EndsAlone t r 0 0) ∧
       (∀ g, targetOf u = some (.engine g) →
         (c.f 0x13 1 = 0 → t.engineOut g = true ∧ (∀ g' < 16, g' ≠ g → t.engineOut g' = s.engineOut g') ∧
           s.RegsKept t [(.RC_ENGMAP, g / 4), (.ERR_STATUS, 0)]) ∧
         (c.f 0x13 1 ≠ 0 → s.engineOut g = false → s.EndsAlone t r 0 0 ∧ s.CmdOnly t) ∧
         (c.f 0x13 1 ≠ 0 → s.engineOut g = true → g ∉ s.obs.katPassed → s.EndsAlone t r 0x0104 u ∧ s.CmdOnly t) ∧
         (c.f 0x13 1 ≠ 0 → s.engineOut g = true → g ∈ s.obs.katPassed → s.EndsAlone t r 0 0 ∧ t.engineOut g = false ∧ s.RegsKept t [(.RC_ENGMAP, g / 4)])) ∧
       (∀ st, targetOf u = some (.upd st) → (c.f 0x13 1 = 0 → t.fld F.UPD_CTL_MODE st = 1 ∧ s.RegsKept t [(.UPD_CTL, st)]) ∧
         (c.f 0x13 1 ≠ 0 → s.fld F.UPD_CTL_MODE st = 1 → s.unitBusy u lane = false → s.EndsAlone t r 0 0 ∧ t.fld F.UPD_CTL_MODE st = 0 ∧ s.RegsKept t [(.UPD_CTL, st)])) ∧
       (targetOf u = some (.lane true) → lane < 24 → (t.fld F.BLT_STATUS_QUAR 0).testBit lane = decide (c.f 0x13 1 = 0) ∧ s.RegsKept t [(.BLT_STATUS, 0)]) ∧
       (∀ p, targetOf u = some (.port p) → (s.fld F.PORT_STATUS_STATE p = 0 ∨ s.fld F.PORT_STATUS_STATE p = 3) → c.f 0x13 1 = 0 →
         s.EndsAlone t r 0 0 ∧ t.fld F.PORT_STATUS_STATE p = 4 ∧ t.fld F.PORT_STATUS_REASON p = 4 ∧ s.RegsKept t [(.PORT_STATUS, p), (.OBS_STATUS, 0)]) ∧
       (∀ p, targetOf u = some (.port p) → s.fld F.PORT_STATUS_STATE p = 4 → c.f 0x13 1 ≠ 0 → s.EndsAlone t r 0 0 ∧ t.fld F.PORT_STATUS_STATE p = 3)) ∧
  (∀ (s : State) (r : CmdRef) (c : Cmd), s.Plain → s.Untraced → s.fld F.ERR_RING_BASE_SIZE_LOG2 0 = 0 →
     let b := c.f 0x10 1
     let phys := c.f 0x11 1
     let sets := c.f 0x12 1
     let named := (List.range 4).filter (fun m => phys.testBit m)
     (s.UnitReady r 0xB005 c → ∀ faults, ∃ t, exec (.katRun r faults) s = .next t ∧
       (3 < b ∨ (s.regionOf r.q < 4 ∧ b ≠ s.regionOf r.q) → s.EndsAlone t r 0x0104 b ∧ s.CmdOnly t) ∧
       (b ≤ 3 → (s.regionOf r.q < 4 → b = s.regionOf r.q) → (∃ m ∈ named, s.engineOut (4 * b + m) = false) → s.EndsAlone t r 0x0104 phys ∧ s.CmdOnly t) ∧
       (b ≤ 3 → (s.regionOf r.q < 4 → b = s.regionOf r.q) → (∀ m ∈ named, s.engineOut (4 * b + m) = true) → s.EndsAlone t r 0 0 ∧
         s.BytesKept t (c.fb 0x18 47 0) 64 ∧ t.readMem (c.fb 0x18 47 0 + 1) 1 = 1 ∧ s.RegsKept t [(.ERR_STATUS, 0)] ∧
         (∀ m < 4, t.readMem (c.fb 0x18 47 0 + 0x10 + 8 * m) 1 = if sets = 0 ∨ phys.testBit m = false then 2 else if firstFault faults m sets = none then 0 else 1) ∧
         (∀ m ∈ named, sets ≠ 0 → firstFault faults m sets = none → 4 * b + m ∈ t.obs.katPassed))) ∧
     (s.Ready r 0x9005 c → c.f 0x18 1 < 32 → c.fb 0x10 47 0 % 64 = 0 → ∃ t, exec (.errorRingCfg r) s = .next t ∧ s.EndsAlone t r 0 0 ∧
       t.fld F.ERR_RING_BASE_BASE 0 = c.fb 0x10 47 6 ∧ t.fld F.ERR_RING_BASE_SIZE_LOG2 0 = (if c.fb 0x10 47 0 = 0 then 0 else c.f 0x18 1) ∧
       (t.fld F.ERR_RING_BASE_CLASS_MASK 0).testBit 3 = true ∧ t.getR .ERR_RING_PTR 0 = 0 ∧ s.RegsKept t [(.ERR_RING_BASE, 0), (.ERR_RING_PTR, 0)] ∧ t.mem = s.mem) ∧
     (s.Ready r 0x9004 c → b < 8 → ∃ t, exec (.portCtl r) s = .next t ∧
       (phys = 0 → s.fld F.PORT_STATUS_STATE b = 4 → s.EndsAlone t r 0x0104 b ∧ s.CmdOnly t) ∧
       (phys = 0 → (s.fld F.PORT_STATUS_STATE b = 1 ∨ s.fld F.PORT_STATUS_STATE b = 2) → s.EndsAlone t r 0 0 ∧ s.CmdOnly t) ∧
       (phys = 0 → (s.fld F.PORT_STATUS_STATE b = 0 ∨ s.fld F.PORT_STATUS_STATE b = 3) → s.domOn (netDom b) = false → s.EndsAlone t r 0 0 ∧ s.CmdOnly t) ∧
       (phys = 0 → (s.fld F.PORT_STATUS_STATE b = 0 ∨ s.fld F.PORT_STATUS_STATE b = 3) → s.domOn (netDom b) = true → s.EndsAlone t r 0 0 ∧ t.fld F.PORT_STATUS_STATE b = 1 ∧
         t.fld F.PORT_STATUS_REASON b = 0 ∧ s.RegsKept t [(.PORT_STATUS, b), (.OBS_STATUS, 0)] ∧ t.mem = s.mem) ∧
       (phys = 1 → s.fld F.PORT_STATUS_STATE b = 1 → s.EndsAlone t r 0 0 ∧ t.fld F.PORT_STATUS_STATE b = 3 ∧ t.fld F.PORT_STATUS_REASON b = 3 ∧
         s.RegsKept t [(.PORT_STATUS, b), (.OBS_STATUS, 0)] ∧ t.mem = s.mem)))

/-! ## Security and recovery -/

/-- MEASURE_EXTEND, ATTEST, CERT_READ and DEBUG_UNLOCK (R436 to R441), for the oldest class 0xA command that has not ended (R438): an extend
hashes the register with the digest; a report carries version 1.0, the serial, the nonce and the registers; the certificate goes out with
its length; MODE 2 relocks, MODE 0 writes a fresh challenge, MODE 1 unlocks at most once per challenge and counts a failure. the report is
signed as R424 says, over a free salt (log 32). RECOVERY_ANNOUNCE, RECOVERY_LINK_TIMEOUT, OFFER, DATA and DONE (R442, R443) while recovery
has its link and the port is not frozen: an announce while no session stands; the first OFFER of at most 3 MiB opens one and a longer one
gets RESULT 3; DATA counts only at the expected offset, an ACK follows the 64th frame and at once a gap; DONE with every byte received
gets its RESULT, and where that is not 0 the session ends. -/
def Obligations.SecurityAndRecoveryRunTheirProtocols : Prop :=
  (∀ (s : State) (r : CmdRef) (c : Cmd), s.Plain → s.Untraced → s.secHead = some r →
     let at18 := c.fb 0x18 47 0
     let dest := c.fb 0x10 47 0
     (s.Ready r 0xA001 c → ∃ t, exec (.measureExtend r) s = .next t ∧ s.EndsAlone t r 0 0 ∧
       (∀ m, Tab.get 0 t.sec.meas m = if m = c.f 0x10 1 then sha256 (Tab.get 0 s.sec.meas m + (c.f 0x18 32) <<< 256) 64 else Tab.get 0 s.sec.meas m) ∧
       t = { s with cmds := t.cmds, sec := { s.sec with meas := t.sec.meas } }) ∧
     (s.Ready r 0xA002 c → ∃ t, exec (.attest r) s = .next t ∧
       (s.sec.seed = none → s.EndsAlone t r 0x0104 0 ∧ s.CmdOnly t) ∧
       (s.sec.seed ≠ none → s.EndsAlone t r 0 0 ∧ t.readMem (c.fb 0x30 47 0) 2 = 0x0100 ∧ t.readMem (c.fb 0x30 47 0 + 4) 4 = s.bootCount ∧
         t.readMem (c.fb 0x30 47 0 + 8) 8 = Config.serial % 2 ^ 64 ∧ t.readMem (c.fb 0x30 47 0 + 0x40) 32 = c.f 0x10 32 ∧
         (∀ m < 8, t.readMem (c.fb 0x30 47 0 + 0x60 + 32 * m) 32 = Tab.get 0 s.sec.meas m % 2 ^ 256) ∧ t.readMem (c.fb 0x30 47 0 + 0x160) 32 = 0 ∧
         (∀ seed, s.sec.seed = some seed → let key := Config.identityKey seed (Config.serial % 2 ^ 64)
           ∃ salt < 2 ^ 256, t.readMem (c.fb 0x30 47 0 + 0x180) 384 =
             pssSign key (Config.privateExponent key) (sha256 (t.readMem (c.fb 0x30 47 0) 384) 0x180) salt % 2 ^ 3072) ∧
         s.BytesKept t (c.fb 0x30 47 0) 768 ∧ s.LinksOnly t ∧
         t = { s with cmds := t.cmds, counters := t.counters, mem := t.mem, dir := t.dir, draws := s.draws + 1 })) ∧
     (s.Ready r 0xA003 c → ∃ t, exec (.certRead r) s = .next t ∧
       (s.certificate = none → s.EndsAlone t r 0x0104 0 ∧ s.CmdOnly t) ∧
       (∀ n der, s.certificate = some (n, der) → c.f 0x18 4 < n + 4 → s.EndsAlone t r 0x0402 0x18 ∧ s.CmdOnly t) ∧
       (∀ n der, s.certificate = some (n, der) → n + 4 ≤ c.f 0x18 4 → s.spanFault .ilv dest (n + 4) = none →
         s.EndsAlone t r 0 0 ∧ t.readMem dest 4 = n ∧ t.readMem (dest + 4) n = der ∧ s.BytesKept t dest (n + 4) ∧ s.CmdMemOnly t) ∧
       (∀ n der b, s.certificate = some (n, der) → n + 4 ≤ c.f 0x18 4 → s.spanFault .ilv dest (n + 4) = some b → s.EndsAlone t r 0x0104 b ∧ s.CmdOnly t)) ∧
     (s.Ready r 0xA004 c → ∃ t, exec (.debugUnlock r) s = .next t ∧
       (c.f 0x10 1 = 2 → s.EndsAlone t r 0 0 ∧ t.fld F.SEC_DEBUG_LEVEL 0 = 0 ∧ s.RegsKept t [(.SEC_DEBUG, 0)] ∧ s.CmdRegOnly t) ∧
       (c.f 0x10 1 ≠ 2 → s.debugAllowed = false → s.EndsAlone t r 0x0104 0 ∧ s.CmdOnly t) ∧
       (c.f 0x10 1 = 0 → s.debugAllowed = true → s.EndsAlone t r 0 0 ∧ ∃ v, t.sec.challenge = some { value := v, time := s.time } ∧
         v = sha256 (put 0 8 Config.serial + put 8 4 s.bootCount + put 12 8 s.time + put 20 4 s.sec.attempts) 24 ∧
         t.readMem at18 32 = v % 2 ^ 256 ∧ t.readMem (at18 + 32) 8 = Config.serial % 2 ^ 64 ∧ t.readMem (at18 + 40) 24 = 0 ∧ s.BytesKept t at18 64 ∧
         s.RegsKept t []) ∧
       (c.f 0x10 1 ≠ 2 → c.f 0x10 1 ≠ 0 → s.debugAllowed = true → t.sec.challenge = none ∧ t.mem = s.mem ∧ s.RegsKept t [(.SEC_DEBUG, 0), (.OBS_STATUS, 0)] ∧
         ((s.unlock (c.f 0x11 1) (s.readMem at18 384)).2 = false → s.EndsAlone t r 0x0103 0x18 ∧
           t.fld F.SEC_DEBUG_FAILS 0 = min 8 (s.fld F.SEC_DEBUG_FAILS 0 + 1) ∧ t.fld F.SEC_DEBUG_LEVEL 0 = s.fld F.SEC_DEBUG_LEVEL 0 ∧ t.sec.meas = s.sec.meas) ∧
         ((s.unlock (c.f 0x11 1) (s.readMem at18 384)).2 = true → s.EndsAlone t r 0 0 ∧ (c.f 0x11 1 = 1 ∨ c.f 0x11 1 = 2) ∧ s.fld F.SEC_DEBUG_FAILS 0 < 8 ∧
           t.fld F.SEC_DEBUG_LEVEL 0 = c.f 0x11 1 ∧ t.fld F.SEC_DEBUG_DEBUG_EVER 0 = 1 ∧ ∃ ch, s.sec.challenge = some ch ∧ s.time ≤ ch.time + 60000000000 ∧
           Tab.get 0 t.sec.meas 3 = sha256 (Tab.get 0 s.sec.meas 3 + (sha256 (c.f 0x11 1 + ch.value <<< 8) 33 % 2 ^ 256) <<< 256) 64)))) ∧
  (∀ (s : State) (f : RecFrame), s.frozen = false → s.pwr.phase = .recovery →
     let x := s.sec.recover
     (x.linkUp = false → exec .recoveryLinkTimeout s = .next { s with sec := { s.sec with recover := { x with mode := (x.mode + 1) % 3 } } }) ∧
     (x.linkUp = true → exec .recoveryLinkTimeout s = .next s) ∧
     (x.linkUp = true → x.session = none → exec .recoveryAnnounce s = .next (s.send (.announce 4 (put 0 8 Config.serial + put 8 4 s.bootCount
       + put 12 1 (s.jword 2 % 256) + put 13 4 s.minFw)))) ∧
     (x.linkUp = false ∨ f.port ≠ 4 ∨ f.version / 16 ≠ 1 → exec (.offer f) s = .next s ∧ exec (.data f) s = .next s ∧ exec (.done f) s = .next s) ∧
     (x.linkUp = true → f.port = 4 → f.version / 16 = 1 →
       (x.session ≠ none → exec (.offer f) s = .next s) ∧
       (x.session = none → f.len = 4 → 0x300000 < f.data % 2 ^ 32 → exec (.offer f) s = .next (s.send (.recoveryResult 4 f.session 3))) ∧
       (x.session = none → f.len = 4 → f.data % 2 ^ 32 ≤ 0x300000 → ∃ t, exec (.offer f) s = .next t ∧ t.sec.recover.session = some f.session ∧
         t.sec.recover.imgLen = f.data % 2 ^ 32 ∧ t.sec.recover.next = 0 ∧ t.sec.recover.program = f.flags.testBit 0 ∧ t.sec.image = 0 ∧
         t = { s with sec := { s.sec with recover := t.sec.recover, image := t.sec.image } }) ∧
       (x.session ≠ some f.session → exec (.data f) s = .next s ∧ exec (.done f) s = .next s) ∧
       (x.session = some f.session → f.offset = x.next → f.offset % 1024 = 0 → 1 ≤ f.len → f.len ≤ 1024 → f.offset + f.len ≤ x.imgLen →
         ∃ t, exec (.data f) s = .next t ∧ t.sec.recover.next = x.next + f.len ∧ t.sec.image = s.sec.image + put f.offset f.len f.data ∧
           (s.Clear 4 Config.otherPcp → t.tx = if x.sinceAck + 1 = 64 then s.tx ++ [s.framed (.recoveryAck 4 f.session (x.next + f.len))] else s.tx) ∧
           s.RegsKept t []) ∧
       (x.session = some f.session → x.next < f.offset → exec (.data f) s = .next (s.send (.recoveryAck 4 f.session x.next))) ∧
       (x.session = some f.session → f.offset ≤ x.next → (f.offset < x.next ∨ f.offset % 1024 ≠ 0 ∨ f.len = 0 ∨ 1024 < f.len ∨ x.imgLen < f.offset + f.len) →
         exec (.data f) s = .next s) ∧
       (x.session = some f.session → x.next ≠ x.imgLen → exec (.done f) s = .next s) ∧
       (x.session = some f.session → x.next = x.imgLen → imageResult s.sec.image x.imgLen s.minFw ≠ 0 → ∃ t, exec (.done f) s = .next t ∧
         (s.Clear 4 Config.otherPcp → t.tx = s.tx ++ [s.framed (.recoveryResult 4 f.session (imageResult s.sec.image x.imgLen s.minFw))]) ∧ t.sec.recover.session = none ∧ t.flash = s.flash ∧
         t.pwr = s.pwr) ∧
       (x.session = some f.session → x.next = x.imgLen → imageResult s.sec.image x.imgLen s.minFw = 0 →
         let sent := s.send (.recoveryResult 4 f.session 0)
         let prog := sent.programImage
         let kept := if x.program ∨ f.flags.testBit 0 then (if prog.2 then prog.1 else prog.1.send (.recoveryResult 4 f.session 5)) else sent
         let taken := ((kept.setJbits 0 17 17 1).imageTaken s.sec.image).stepDone 4
         (s.Clear 4 Config.otherPcp → sent.tx = s.tx ++ [s.framed (.recoveryResult 4 f.session 0)]) ∧ exec (.done f) s = .next { taken with pwr := { s.pwr with phase := .booting } }.bootRest)))

/-! ## Power and resets -/

/-- VIN_LOW, INPUT_SAG, OVER_VOLTAGE, PWR_GOOD_LOST, HOLDUP_END and POWER_LOSS (R398, R399, R411): the low range sets VIN_LOW; a sag, a
voltage above 41.0 V and a lost PWR_GOOD begin the hold-up sequence with their causes; at its end the record has gone to the lowest erased
slot where the area is armed, whole where the end comes before 20 ms, and the device is held; below 24.0 V it is off. Without the
always-on domain no detector is armed. -/
def Obligations.InputFaultsHoldUp : Prop :=
  ∀ (s : State) (mv : Nat),
    let seen : State := { s with pwr := { s.pwr with vinMv := mv } }
    (s.alive = true →
      (31000 ≤ mv → mv < 32000 → ∃ t, exec (.vinLow mv) s = .next t ∧ t.pwr.vinMv = mv ∧
        t.fld F.GOV_EVT_VIN_LOW 0 = 1 ∧ t.pwr.statInput = s.pwr.statInput ||| 0x20 ∧ s.RegsKept t [(.GOV_EVT, 0)] ∧ t.mem = s.mem ∧ t.cmds = s.cmds) ∧
      (mv < 31000 → ∃ t, exec (.inputSag mv) s = .next t ∧ s.HeldUp t 1 mv ∧ t.pwr.statInput = s.pwr.statInput ||| 0x10) ∧
      (41000 < mv → mv ≤ 48000 → ∃ t, exec (.overVoltage mv) s = .next t ∧ s.HeldUp t 2 mv ∧ t.pwr.statInput = s.pwr.statInput ||| 0x80) ∧
      (∃ t, exec .pwrGoodLost s = .next t ∧ s.HeldUp t 3 s.pwr.vinMv ∧ t.pwr.pwrGood = false)) ∧
    (s.alive = false →
      (31000 ≤ mv → mv < 32000 → exec (.vinLow mv) s = .next seen) ∧ (mv < 31000 → exec (.inputSag mv) s = .next seen) ∧
      (41000 < mv → mv ≤ 48000 → exec (.overVoltage mv) s = .next seen) ∧
      exec .pwrGoodLost s = .next { s with pwr := { s.pwr with pwrGood := false } }) ∧
    (s.pwr.phase ≠ .holdup → exec .holdupEnd s = .next s) ∧
    (s.pwr.phase = .holdup → ∃ t, exec .holdupEnd s = .next t ∧ t.pwr.phase = .held ∧ t.pwr.faultOut = s.pwr.faultOut ∧
      (s.gaspSlot = none → t.flash = s.flash) ∧
      (∀ k, s.gaspSlot = some k → ∃ us n, us < 65536 ∧ n ≤ 0x2000 ∧ (s.time < s.pwr.holdAt + 20000000 → n = 0x2000) ∧
        (∀ i < n, (Tab.get flashBlank t.flash (0x30000 + 0x2000 * k + i)).toNat =
          (Tab.get flashBlank s.flash (0x30000 + 0x2000 * k + i)).toNat &&& (s.lastGasp us >>> (8 * i)) % 256) ∧
        ∀ a, a < 0x30000 + 0x2000 * k ∨ 0x30000 + 0x2000 * k + n ≤ a → Tab.get flashBlank t.flash a = Tab.get flashBlank s.flash a)) ∧
    (31000 ≤ mv → exec (.powerLoss mv) s = .next s) ∧
    (24000 ≤ mv → mv < 31000 → exec (.powerLoss mv) s = if s.pwr.phase = .holdup then .next seen else exec (.inputSag mv) s) ∧
    (mv < 24000 → ∃ t, exec (.powerLoss mv) s = .next t ∧ t.pwr.phase = .off ∧ t.pwr.vinMv = mv ∧ t.cmds = [] ∧ t.time = 0 ∧ (∀ a, t.rawByte a = 0) ∧
      (s.gaspSlot = none ∨ s.pwr.phase ≠ .holdup ∧ s.alive = false → t.flash = s.flash) ∧ ∀ q j, t.getR q j = q.resetWord j)

/-- RESET_N_ASSERT, RESET_N_DEASSERT, REFCLK_LOSS, REFCLK_RETURN, FATAL_RESET, SEC_BOOT_CTL_RESTART and DEVICE_START (R399, R405, R417, R444,
R480, R500): the held device has lost its stacks and keeps the quarantine of its engines; a lost reference clock is fatal; the reset after
a fatal error keeps memory and is counted; a restart switches every domain off; a start counts one boot more, has empty measurements and
samples the straps. What each reset keeps beyond the rules is the model's choice (log 31). -/
def Obligations.ResetsKeepWhatTheyName : Prop :=
  ∀ (s : State) (env : StartEnv) (a : Agent),
    let low : State := { s with pwr := { s.pwr with resetN := false } }
    (s.pwr.phase = .off ∨ s.pwr.phase = .holdup → exec .resetNAssert s = .next low) ∧
    (s.pwr.phase ≠ .off → s.pwr.phase ≠ .holdup → ∃ t, exec .resetNAssert s = .next t ∧ t.pwr.phase = .held ∧ t.pwr.resetN = false ∧ t.cmds = [] ∧
      t.flash = s.flash ∧ t.time = s.time ∧ (∀ x, t.rawByte x = 0) ∧ (∀ j < 4096, t.getR .RC_ENGMAP j = s.getR .RC_ENGMAP j) ∧
      (∀ p < 8, s.fld F.PORT_STATUS_STATE p = 4 → t.fld F.PORT_STATUS_STATE p = 4) ∧
      ∀ q j, j < 4096 → q ∉ [.RC_ENGMAP, .ERR_STATUS, .SEC_BOOT_CTL, .BLT_STATUS, .TOK_STATUS, .UPD_CTL, .PORT_STATUS] → t.getR q j = q.resetWord j) ∧
    (exec .resetNDeassert s = .next { s with pwr := { s.pwr with resetN := true, scan := none } }) ∧
    (s.running = true → ∃ t, exec .refclkLoss s = .next t ∧ t.pwr.refclk = false ∧ s.Stops t []) ∧
    (s.alive = false → exec .refclkLoss s = .next { s with pwr := { s.pwr with refclk := false } }) ∧
    (s.pwr.refclk = true → exec .refclkReturn s = .next s) ∧
    (s.Untraced → s.pwr.refclk = false → ∃ t, exec .refclkReturn s = .next t ∧ t.pwr = { s.pwr with refclk := true } ∧ t.time = s.time ∧
      s.RegsKept t [(.OBS_STATUS, 0)]) ∧
    (s.pwr.phase = .fatal → s.pwr.refclk = true → s.pwr.resetN = true → ∃ t, exec .fatalReset s = .next t ∧ t.pwr.phase = .booting ∧
      t.pwr.faultOut = false ∧ t.sec.fatalStart = true ∧ t.cmds = [] ∧ t.mem = s.mem ∧ t.flash = s.flash ∧
      t.fld F.ERR_STATUS_FATALS 0 = min (s.fld F.ERR_STATUS_FATALS 0 + 1) 0xFF ∧ (∀ j < 4096, t.getR .UPD_JRNL j = s.getR .UPD_JRNL j)) ∧
    (s.pwr.phase ≠ .fatal ∨ s.pwr.refclk = false ∨ s.pwr.resetN = false → exec .fatalReset s = .next s) ∧
    (s.running = true → Agent.reachesRegs a = true → ∃ t, exec (.secBootCtlRestart a) s = .next t ∧ t.pwr.phase = .booting ∧ t.cmds = [] ∧ t.flash = s.flash ∧
      t.fld F.GOV_DOM_ON_LO_ON 0 = 0 ∧ t.fld F.GOV_DOM_ON_HI_ON 0 = 0 ∧ t.getR .GOV_CAP 0 = s.getR .GOV_CAP 0 ∧ ∀ x, t.rawByte x = 0) ∧
    (s.running = false ∨ Agent.reachesRegs a = false → exec (.secBootCtlRestart a) s = .next s) ∧
    ((s.pwr.phase = .off ∨ s.pwr.phase = .held ∨ s.pwr.phase = .booting) → s.pwr.resetN = true → s.pwr.refclk = true → 32000 ≤ env.vinMv →
      ∃ u, exec (.deviceStart env) s = .next u.bootSteps ∧ u.pwr = { s.pwr with phase := .booting, vinMv := env.vinMv, pwrGood := true, faultOut := false } ∧
        u.sec.meas = [] ∧ u.sec.env = env ∧ u.mem = s.mem ∧ s.RegsKept u [] ∧ (s.pwr.phase ≠ .booting → u.sec.strapGang = env.straps % 4) ∧
        u.bootCount = (match s.logValid with | p :: _ => le (s.logEntry p) 2 4 + 1 | [] => 1) % 2 ^ 32) ∧
    ((s.pwr.phase ≠ .off ∧ s.pwr.phase ≠ .held ∧ s.pwr.phase ≠ .booting) ∨ s.pwr.resetN = false ∨ s.pwr.refclk = false ∨ env.vinMv < 32000 →
      exec (.deviceStart env) s = .next s)

/-- CAP_EVALUATION, JUNCTION_SAMPLE, DROOP_STRETCH, DROOP_RECOVER and DROOP_FATAL (R406, R408 to R410): an average above the cap takes one
step, one below 97 % releases one, and a cap exceeded with every setting at its limit sets AT_LIMIT; 100.0 °C throttles, below 97.0 °C a
step is released and 108.0 °C trips; the Governor shows the stronger of the two steps. A droop is counted once and its end forgets it.
GOV_DOM_ON, GOV_DOM_OFF, DOMAIN_SWITCH_DONE and the PMBus commands (R403, R404, R418, R420): firmware's request against the order of the
domains sets DOM_REFUSED and changes nothing else, and another agent's write is dropped and counted; a done switch shows in the ON bits
and leaves the harts of a cluster in RESET (R310); CLEAR_FAULTS clears what has ended, a board cap in range lowers the effective cap and
one out of range sets CML, and a listed code reads. -/
def Obligations.GovernorThrottlesAndSwitchesDomains : Prop :=
  (∀ (s : State) (mw : Nat) (tj : Int) (d : Fin 72),
     let cap := 1000 * s.fld F.GOV_STATUS_EFF_CAP_W 0
     let cs : Steps := (s.pwr.capCl, s.pwr.capStretch, s.pwr.capBulk)
     let ts : Steps := (s.pwr.thCl, s.pwr.thStretch, s.pwr.thBulk)
     let shows (t : State) (p q : Steps) : Prop := t.fld F.GOV_STATUS_CL_CAP 0 = min p.1 q.1 % 256 ∧ t.fld F.GOV_STATUS_STRETCH 0 = max p.2.1 q.2.1 % 32 ∧
       t.fld F.GOV_STATUS_BULK_CAP 0 = b2n (p.2.2 || q.2.2)
     (s.running = true → ∃ t, exec (.capEvaluation mw) s = .next t ∧
       (let n := if cap < mw then stepOn cs else if 100 * mw < 97 * cap then stepOff cs else cs
        (t.pwr.capCl, t.pwr.capStretch, t.pwr.capBulk) = n ∧ shows t n ts) ∧
       (t.fld F.GOV_STATUS_AT_LIMIT 0 = 1 ↔ cap < mw ∧ atLimit cs = true) ∧
       (cap < mw → atLimit cs = true → s.fld F.GOV_STATUS_AT_LIMIT 0 = 0 → t.fld F.GOV_EVT_AT_LIMIT 0 = 1) ∧
       s.RegsKept t [(.GOV_STATUS, 0), (.GOV_EVT, 0)] ∧ t.mem = s.mem) ∧
     (s.running = false → exec (.capEvaluation mw) s = .next s) ∧
     (s.alive = true → 1728 ≤ tj → ∃ t, exec (.junctionSample tj) s = .next t ∧ s.HeldUp t 4 s.pwr.vinMv ∧ t.pwr.statTemp = s.pwr.statTemp ||| 0xC0) ∧
     (s.alive = true → tj < 1728 → ∃ t, exec (.junctionSample tj) s = .next t ∧ t.fld F.GOV_STATUS_TJ 0 = unsigned tj 16 ∧
       (let n := if 1600 ≤ tj then stepOn ts else if tj < 1552 then stepOff ts else ts
        (t.pwr.thCl, t.pwr.thStretch, t.pwr.thBulk) = n ∧ shows t cs n ∧
        t.fld F.GOV_STATUS_THERMAL 0 = if noSteps n = true then 0 else if 1600 ≤ tj then 1 else s.fld F.GOV_STATUS_THERMAL 0) ∧
       (1600 ≤ tj → t.fld F.GOV_EVT_TJ_WARN 0 = 1) ∧ s.RegsKept t [(.GOV_STATUS, 0), (.GOV_EVT, 0)] ∧ t.mem = s.mem) ∧
     (s.alive = true → d.val ∉ s.pwr.droop → ∃ t, exec (.droopStretch d) s = .next t ∧ t.pwr.droop = s.pwr.droop ++ [d.val] ∧
       t.fld F.GOV_DROOP_COUNT 0 = min (s.fld F.GOV_DROOP_COUNT 0 + 1) 0xFFFF ∧ t.fld F.GOV_DROOP_LAST 0 = d.val ∧ t.fld F.GOV_EVT_DROOP 0 = 1 ∧
       s.RegsKept t [(.GOV_DROOP, 0), (.GOV_EVT, 0)]) ∧
     (s.alive = false ∨ d.val ∈ s.pwr.droop → exec (.droopStretch d) s = .next s) ∧
     (∃ t, exec (.droopRecover d) s = .next t ∧ d.val ∉ t.pwr.droop ∧ (∀ x, x ≠ d.val → (x ∈ t.pwr.droop ↔ x ∈ s.pwr.droop)) ∧
       t = { s with pwr := { s.pwr with droop := t.pwr.droop } }) ∧
     (s.running = true → ∃ t, exec (.droopFatal d) s = .next t ∧ t.fld F.GOV_DROOP_LAST 0 = d.val ∧ s.Stops t [(.GOV_DROOP, 0)])) ∧
  (∀ (s : State) (a : Agent) (d : Fin 72) (v code : Nat), s.fld F.ERR_RING_BASE_SIZE_LOG2 0 = 0 → s.Untraced →
     (∀ on, s.running = true → ∃ t, exec (if on then .govDomOn a d else .govDomOff a d) s = .next t ∧
       (Agent.firmware a = false → t.fld F.ERR_STATUS_MMIO_DROPS 0 = min (s.fld F.ERR_STATUS_MMIO_DROPS 0 + 1) 0xFFFF ∧ s.RegsKept t [(.ERR_STATUS, 0)] ∧ t.pwr = s.pwr) ∧
       (Agent.firmware a = true → s.domRefused d.val on = true → t.fld F.GOV_EVT_DOM_REFUSED 0 = 1 ∧ s.RegsKept t [(.GOV_EVT, 0)] ∧ t.pwr = s.pwr) ∧
       (Agent.firmware a = true → s.domRefused d.val on = false → 
         t.pwr.requests = (if s.domWill d.val = on then s.pwr.requests else s.pwr.requests ++ [(d.val, on)]) ∧
         t = { s with pwr := { s.pwr with requests := t.pwr.requests } })) ∧
     (s.pwr.requests = [] → exec (.domainSwitchDone d) s = .next s) ∧
     (∀ on rest, s.running = true → s.pwr.requests = (d.val, on) :: rest → s.domReady (d.val, on) = true → ∃ t, exec (.domainSwitchDone d) s = .next t ∧
       t.pwr.requests = rest ∧ t.domOn d.val = on ∧ (∀ e, e ≠ d.val → t.domOn e = s.domOn e) ∧
       (60 ≤ d.val → d.val < 68 → t.flag F.CL_CTL_ON (d.val - 60) = on ∧ ∀ j < 8, t.hartState (8 * (d.val - 60) + j) = 0)) ∧
     (s.alive = true → ∃ t, exec .pmbusClearFaults s = .next t ∧ t.pwr.cml = false ∧ (∀ b, t.pwr.statInput.testBit b = true → s.pwr.statInput.testBit b = true) ∧
       (s.pwr.vinMv < 31000 → t.pwr.statInput.testBit 4 = s.pwr.statInput.testBit 4) ∧ (31000 ≤ s.pwr.vinMv → t.pwr.statInput.testBit 4 = false) ∧
       (t = { s with pwr := { s.pwr with statInput := t.pwr.statInput, statTemp := t.pwr.statTemp, cml := false } })) ∧
     (s.alive = true → 1050 ≤ v → v ≤ 1500 → ∃ t, exec (.pmbusMfrPowerCap v) s = .next t ∧ t.pwr = { s.pwr with boardCap := v } ∧
       t.fld F.GOV_STATUS_EFF_CAP_W 0 = min (s.fld F.GOV_CAP_CAP_W 0) v ∧ s.RegsKept t [(.GOV_STATUS, 0)]) ∧
     (s.alive = true → v < 1050 ∨ 1500 < v → exec (.pmbusMfrPowerCap v) s = .next { s with pwr := { s.pwr with cml := true } }) ∧
     (s.alive = true → ∀ n, (code, n) ∈ [(0x19, 0xA0), (0x98, 0x44), (0x7C, s.pwr.statInput), (0x7D, s.pwr.statTemp), (0xD0, s.pwr.boardCap)] →
       exec (.pmbusUnsupported code) s = .next { s with resp := .data n }) ∧
     (s.alive = true → code ∈ [0x88, 0x89, 0x8D, 0x8E, 0x97] → ∃ n < 2 ^ 16, exec (.pmbusUnsupported code) s = .next { s with resp := .data n, draws := s.draws + 1 }) ∧
     (s.alive = true → code ∉ pmbusCodes → exec (.pmbusUnsupported code) s = .next { s with pwr := { s.pwr with cml := true }, resp := .nack }) ∧
     (s.alive = false → exec .pmbusClearFaults s = .next s ∧ exec (.pmbusMfrPowerCap v) s = .next s ∧ exec (.pmbusUnsupported code) s = .next s))

/-! ## Chip-level faults -/

/-- D2D_LANE_SUBSTITUTION, LINK_WIDTH_LOSS, PART_LOST, CONTROLLER_FAULT and FATAL_DEVICE_ERROR (R18, R20, R222, R297, R298, R476, R480): a
spare lane has no other effect, a link that loses width, a lost part and a fault of a controller stop a running device, only a lost stack
loses its contents, and a device that does not run ignores them. -/
def Obligations.ChipFaultsStopTheDevice : Prop :=
  ∀ (s : State) (link : Fin 8) (lane : Nat) (part : Part) (g : Region) (f : FatalFault),
    let x := Tab.get ({} : Link) s.links link.val
    (s.running = true →
      (x.full = true → ∃ t, exec (.d2dLaneSubstitution link lane) s = .next t ∧ lane ∈ (Tab.get ({} : Link) t.links link.val).subs ∧
        (Tab.get ({} : Link) t.links link.val).full = true ∧ t = { s with links := t.links }) ∧
      (x.full = false → exec (.d2dLaneSubstitution link lane) s = .next s) ∧
      (∃ t, exec (.linkWidthLoss link) s = .next t ∧ s.Stops t [] ∧ (Tab.get ({} : Link) t.links link.val).full = false ∧ t.mem = s.mem) ∧
      (∃ t, exec (.partLost part) s = .next t ∧ s.Stops t (match part with | .stack st => [(.UPD_JRNL, st.val)] | .region .hub => [] | .region (.q n) => [(.RC_WRT, n.val)]) ∧
        (∀ x, part = .region x → t.mem = s.mem) ∧
        (∀ st pa c, part = .stack st → chanOf s.localGib pa = some c → t.rawByte pa = if c.gch / 16 = st.val then 0 else s.rawByte pa)) ∧
      (∃ t, exec (.controllerFault g) s = .next t ∧ s.Stops t [] ∧ t.mem = s.mem) ∧
      (f.code = 0x0F01 → 1 ≤ bits f.arg 63 61 → bits f.arg 63 61 ≤ 3 → ∃ t, exec (.fatalDeviceError f) s = .next t ∧ s.Stops t [(.CF_FATAL, 0)] ∧
        t.fld F.CF_FATAL_CAUSE 0 = bits f.arg 63 61 ∧ t.fld F.CF_FATAL_AGENT 0 = bits f.arg 60 57 ∧ t.fld F.CF_FATAL_LINE 0 = bits f.arg 47 6 ∧ t.mem = s.mem) ∧
      (∀ q, f.code = 0x0F03 → partOf f.arg = some q → exec (.fatalDeviceError f) s = exec (.partLost q) s) ∧
      (0x0F01 ≤ f.code → f.code ≤ 0x0F09 → f.code ≠ 0x0F01 ∨ bits f.arg 63 61 = 0 ∨ 3 < bits f.arg 63 61 → f.code ≠ 0x0F03 ∨ partOf f.arg = none → ∃ t, exec (.fatalDeviceError f) s = .next t ∧ s.Stops t [] ∧ t.mem = s.mem)) ∧
    (s.running = false → exec (.d2dLaneSubstitution link lane) s = .next s ∧ exec (.linkWidthLoss link) s = .next s ∧ exec (.partLost part) s = .next s ∧
      exec (.controllerFault g) s = .next s ∧ exec (.fatalDeviceError f) s = .next s) ∧
    (f.code < 0x0F01 ∨ 0x0F09 < f.code → exec (.fatalDeviceError f) s = .next s)

/-! ## Stacks, repair and poison holds -/

/-- BURST_SLOT, REFRESH_DUE, REFRESH_RATE_LOWER and SCRUB_READ (R241 to R245, R248): self-refresh and a channel out of service grant nothing;
write-backs that a newer write has overtaken leave the queue (in memory without errors, every one); a Tentering window takes its slots
without traffic; else at most one request leaves the queue, none passes an earlier one for its burst. A refresh due on a bank with
requests is postponed up to four intervals and then takes the bank, one on an idle bank is issued with what was postponed and occupies it;
32 ms after a fall of the grade the multiplier falls with it, but not below that of the present grade. TENTERING_WINDOW,
STACK_THERMAL_SAMPLE and SELF_REFRESH_TIMEOUT (R246, R248, R249, R250): a window that is due takes 32, 128 or 64 slots within 1.5 % of the
slots; a drift above DRIFT_TH asks for one more, and one refused is retried with a later window. The grade rises at once with the highest
reading, falls one step after ten samples 3.0 °C below its threshold, and 110.0 °C enters self-refresh until a sample falls below 105.0
°C, when a repair that waited goes on; a stay of 1 s is fatal. The sample's own effect is stated with no collective and no queue pair that
could go on. -/
def Obligations.SlotsRefreshAndGradesFollowTheirRules : Prop :=
  (∀ (s : State) (ch : Fin 512) (die : Fin 16) (bank : Fin 32) (stack : Fin 32), s.Plain → s.Quiet →
     let c := s.chan ch
     let key := 32 * die.val + bank.val
     let b := Tab.get ({} : BankRef) c.banks key
     let queued : Prop := ∃ q ∈ c.queue, ∃ ca p, s.placeAt q.line = some (ca, p) ∧ p.die = die.val ∧ p.bank = bank.val
     let asleep := (s.stack (ch / 16)).selfRef
     let live := c.queue.filter (fun q => match q.op with | .writeBack _ => false | _ => true)
     (asleep = true ∨ 2 ≤ s.fld F.CH_STATE_STATE ch → exec (.burstSlot ch 0) s = .next s) ∧
     (asleep = false → s.fld F.CH_STATE_STATE ch < 2 → ∃ t, exec (.burstSlot ch 0) s = .next t ∧ t.mem = s.mem ∧ s.RegsKept t [] ∧
       (t.chan ch).slot = (c.slot + 1) % 64 ∧ (t.chan ch).refresh = [] ∧ (t.chan ch).count = c.count + 1 ∧
       (c.tentDue ≠ 0 → (t.chan ch).tentDue = c.tentDue - 1 ∧ (t.chan ch).queue = live ∧ t.hoistCh = s.hoistCh) ∧
       (c.tentDue = 0 → (t.chan ch).queue = live ∨ ∃ k q, live[k]? = some q ∧ (t.chan ch).queue = live.eraseIdx k ∧
         ∀ e ∈ live.take k, e.line ≠ q.line)) ∧
     (asleep = true → exec (.refreshDue ch die bank) s = .next s) ∧
     (asleep = false → ∃ t, exec (.refreshDue ch die bank) s = .next t ∧ t = { s with chans := t.chans } ∧ (t.chan ch).queue = c.queue ∧
       (¬ queued → (t.chan ch).refresh = c.refresh ∧ Tab.get ({} : BankRef) (t.chan ch).banks key = {} ∧
         Tab.get 0 (t.chan ch).busyTill key = max c.count (Tab.get 0 c.busyTill key) + (b.postponed + 1) * (if die.val < 4 then 75 else 125)) ∧
       (queued → b.postponed < 4 → b.paying = false → (t.chan ch).refresh = c.refresh ∧ (Tab.get ({} : BankRef) (t.chan ch).banks key).postponed = b.postponed + 1) ∧
       (queued → (4 ≤ b.postponed ∨ b.paying = true) → (t.chan ch).refresh = c.refresh ++ [key] ∧ (Tab.get ({} : BankRef) (t.chan ch).banks key).paying = true)) ∧
     (∀ t0 m rest, (s.stack stack).lowered = (t0, m) :: rest →
       (s.time < t0 + 32000000 → exec (.refreshRateLower stack) s = .next s) ∧
       (t0 + 32000000 ≤ s.time → ∃ t, exec (.refreshRateLower stack) s = .next t ∧ (t.stack stack).lowered = rest ∧ s.RegsKept t [] ∧
         ∀ k < 16, (t.chan (16 * stack.val + k)).mult = max m (gradeMult (s.fld F.STK_THERM_GRADE stack)))) ∧
     ((s.stack stack).lowered = [] → exec (.refreshRateLower stack) s = .next s) ∧
     (2 ≤ s.fld F.CH_STATE_STATE ch → exec (.scrubRead ch) s = .next s) ∧
     (s.fld F.CH_STATE_STATE ch < 2 → ∃ t, exec (.scrubRead ch) s = .next t ∧
       (∃ line, (t.chan ch).queue = c.queue ++ [{ cls := .back, line := line, op := .scrub (decide (c.scrubAt + 1 = 57344 * 1024)) }]) ∧ t.mem = s.mem ∧
       s.RegsKept t [] ∧ (t.chan ch).scrubAt = if c.scrubAt + 1 = 57344 * 1024 then 0 else c.scrubAt + 1)) ∧
  (∀ (s : State) (ch : Fin 512) (k : TentKind) (count : Nat) (stack : Fin 32) (d : Int) (ds : List Int), s.Untraced →
     let n := TentKind.slots k
     let c := s.chan ch
     let st : Nat := ch.val / 16
     let drift := match c.oscLast with | some x => max x count - min x count | none => 0
     let x := s.stack stack
     let temp := ds.foldl max d
     let g := s.fld F.STK_THERM_GRADE stack
     ((s.stack st).selfRef = true ∨ s.windowDue ch k = false ∨ s.tentFits ch n = false → exec (.tenteringWindow ch k count) s = .next s) ∧
     ((s.stack st).selfRef = false → s.windowDue ch k = true → s.tentFits ch n = true → ∃ t, exec (.tenteringWindow ch k count) s = .next t ∧
       (Tab.get 0 (t.chan ch).tentLast (TentKind.num k) = s.time + 1) ∧
       (k ≠ .oscillator → c.extraDue = false → (t.chan ch).tentDue = c.tentDue + n ∧ s.RegsKept t []) ∧
       (k ≠ .oscillator → c.extraDue = true → s.tentSlots ch + n + 32 ≤ 9375 → (t.chan ch).tentDue = c.tentDue + n + 32 ∧ (t.chan ch).extraDue = false ∧
         t.fld F.STK_TENT_EXTRA st = min (s.fld F.STK_TENT_EXTRA st + 1) 0xFFFF ∧ s.RegsKept t [(.STK_TENT, st)]) ∧
       (k = .oscillator → c.extraDue = false → (t.chan ch).oscLast = some count ∧
         (drift ≤ s.fld F.STK_TENT_CFG_DRIFT_TH st → (t.chan ch).tentDue = c.tentDue + 32 ∧ s.RegsKept t []) ∧
         (s.fld F.STK_TENT_CFG_DRIFT_TH st < drift → s.tentSlots ch + 64 ≤ 9375 → (t.chan ch).tentDue = c.tentDue + 64 ∧
           t.fld F.STK_TENT_EXTRA st = min (s.fld F.STK_TENT_EXTRA st + 1) 0xFFFF ∧ s.RegsKept t [(.STK_TENT, st)]) ∧
         (s.fld F.STK_TENT_CFG_DRIFT_TH st < drift → 9375 < s.tentSlots ch + 64 → (t.chan ch).tentDue = c.tentDue + 32 ∧ (t.chan ch).extraDue = true ∧
           t.fld F.STK_TENT_DEFERRED st = min (s.fld F.STK_TENT_DEFERRED st + 1) 0xFFFF ∧ s.RegsKept t [(.STK_TENT, st)]))) ∧
     (x.repWait = none → exec (.stackThermalSample stack []) s = .next s) ∧
     (∀ o, x.repWait = some o → x.selfRef = true → ∃ t, exec (.stackThermalSample stack (d :: ds)) s = .next t ∧
       (temp < 1520 → (t.stack stack).repWait = none) ∧ (1680 ≤ temp → (t.stack stack).repWait = some o)) ∧
     (x.repWait = none → (∀ e ∈ s.cmds, e.opcode / 4096 ≠ 6) → (∀ m < 2, s.liveQps m = []) →
       ∃ t, exec (.stackThermalSample stack (d :: ds)) s = .next t ∧ t.fld F.STK_THERM_TEMP stack = unsigned temp 16 ∧
       s.RegsKept t [(.STK_THERM, stack), (.STK_THERM_EVT, stack), (.OBS_STATUS, 0)] ∧ t.mem = s.mem ∧
       (x.selfRef = true → temp < 1680 → (t.stack stack).selfRef = false ∧ t.fld F.STK_THERM_GRADE stack = gradeOf temp ∧
         ∀ j < 16, (t.chan (16 * stack.val + j)).tentDue = (s.chan (16 * stack.val + j)).tentDue + 160) ∧
       (x.selfRef = true → 1680 ≤ temp → t.fld F.STK_THERM_GRADE stack = g ∧ (t.stack stack).selfRef = true) ∧
       (x.selfRef = false → 1760 ≤ temp → (t.stack stack).selfRef = true ∧ (t.stack stack).srSince = s.time ∧ t.fld F.STK_THERM_GRADE stack = 4 ∧
         (g ≠ 4 → t.fld ⟨.STK_THERM_EVT, 3, 3⟩ stack = 1)) ∧
       (x.selfRef = false → temp < 1760 → g < gradeOf temp → t.fld F.STK_THERM_GRADE stack = gradeOf temp ∧ t.fld ⟨.STK_THERM_EVT, gradeOf temp - 1, gradeOf temp - 1⟩ stack = 1) ∧
       (x.selfRef = false → temp < 1760 → gradeOf temp ≤ g → g ≠ 0 → temp ≤ gradeThr g - 48 → x.below + 1 < 10 →
         t.fld F.STK_THERM_GRADE stack = g ∧ (t.stack stack).below = x.below + 1) ∧
       (x.selfRef = false → temp < 1760 → gradeOf temp ≤ g → g ≠ 0 → temp ≤ gradeThr g - 48 → 10 ≤ x.below + 1 → t.fld F.STK_THERM_GRADE stack = g - 1) ∧
       (x.selfRef = false → temp < 1760 → gradeOf temp ≤ g → g ≠ 0 → gradeThr g - 48 < temp → t.fld F.STK_THERM_GRADE stack = g ∧ (t.stack stack).below = 0)) ∧
     (s.running = true → x.selfRef = true → x.srSince + 1000000000 ≤ s.time → ∃ t, exec (.selfRefreshTimeout stack) s = .next t ∧ s.Stops t [] ∧ t.mem = s.mem) ∧
     (x.selfRef = false ∨ s.time < x.srSince + 1000000000 → exec (.selfRefreshTimeout stack) s = .next s))

/-- SOFT_ROW, HARD_ROW, UNDO_SOFT, LANE_COMMIT and HARD_ROW_PROGRAM_DONE (R251 to R253): firmware's operation on a row that exists takes a
free soft entry once BACK is served (R247); a HARD_ROW is then in progress until its programming ends and the row moves to a hard row; an
operation asked for while one runs is counted as rejected, and another agent's write is dropped and counted. CH_LANE_MAP_WRITE,
CH_STATE_WRITE, MBIST_START and MBIST_DONE (R253, R254, R487, R488, R492): firmware changes substitutions only in TEST and an erasure mark
in any state; a channel goes to TEST only while the device is quiesced; memory BIST starts only on a channel in TEST, logs failing rows
while the log has room, and the channel's content is lost. -/
def Obligations.ChannelsAreRepairedAndTested : Prop :=
  (∀ (s : State) (a : Agent) (st : Fin 32) (ch : Fin 16) (die : Fin 16) (bank : Fin 32) (row : Fin 8192), s.Plain → s.running = true →
     s.fld F.ERR_RING_BASE_SIZE_LOG2 0 = 0 →
     let b := s.bankRep st die ch bank
     let inRange : Prop := row.val < rowsOfDie die
     let served := s.backServed st
     let waits (t : State) (o : RepOp) : Prop := (t.stack st).repWait = some o ∧ t.flag F.REP_STATUS_BUSY st = true ∧ s.RegsKept t [(.REP_STATUS, st)] ∧ t.mem = s.mem
     let res (t : State) (n : Nat) : Prop := t.fld F.REP_STATUS_RESULT st = n ∧ t.fld F.REP_STATUS_BUSY st = 0 ∧ s.RegsKept t [(.REP_STATUS, st)] ∧ t.mem = s.mem
     (∀ i ∈ [Instr.softRow a st ch die bank row, .hardRow a st ch die bank row, .undoSoft a st ch die bank row, .laneCommit a st ch],
       (Agent.firmware a = false → ∃ t, exec i s = .next t ∧ t.fld F.ERR_STATUS_MMIO_DROPS 0 = min (s.fld F.ERR_STATUS_MMIO_DROPS 0 + 1) 0xFFFF ∧
         t.stks = s.stks ∧ t.chans = s.chans ∧ s.RegsKept t [(.ERR_STATUS, 0)]) ∧
       (Agent.firmware a = true → s.flag F.REP_STATUS_BUSY st = true → ∃ t, exec i s = .next t ∧
         t.fld F.REP_STATUS_REJECTS st = min (s.fld F.REP_STATUS_REJECTS st + 1) 0xFFFF ∧ s.RegOnly t ∧ s.RegsKept t [(.REP_STATUS, st)])) ∧
     (Agent.firmware a = true → s.flag F.REP_STATUS_BUSY st = false →
       (∃ t, exec (.softRow a st ch die bank row) s = .next t ∧ (¬ inRange → res t 4 ∧ t.stks = s.stks) ∧
         (inRange → served = false → waits t { kind := 1, chan := ch, die := die, bank := bank, row := row }) ∧
         (inRange → served = true → b.soft.length < 4 → res t 0 ∧ (t.bankRep st die ch bank).soft = b.soft ++ [row.val] ∧ (t.bankRep st die ch bank).hard = b.hard) ∧
         (inRange → served = true → 4 ≤ b.soft.length → res t 1 ∧ t.stks = s.stks)) ∧
       (∃ t, exec (.hardRow a st ch die bank row) s = .next t ∧ (¬ inRange → res t 4 ∧ t.stks = s.stks) ∧
         (inRange → ((s.stack st).selfRef = true ∨ 3 ≤ s.fld F.STK_THERM_GRADE st) → res t 2 ∧ t.stks = s.stks) ∧
         (inRange → (s.stack st).selfRef = false → s.fld F.STK_THERM_GRADE st < 3 →
           ((4 ≤ b.hard.length ∨ (row.val ∉ b.soft ∧ 4 ≤ b.soft.length)) → res t 1 ∧ t.stks = s.stks) ∧
           (b.hard.length < 4 → (row.val ∈ b.soft ∨ b.soft.length < 4) → t.flag F.REP_STATUS_BUSY st = true ∧ row.val ∈ (t.bankRep st die ch bank).soft ∧
             (t.stack st).rep = some { kind := 2, chan := ch, die := die, bank := bank, row := row } ∧ s.RegsKept t [(.REP_STATUS, st)] ∧ t.mem = s.mem))) ∧
       (∃ t, exec (.undoSoft a st ch die bank row) s = .next t ∧ (¬ inRange → res t 4 ∧ t.stks = s.stks) ∧ (inRange → row.val ∉ b.soft → res t 3 ∧ t.stks = s.stks) ∧
         (inRange → row.val ∈ b.soft → served = false → waits t { kind := 3, chan := ch, die := die, bank := bank, row := row }) ∧
         (inRange → row.val ∈ b.soft → served = true → res t 0 ∧ (t.bankRep st die ch bank).soft = b.soft.filter (· ≠ row.val))) ∧
       (∃ t, exec (.laneCommit a st ch) s = .next t ∧ res t 0 ∧ (t.chan (16 * st.val + ch.val)).nvMap = (s.getR .CH_LANE_MAP (16 * st.val + ch.val)).toNat % 2 ^ 26)) ∧
     ((s.stack st).rep = none → exec (.hardRowProgramDone st) s = .next s) ∧
     (∀ o, (s.stack st).rep = some o → (s.stack st).repNext = [] → ∃ t, exec (.hardRowProgramDone st) s = .next t ∧ (t.stack st).rep = none ∧
       (served = false → waits t { kind := 4, chan := o.chan, die := o.die, bank := o.bank, row := o.row }) ∧
       (served = true → res t 0 ∧ (t.bankRep st o.die o.chan o.bank).hard = (s.bankRep st o.die o.chan o.bank).hard ++ [o.row] ∧
       (t.bankRep st o.die o.chan o.bank).soft = (s.bankRep st o.die o.chan o.bank).soft.filter (· ≠ o.row)))) ∧
  (∀ (s : State) (a : Agent) (ch : Fin 512) (v : Nat) (rows : List MbistRow) (lanes : Nat), s.Plain → s.running = true →
     s.fld F.ERR_RING_BASE_SIZE_LOG2 0 = 0 →
     let g := s.fld F.CH_STATE_STATE ch
     let dropped (t : State) : Prop := t.fld F.ERR_STATUS_MMIO_DROPS 0 = min (s.fld F.ERR_STATUS_MMIO_DROPS 0 + 1) 0xFFFF ∧ s.RegsKept t [(.ERR_STATUS, 0)] ∧
       t.obs.mbist = s.obs.mbist ∧ t.mem = s.mem
     let room := 2 ^ s.fld F.TST_MBIST_LOG_ENTRIES_LOG2 0
     let log := s.fld F.TST_MBIST_LOG_BASE 0 <<< 4
     (Agent.firmware a = false → (∃ t, exec (.chLaneMapWrite a ch v) s = .next t ∧ dropped t) ∧ (∃ t, exec (.chStateWrite a ch v) s = .next t ∧ dropped t) ∧
       ∃ t, exec (.mbistStart a v) s = .next t ∧ dropped t) ∧
     (Agent.firmware a = true →
       (∃ t, exec (.chLaneMapWrite a ch v) s = .next t ∧ s.RegOnly t ∧ s.RegsKept t [(.CH_LANE_MAP, ch)] ∧
         (g = 2 → t = s.putFields .CH_LANE_MAP ch (2 ^ 64 - 1) v) ∧
         (g ≠ 2 → ∀ b, b < 32 ∨ 38 < b → (t.getR .CH_LANE_MAP ch).getLsbD b = (s.getR .CH_LANE_MAP ch).getLsbD b)) ∧
       (∃ t, exec (.chStateWrite a ch v) s = .next t ∧ s.RegOnly t ∧ s.RegsKept t [(.CH_STATE, ch)] ∧
         t.fld F.CH_STATE_STATE ch = if v % 4 = 3 ∨ g = 3 ∨ (v % 4 = 2 ∧ s.quiesced = false) then g else v % 4) ∧
       (∃ t, exec (.mbistStart a v) s = .next t ∧ s.RegsKept t [(.TST_MBIST_CTL, 0), (.TST_MBIST_STATUS, 0)] ∧ t.mem = s.mem ∧
         (s.flag F.TST_MBIST_STATUS_BUSY 0 = false → s.fld F.CH_STATE_STATE (v % 512) = 2 → v / 2 ^ 16 % 4 ≠ 3 → t.flag F.TST_MBIST_STATUS_BUSY 0 = true ∧
           t.obs.mbist = some (v / 2 ^ 16 % 4, v % 512, v / 2 ^ 12 % 16)) ∧
         (s.flag F.TST_MBIST_STATUS_BUSY 0 = true ∨ s.fld F.CH_STATE_STATE (v % 512) ≠ 2 → t.fld F.TST_MBIST_STATUS_RESULT 0 = 3 ∧ t.obs.mbist = s.obs.mbist))) ∧
     (s.obs.mbist = none → exec (.mbistDone rows lanes) s = .next s) ∧
     (∀ alg c d, s.obs.mbist = some (alg, c, d) → ∃ t, exec (.mbistDone rows lanes) s = .next t ∧ t.obs.mbist = none ∧ t.flag F.TST_MBIST_STATUS_BUSY 0 = false ∧
       (rows.length ≤ room → rows.length < 2 ^ 20 → t.fld F.TST_MBIST_STATUS_ROWS 0 = rows.length ∧
         t.fld F.TST_MBIST_STATUS_RESULT 0 = if rows ≠ [] ∨ (alg = 1 ∧ lanes % 2 ^ 36 ≠ 0) then 1 else 0) ∧
       (room < rows.length → t.fld F.TST_MBIST_STATUS_RESULT 0 = 2) ∧
       (∀ i e, rows[i]? = some e → i < room → t.BytesAre (log + 16 * i) 16 (put 0 1 e.die + put 1 1 e.bank + put 2 2 e.row + put 4 8 (e.lanes % 2 ^ 36))) ∧
       s.RegsKept t [(.TST_MBIST_STATUS, 0)]))

/-- POISON_HOLD, HOLD_REPAIR_CHECK and RC_HOLD_CTL_RELEASE (R268, R270 to R273): a poisoned burst places a hold on its unit in the lowest free
slot, joins one that stands, and with no slot free stops the device; a repair past its row step whose bursts no entry governs enters
SOFTWARE, one whose bursts read clean and are governed is released; software releases a hold in SOFTWARE only. -/
def Obligations.HoldsAreRepairedAndReleased : Prop :=
  ∀ (s : State) (pa : Nat) (rg : Fin 4) (slot : Fin 16), s.Untraced → s.fld F.ERR_RING_BASE_SIZE_LOG2 0 = 0 → s.running = true →
    let unit := hoistUnit s.localGib pa
    (s.badLine (lineOf pa) = false → exec (.poisonHold pa) s = .next s) ∧
    (∀ ca, s.badLine (lineOf pa) = true → chanOf s.localGib pa = some ca →
      let r := ca.gch / 128
      ∃ t, exec (.poisonHold pa) s = .next t ∧
        (∀ k h, k < 16 → s.hold r k = some h → h.unit = unit → (∀ j < k, ∀ h', s.hold r j = some h' → h'.unit ≠ unit) →
          (pa / 64 * 64 ∈ h.bursts → t = s) ∧ (pa / 64 * 64 ∉ h.bursts → t = s.setHold r k (some { h with bursts := h.bursts ++ [pa / 64 * 64] }))) ∧
        (∀ k, k < 16 → s.hold r k = none → (∀ j < k, s.hold r j ≠ none) → (∀ j < 16, ∀ h', s.hold r j = some h' → h'.unit ≠ unit) →
          t.hold r k = some { unit := unit, state := if s.flag F.RC_HOLD_CFG_AUTO r = true then 2 else 3, bursts := [pa / 64 * 64] }) ∧
        ((∀ j < 16, ∃ h', s.hold r j = some h' ∧ h'.unit ≠ unit) → s.Stops t [])) ∧
    (∀ h, s.hold rg slot = some h → s.frozen = false → h.state = 2 → h.bursts.any s.repBusy = false → h.runs = [] → (∀ b ∈ h.bursts, b ∈ h.rowed) →
      (h.bursts ≠ [] → s.fld F.RC_RTAB_COUNT rg = 0 → ∃ t h', exec (.holdRepairCheck rg slot) s = .next t ∧ t.hold rg slot = some h' ∧
        h'.state = 3 ∧ h'.unit = h.unit ∧ h'.bursts = h.bursts) ∧
      (s.Plain → h.failed = false → (∀ b ∈ h.bursts, b ∈ h.ran ∧ s.governs rg b ≠ 3) → ∃ t, exec (.holdRepairCheck rg slot) s = .next t ∧ t.hold rg slot = none)) ∧
    (∀ h, s.hold rg slot = some h → h.state ≠ 2 → exec (.holdRepairCheck rg slot) s = .next s) ∧
    (∀ h, s.hold rg slot = some h → h.state = 3 → ∃ t, exec (.rcHoldCtlRelease rg slot) s = .next t ∧ t.hold rg slot = none ∧
      ∀ r j, (r, j) ≠ (rg.val, slot.val) → r < 4 → j < 16 → t.hold r j = s.hold r j) ∧
    ((s.hold rg slot = none ∨ ∃ h, s.hold rg slot = some h ∧ h.state ≠ 3) → exec (.rcHoldCtlRelease rg slot) s = .next s)

/-! ## Coherence -/

/-- READ_SHARED, READ_UNIQUE, UPGRADE, EVICT, WRITE_BACK, READ_ONCE, INV_WRITE, MERGE_WRITE, HOME_ATOMIC and TRANSACTION_ACK (R278 to R287,
R295, R297, R305): a hit needs no request; an uncached line is granted in E or M from memory; a line with an owner waits for the snoop of
it; a busy home queues; a dirty line written back goes to memory; a write at home leaves its bytes and an atomic its sum or maximum; the
acknowledgement takes the next request; a directory error is counted or fatal, and so are an Evict of a dirty line, a ReadUnique of an
owner and an acknowledgement that nothing awaits. A miss of a cluster counts as an event of one of its cores and, where its L3 set is
full, takes the place of another line. What a clean leaves in the cache (log 51), the core (log 6) and the L3's victim (log 17) are the
model's choice. SNP_SHARED, SNP_UNIQUE, SNP_ONCE, SNP_INV, SNOOP_TIMEOUT, AGENT_ATTACH, AGENT_DETACH and DETACH_COMPLETE (R280, R282,
R285, R296, R297, R299): an awaited answer counts as an event of one core of a cluster (log 6), changes the agent's state as the table
says and forwards what an owner holds, which is counted; the last answer serves the request; an answer that is not awaited is a protocol
error (log 51) and a timeout is fatal, both captured; only firmware attaches and detaches, a detach ends when no transaction of the agent
is in progress, and a detached agent holds no line. -/
def Obligations.HomesServeAndSnoopsAnswer : Prop :=
  (∀ (s : State) (k : Fin 13) (line mask data : Nat) (zero : Bool) (ev : DirEcc), s.running = true → s.coherent line = true → s.ecc = [] → s.Quiet →
     let c := s.copyOf k line
     let h := s.home line
     let mem := s.rawMem (64 * line) 64
     let counted (t : State) : Prop := (8 ≤ k.val → t.harts = s.harts) ∧ (k.val < 8 → ∃ j < 8, ∀ x i, Tab.get 0 (t.hart x).hpmCount i =
       if x = 8 * k.val + j ∧ 3 ≤ i ∧ i < 11 ∧ Tab.get 0 (s.hart x).hpmEvent i ∈ [1, 2, 3] then (Tab.get 0 (s.hart x).hpmCount i + 1) % 2 ^ 64
       else Tab.get 0 (s.hart x).hpmCount i)
     let busy (t : State) (r : HReq) : Prop := (t.home line).wait = h.wait ++ [r] ∧ t = { s with homes := t.homes, harts := t.harts, draws := t.draws }
     let fails (t : State) (cause agent : Nat) : Prop := s.Stops t [(.CF_FATAL, 0)] ∧ t.fld F.CF_FATAL_CAUSE 0 = cause ∧
       t.fld F.CF_FATAL_AGENT 0 = agent % 16 ∧ t.fld F.CF_FATAL_STACK 0 = s.homeOf line % 32 ∧ t.fld F.CF_FATAL_LINE 0 = line % 2 ^ 42
     let room : Prop := 8 ≤ k.val ∨ (s.setOf k line).length < l3.ways
     let stores : List (DirEcc → Instr) := [fun e => .readUnique k line mask data zero e, fun e => .upgrade k line mask data zero e]
     (s.attached k = false → exec (.readShared k line ev) s = .next s ∧ ∀ i ∈ stores, exec (i ev) s = .next s) ∧
     (s.attached k = true →
       (c.st ≠ .i → exec (.readShared k line ev) s = .next { s with resp := .data c.data }) ∧
       (c.st = .e ∨ c.st = .m → ∀ i ∈ stores, exec (i ev) s = .next (s.setCopy k line (storeInto c.data c.poison mask data zero))) ∧
       (c.st = .o → ∃ t, exec (.readUnique k line mask data zero ev) s = .next t ∧ fails t 3 k.val)) ∧
     (c.st = .o ∨ c.st = .m → ∃ t, exec (.evict k line) s = .next t ∧ fails t 3 k.val) ∧
     (s.holeAt (64 * line) = true → ∃ t, exec (.readOnce line ev) s = .next t ∧ t.resp = .accessFault) ∧
     (s.holeAt (64 * line) = false →
       (s.attached k = true →
         (s.caches = [] → s.dir = [] → h.txn = none → s.chanBlocked line .crit = false →
           (∃ t, exec (.readShared k line .clean) s = .next t ∧ t.copyOf k line = { st := .e, data := mem } ∧ t.resp = .data mem ∧ t.mem = s.mem ∧
             (∃ e, t.dirOf line = some e ∧ e.mode = 1 ∧ e.owner = k.val) ∧ (t.home line).txn.isSome = true ∧ s.RegsKept t [] ∧ counted t) ∧
           (∀ i ∈ stores, ∃ t, exec (i .clean) s = .next t ∧ t.copyOf k line = storeInto mem false mask data zero ∧ t.mem = s.mem ∧
             (∃ e, t.dirOf line = some e ∧ e.mode = 1 ∧ e.owner = k.val) ∧ s.RegsKept t [] ∧ counted t)) ∧
         (∀ e, c.st = .i → room → s.dirOf line = some e → e.mode ≠ 0 → e.owner ≠ k.val → h.txn = none → ∃ t, exec (.readShared k line .clean) s = .next t ∧
           (t.home line).txn = some { req := .readShared k, snoops := [(e.owner, .shared)] } ∧ counted t ∧
           t = { s with homes := t.homes, harts := t.harts, draws := t.draws }) ∧
         (c.st = .s ∨ c.st = .o → ∀ e, s.dirOf line = some e → (∀ a ∈ e.named, a = k.val) → h.txn = none →
           ∀ i ∈ (if c.st = .o then stores.drop 1 else stores), ∃ t, exec (i .clean) s = .next t ∧
           t.copyOf k line = storeInto c.data c.poison mask data zero ∧ t.mem = s.mem) ∧
         (c.st = .i → room → h.txn.isSome = true → ∃ t, exec (.readShared k line .clean) s = .next t ∧ busy t (.readShared k) ∧ counted t) ∧
         (c.st = .i → ¬ room → (∀ l ∈ s.setOf k line, (s.copyOf k l).st = .s) → ∃ t, exec (.readShared k line .clean) s = .next t ∧
           ∃ l ∈ s.setOf k line, t.copyOf k l = {})) ∧
       (c.st = .s → ∃ t, exec (.evict k line) s = .next t ∧ t.copyOf k line = {} ∧ t.mem = s.mem) ∧
       (c.st = .i ∨ c.st = .e → h.txn.isSome = true → ∃ t, exec (.evict k line) s = .next t ∧ busy t (.evict k)) ∧
       (h.txn = none → (c.st = .e → ∃ t, exec (.evict k line) s = .next t ∧ t.copyOf k line = {} ∧ t.mem = s.mem) ∧
         (c.st = .i → exec (.evict k line) s = .next s)) ∧
       (∀ keep level, (h.txn.isSome = true → ∃ t, exec (.writeBack k line keep level) s = .next t ∧ busy t (.writeBack k keep level)) ∧
         (h.txn = none → c.st ≠ .o → c.st ≠ .m → exec (.writeBack k line keep level) s = .next s) ∧
         (h.txn = none → c.st = .o ∨ c.st = .m → (s.dirOf line).isSome = true → s.chanBlocked line .crit = false → ∃ t, exec (.writeBack k line keep level) s = .next t ∧
           t.BytesAre (64 * line) 64 c.data ∧ Tab.find t.ecc line = (if level ≠ 0 ∨ c.poison = true then some Rs.poisonPattern else none) ∧
           (level = 0 → s.BytesKept t (64 * line) 64 ∧ s.RegsKept t []) ∧
           t.copyOf k line = if keep then { c with st := if c.st = .m then .e else .s, poison := c.poison || decide (level ≠ 0) } else {})) ∧
       (∀ cls, h.txn = none → s.dir = [] → s.chanBlocked line cls = true → ∃ t, exec (.readOnce line .clean cls) s = .next t ∧ t.mem = s.mem ∧
         s.RegsKept t [] ∧ ∃ x, (t.home line).txn = some x ∧ x.granted = false) ∧
       (∀ cls, s.caches = [] → s.dir = [] → h.txn = none → s.chanBlocked line cls = false →
         (∃ t, exec (.readOnce line .clean cls) s = .next t ∧ t.resp = .data mem ∧ t.mem = s.mem ∧ t.caches = []) ∧
         (∃ t, exec (.readOnce line .corrected cls) s = .next t ∧ t.resp = .data mem ∧
           t.fld F.HA_DIR_DIR_CORR (s.homeOf line) = min (s.fld F.HA_DIR_DIR_CORR (s.homeOf line) + 1) 0xFFFF) ∧
         (∀ bad, ∃ t, exec (.invWrite line data bad .clean cls) s = .next t ∧ t.BytesAre (64 * line) 64 data ∧ s.BytesKept t (64 * line) 64 ∧ t.dirOf line = none ∧
           Tab.find t.ecc line = if bad then some Rs.poisonPattern else none) ∧
         (∃ t, exec (.mergeWrite line mask data .clean cls) s = .next t ∧ s.BytesKept t (64 * line) 64 ∧
           ∀ j < 64, t.rawByte (64 * line + j) = if mask.testBit j then (data >>> (8 * j)) % 256 else s.rawByte (64 * line + j)) ∧
         (∀ off v, let a := 64 * line + off % 64 / 8 * 8
           let w := 64 * line + off % 64 / 4 * 4
           (∃ t, exec (.homeAtomic line (.add64 off v) .clean cls) s = .next t ∧ t.readMem a 8 = (s.readMem a 8 + v) % 2 ^ 64 ∧ s.BytesKept t a 8) ∧
           (∃ t, exec (.homeAtomic line (.add32 off v) .clean cls) s = .next t ∧ t.readMem w 4 = (s.readMem w 4 + v) % 2 ^ 32 ∧ s.BytesKept t w 4) ∧
           (∃ t, exec (.homeAtomic line (.max32 off v) .clean cls) s = .next t ∧ t.readMem w 4 = max (s.readMem w 4) (v % 2 ^ 32) ∧ s.BytesKept t w 4))) ∧
       (∀ cls, ∃ t, exec (.readOnce line .uncorrectable cls) s = .next t ∧ fails t 2 0)) ∧
     (∀ x, h.txn = some x →
       (x.granted = true → h.wait = [] → exec (.transactionAck line) s = .next (s.setHome line {})) ∧
       (∀ r, x.granted = true → h.wait = [r] → s.instant line r = true → ∃ t, exec (.transactionAck line) s = .next t ∧ t.home line = {}) ∧
       (∀ r rest, x.granted = true → h.wait = r :: rest → s.instant line r = false → ∃ t, exec (.transactionAck line) s = .next t ∧ (t.home line).wait = rest ∧
         ∃ y, (t.home line).txn = some y ∧ y.req = r) ∧
       (x.granted = false → ∃ t, exec (.transactionAck line) s = .next t ∧ fails t 3 (x.req.agent.getD 0))) ∧
     (h.txn = none → ∃ t, exec (.transactionAck line) s = .next t ∧ fails t 3 0)) ∧
  (∀ (s : State) (k : Fin 13) (line : Nat) (n : Snoop) (a : Agent), s.running = true → s.ecc = [] →
     let i := match n with | .shared => Instr.snpShared k line | .unique => .snpUnique k line | .once => .snpOnce k line | .inv => .snpInv k line
     let c := s.copyOf k line
     let h := s.home line
     let det := s.fld F.CF_AGENTS_DETACHING 0
     let fails (t : State) (cause : Nat) : Prop := s.Stops t [(.CF_FATAL, 0)] ∧ t.fld F.CF_FATAL_CAUSE 0 = cause ∧ t.fld F.CF_FATAL_AGENT 0 = k.val ∧
       t.fld F.CF_FATAL_STACK 0 = s.homeOf line % 32 ∧ t.fld F.CF_FATAL_LINE 0 = line % 2 ^ 42
     let forwarded (t : State) : Prop := t.fld F.HA_FORWARD_COUNT (s.homeOf line) = (s.fld F.HA_FORWARD_COUNT (s.homeOf line) + 1) % 2 ^ 64 ∧
       s.RegsKept t [(.HA_FORWARD, s.homeOf line)] ∧ t.mem = s.mem
     ((∀ x, h.txn = some x → (k.val, n) ∉ x.snoops) → ∃ t, exec i s = .next t ∧ fails t 3) ∧
     (∀ x, h.txn = some x → (k.val, n) ∈ x.snoops → x.granted = false → ∃ t, exec i s = .next t ∧
       (k.val < 8 → ∃ j < 8, ∀ x i, Tab.get 0 (t.hart x).hpmCount i =
         if x = 8 * k.val + j ∧ 3 ≤ i ∧ i < 11 ∧ Tab.get 0 (s.hart x).hpmEvent i = 4 then (Tab.get 0 (s.hart x).hpmCount i + 1) % 2 ^ 64
         else Tab.get 0 (s.hart x).hpmCount i) ∧
       ((∃ m ∈ x.snoops, m ≠ (k.val, n)) → (t.copyOf k line).st = c.st.after n ∧ t.mem = s.mem ∧ ∃ y, (t.home line).txn = some y ∧ y.granted = false ∧
         (∀ m, m ∈ y.snoops ↔ m ∈ x.snoops ∧ m ≠ (k.val, n))) ∧
       (∀ q, x.snoops = [(k.val, n)] → x.data = none → x.dirty = false → q ≠ k.val →
         (n = .shared → x.req = .readShared q → (s.copyOf q line).st = .i → (∃ e, s.dirOf line = some e ∧ e.owner = k.val) → (c.st = .m ∨ c.st = .e) →
           t.copyOf q line = { st := .s, data := c.data, poison := c.poison } ∧
           (t.copyOf k line).st = (if c.st = .m then .o else .s) ∧ t.resp = .data c.data ∧ forwarded t) ∧
         (∀ mask v z, n = .unique → x.req = .readUnique q mask v z → (s.copyOf q line).st = .i → (c.st = .m ∨ c.st = .o ∨ c.st = .e) →
           (s.dirOf line).isSome = true → t.copyOf q line = storeInto c.data c.poison mask v z ∧ (t.copyOf k line).st = .i ∧ forwarded t) ∧
         (∀ u, n = .once → x.req = .readOnce u → (c.st = .m ∨ c.st = .o ∨ c.st = .e) → t.resp = .data c.data ∧ t.copyOf k line = c ∧ forwarded t) ∧
         (∀ u v, n = .inv → x.req = .invWrite u v false → s.chanBlocked line (clsOf u) = false → (t.copyOf k line).st = .i ∧ t.BytesAre (64 * line) 64 v ∧ s.BytesKept t (64 * line) 64) ∧
         (∀ u mask v, n = .inv → x.req = .mergeWrite u mask v → s.chanBlocked line (clsOf u) = false → c.st = .m ∨ c.st = .o → c.poison = false → (t.copyOf k line).st = .i ∧
           s.BytesKept t (64 * line) 64 ∧ ∀ j < 64, t.rawByte (64 * line + j) = ((if mask.testBit j then v else c.data) >>> (8 * j)) % 256))) ∧
     (∀ x, h.txn = some x → s.attached k = true → (∃ m, (k.val, m) ∈ x.snoops) → ∃ t, exec (.snoopTimeout k line) s = .next t ∧ fails t 1) ∧
     (h.txn = none ∨ s.attached k = false → exec (.snoopTimeout k line) s = .next s) ∧
     (Agent.firmware a = false → s.fld F.ERR_RING_BASE_SIZE_LOG2 0 = 0 →
       ∀ j ∈ [Instr.agentAttach a k, .agentDetach a k], ∃ t, exec j s = .next t ∧ s.RegsKept t [(.ERR_STATUS, 0)] ∧
         t.fld F.ERR_STATUS_MMIO_DROPS 0 = min (s.fld F.ERR_STATUS_MMIO_DROPS 0 + 1) 0xFFFF) ∧
     (Agent.firmware a = true →
       (∃ t, exec (.agentAttach a k) s = .next t ∧ s.RegOnly t ∧ s.RegsKept t [(.CF_AGENTS, 0)] ∧ t.fld F.CF_AGENTS_DETACHING 0 = det ∧
         ∀ j : Nat, t.attached j = (s.attached j || (decide (j = k.val) && !det.testBit j))) ∧
       (∃ t, exec (.agentDetach a k) s = .next t ∧ s.RegOnly t ∧ s.RegsKept t [(.CF_AGENTS, 0)] ∧ t.attached k = false ∧
         (t.fld F.CF_AGENTS_DETACHING 0).testBit k = (det.testBit k || s.attached k) ∧ ∀ j : Nat, j ≠ k.val → t.attached j = s.attached j)) ∧
     (det.testBit k = false → exec (.detachComplete k) s = .next s) ∧
     ((∃ p ∈ s.homes, ∃ x, p.2.txn = some x ∧ x.req.agent = some k.val) → exec (.detachComplete k) s = .next s) ∧
     (det.testBit k = true → (∀ p ∈ s.homes, ∀ x, p.2.txn = some x → x.req.agent ≠ some k.val) → ∃ t, exec (.detachComplete k) s = .next t ∧ t.fld F.CF_AGENTS_DETACHING 0 = det ^^^ 2 ^ k.val ∧
       ((∀ l x, (s.home l).txn = some x → ∀ m ∈ x.snoops, m.1 ≠ k.val) → s.RegsKept t [(.CF_AGENTS, 0)] ∧
         ∀ l e, s.dirOf l = some e → k.val ∈ e.named → t.copyOf k l = {} ∧
           ((s.copyOf k l).st = .m ∨ (s.copyOf k l).st = .o → t.BytesAre (64 * l) 64 (s.copyOf k l).data))))

/-! ## Host cores -/

/-- CORE_POISONED_ACCESS, CBO_INVAL, UVTOPID_WRITE, CORE_CYCLE_CHARGE and TIMER_COMPARE (R28, R295, R302, R307, R315, R450, R479): a fetch,
load or store of a poisoned line faults precisely and cbo.zero replaces the line; cbo.inval writes a dirty line back and drops it, or
waits for the home; an access that the hart's PMP entries refuse faults instead and has no other effect (R302); the cycles a hart has run
go to the row of the uvtopid it had, if its version is supported; the timer interrupt rises when the time base reaches the compare value.
CL_HART_START, CL_HART_STOP, HART_STOP_AT_WFI, CL_CTL_OFF_REQ, CL_CTL_ON_REQ, CL_DVFS_REQ and DVFS_CHANGE_DONE (R308 to R310): a hart that
does not run starts in M-mode at its vector while its cluster is on; only the hart itself arms its stop, which takes effect at its WFI; a
cluster goes off only when no hart runs, detached first; a frequency in range is stored and the cluster runs at the lower of it and the
Governor's cap. -/
def Obligations.HartsAndClustersMeetTheDevice : Prop :=
  (∀ (s : State) (h : Fin 64) (pa line v cycles : Nat),
     let c := s.copyOf (h.val / 8) line
     let x := s.copyOf (h.val / 8) (lineOf pa)
     let row := s.acctRow (s.fld F.uvtopid_LAYER_ID h) (s.fld F.uvtopid_OPERATOR_ID h)
     (s.hartRuns h = false ∨ s.badLine (lineOf pa) = false → ∀ k, exec (.corePoisonedAccess h k pa) s = .next s) ∧
     (s.hartRuns h = true → s.badLine (lineOf pa) = true →
       (∀ k n, (k, n) ∈ [(CoreAccess.fetch, 1), (.load, 5), (.store, 7)] → ∃ t, exec (.corePoisonedAccess h k pa) s = .next t ∧
         (t.hart h).fault = some (n, pa) ∧ t.resp = .exception n pa ∧ (s.pmpAllows h n pa 1 = false → t = s.coreFault h n pa)) ∧
       (s.pmpAllows h 7 pa 1 = false → exec (.corePoisonedAccess h .cboZero pa) s = .next (s.coreFault h 7 pa)) ∧
       (s.attached (h.val / 8) = true → s.pmpAllows h 7 pa 1 = true → (s.setOf (h.val / 8) (lineOf pa)).length < l3.ways →
         (x.st = .e ∨ x.st = .m) ∨ (s.coherent (lineOf pa) = true ∧ s.holeAt (64 * lineOf pa) = false ∧
           (s.home (lineOf pa)).txn = none ∧ s.dirOf (lineOf pa) = none ∧ s.chanBlocked (lineOf pa) .crit = false) →
         ∃ t, exec (.corePoisonedAccess h .cboZero pa) s = .next t ∧ t.copyOf (h.val / 8) (lineOf pa) = { st := .m, data := 0 })) ∧
     (s.hartRuns h = true → s.pmpAllows h 7 (64 * line) 64 = false → exec (.cboInval h line) s = .next (s.coreFault h 7 (64 * line))) ∧
     (s.hartRuns h = true → s.pmpAllows h 7 (64 * line) 64 = true → s.coherent line = true → s.holeAt (64 * line) = false →
       ((s.home line).txn.isSome = true → ∃ t, exec (.cboInval h line) s = .next t ∧ (t.home line).wait = (s.home line).wait ++ [.flush (h.val / 8)] ∧
         t = { s with homes := t.homes }) ∧
       ((s.home line).txn = none → c.st.dirty = false ∨ s.chanBlocked line .crit = false → ∃ t, exec (.cboInval h line) s = .next t ∧ (t.copyOf (h.val / 8) line).st = .i ∧
         (c.st = .o ∨ c.st = .m → t.BytesAre (64 * line) 64 c.data ∧ s.BytesKept t (64 * line) 64) ∧
         (c.st = .s ∨ c.st = .e ∨ c.st = .i → t.mem = s.mem))) ∧
     (s.hartRuns h = false → exec (.cboInval h line) s = .next s ∧ exec (.uvtopidWrite h v cycles) s = .next s ∧ exec (.coreCycleCharge h cycles) s = .next s) ∧
     (s.Plain → s.hartRuns h = true → ∀ i ∈ [Instr.uvtopidWrite h v cycles, .coreCycleCharge h cycles], ∃ t, exec i s = .next t ∧
       (t.hart h).cycles = ((s.hart h).cycles + cycles) % 2 ^ 64 ∧ (∀ g, g ≠ h.val → t.hart g = s.hart g) ∧
       (i = .uvtopidWrite h v cycles → t.fld F.uvtopid_LAYER_ID h = v / 2 ^ 16 % 2 ^ 16 ∧ t.fld F.uvtopid_OPERATOR_ID h = v % 2 ^ 16 ∧ s.RegsKept t [(.uvtopid, h)]) ∧
       (i = .coreCycleCharge h cycles → s.RegsKept t []) ∧
       (s.flag F.OBS_ACCT_EN 0 = false ∨ row = none ∨ (∃ a, row = some a ∧ s.rowOk a 0x78 = false) → t.mem = s.mem) ∧
       (∀ a, s.flag F.OBS_ACCT_EN 0 = true → row = some a → s.rowOk a 0x78 = true → t.readMem (a + 0x60) 8 = (s.readMem (a + 0x60) 8 + cycles) % 2 ^ 64 ∧ s.BytesKept t (a + 0x60) 8)) ∧
     (s.running = true → s.fld F.CL_TIMECMP_CMP h ≤ s.now 4 → ∃ t, exec (.timerCompare h) s = .next t ∧ (t.hart h).mtip = true ∧ t = { s with harts := t.harts }) ∧
     (s.running = false ∨ s.now 4 < s.fld F.CL_TIMECMP_CMP h → exec (.timerCompare h) s = .next s)) ∧
  (∀ (s : State) (a : Agent) (h : Fin 64) (k : Fin 8) (vec v : Nat), s.running = true → s.fld F.ERR_RING_BASE_SIZE_LOG2 0 = 0 →
     let x := s.hart h
     (Agent.coreOrFirmware a = false → ∃ t, exec (.clHartStart a h vec) s = .next t ∧ s.RegsKept t [(.ERR_STATUS, 0)] ∧ t.harts = s.harts ∧
       t.fld F.ERR_STATUS_MMIO_DROPS 0 = min (s.fld F.ERR_STATUS_MMIO_DROPS 0 + 1) 0xFFFF) ∧
     (Agent.coreOrFirmware a = true → ∃ t, exec (.clHartStart a h vec) s = .next t ∧ s.RegsKept t [(.CL_HART_CTL, h)] ∧
       t.fld F.CL_HART_CTL_VEC h = vec / 4 % 2 ^ 46 ∧ (s.hartState h = 1 ∨ s.flag F.CL_CTL_ON (h.val / 8) = false → t.harts = s.harts ∧ t.hartState h = s.hartState h) ∧
       (s.hartState h ≠ 1 → s.flag F.CL_CTL_ON (h.val / 8) = true → t.hartState h = 1 ∧ (t.hart h).mode = 3 ∧ (t.hart h).pc = vec / 4 % 2 ^ 46 * 4 ∧ (t.hart h).stopPend = false ∧ ∀ g, g ≠ h.val → t.hart g = s.hart g)) ∧
     (a = .hart h → s.hartState h = 1 → ∃ t, exec (.clHartStop a h) s = .next t ∧ t.hart h = { x with stopPend := true } ∧ t = { s with harts := t.harts }) ∧
     (a ≠ .hart h ∨ s.hartState h ≠ 1 → exec (.clHartStop a h) s = .next s) ∧
     (s.hartState h = 1 → x.stopPend = true → ∃ t, exec (.hartStopAtWfi h) s = .next t ∧ t.hartState h = 2 ∧ (t.hart h).stopPend = false ∧
       s.RegsKept t [(.CL_HART_CTL, h)] ∧ t.mem = s.mem) ∧
     (s.hartState h ≠ 1 ∨ x.stopPend = false → exec (.hartStopAtWfi h) s = .next s) ∧
     (s.flag F.CL_CTL_ON k = false ∨ (∃ j < 8, s.hartState (8 * k.val + j) = 1) → exec (.clCtlOffReq k) s = .next s) ∧
     (s.flag F.CL_CTL_ON k = true → (∀ j < 8, s.hartState (8 * k.val + j) ≠ 1) → s.domWill (60 + k.val) = true → ∃ t, exec (.clCtlOffReq k) s = .next t ∧
       t.attached k = false ∧ t.pwr.requests = s.pwr.requests ++ [(60 + k.val, false)] ∧ s.RegsKept t [(.CF_AGENTS, 0)]) ∧
     (s.flag F.CL_CTL_ON k = true → exec (.clCtlOnReq k) s = .next s) ∧
     (s.flag F.CL_CTL_ON k = false → s.domWill 71 = true → s.domWill (60 + k.val) = false → ∃ t, exec (.clCtlOnReq k) s = .next t ∧
       t.pwr.requests = s.pwr.requests ++ [(60 + k.val, true)] ∧ t = { s with pwr := { s.pwr with requests := t.pwr.requests } }) ∧
     (∃ t, exec (.clDvfsReq k v) s = .next t ∧ t.fld F.CL_DVFS_REQ k = (if 8 ≤ v % 256 ∧ v % 256 ≤ 30 then v % 256 else s.fld F.CL_DVFS_REQ k) ∧
       t.fld F.CL_DVFS_CUR k = s.fld F.CL_DVFS_CUR k ∧ s.RegOnly t ∧ s.RegsKept t [(.CL_DVFS, k)]) ∧
     (∃ t, exec (.dvfsChangeDone k) s = .next t ∧ t.fld F.CL_DVFS_CUR k = min (s.fld F.CL_DVFS_REQ k) (s.fld F.GOV_STATUS_CL_CAP 0) ∧
       s.RegOnly t ∧ s.RegsKept t [(.CL_DVFS, k)]))

/-! ## Networks -/

/-- PORT_TRAINING_DONE, MODE_MISMATCH, PORT_LINK_FAULT, PORT_FEC_FAULT, PORT_AUTO_UP_RETRY and SERDES_ADAPT_WINDOW (R343, R345, R363, R364): a
trained port is UP; a mismatch keeps it in TRAINING with its reason; a lost link and uncorrected codewords above the threshold take it
DOWN, its queue pairs move to the lowest-numbered UP port, and AUTO_UP, as its last training took it, trains it again; a lane that
corrected more symbols than in its last window reverts that window's updates; the corrected count grows by a free value (log 6). -/
def Obligations.PortsTrainAndFail : Prop :=
  ∀ (s : State) (p : Fin 8) (lane : Fin 2) (n corr : Nat), s.Untraced → s.fld F.ERR_RING_BASE_SIZE_LOG2 0 = 0 → s.running = true →
    let st := s.fld F.PORT_STATUS_STATE p
    let goes (t : State) (a b : Nat) : Prop := t.fld F.PORT_STATUS_STATE p = a ∧ t.fld F.PORT_STATUS_REASON p = b ∧
      t.fld F.PORT_STATUS_TRANSITIONS p = min (s.fld F.PORT_STATUS_TRANSITIONS p + 1) 0xFFFF ∧ (t.port p).changed = true
    let th := s.fld F.PORT_FEC_TH_UNCORR_TH p
    let net := netOf p
    (st = 1 → s.domOn (netDom p) = true → ∃ t, exec (.portTrainingDone p) s = .next t ∧ goes t 2 0) ∧
    (st ≠ 1 ∨ s.domOn (netDom p) = false → exec (.portTrainingDone p) s = .next s) ∧ (st ≠ 1 → exec (.modeMismatch p) s = .next s) ∧
    (st = 1 → ∃ t, exec (.modeMismatch p) s = .next t ∧ t.fld F.PORT_STATUS_REASON p = 5 ∧ t.fld F.PORT_STATUS_STATE p = 1 ∧ s.RegOnly t ∧
      s.RegsKept t [(.PORT_STATUS, p)]) ∧
    (st ≠ 2 → exec (.portLinkFault p) s = .next s ∧ exec (.portFecFault p n) s = .next s ∧ exec (.serdesAdaptWindow p corr lane) s = .next s) ∧
    (st = 2 → ∃ t, exec (.portLinkFault p) s = .next t ∧ goes t 3 1 ∧ t.mem = s.mem ∧ s.RegsKept t [(.PORT_STATUS, p), (.ERR_STATUS, 0), (.OBS_STATUS, 0)] ∧
      ∀ u q, t.lowUp net = some u → (s.qp net q).st = 1 → (s.qp net q).port = p.val → (s.qp net q).altEn = false → { t.qp net q with owed := (s.qp net q).owed } = { s.qp net q with port := u }) ∧
    (st = 2 → ∃ t, exec (.portFecFault p n) s = .next t ∧ t.fld F.PORT_FEC_TH_UNCORR p = min (s.fld F.PORT_FEC_TH_UNCORR p + n) 0xFFFF ∧
      (th ≠ 0 → th < n → goes t 3 2) ∧ (th = 0 ∨ n ≤ th → s.RegOnly t ∧ s.RegsKept t [(.PORT_FEC_TH, p)])) ∧
    (st = 2 → ∃ t, exec (.serdesAdaptWindow p corr lane) s = .next t ∧ Tab.get 0 (t.port p).corrBase lane = corr ∧
      Tab.get false (t.port p).adaptPend lane = !(Tab.get false (s.port p).adaptPend lane && decide (Tab.get 0 (s.port p).corrBase lane < corr)) ∧
      (∀ l, l ≠ lane.val → Tab.get 0 (t.port p).corrBase l = Tab.get 0 (s.port p).corrBase l ∧
        Tab.get false (t.port p).adaptPend l = Tab.get false (s.port p).adaptPend l) ∧
      (∃ d ≤ corr, t.fld F.PORT_FEC_CORR_CORR p = (s.fld F.PORT_FEC_CORR_CORR p + d) % 2 ^ 64) ∧ s.RegsKept t [(.PORT_FEC_CORR, p)]) ∧
    (st = 3 → s.fld F.PORT_STATUS_REASON p = 1 → (s.port p).cfg.testBit 11 = true → s.domOn (netDom p) = true →
      ∃ t, exec (.portAutoUpRetry p) s = .next t ∧ goes t 1 0 ∧ (t.port p).cfg = (s.getR .PORT_CFG p).toNat ∧
      s.RegsKept t [(.PORT_STATUS, p), (.OBS_STATUS, 0)]) ∧
    (st ≠ 3 ∨ s.fld F.PORT_STATUS_REASON p ≠ 1 ∨ (s.port p).cfg.testBit 11 = false ∨ s.domOn (netDom p) = false → exec (.portAutoUpRetry p) s = .next s)

/-- ARP_REQUEST, NEIGHBOR_SOLICITATION, ICMP_ECHO_REQUEST, UNSUPPORTED_PROTOCOL_FRAME, PFC_FRAME, PFC_PAUSE_EXPIRY, PFC_XOFF_REPEAT,
PTP_EVENT_MESSAGE, PPS_IN_EDGE, PPS_OUT_PULSE, NET_TIME_STEP_WRITE, TIME_REPLICA_RESYNC and CNP_RECEIVED (R347, R348, R351, R353, R366,
R367, R452): the device's own addresses are answered, what it does not take is counted, priorities pause and resume, and time is stamped
and stepped. A frame that its port does not accept is discarded and counted. A replica's residual is free within one nanosecond (log 6), a
PTP stamp's fixed delay a constant of the implementation (log 65). -/
def Obligations.FramesAreAnsweredAndTimed : Prop :=
  ∀ (s : State) (p : Fin 8) (prio : Fin 8) (x y mac : Nat) (f : EchoReq) (h : RxHdr) (quanta : List Nat) (a : Agent) (k : Fin 37), s.running = true → s.Untraced →
    s.fld F.ERR_RING_BASE_SIZE_LOG2 0 = 0 →
    let n := netOf p
    let own4 := s.fld F.NET_IPV4_ADDR n
    let own6 := s.ipv6 n
    let own := if f.v6 then own6 else own4
    let used := if (s.net n).echoSec = s.time / 1000000000 then (s.net n).echoes else 0
    let till := Tab.get 0 (s.port p).pausedTill prio
    let counts (t : State) (c : Fld) (i : Nat) : Prop := t.fld c i = min (s.fld c i + 1) 0xFFFF ∧ s.RegsKept t [(c.reg, i)] ∧ s.RegOnly t
    (s.portUp p = true →
      (s.Accepts p h → own4 ≠ 0 → x = own4 → exec (.arpRequest p x y mac h) s = .next (s.send (.arpReply p y mac))) ∧
      (s.Accepts p h → own6 ≠ 0 → x = own6 → exec (.neighborSolicitation p x y mac h) s = .next (s.send (.naReply p y mac))) ∧
      (∀ g ∈ [TxFrame.arpReply p y mac, .naReply p y mac, .echoReply p f.sender f.mac f.ident f.len f.data f.v6],
        (s.framed g).hdr.srcMac = s.fld F.PORT_MAC_MAC p ∧ (s.framed g).hdr.vid = s.fld F.NET_CFG_VID n) ∧
      (s.Accepts p f.rx → own ≠ 0 → f.target = own → used < 1000 → ∃ t, exec (.icmpEchoRequest p f) s = .next t ∧ (t.net n).echoes = used + 1 ∧ (t.net n).qps = (s.net n).qps ∧
        (s.frozen = false → s.Clear p Config.otherPcp → t.tx = s.tx ++ [s.framed (.echoReply p f.sender f.mac f.ident f.len f.data f.v6)]) ∧ s.RegsKept t []) ∧
      (s.Accepts p f.rx → own = 0 ∨ f.target ≠ own ∨ 1000 ≤ used → exec (.icmpEchoRequest p f) s = .next s) ∧
      (∃ t, exec (.unsupportedProtocolFrame p h x) s = .next t ∧ (9216 < x → counts t F.PORT_DROPS_OVERSIZE p) ∧
        (x ≤ 9216 → (∃ m, h.dst = some m ∧ s.macOk p m = false) ∨ (∃ vid pcp, h.tag = some (vid, pcp) ∧ vid ≠ 0 ∧ vid ≠ s.fld F.NET_CFG_VID n) →
          counts t F.PORT_DROPS_FILTER p) ∧
        (s.Accepts p { h with len := x } → counts t F.NET_DROPS_PROTO n) ∧
        (x ≤ 9216 → h.dst = none → h.tag = none → (s.fld F.PORT_PFC_EN p).testBit 0 = false → s.bufferFull p = true → counts t F.PORT_DROPS_OVERFLOW p)) ∧
      (s.Accepts p h → ∃ t, exec (.pfcFrame p x quanta h) s = .next t ∧ (4 ≤ p.val → counts t F.PORT_DROPS_PFC_IGNORED p) ∧
        (p.val < 4 → x.testBit prio = true → (s.fld F.PORT_PFC_EN p).testBit prio = true → Tab.get 0 (t.port p).pausedTill prio =
          if quanta.getD prio 0 % 2 ^ 16 = 0 then 0 else s.time + quantaNs (quanta.getD prio 0 % 2 ^ 16)) ∧
        (p.val < 4 → (x.testBit prio = false ∨ (s.fld F.PORT_PFC_EN p).testBit prio = false) → Tab.get 0 (t.port p).pausedTill prio = till)) ∧
      (p.val < 4 → (s.fld F.PORT_PFC_EN p).testBit prio = true → ∃ t, exec (.pfcXoffRepeat p prio x) s = .next t ∧ Tab.get 0 (t.port p).buffered prio = x ∧
        (1024 * s.fld F.PORT_PFC_XOFF_KIB p ≤ x → t.tx = s.tx ++ [s.framed (.pfc p prio 0xFFFF)]) ∧
        (x < 1024 * s.fld F.PORT_PFC_XOFF_KIB p → x ≤ 1024 * s.fld F.PORT_PFC_XON_KIB p → Tab.get false (s.port p).xoff prio = true → t.tx = s.tx ++ [s.framed (.pfc p prio 0)])) ∧
      (∀ sent, (sent = false → s.Accepts p h) → ∃ t, exec (.ptpEventMessage p x sent h) s = .next t ∧
        let d := Config.ptpDelay ((s.port p).cfg % 4)
        let stamp := if sent then s.now 4 + d else s.now 4 - d
        (t.port p).stampSeq = x ∧ (t.port p).stamps.head? = some stamp ∧ s.RegsKept t [] ∧
          (sent = true → s.frozen = false → s.Clear p (s.fld F.NET_CFG_PTP_PCP n) → t.tx = s.tx ++ [s.framed (.ptp p x stamp)]) ∧ (sent = false → t.tx = s.tx)) ∧
      (s.Accepts p h → (h.dport = none ∨ h.dport = some 4791) →
        (h.sumOk = true → ∃ t, exec (.cnpReceived p x h) s = .next t ∧ counts t F.NET_DROPS_CNP n) ∧ (h.sumOk = false → exec (.cnpReceived p x h) s = .next s)) ∧
      (s.Accepts p h → h.dport ≠ none → h.dport ≠ some 4791 → ∃ t, exec (.cnpReceived p x h) s = .next t ∧ counts t F.NET_DROPS_PROTO n)) ∧
    (s.portUp p = false → ∀ i ∈ [Instr.arpRequest p x y mac h, .neighborSolicitation p x y mac h, .icmpEchoRequest p f, .unsupportedProtocolFrame p h x,
      .pfcFrame p x quanta h, .pfcXoffRepeat p prio x, .ptpEventMessage p x false h, .ptpEventMessage p x true h, .cnpReceived p x h], exec i s = .next s) ∧
    (s.Accepts p h → (x ≠ own4 → exec (.arpRequest p x y mac h) s = .next s) ∧ (x ≠ own6 → exec (.neighborSolicitation p x y mac h) s = .next s)) ∧
    (till = 0 ∨ s.time < till → exec (.pfcPauseExpiry p prio) s = .next s) ∧
    (till ≠ 0 → till ≤ s.time → ∃ t, exec (.pfcPauseExpiry p prio) s = .next t ∧ Tab.get 0 (t.port p).pausedTill prio = 0 ∧
      (s.frozen = false → ∀ y ∈ (s.port p).waiting, TxFrame.port y.frame = p.val → y.hdr.pcp = prio.val → y ∈ t.tx)) ∧
    (∃ t, exec .ppsInEdge s = .next t ∧ t.fld F.NET_PPS_IN_TIME 0 = s.now 4 % 2 ^ 64 ∧ s.RegsKept t [(.NET_PPS_IN, 0)] ∧ s.RegOnly t) ∧
    (∃ t, exec .ppsOutPulse s = .next t ∧ t.pwr.ppsOut = (s.flag F.NET_TIME_CFG_PPS_OUT_EN 0 && decide (s.time % 1000000000 < 100000)) ∧
      t = { s with pwr := { s.pwr with ppsOut := t.pwr.ppsOut } }) ∧
    (Agent.firmware a = true → ∃ t, exec (.netTimeStepWrite a x) s = .next t ∧
      (s.fld F.OBS_BRAKE_STATE 0 = 1 → t.time = s.time ∧ t.fld F.NET_TIME_STAT_REFUSED 0 = 1) ∧
      (s.fld F.OBS_BRAKE_STATE 0 ≠ 1 → t.time = s.time + x % 2 ^ 64 ∧ t.fld F.NET_TIME_STAT_STEPS 0 = min (s.fld F.NET_TIME_STAT_STEPS 0 + 1) 0xFFFF ∧
        s.RegsKept t [(.NET_TIME_STAT, 0)])) ∧
    (Agent.firmware a = false → ∃ t, exec (.netTimeStepWrite a x) s = .next t ∧ t.time = s.time ∧ s.RegsKept t [(.ERR_STATUS, 0)]) ∧
    (∃ t, exec (.timeReplicaResync k) s = .next t ∧ (Tab.get 0 t.replicas k = -1 ∨ Tab.get 0 t.replicas k = 0 ∨ Tab.get 0 t.replicas k = 1) ∧
      (∀ j, j ≠ k.val → Tab.get 0 t.replicas j = Tab.get 0 s.replicas j) ∧ t.time = s.time ∧ s.RegsKept t [])

/-- NET_DB_SEND, NET_DB_RECEIVE, ROCE_ACK, ROCE_NAK, READ_RESPONSE and ROCE_ACK_TIMEOUT (R353, R355, R356): a posted entry that is allowed
leaves as packets and stays in flight until the acknowledgement of its last PSN completes it with SUCCESS; a sequence NAK and a timeout
send it again within the retry limit; other NAKs end the queue pair in ERROR; READ data lands locally in order. ROCE_SEND, RDMA_WRITE,
RDMA_WRITE_IMMEDIATE and RDMA_READ for a queue pair, and PORT_CTL modes 2 to 5 (R353 to R356, R358, R360, R362): a packet of the expected
PSN that its region permits lands and is acknowledged; an unregistered key, a missing receive entry, an operation that R353 does not list
and a later PSN get their NAKs and place nothing; another queue pair's packet is counted. QP_LOAD takes the context, QP_RESET clears it. -/
def Obligations.RoceSendsRetriesPlacesAndAnswers : Prop :=
  (∀ (s : State) (p : Fin 8) (q v : Nat) (w : SendWr) (k : RocePkt) (h : RxHdr), s.Plain →
     let n := netOf p
     let x := s.qp n q
     let posted (q : Nat) (tail : Nat) : Nat := q * 2 ^ 48 + tail % 2 ^ 32
     let e := s.readMem (x.sqBase + 64 * (x.sqHead % 2 ^ x.sqLog)) 64
     let cq := x.cqBase + 32 * (x.cqIdx % 2 ^ x.cqLog)
     let kind := w.op = 1 ∨ w.op = 2 ∨ w.op = 3
     let same (y z : Qp) : Prop := { y with owed := z.owed } = z
     (s.running = true → x.st = 1 → q < 4096 → ∃ t, exec (.netDbReceive (if p.val < 4 then 0 else 1) (posted q v)) s = .next t ∧
       t.qp n q = { x with rqTail := v % 2 ^ 32 } ∧ t = { s with nets := t.nets }) ∧
     (s.running = false ∨ x.st ≠ 1 → q < 4096 → exec (.netDbReceive (if p.val < 4 then 0 else 1) (posted q v)) s = .next s ∧
       exec (.netDbSend (if p.val < 4 then 0 else 1) (posted q v)) s = .next s) ∧
     (s.running = true → x.st = 1 → q < 4096 → s.mayRoce n x.port = true → s.portUp x.port = true → s.frozen = false → s.Clear x.port (s.fld F.NET_CFG_ROCE_PCP n) →
       x.owed = false → x.sends = [] → x.sqHead < 2 ^ 32 → s.netWaits n [(x.sqBase + 64 * (x.sqHead % 2 ^ x.sqLog), 64), (leBits e 0x10 47 0, le e 0x18 4)] = false →
       v % 2 ^ 32 = (x.sqHead + 1) % 2 ^ 32 → 1 ≤ le e 0 1 → le e 0 1 ≤ 4 → le e 0x18 4 ≤ 2 ^ 31 → s.placeable n (leBits e 0x10 47 0) (le e 0x18 4) = true →
       ∃ t, exec (.netDbSend (if p.val < 4 then 0 else 1) (posted q v)) s = .next t ∧ (t.qp n q).sends = [x.entry e] ∧ (t.qp n q).sqHead = (x.sqHead + 1) % 2 ^ 32 ∧
         (t.qp n q).sqPsn = psnAdd (x.entry e).last 1 ∧ t.tx = s.tx ++ (s.wrFrames x (x.entry e) 0).map (s.framedQp n q) ∧ t.mem = s.mem ∧ s.RegsKept t []) ∧
     (s.RoceReady p q h → x.sends = [w] → x.sqHead = x.sqTail →
       (∀ psn, kind → psnSub (psnAdd psn 1) (psnAdd w.last 1) < 2 ^ 23 → ∃ t, exec (.roceAck p q psn h) s = .next t ∧ (t.qp n q).sends = [] ∧
         (t.qp n q).una = psnAdd w.last 1 ∧ (t.qp n q).cqIdx = x.cqIdx + 1 ∧ t.readMem cq 8 = w.wrId % 2 ^ 64 ∧ t.readMem (cq + 8) 2 = 0 ∧
         t.readMem (cq + 0xC) 4 = w.len % 2 ^ 32 ∧ s.BytesKept t cq 32 ∧ s.RegsKept t []) ∧
       (kind → 2 ^ 23 ≤ psnSub x.una (psnAdd w.last 1) →
         (x.retries < x.retryMax → ∃ t, exec (.roceNak p q x.una .sequence h) s = .next t ∧ same (t.qp n q) { x with retries := x.retries + 1 } ∧ t.mem = s.mem) ∧
         (x.rnr < x.rnrMax → ∃ t, exec (.roceNak p q x.una .rnr h) s = .next t ∧ same (t.qp n q) { x with rnr := x.rnr + 1 } ∧ t.mem = s.mem) ∧
         (∀ c ∈ [NakKind.invalid, .access, .operational], ∃ t, exec (.roceNak p q x.una c h) s = .next t ∧ (t.qp n q).st = 2 ∧ (t.qp n q).sends = [])) ∧
       (w.op = 4 → k.qpn = q → k.rx = h → s.netWaits n [(w.laddr + w.got, k.len)] = false → w.psn = x.una → k.psn = psnAdd w.psn (w.got / x.mtu) → w.got + k.len < w.len → s.InMemory (w.laddr + w.got) →
         ∃ t, exec (.readResponse p k) s = .next t ∧ (t.qp n q).sends = [{ w with got := w.got + k.len }] ∧ t.BytesAre (w.laddr + w.got) k.len k.data ∧
           s.BytesKept t (w.laddr + w.got) k.len) ∧
       (w.op = 4 → k.qpn = q → k.rx = h → s.netWaits n [(w.laddr + w.got, k.len)] = false → w.psn = x.una → k.psn = psnAdd w.psn (w.got / x.mtu) → w.got ≤ w.len → w.len ≤ w.got + k.len → s.InMemory (w.laddr + w.got) →
         ∃ t, exec (.readResponse p k) s = .next t ∧ (t.qp n q).sends = [] ∧ (t.qp n q).una = psnAdd w.last 1 ∧ (t.qp n q).cqIdx = x.cqIdx + 1)) ∧
     (s.running = true → s.braking = false → x.st = 1 → x.sends ≠ [] →
       (x.retries < x.retryMax → ∃ t, exec (.roceAckTimeout (if p.val < 4 then 0 else 1) q) s = .next t ∧ same (t.qp n q) { x with retries := x.retries + 1 } ∧ t.mem = s.mem) ∧
       (x.retryMax ≤ x.retries → ∃ t, exec (.roceAckTimeout (if p.val < 4 then 0 else 1) q) s = .next t ∧ (t.qp n q).st = 2 ∧ (t.qp n q).sends = [])) ∧
     (s.running = false ∨ s.braking = true ∨ x.st ≠ 1 ∨ x.sends = [] → exec (.roceAckTimeout (if p.val < 4 then 0 else 1) q) s = .next s)) ∧
  (∀ (s : State) (p : Fin 8) (k : RocePkt) (r : CmdRef) (c : Cmd), s.Plain → s.frozen = false →
     let n := netOf p
     let q := k.qpn
     let x := s.qp n q
     let nakd (t : State) (code : Nat) : Prop := t.tx = s.tx ++ [s.framedQp n q (.roceNak x.port x.dest x.rqPsn code)] ∧ t.mem = s.mem ∧ (t.qp n q).rqPsn = x.rqPsn
     let recvEntry := s.readMem (x.rqBase + 32 * (x.rqHead % 2 ^ x.rqLog)) 32
     (s.RoceReady p q k.rx → s.Clear x.port (s.fld F.NET_CFG_ROCE_PCP n) → k.psn = x.rqPsn → k.unlisted = true →
       ∀ i ∈ [Instr.roceSend p k, .rdmaWrite p k, .rdmaWriteImmediate p k, .rdmaRead p k], ∃ t, exec i s = .next t ∧ nakd t 1 ∧ t.qp n q = x) ∧
     (s.RoceReady p q k.rx → s.Clear x.port (s.fld F.NET_CFG_ROCE_PCP n) → k.unlisted = false → s.netWaits n [(k.va, k.len)] = false →
       s.netWaits n [(k.va, k.dlen)] = false → s.netWaits n [(leBits recvEntry 8 47 0, k.len)] = false →
       x.recv = none → k.psn = x.rqPsn → k.first = true → k.last = true →
       (k.dlen = k.len → k.dlen ≤ 2 ^ 31 → s.InMemory k.va → s.registered n x.pd k.rkey k.va k.dlen 2 = true → ∃ t, exec (.rdmaWrite p k) s = .next t ∧
         t.BytesAre k.va k.len k.data ∧ s.BytesKept t k.va k.len ∧ (t.qp n q).rqPsn = psnAdd x.rqPsn 1 ∧ (t.qp n q).recv = none ∧
         t.tx = s.tx ++ [s.framedQp n q (.roceAck x.port x.dest (psnSub (psnAdd x.rqPsn 1) 1))]) ∧
       (k.dlen ≤ 2 ^ 31 → s.registered n x.pd k.rkey k.va k.dlen 2 = false → ∀ i ∈ [Instr.rdmaWrite p k, .rdmaWriteImmediate p k], ∃ t, exec i s = .next t ∧ nakd t 2 ∧
         t.fld F.NET_DROPS_RKEY n = min (s.fld F.NET_DROPS_RKEY n + 1) 0xFFFF ∧ s.RegsKept t [(.NET_DROPS, n)]) ∧
       (k.dlen = k.len → k.dlen ≤ 2 ^ 31 → s.registered n x.pd k.rkey k.va k.dlen 2 = true → x.rqHead = x.rqTail →
         ∃ t, exec (.rdmaWriteImmediate p k) s = .next t ∧ nakd t 32) ∧
       (k.dlen = k.len → k.dlen ≤ 2 ^ 31 → s.InMemory k.va → s.registered n x.pd k.rkey k.va k.dlen 2 = true → x.rqHead ≠ x.rqTail →
         s.placeable n (leBits recvEntry 8 47 0) (le recvEntry 0x10 4) = true → ∃ t, exec (.rdmaWriteImmediate p k) s = .next t ∧ (t.qp n q).cqIdx = x.cqIdx + 1 ∧
           (t.qp n q).rqPsn = psnAdd x.rqPsn 1 ∧ (t.qp n q).rqHead = (x.rqHead + 1) % 2 ^ 32 ∧ t.tx = s.tx ++ [s.framedQp n q (.roceAck x.port x.dest (psnSub (psnAdd x.rqPsn 1) 1))]) ∧
       (x.rqHead = x.rqTail → ∃ t, exec (.roceSend p k) s = .next t ∧ nakd t 32) ∧
       (x.rqHead ≠ x.rqTail → k.len ≤ le recvEntry 0x10 4 → s.placeable n (leBits recvEntry 8 47 0) (le recvEntry 0x10 4) = true → s.InMemory (leBits recvEntry 8 47 0) →
         ∃ t, exec (.roceSend p k) s = .next t ∧ (t.qp n q).cqIdx = x.cqIdx + 1 ∧ (t.qp n q).rqPsn = psnAdd x.rqPsn 1 ∧ (t.qp n q).rqHead = (x.rqHead + 1) % 2 ^ 32 ∧
           t.tx = s.tx ++ [s.framedQp n q (.roceAck x.port x.dest (psnSub (psnAdd x.rqPsn 1) 1))]) ∧
       (k.dlen ≤ 2 ^ 31 → s.registered n x.pd k.rkey k.va k.dlen 1 = true → ∃ t, exec (.rdmaRead p k) s = .next t ∧
         t.tx.length = s.tx.length + packetsOf k.dlen x.mtu ∧ (t.qp n q).rqPsn = psnAdd x.rqPsn (packetsOf k.dlen x.mtu) ∧ t.mem = s.mem ∧ s.RegsKept t []) ∧
       (k.dlen ≤ 2 ^ 31 → s.registered n x.pd k.rkey k.va k.dlen 1 = false → ∃ t, exec (.rdmaRead p k) s = .next t ∧ nakd t 2)) ∧
     (∀ i ∈ [Instr.roceSend p k, .rdmaWrite p k, .rdmaWriteImmediate p k, .rdmaRead p k],
       (s.RoceReady p q k.rx → s.Clear x.port (s.fld F.NET_CFG_ROCE_PCP n) → (∀ spans, s.netWaits n spans = false) → k.psn ≠ x.rqPsn → 2 ^ 23 ≤ psnSub x.rqPsn k.psn → ∃ t, exec i s = .next t ∧ (x.nakSent = true → t = s) ∧
         (x.nakSent = false → nakd t 0 ∧ (t.qp n q).nakSent = true)) ∧
       (s.portTakes p = true → s.Accepts p k.rx → (k.rx.dport = none ∨ k.rx.dport = some 4791) → k.rx.sumOk = true → 2 ≤ q → (s.fld F.NET_QPT_COUNT n ≤ q ∨ x.st ≠ 1) → ∃ t, exec i s = .next t ∧
         t.fld F.NET_DROPS_QP n = min (s.fld F.NET_DROPS_QP n + 1) 0xFFFF ∧ s.RegsKept t [(.NET_DROPS, n)] ∧ s.RegOnly t) ∧
       (s.portTakes p = false → exec i s = .next s)) ∧
     (s.Ready r 0x9004 c → 2 ≤ c.f 0x11 1 →
       let net := c.f 0x12 1
       let pair := c.f 0x14 4
       let y := s.qp net pair
       let ctx := s.readMem (s.ctxAddr net pair) 128
       ∃ t, exec (.portCtl r) s = .next t ∧
         (c.f 0x11 1 = 2 → (pair < 2 ∨ s.fld F.NET_QPT_COUNT net ≤ pair ∨ y.st ≠ 0) → s.EndsAlone t r 0x0104 pair ∧ s.CmdOnly t) ∧
         (∀ o, c.f 0x11 1 = 2 → 2 ≤ pair → pair < s.fld F.NET_QPT_COUNT net → y.st = 0 → s.ctxFault ctx = some o → s.EndsAlone t r 0x0103 o ∧ s.CmdOnly t) ∧
         (c.f 0x11 1 = 2 → 2 ≤ pair → pair < s.fld F.NET_QPT_COUNT net → y.st = 0 → s.ctxFault ctx = none → s.EndsAlone t r 0 0 ∧
           (t.qp net pair).st = 1 ∧ (t.qp net pair).ctx = ctx ∧ (t.qp net pair).rqPsn = leBits ctx 0x2C 23 0 ∧ s.BytesKept t (s.ctxAddr net pair + 2) 1) ∧
         (c.f 0x11 1 = 3 → 2 ≤ pair → pair < s.fld F.NET_QPT_COUNT net → t.Ended r 0 0 ∧ (t.qp net pair).st = 0) ∧
         (4 ≤ c.f 0x11 1 → (∀ e ∈ (s.net net).qps, e.2.recv = none ∧ e.2.sync = false ∧ e.2.back = false) → t.Ended r 0 0)))

/-! ## Test access and register accesses -/

/-- JTAG_DBG_AUTH, JTAG_FABRIC, JTAG_STACK_READ, IJTAG_ACCESS and JTAG_EXTEST (R158, R440, R489 to R491): below its level an instruction acts
as BYPASS; the challenge, the response and the relock act as DEBUG_UNLOCK; fabric accesses act as those of the homes, and one that no
channel serves, or that lies outside the coherent ranges, is captured (R31, R40, R41, R487); a stack read answers the stored burst;
instruments read at level 1 and write at level 2; pins are driven while RESET_N is asserted. Check bits are free (log 6). -/
def Obligations.TestAccessFollowsItsLevel : Prop :=
  ∀ (s : State) (line mask data off pins b : Nat) (ch : Fin 512) (k : Ijtag) (e : Fin 16), s.Plain → s.Untraced →
    let lvl := s.debugLevel
    let stored := s.rawMem (64 * s.slotLine ch off) 64
    (s.running = true →
      (∃ t, exec (.jtagDbgAuth .relock) s = .next t ∧ t.resp = .data 0 ∧ t.fld F.SEC_DEBUG_LEVEL 0 = 0 ∧ s.RegsKept t [(.SEC_DEBUG, 0)] ∧ t.mem = s.mem) ∧
      (s.debugAllowed = false → exec (.jtagDbgAuth .challenge) s = .next { s with resp := .data 0x0104 } ∧
        exec (.jtagDbgAuth (.response b)) s = .next { s with resp := .data 0x0104 }) ∧
      (s.debugAllowed = true → (∃ t v, exec (.jtagDbgAuth .challenge) s = .next t ∧ t.sec.challenge = some { value := v, time := s.time } ∧
          t.resp = .data (v + put 32 8 Config.serial) ∧ s.RegsKept t [] ∧ t.mem = s.mem) ∧
        ∃ t, exec (.jtagDbgAuth (.response b)) s = .next t ∧ t.sec.challenge = none ∧ s.RegsKept t [(.SEC_DEBUG, 0), (.OBS_STATUS, 0)] ∧
          ((s.unlock (le b 384 1) (b % 2 ^ 3072)).2 = false → t.resp = .data 0x0103 ∧ t.fld F.SEC_DEBUG_FAILS 0 = min 8 (s.fld F.SEC_DEBUG_FAILS 0 + 1) ∧
            t.fld F.SEC_DEBUG_LEVEL 0 = s.fld F.SEC_DEBUG_LEVEL 0) ∧
          ((s.unlock (le b 384 1) (b % 2 ^ 3072)).2 = true → t.resp = .data 0 ∧ t.fld F.SEC_DEBUG_LEVEL 0 = le b 384 1))) ∧
    (lvl < 1 → exec (.jtagFabric (.readOnce line)) s = .next s ∧ exec (.jtagStackRead ch off) s = .next s ∧ exec (.ijtagAccess k) s = .next s) ∧
    (lvl < 2 → exec (.jtagFabric (.invWrite line data)) s = .next s ∧ exec (.jtagFabric (.mergeWrite line mask data)) s = .next s) ∧
    (s.coherent line = true → s.holeAt (64 * line) = false → s.dir = [] → s.chanBlocked line .bulk = false →
      (1 ≤ lvl → ∃ t, exec (.jtagFabric (.readOnce line)) s = .next t ∧ t.resp = .data (s.rawMem (64 * line) 64) ∧ t.mem = s.mem) ∧
      (2 ≤ lvl → ∃ t, exec (.jtagFabric (.invWrite line data)) s = .next t ∧ t.BytesAre (64 * line) 64 data ∧ s.BytesKept t (64 * line) 64) ∧
      (2 ≤ lvl → ∃ t, exec (.jtagFabric (.mergeWrite line mask data)) s = .next t ∧ s.BytesKept t (64 * line) 64 ∧
        ∀ j < 64, t.rawByte (64 * line + j) = if mask.testBit j then (data >>> (8 * j)) % 256 else s.rawByte (64 * line + j))) ∧
    (s.holeAt (64 * line) = true ∨ s.coherent line = false →
      (1 ≤ lvl → ∃ t, exec (.jtagFabric (.readOnce line)) s = .next t ∧ t.resp = .accessFault ∧ t.fld F.AMR_FAULT_STATUS_VALID 0 = 1) ∧
      (2 ≤ lvl → ∀ k ∈ [FabricOp.invWrite line data, .mergeWrite line mask data], ∃ t, exec (.jtagFabric k) s = .next t ∧ t.fld F.AMR_FAULT_STATUS_VALID 0 = 1)) ∧
    (1 ≤ lvl → off % 64 = 0 → off >>> 16 < 57344 →
      (s.fld F.CH_STATE_STATE ch = 3 ∨ (s.stack (ch / 16)).selfRef = true → exec (.jtagStackRead ch off) s = .next { s with resp := .stack 0 0xFF }) ∧
      (s.fld F.CH_STATE_STATE ch ≠ 3 → (s.stack (ch / 16)).selfRef = false → ∃ t v, exec (.jtagStackRead ch off) s = .next t ∧ t.resp = .stack v 0 ∧
        v % 2 ^ 512 = stored ∧ t = { s with resp := t.resp })) ∧
    (1 ≤ lvl →
      (∀ i r j, (i, r, j) ∈ [(Ijtag.mbistStatus, Reg.TST_MBIST_STATUS, 0), (.laneMapRead ch, .CH_LANE_MAP, ch.val)] →
        exec (.ijtagAccess i) s = .next { (s.readReg r j).2 with resp := .data (s.readReg r j).1 }) ∧
      (∀ pa r j, slotAt s.localGib pa = .reg r j → pa % 8 = 0 → exec (.ijtagAccess (.regRead pa)) s = .next { (s.readReg r j).2 with resp := .data (s.readReg r j).1 }) ∧
      (∀ pa, pa % 4 ≠ 0 → slotAt s.localGib pa ≠ .unpopulated → exec (.ijtagAccess (.regRead pa)) s = .next (s.ijtagRefuse pa)) ∧
      (exec (.ijtagAccess (.remap ch off)) s = .next { s with resp := .data (s.slotOf ch off) }) ∧
      (s.engineOpen e = false → exec (.ijtagAccess (.millpond e off)) s = .next s) ∧
      (s.engineOpen e = true →
        ∃ t w, exec (.ijtagAccess (.millpond e off)) s = .next t ∧ t.resp = .data w ∧ w < 2 ^ 48 ∧ t.mem = s.mem ∧ s.RegsKept t [] ∧
          let old := (Tab.get 0#40 (s.engine e).millpond off).toNat
          ((s.engine e).spare = 0 → w % 2 ^ 40 = old) ∧
          ∀ x < 40, (s.engine e).spare = x + 1 → w.testBit 47 = old.testBit x ∧ ∀ k < 40, k ≠ x → w.testBit k = old.testBit k)) ∧
    (lvl < 2 → ∀ i ∈ [Ijtag.freeze, .freezeRelease, .mbistStart b, .laneMapWrite ch b, .regWrite off b], exec (.ijtagAccess i) s = .next s) ∧
    (2 ≤ lvl → exec (.ijtagAccess (.laneMapWrite ch b)) s = .next (s.laneMapWrite ch (2 ^ 64 - 1) b) ∧
      exec (.ijtagAccess (.mbistStart b)) s = .next (s.mbistWrite (2 ^ 64 - 1) (b ||| 2 ^ 63)) ∧
      exec (.ijtagAccess (.regWrite off b)) s = .next (s.windowWrite .ijtag off 8 b) ∧
      (s.frozen = true → exec (.ijtagAccess .freeze) s = .next s) ∧ (s.frozen = false → exec (.ijtagAccess .freezeRelease) s = .next s)) ∧
    (s.pwr.phase ≠ .off → s.pwr.resetN = false → exec (.jtagExtest pins) s = .next { s with pwr := { s.pwr with scan := some pins } }) ∧
    (s.pwr.phase = .off ∨ s.pwr.resetN = true → exec (.jtagExtest pins) s = .next s)

/-- REGISTER_WRITE, SNAP_LOW_READ, MMIO_READ_FAULT and UNPOPULATED_ACCESS (R6, R7, R10, R31, R38, R41, R292, R302): a listed register that its
agent may write is written under its mask; a misaligned, unlisted or unprivileged write is dropped and counted, and a core whose store is
misaligned or unlisted takes a store access fault; a low read latches the whole SNAP register and a high one answers the latch; a refused
read, an AMO outside the ranges that have them and an access to an address that does not exist answer a fault, which a core takes, and are
recorded. What a hart's PMP entries refuse faults before it leaves the core and has no other effect. -/
def Obligations.AccessesAreChecked : Prop :=
  ∀ (s : State) (a : Agent) (pa size v : Nat) (r : Reg) (i : Nat) (kind : AccKind), s.running = true → s.fld F.ERR_RING_BASE_SIZE_LOG2 0 = 0 →
    let open_ (n size : Nat) : Prop := s.coreDenied a n pa size = false
    let window : Prop := (∃ off, rangeOf s.localGib pa = .hub off) ∨ ∃ q off, rangeOf s.localGib pa = .region q off
    let aligned : Prop := (size = 4 ∨ size = 8) ∧ pa % size = 0
    let sh := 8 * (pa % 8)
    let refused (t : State) : Prop := t.fld F.ERR_STATUS_MMIO_DROPS 0 = min (s.fld F.ERR_STATUS_MMIO_DROPS 0 + 1) 0xFFFF ∧ s.RegsKept t [(.ERR_STATUS, 0)] ∧ t.mem = s.mem
    let stored (t : State) : Prop := ∀ h, a = .hart h → t.resp = .exception 7 pa ∧ (t.hart h).fault = some (7, pa)
    let special : List Reg := [.AMR_FAULT_STATUS, .GOV_CAP, .GOV_DOM_CTL, .SEC_BOOT_CTL, .OBS_MARK, .OBS_BRAKE, .OBS_FRZ, .OBS_ACCT, .OBS_PROF_SEL, .TST_MBIST_CTL]
    (window → Agent.reachesRegs a = true → open_ 7 size → slotAt s.localGib pa = .reg r i →
      (¬ aligned ∨ (r.firmwareOnly = true ∧ Agent.firmware a = false) → ∃ t, exec (.registerWrite a pa size v) s = .next t ∧ refused t ∧
        (¬ aligned → stored t)) ∧
      (aligned → (r.firmwareOnly = false ∨ Agent.firmware a = true) → r.ofQueue = false → r.ofRegion = false → r.ofHub = false → r ∉ special →
        exec (.registerWrite a pa size v) s = .next (s.putFields r i ((2 ^ (8 * size) - 1) <<< sh) ((v % 2 ^ (8 * size)) <<< sh)))) ∧
    (window → Agent.reachesRegs a = true → open_ 7 size → slotAt s.localGib pa = .unlisted → ∃ t, exec (.registerWrite a pa size v) s = .next t ∧ refused t ∧ stored t) ∧
    (window → Agent.reachesRegs a = true → open_ 7 size → ¬ aligned → (∃ f off, slotAt s.localGib pa = .imsic f off ∨ slotAt s.localGib pa = .aplic f off) →
      ∃ t, exec (.registerWrite a pa size v) s = .next t ∧ refused t ∧ stored t) ∧
    (s.coreMisaligned a pa size = true ∨ s.coreDenied a 7 pa size = true → ∃ t, exec (.registerWrite a pa size v) s = .next t ∧ stored t ∧ t.mem = s.mem ∧ s.RegsKept t []) ∧
    (window → Agent.reachesRegs a = false → open_ 7 size → ∃ t, exec (.registerWrite a pa size v) s = .next t ∧ t.fld F.AMR_FAULT_STATUS_VALID 0 = 1 ∧ t.mem = s.mem ∧
      s.RegsKept t [(.AMR_FAULT_STATUS, 0), (.AMR_FAULT_ADDR, 0), (.ERR_STATUS, 0)]) ∧
    (∀ q, s.Plain → rangeOf s.localGib pa = .scratch q → Agent.mayReach a (.scratch q) = true → open_ 7 size → naturalAccess pa size = true →
      ∃ t, exec (.registerWrite a pa size v) s = .next t ∧ t.BytesAre pa size v ∧ s.BytesKept t pa size ∧ s.RegsKept t []) ∧
    (Agent.reachesRegs a = true → open_ 5 4 → pa % 8 = 0 → slotAt s.localGib pa = .reg r i →
      (r.isSnap = true → ∃ t, exec (.snapLowRead a pa) s = .next t ∧ t.resp = .data ((s.readReg r i).1 % 2 ^ 32) ∧
        Tab.get 0#64 t.snap (r.key i) = BitVec.ofNat 64 (s.readReg r i).1 ∧ t.mem = (s.readReg r i).2.mem) ∧
      (r.isSnap = false → exec (.snapLowRead a pa) s = .next s)) ∧
    (Agent.reachesRegs a = true → open_ 5 4 → pa % 8 = 4 → slotAt s.localGib pa = .reg r i → r.isSnap = true →
      exec (.snapLowRead a pa) s = .next { s with resp := .data ((Tab.get 0#64 s.snap (r.key i)).toNat / 2 ^ 32) }) ∧
    (Agent.reachesRegs a = true → pa % 4 = 0 → s.coreDenied a 5 pa 4 = true → exec (.snapLowRead a pa) s = .next (s.accessFault a 5 pa)) ∧
    (Agent.reachesRegs a = true → open_ 5 size → s.coreMisaligned a pa size = false → s.refusedByR10 pa size = true → ∃ t, exec (.mmioReadFault a pa size) s = .next t ∧
      s.RegsKept t [(.ERR_STATUS, 0)] ∧ t.fld F.ERR_STATUS_MMIO_DROPS 0 = s.fld F.ERR_STATUS_MMIO_DROPS 0 ∧ t.mem = s.mem ∧
      (∀ h, a = .hart h → t.resp = .exception 5 pa ∧ (t.hart h).fault = some (5, pa)) ∧ ((∀ h, a ≠ .hart h) → t.resp = .accessFault)) ∧
    (s.coreMisaligned a pa size = true ∨ s.coreDenied a 5 pa size = true → ∃ t, exec (.mmioReadFault a pa size) s = .next t ∧ t.mem = s.mem ∧ s.RegsKept t [] ∧
      ∀ h, a = .hart h → t.resp = .exception 5 pa ∧ (t.hart h).fault = some (5, pa)) ∧
    (s.coreMisaligned a pa size = false → open_ 5 size → Agent.reachesRegs a = false ∨ s.refusedByR10 pa size = false → exec (.mmioReadFault a pa size) s = .next s) ∧
    (s.coreDenied a (faultOf kind) pa size = true → exec (.unpopulatedAccess a pa size kind) s = .next (s.accessFault a (faultOf kind) pa)) ∧
    (open_ (faultOf kind) size → kind ≠ .amo → (∀ j < min 64 size, s.reachable a (pa + j) = true) → exec (.unpopulatedAccess a pa size kind) s = .next s) ∧
    (open_ 7 size → (∀ j < min 64 size, s.reachable a (pa + j) = true) → ∀ h, a = .hart h → rangeOf s.localGib pa ≠ .ilv → (∀ st, rangeOf s.localGib pa ≠ .apt st) →
      ∃ t, exec (.unpopulatedAccess a pa size .amo) s = .next t ∧ t.resp = .exception 7 pa ∧ (t.hart h).fault = some (7, pa) ∧ t.mem = s.mem ∧ s.RegsKept t []) ∧
    (∀ j, open_ (faultOf kind) size → j < min 64 size → s.reachable a (pa + j) = false → (∀ m < j, s.reachable a (pa + m) = true) → ∃ t, exec (.unpopulatedAccess a pa size kind) s = .next t ∧
      t.fld F.AMR_FAULT_STATUS_VALID 0 = 1 ∧ t.fld F.AMR_FAULT_STATUS_COUNT 0 = min (s.fld F.AMR_FAULT_STATUS_COUNT 0 + 1) 0xFFFF ∧ t.mem = s.mem ∧
      (s.flag F.AMR_FAULT_STATUS_VALID 0 = false → t.fld F.AMR_FAULT_ADDR_ADDR 0 = (pa + j) % 2 ^ 48 ∧ t.fld F.AMR_FAULT_STATUS_KIND 0 = if kind = .write ∨ kind = .amo then 1 else 0) ∧
      (s.flag F.AMR_FAULT_STATUS_VALID 0 = true → t.fld F.AMR_FAULT_STATUS_OVF 0 = 1 ∧ t.getR .AMR_FAULT_ADDR 0 = s.getR .AMR_FAULT_ADDR 0) ∧
      (∀ h, a = .hart h → t.resp = .exception (faultOf kind) (pa + j)) ∧
      ((∀ h, a ≠ .hart h) → t.resp = if kind = .write ∨ kind = .amo then s.resp else .accessFault) ∧ s.RegsKept t [(.AMR_FAULT_STATUS, 0), (.AMR_FAULT_ADDR, 0), (.ERR_STATUS, 0)])

/-! ## Rules stated whole -/

/-- The boot ROM and the boot SRAM answer only the device controller (R40): a write or any other access to an address in them from another
agent does what an access to an address of no range does, no command operand and no line of a home may lie in them, and the device
controller reaches them; its writes of the SRAM land. -/
def Obligations.BootRangesAnswerOnlyTheController : Prop :=
  ∀ (s : State) (a : Agent) (pa size v : Nat) (k : AccKind), s.running = true → rangeOf s.localGib pa = .rom ∨ rangeOf s.localGib pa = .sram →
    (a ≠ .devctl → s.coreDenied a 7 pa size = false → s.coreDenied a (faultOf k) pa size = false → s.reachable a pa = false ∧ exec (.registerWrite a pa size v) s = .next (s.accessUnpopulated a .write pa) ∧
      (0 < size → exec (.unpopulatedAccess a pa size k) s = .next (s.accessUnpopulated a k pa)) ∧
      ∀ p, rangeOf s.localGib p = .none → s.coreDenied a 7 p size = false → s.coreDenied a (faultOf k) p size = false → exec (.registerWrite a p size v) s = .next (s.accessUnpopulated a .write p) ∧
        (0 < size → exec (.unpopulatedAccess a p size k) s = .next (s.accessUnpopulated a k p))) ∧
    (∀ w n, 0 < n → s.spanFault w pa n = some pa) ∧ s.coherent (pa / 64) = false ∧ s.reachable .devctl pa = true ∧
    (s.Plain → rangeOf s.localGib pa = .sram → naturalAccess pa size = true → ∃ t, exec (.registerWrite .devctl pa size v) s = .next t ∧
      t.BytesAre pa size v ∧ s.BytesKept t pa size ∧ s.RegsKept t [])

/-- POWER_CAP (R407): its packet is one unit long with CAP_W at 0x10, WINDOW_MS at 0x12 and every other byte of its body 0; a value out of
range ends it with BAD_LENGTH; else it writes both fields to GOV_CAP, ends with OK, and its cap governs the next comparison. -/
def Obligations.PowerCapGovernsTheNextComparison : Prop :=
  ∀ (s : State) (r : CmdRef) (c : Cmd),
    let cap := c.f 0x10 2
    let ms := c.f 0x12 2
    let sound : Prop := 1050 ≤ cap ∧ cap ≤ 1500 ∧ 1 ≤ ms ∧ ms ≤ 1000
    (c.f 1 1 = 1 → c.opcode = 0x9003 → s.regionOf c.ref.q = 8 → (headerChecks c).first = none →
      (s.decodeFault c = none ↔ c.len = 1 ∧ sound ∧ ∀ b, 0x14 ≤ b → b < 0x38 → c.f b 1 = 0) ∧
      (¬ (c.len = 1 ∧ sound) → ∃ d, s.decodeFault c = some (0x0105, d)) ∧
      (c.len = 1 → sound → (∃ b, 0x14 ≤ b ∧ b < 0x38 ∧ c.f b 1 ≠ 0) → ∃ d, s.decodeFault c = some (0x0102, d))) ∧
    (s.Ready r 0x9003 c → sound → s.pwr.boardCap ≤ 1500 → ∃ t, exec (.powerCap r) s = .next t ∧ s.EndsAlone t r 0 0 ∧
      t.fld F.GOV_CAP_CAP_W 0 = cap ∧ t.fld F.GOV_CAP_WINDOW_MS 0 = ms ∧ s.RegsKept t [(.GOV_CAP, 0), (.GOV_STATUS, 0)] ∧ s.CmdRegOnly t ∧
      ∀ mw, ∃ u, exec (.capEvaluation mw) t = .next u ∧
        (let lim := 1000 * min cap s.pwr.boardCap
         let ts : Steps := (s.pwr.capCl, s.pwr.capStretch, s.pwr.capBulk)
         (u.pwr.capCl, u.pwr.capStretch, u.pwr.capBulk) = if lim < mw then stepOn ts else if 100 * mw < 97 * lim then stepOff ts else ts))
end

