-- ==== Sys2Proof/Laws/Tab.lean ====
section
/-! SUPPORT. Laws of the sparse tables: what a read finds after a write, and that every operation keeps the canonical form. -/
namespace Sys2Proof.Machine.Tab
variable {α : Type}

/-! ## The canonical form -/

theorem above_mono {b c : Nat} (h : b ≤ c) : ∀ {t : Tab α}, above c t = true → above b t = true
  | [], _ => rfl
  | (k, _) :: t, ht => by
    simp only [above, Bool.and_eq_true, decide_eq_true_eq] at ht ⊢
    exact ⟨by omega, ht.2⟩

theorem sorted_of_above {b : Nat} : ∀ {t : Tab α}, above b t = true → sorted t = true
  | [], _ => rfl
  | (_, _) :: _, h => by simp only [above, Bool.and_eq_true] at h; exact h.2

theorem above_erase {b : Nat} (i : Nat) : ∀ {t : Tab α}, above b t = true → above b (erase t i) = true
  | [], _ => rfl
  | (k, v) :: t, h => by
    simp only [above, Bool.and_eq_true, decide_eq_true_eq] at h
    unfold erase
    split
    · exact above_mono (by omega) (above_erase i h.2)
    · simp [above, h.1, above_erase i h.2]

theorem above_insert {i : Nat} (x : α) : ∀ {b : Nat} {t : Tab α}, b < i → above b t = true → above b (insert t i x) = true
  | _, [], hb, _ => by simp [insert, above, hb]
  | b, (k, v) :: t, hb, h => by
    simp only [above, Bool.and_eq_true, decide_eq_true_eq] at h
    unfold insert
    split
    · next e => subst e; simp [above, hb, h.2]
    · split
      · next e => simp [above, hb, e, h.2]
      · simp [above, h.1, above_insert x (show k < i by omega) h.2]

theorem sorted_erase (i : Nat) : ∀ {t : Tab α}, sorted t = true → sorted (erase t i) = true
  | [], _ => rfl
  | (k, v) :: t, h => by
    simp only [sorted] at h
    unfold erase
    split
    · exact sorted_of_above (above_erase i h)
    · simpa [sorted] using above_erase i h

theorem sorted_insert (i : Nat) (x : α) : ∀ {t : Tab α}, sorted t = true → sorted (insert t i x) = true
  | [], _ => rfl
  | (k, v) :: t, h => by
    simp only [sorted] at h
    unfold insert
    split
    · next e => subst e; simpa [sorted] using h
    · split
      · next e => simp [sorted, above, e, h]
      · simpa [sorted] using above_insert x (by omega) h

theorem above_filter {b : Nat} (p : Nat × α → Bool) : ∀ {t : Tab α}, above b t = true → above b (t.filter p) = true
  | [], _ => rfl
  | (k, v) :: t, h => by
    simp only [above, Bool.and_eq_true, decide_eq_true_eq] at h
    rw [List.filter_cons]
    split
    · simp [above, h.1, above_filter p h.2]
    · exact above_mono (by omega) (above_filter p h.2)

theorem sorted_filter (p : Nat × α → Bool) : ∀ {t : Tab α}, sorted t = true → sorted (t.filter p) = true
  | [], _ => rfl
  | (k, v) :: t, h => by
    simp only [sorted] at h
    rw [List.filter_cons]
    split
    · simpa [sorted] using above_filter p h
    · exact sorted_of_above (above_filter p h)

theorem mem_erase {i : Nat} {p : Nat × α} : ∀ {t : Tab α}, p ∈ erase t i → p ∈ t
  | [], h => h
  | (k, v) :: t, h => by
    unfold erase at h
    split at h
    · exact List.mem_cons_of_mem _ (mem_erase h)
    · rcases List.mem_cons.1 h with e | h
      · exact e ▸ List.mem_cons_self
      · exact List.mem_cons_of_mem _ (mem_erase h)

theorem mem_insert {i : Nat} {x : α} {p : Nat × α} : ∀ {t : Tab α}, p ∈ insert t i x → p = (i, x) ∨ p ∈ t
  | [], h => by simpa [insert] using h
  | (k, v) :: t, h => by
    unfold insert at h
    split at h
    · rcases List.mem_cons.1 h with e | h
      · exact .inl e
      · exact .inr (List.mem_cons_of_mem _ h)
    · split at h
      · rcases List.mem_cons.1 h with e | h
        · exact .inl e
        · exact .inr h
      · rcases List.mem_cons.1 h with e | h
        · exact .inr (e ▸ List.mem_cons_self)
        · rcases mem_insert h with e | h
          · exact .inl e
          · exact .inr (List.mem_cons_of_mem _ h)

/-- A write keeps the canonical form. -/
theorem wf_set [DecidableEq α] {d : Nat → α} {t : Tab α} (i : Nat) (x : α) (h : wf d t = true) : wf d (set (d i) t i x) = true := by
  simp only [wf, Bool.and_eq_true, List.all_eq_true, decide_eq_true_eq] at h ⊢
  unfold set
  split
  · exact ⟨sorted_erase i h.1, fun p hp => h.2 p (mem_erase hp)⟩
  · next hx =>
    refine ⟨sorted_insert i x h.1, fun p hp => ?_⟩
    rcases mem_insert hp with e | hp
    · subst e; exact hx
    · exact h.2 p hp

/-- Forgetting some entries keeps the canonical form. -/
theorem wf_filter [DecidableEq α] {d : Nat → α} {t : Tab α} (p : Nat × α → Bool) (h : wf d t = true) : wf d (t.filter p) = true := by
  simp only [wf, Bool.and_eq_true, List.all_eq_true, decide_eq_true_eq] at h ⊢
  exact ⟨sorted_filter p h.1, fun q hq => h.2 q (List.mem_filter.1 hq).1⟩

theorem wf_erase [DecidableEq α] {d : Nat → α} {t : Tab α} (i : Nat) (h : wf d t = true) : wf d (erase t i) = true := by
  simp only [wf, Bool.and_eq_true, List.all_eq_true, decide_eq_true_eq] at h ⊢
  exact ⟨sorted_erase i h.1, fun p hp => h.2 p (mem_erase hp)⟩

@[simp] theorem wf_nil [DecidableEq α] (d : Nat → α) : wf d ([] : Tab α) = true := rfl

/-! ## Reads after writes -/

theorem find_insert (i j : Nat) (x : α) : ∀ (t : Tab α), find (insert t i x) j = if j = i then some x else find t j
  | [] => by simp [insert, find]
  | (k, v) :: t => by
    unfold insert
    split
    · next e => subst e; by_cases h : j = i <;> simp [find, h]
    · split
      · simp [find]
      · by_cases h : j = k
        · simp [find, h]
          intro e; exact absurd e.symm ‹_›
        · simp [find, h, find_insert i j x t]

theorem find_erase (i j : Nat) : ∀ (t : Tab α), find (erase t i) j = if j = i then none else find t j
  | [] => by simp [erase, find]
  | (k, v) :: t => by
    unfold erase
    split
    · next e =>
      subst e
      by_cases h : j = i
      · simp [h, find_erase i i t]
      · simp [find_erase i j t, h, find]
    · by_cases h : j = k
      · simp [find, h]
        intro e; exact absurd e.symm ‹_›
      · simp [find, h, find_erase i j t]

/-- The key written reads as the value written. -/
@[simp] theorem get_set_same [DecidableEq α] (d : α) (t : Tab α) (i : Nat) (x : α) : get d (set d t i x) i = x := by
  unfold get set
  split
  · next e => simp [find_erase, e]
  · simp [find_insert]

/-- Every other key reads as before. -/
theorem get_set_other [DecidableEq α] {d e : α} {t : Tab α} {i j : Nat} (x : α) (hij : j ≠ i) :
    get e (set d t i x) j = get e t j := by
  unfold get set
  split <;> simp [find_erase, find_insert, hij]

/-- What any key reads as after a write. -/
theorem get_set [DecidableEq α] (d : α) (t : Tab α) (i j : Nat) (x : α) :
    get d (set d t i x) j = if j = i then x else get d t j := by
  split
  · next h => subst h; simp
  · next h => exact get_set_other x h

end Sys2Proof.Machine.Tab
end

