-- ==== Sys2Proof/Laws/Regs.lean ====
section
/-! SUPPORT. Reading a register, or one of its fields, after a write to a register or to a field. -/
namespace Sys2Proof.Machine

/-! ## Bit fields -/

theorem testBit_setBits {x hi lo v k : Nat} (hl : lo ≤ hi) :
    (setBits x hi lo v).testBit k = if k < lo then x.testBit k else if k ≤ hi then v.testBit (k - lo) else x.testBit k := by
  unfold setBits
  have hv : v % 2 ^ (hi + 1 - lo) < 2 ^ (hi + 1 - lo) := Nat.mod_lt _ (Nat.two_pow_pos _)
  have hx : x % 2 ^ lo < 2 ^ lo := Nat.mod_lt _ (Nat.two_pow_pos _)
  have hp : 2 ^ (hi + 1) = 2 ^ lo * 2 ^ (hi + 1 - lo) := by rw [← Nat.pow_add]; congr 1; omega
  have e : (x >>> (hi + 1)) <<< (hi + 1) + (v % 2 ^ (hi + 1 - lo)) <<< lo + x % 2 ^ lo =
      2 ^ lo * (2 ^ (hi + 1 - lo) * (x >>> (hi + 1)) + v % 2 ^ (hi + 1 - lo)) + x % 2 ^ lo := by
    simp only [Nat.shiftLeft_eq, hp, Nat.mul_add, Nat.mul_comm, Nat.mul_left_comm]
  dsimp only
  rw [e, Nat.testBit_two_pow_mul_add _ hx, Nat.testBit_two_pow_mul_add _ hv]
  simp only [Nat.testBit_mod_two_pow, Nat.testBit_shiftRight]
  by_cases h1 : k < lo
  · simp [h1]
  · by_cases h2 : k ≤ hi
    · have : k - lo < hi + 1 - lo := by omega
      simp [h1, h2, this]
    · have h3 : ¬ k - lo < hi + 1 - lo := by omega
      have h4 : hi + 1 + (k - lo - (hi + 1 - lo)) = k := by omega
      simp [h1, h2, h3, h4]

theorem testBit_bits {x hi lo k : Nat} : (bits x hi lo).testBit k = (decide (k < hi + 1 - lo) && x.testBit (lo + k)) := by
  simp [bits, Nat.testBit_mod_two_pow, Nat.testBit_shiftRight]

/-- The field written. -/
theorem bits_setBits_same {x hi lo v : Nat} (hl : lo ≤ hi) : bits (setBits x hi lo v) hi lo = v % 2 ^ (hi + 1 - lo) := by
  apply Nat.eq_of_testBit_eq
  intro k
  rw [testBit_bits, testBit_setBits hl, Nat.testBit_mod_two_pow]
  by_cases h : k < hi + 1 - lo
  · have h1 : ¬ lo + k < lo := by omega
    have h2 : lo + k ≤ hi := by omega
    simp [h, h1, h2]
  · simp [h]

/-- A field apart from the one written. -/
theorem bits_setBits_other {x hi lo v hi' lo' : Nat} (hl : lo ≤ hi) (h : hi' < lo ∨ hi < lo') :
    bits (setBits x hi lo v) hi' lo' = bits x hi' lo' := by
  apply Nat.eq_of_testBit_eq
  intro k
  rw [testBit_bits, testBit_bits, testBit_setBits hl]
  by_cases h1 : k < hi' + 1 - lo'
  · by_cases h2 : lo' + k < lo
    · simp [h2]
    · have h3 : ¬ lo' + k ≤ hi := by omega
      simp [h2, h3]
  · simp [h1]

theorem setBits_lt {x hi lo v : Nat} (hl : lo ≤ hi) (hh : hi < 64) (hx : x < 2 ^ 64) : setBits x hi lo v < 2 ^ 64 := by
  apply Nat.lt_pow_two_of_testBit
  intro k hk
  rw [testBit_setBits hl]
  have h1 : ¬ k < lo := by omega
  have h2 : ¬ k ≤ hi := by omega
  simp only [h1, h2, if_false]
  exact Nat.testBit_lt_two_pow (Nat.lt_of_lt_of_le hx (Nat.pow_le_pow_right (by omega) hk))

/-! ## Registers -/

theorem Reg.key_inj {r q : Reg} {i j : Nat} (hi : i < 4096) (hj : j < 4096) (h : r.key i = q.key j) : r = q ∧ i = j := by
  unfold Reg.key at h
  have e : r.ctorIdx = q.ctorIdx := by omega
  refine ⟨?_, by omega⟩
  rw [← Reg.ofNat_ctorIdx r, ← Reg.ofNat_ctorIdx q, e]

@[simp] theorem State.getR_setR_same (s : State) (r : Reg) (i : Nat) (w : BitVec 64) : (s.setR r i w).getR r i = w := by
  simp [State.getR, State.setR]

/-- Another register, or another instance. -/
theorem State.getR_setR_other {s : State} {r q : Reg} {i j : Nat} {w : BitVec 64} (h : q.key j ≠ r.key i) :
    (s.setR r i w).getR q j = s.getR q j := by
  simp only [State.getR, State.setR]
  exact Tab.get_set_other w h

theorem State.getR_setR_reg {s : State} {r q : Reg} {i j : Nat} {w : BitVec 64} (hi : i < 4096) (hj : j < 4096) (h : q ≠ r ∨ j ≠ i) :
    (s.setR r i w).getR q j = s.getR q j :=
  State.getR_setR_other (fun e => by obtain ⟨a, b⟩ := Reg.key_inj hj hi e; rcases h with h | h <;> contradiction)

/-- The field written takes the low bits of the value. -/
theorem State.fld_setFld_same {s : State} {f : Fld} {i v : Nat} (hl : f.lo ≤ f.hi) (hh : f.hi < 64) :
    (s.setFld f i v).fld f i = v % 2 ^ (f.hi + 1 - f.lo) := by
  simp only [State.fld, State.setFld, State.getR_setR_same, BitVec.toNat_ofNat]
  rw [Nat.mod_eq_of_lt (setBits_lt hl hh (BitVec.isLt _)), bits_setBits_same hl]

/-- A field of another register, or of another instance. -/
theorem State.fld_setFld_reg {s : State} {f g : Fld} {i j v : Nat} (hi : i < 4096) (hj : j < 4096) (h : g.reg ≠ f.reg ∨ j ≠ i) :
    (s.setFld f i v).fld g j = s.fld g j := by
  simp only [State.fld, State.setFld, State.getR_setR_reg hi hj h]

/-- Another field of the register written. -/
theorem State.fld_setFld_field {s : State} {f g : Fld} {i v : Nat} (hl : f.lo ≤ f.hi) (hh : f.hi < 64) (hr : g.reg = f.reg)
    (h : g.hi < f.lo ∨ f.hi < g.lo) : (s.setFld f i v).fld g i = s.fld g i := by
  simp only [State.fld, State.setFld, hr, State.getR_setR_same, BitVec.toNat_ofNat]
  rw [Nat.mod_eq_of_lt (setBits_lt hl hh (BitVec.isLt _)), bits_setBits_other hl h]

theorem State.getR_setFld_reg {s : State} {f : Fld} {q : Reg} {i j v : Nat} (hi : i < 4096) (hj : j < 4096) (h : q ≠ f.reg ∨ j ≠ i) :
    (s.setFld f i v).getR q j = s.getR q j := State.getR_setR_reg hi hj h

end Sys2Proof.Machine
end

