-- ==== Sys2Proof/Laws/State.lean ====
section
/-! SUPPORT. One lemma per component and update of the state, each true by definition, so that no later proof unfolds a record
update; and what a unit reads as after it is set. -/
namespace Sys2Proof.Machine.State
variable (s : State)

/-! setR -/
@[simp] theorem setR_pending (r i w) : (s.setR r i w).pending = s.pending := rfl
@[simp] theorem setR_regs (r i w) : (s.setR r i w).regs = Tab.set (r.resetWord i) s.regs (r.key i) w := rfl
@[simp] theorem setR_snap (r i w) : (s.setR r i w).snap = s.snap := rfl
@[simp] theorem setR_mem (r i w) : (s.setR r i w).mem = s.mem := rfl
@[simp] theorem setR_flash (r i w) : (s.setR r i w).flash = s.flash := rfl
@[simp] theorem setR_ecc (r i w) : (s.setR r i w).ecc = s.ecc := rfl
@[simp] theorem setR_time (r i w) : (s.setR r i w).time = s.time := rfl
@[simp] theorem setR_replicas (r i w) : (s.setR r i w).replicas = s.replicas := rfl
@[simp] theorem setR_queues (r i w) : (s.setR r i w).queues = s.queues := rfl
@[simp] theorem setR_lastAt (r i w) : (s.setR r i w).lastAt = s.lastAt := rfl
@[simp] theorem setR_cmds (r i w) : (s.setR r i w).cmds = s.cmds := rfl
@[simp] theorem setR_engines (r i w) : (s.setR r i w).engines = s.engines := rfl
@[simp] theorem setR_accs (r i w) : (s.setR r i w).accs = s.accs := rfl
@[simp] theorem setR_vecs (r i w) : (s.setR r i w).vecs = s.vecs := rfl
@[simp] theorem setR_upds (r i w) : (s.setR r i w).upds = s.upds := rfl
@[simp] theorem setR_chans (r i w) : (s.setR r i w).chans = s.chans := rfl
@[simp] theorem setR_stks (r i w) : (s.setR r i w).stks = s.stks := rfl
@[simp] theorem setR_hoistCh (r i w) : (s.setR r i w).hoistCh = s.hoistCh := rfl
@[simp] theorem setR_hoists (r i w) : (s.setR r i w).hoists = s.hoists := rfl
@[simp] theorem setR_holds (r i w) : (s.setR r i w).holds = s.holds := rfl
@[simp] theorem setR_caches (r i w) : (s.setR r i w).caches = s.caches := rfl
@[simp] theorem setR_dir (r i w) : (s.setR r i w).dir = s.dir := rfl
@[simp] theorem setR_homes (r i w) : (s.setR r i w).homes = s.homes := rfl
@[simp] theorem setR_harts (r i w) : (s.setR r i w).harts = s.harts := rfl
@[simp] theorem setR_imsics (r i w) : (s.setR r i w).imsics = s.imsics := rfl
@[simp] theorem setR_aplic (r i w) : (s.setR r i w).aplic = s.aplic := rfl
@[simp] theorem setR_aplicIe (r i w) : (s.setR r i w).aplicIe = s.aplicIe := rfl
@[simp] theorem setR_input (r i w) : (s.setR r i w).input = s.input := rfl
@[simp] theorem setR_ports (r i w) : (s.setR r i w).ports = s.ports := rfl
@[simp] theorem setR_nets (r i w) : (s.setR r i w).nets = s.nets := rfl
@[simp] theorem setR_coll (r i w) : (s.setR r i w).coll = s.coll := rfl
@[simp] theorem setR_pwr (r i w) : (s.setR r i w).pwr = s.pwr := rfl
@[simp] theorem setR_sec (r i w) : (s.setR r i w).sec = s.sec := rfl
@[simp] theorem setR_obs (r i w) : (s.setR r i w).obs = s.obs := rfl
@[simp] theorem setR_links (r i w) : (s.setR r i w).links = s.links := rfl
@[simp] theorem setR_counters (r i w) : (s.setR r i w).counters = s.counters := rfl
@[simp] theorem setR_draws (r i w) : (s.setR r i w).draws = s.draws := rfl
@[simp] theorem setR_tx (r i w) : (s.setR r i w).tx = s.tx := rfl
@[simp] theorem setR_resp (r i w) : (s.setR r i w).resp = s.resp := rfl
@[simp] theorem setR_get_cmd (r i w z) : (s.setR r i w).cmd z = s.cmd z := rfl
@[simp] theorem setR_get_running (r i w) : (s.setR r i w).running = s.running := rfl
@[simp] theorem setR_get_queue (r i w j) : (s.setR r i w).queue j = s.queue j := rfl
@[simp] theorem setR_get_engine (r i w j) : (s.setR r i w).engine j = s.engine j := rfl
@[simp] theorem setR_get_acc (r i w j) : (s.setR r i w).acc j = s.acc j := rfl
@[simp] theorem setR_get_vec (r i w j) : (s.setR r i w).vec j = s.vec j := rfl
@[simp] theorem setR_get_upd (r i w j) : (s.setR r i w).upd j = s.upd j := rfl
@[simp] theorem setR_get_chan (r i w j) : (s.setR r i w).chan j = s.chan j := rfl
@[simp] theorem setR_get_stack (r i w j) : (s.setR r i w).stack j = s.stack j := rfl
@[simp] theorem setR_get_hoistChan (r i w j) : (s.setR r i w).hoistChan j = s.hoistChan j := rfl
@[simp] theorem setR_get_hoist (r i w j) : (s.setR r i w).hoist j = s.hoist j := rfl
@[simp] theorem setR_get_hart (r i w j) : (s.setR r i w).hart j = s.hart j := rfl
@[simp] theorem setR_get_port (r i w j) : (s.setR r i w).port j = s.port j := rfl
@[simp] theorem setR_get_net (r i w j) : (s.setR r i w).net j = s.net j := rfl
@[simp] theorem setR_get_home (r i w j) : (s.setR r i w).home j = s.home j := rfl
@[simp] theorem setR_get_now (r i w j) : (s.setR r i w).now j = s.now j := rfl

/-! setFld -/
@[simp] theorem setFld_pending (f i v) : (s.setFld f i v).pending = s.pending := rfl
@[simp] theorem setFld_snap (f i v) : (s.setFld f i v).snap = s.snap := rfl
@[simp] theorem setFld_mem (f i v) : (s.setFld f i v).mem = s.mem := rfl
@[simp] theorem setFld_flash (f i v) : (s.setFld f i v).flash = s.flash := rfl
@[simp] theorem setFld_ecc (f i v) : (s.setFld f i v).ecc = s.ecc := rfl
@[simp] theorem setFld_time (f i v) : (s.setFld f i v).time = s.time := rfl
@[simp] theorem setFld_replicas (f i v) : (s.setFld f i v).replicas = s.replicas := rfl
@[simp] theorem setFld_queues (f i v) : (s.setFld f i v).queues = s.queues := rfl
@[simp] theorem setFld_lastAt (f i v) : (s.setFld f i v).lastAt = s.lastAt := rfl
@[simp] theorem setFld_cmds (f i v) : (s.setFld f i v).cmds = s.cmds := rfl
@[simp] theorem setFld_engines (f i v) : (s.setFld f i v).engines = s.engines := rfl
@[simp] theorem setFld_accs (f i v) : (s.setFld f i v).accs = s.accs := rfl
@[simp] theorem setFld_vecs (f i v) : (s.setFld f i v).vecs = s.vecs := rfl
@[simp] theorem setFld_upds (f i v) : (s.setFld f i v).upds = s.upds := rfl
@[simp] theorem setFld_chans (f i v) : (s.setFld f i v).chans = s.chans := rfl
@[simp] theorem setFld_stks (f i v) : (s.setFld f i v).stks = s.stks := rfl
@[simp] theorem setFld_hoistCh (f i v) : (s.setFld f i v).hoistCh = s.hoistCh := rfl
@[simp] theorem setFld_hoists (f i v) : (s.setFld f i v).hoists = s.hoists := rfl
@[simp] theorem setFld_holds (f i v) : (s.setFld f i v).holds = s.holds := rfl
@[simp] theorem setFld_caches (f i v) : (s.setFld f i v).caches = s.caches := rfl
@[simp] theorem setFld_dir (f i v) : (s.setFld f i v).dir = s.dir := rfl
@[simp] theorem setFld_homes (f i v) : (s.setFld f i v).homes = s.homes := rfl
@[simp] theorem setFld_harts (f i v) : (s.setFld f i v).harts = s.harts := rfl
@[simp] theorem setFld_imsics (f i v) : (s.setFld f i v).imsics = s.imsics := rfl
@[simp] theorem setFld_aplic (f i v) : (s.setFld f i v).aplic = s.aplic := rfl
@[simp] theorem setFld_aplicIe (f i v) : (s.setFld f i v).aplicIe = s.aplicIe := rfl
@[simp] theorem setFld_input (f i v) : (s.setFld f i v).input = s.input := rfl
@[simp] theorem setFld_ports (f i v) : (s.setFld f i v).ports = s.ports := rfl
@[simp] theorem setFld_nets (f i v) : (s.setFld f i v).nets = s.nets := rfl
@[simp] theorem setFld_coll (f i v) : (s.setFld f i v).coll = s.coll := rfl
@[simp] theorem setFld_pwr (f i v) : (s.setFld f i v).pwr = s.pwr := rfl
@[simp] theorem setFld_sec (f i v) : (s.setFld f i v).sec = s.sec := rfl
@[simp] theorem setFld_obs (f i v) : (s.setFld f i v).obs = s.obs := rfl
@[simp] theorem setFld_links (f i v) : (s.setFld f i v).links = s.links := rfl
@[simp] theorem setFld_counters (f i v) : (s.setFld f i v).counters = s.counters := rfl
@[simp] theorem setFld_draws (f i v) : (s.setFld f i v).draws = s.draws := rfl
@[simp] theorem setFld_tx (f i v) : (s.setFld f i v).tx = s.tx := rfl
@[simp] theorem setFld_resp (f i v) : (s.setFld f i v).resp = s.resp := rfl
@[simp] theorem setFld_get_cmd (f i v z) : (s.setFld f i v).cmd z = s.cmd z := rfl
@[simp] theorem setFld_get_running (f i v) : (s.setFld f i v).running = s.running := rfl
@[simp] theorem setFld_get_queue (f i v j) : (s.setFld f i v).queue j = s.queue j := rfl
@[simp] theorem setFld_get_engine (f i v j) : (s.setFld f i v).engine j = s.engine j := rfl
@[simp] theorem setFld_get_acc (f i v j) : (s.setFld f i v).acc j = s.acc j := rfl
@[simp] theorem setFld_get_vec (f i v j) : (s.setFld f i v).vec j = s.vec j := rfl
@[simp] theorem setFld_get_upd (f i v j) : (s.setFld f i v).upd j = s.upd j := rfl
@[simp] theorem setFld_get_chan (f i v j) : (s.setFld f i v).chan j = s.chan j := rfl
@[simp] theorem setFld_get_stack (f i v j) : (s.setFld f i v).stack j = s.stack j := rfl
@[simp] theorem setFld_get_hoistChan (f i v j) : (s.setFld f i v).hoistChan j = s.hoistChan j := rfl
@[simp] theorem setFld_get_hoist (f i v j) : (s.setFld f i v).hoist j = s.hoist j := rfl
@[simp] theorem setFld_get_hart (f i v j) : (s.setFld f i v).hart j = s.hart j := rfl
@[simp] theorem setFld_get_port (f i v j) : (s.setFld f i v).port j = s.port j := rfl
@[simp] theorem setFld_get_net (f i v j) : (s.setFld f i v).net j = s.net j := rfl
@[simp] theorem setFld_get_home (f i v j) : (s.setFld f i v).home j = s.home j := rfl
@[simp] theorem setFld_get_now (f i v j) : (s.setFld f i v).now j = s.now j := rfl

/-! incSat -/
@[simp] theorem incSat_pending (f i n) : (s.incSat f i n).pending = s.pending := rfl
@[simp] theorem incSat_snap (f i n) : (s.incSat f i n).snap = s.snap := rfl
@[simp] theorem incSat_mem (f i n) : (s.incSat f i n).mem = s.mem := rfl
@[simp] theorem incSat_flash (f i n) : (s.incSat f i n).flash = s.flash := rfl
@[simp] theorem incSat_ecc (f i n) : (s.incSat f i n).ecc = s.ecc := rfl
@[simp] theorem incSat_time (f i n) : (s.incSat f i n).time = s.time := rfl
@[simp] theorem incSat_replicas (f i n) : (s.incSat f i n).replicas = s.replicas := rfl
@[simp] theorem incSat_queues (f i n) : (s.incSat f i n).queues = s.queues := rfl
@[simp] theorem incSat_lastAt (f i n) : (s.incSat f i n).lastAt = s.lastAt := rfl
@[simp] theorem incSat_cmds (f i n) : (s.incSat f i n).cmds = s.cmds := rfl
@[simp] theorem incSat_engines (f i n) : (s.incSat f i n).engines = s.engines := rfl
@[simp] theorem incSat_accs (f i n) : (s.incSat f i n).accs = s.accs := rfl
@[simp] theorem incSat_vecs (f i n) : (s.incSat f i n).vecs = s.vecs := rfl
@[simp] theorem incSat_upds (f i n) : (s.incSat f i n).upds = s.upds := rfl
@[simp] theorem incSat_chans (f i n) : (s.incSat f i n).chans = s.chans := rfl
@[simp] theorem incSat_stks (f i n) : (s.incSat f i n).stks = s.stks := rfl
@[simp] theorem incSat_hoistCh (f i n) : (s.incSat f i n).hoistCh = s.hoistCh := rfl
@[simp] theorem incSat_hoists (f i n) : (s.incSat f i n).hoists = s.hoists := rfl
@[simp] theorem incSat_holds (f i n) : (s.incSat f i n).holds = s.holds := rfl
@[simp] theorem incSat_caches (f i n) : (s.incSat f i n).caches = s.caches := rfl
@[simp] theorem incSat_dir (f i n) : (s.incSat f i n).dir = s.dir := rfl
@[simp] theorem incSat_homes (f i n) : (s.incSat f i n).homes = s.homes := rfl
@[simp] theorem incSat_harts (f i n) : (s.incSat f i n).harts = s.harts := rfl
@[simp] theorem incSat_imsics (f i n) : (s.incSat f i n).imsics = s.imsics := rfl
@[simp] theorem incSat_aplic (f i n) : (s.incSat f i n).aplic = s.aplic := rfl
@[simp] theorem incSat_aplicIe (f i n) : (s.incSat f i n).aplicIe = s.aplicIe := rfl
@[simp] theorem incSat_input (f i n) : (s.incSat f i n).input = s.input := rfl
@[simp] theorem incSat_ports (f i n) : (s.incSat f i n).ports = s.ports := rfl
@[simp] theorem incSat_nets (f i n) : (s.incSat f i n).nets = s.nets := rfl
@[simp] theorem incSat_coll (f i n) : (s.incSat f i n).coll = s.coll := rfl
@[simp] theorem incSat_pwr (f i n) : (s.incSat f i n).pwr = s.pwr := rfl
@[simp] theorem incSat_sec (f i n) : (s.incSat f i n).sec = s.sec := rfl
@[simp] theorem incSat_obs (f i n) : (s.incSat f i n).obs = s.obs := rfl
@[simp] theorem incSat_links (f i n) : (s.incSat f i n).links = s.links := rfl
@[simp] theorem incSat_counters (f i n) : (s.incSat f i n).counters = s.counters := rfl
@[simp] theorem incSat_draws (f i n) : (s.incSat f i n).draws = s.draws := rfl
@[simp] theorem incSat_tx (f i n) : (s.incSat f i n).tx = s.tx := rfl
@[simp] theorem incSat_resp (f i n) : (s.incSat f i n).resp = s.resp := rfl
@[simp] theorem incSat_get_cmd (f i n z) : (s.incSat f i n).cmd z = s.cmd z := rfl
@[simp] theorem incSat_get_running (f i n) : (s.incSat f i n).running = s.running := rfl
@[simp] theorem incSat_get_queue (f i n j) : (s.incSat f i n).queue j = s.queue j := rfl
@[simp] theorem incSat_get_engine (f i n j) : (s.incSat f i n).engine j = s.engine j := rfl
@[simp] theorem incSat_get_acc (f i n j) : (s.incSat f i n).acc j = s.acc j := rfl
@[simp] theorem incSat_get_vec (f i n j) : (s.incSat f i n).vec j = s.vec j := rfl
@[simp] theorem incSat_get_upd (f i n j) : (s.incSat f i n).upd j = s.upd j := rfl
@[simp] theorem incSat_get_chan (f i n j) : (s.incSat f i n).chan j = s.chan j := rfl
@[simp] theorem incSat_get_stack (f i n j) : (s.incSat f i n).stack j = s.stack j := rfl
@[simp] theorem incSat_get_hoistChan (f i n j) : (s.incSat f i n).hoistChan j = s.hoistChan j := rfl
@[simp] theorem incSat_get_hoist (f i n j) : (s.incSat f i n).hoist j = s.hoist j := rfl
@[simp] theorem incSat_get_hart (f i n j) : (s.incSat f i n).hart j = s.hart j := rfl
@[simp] theorem incSat_get_port (f i n j) : (s.incSat f i n).port j = s.port j := rfl
@[simp] theorem incSat_get_net (f i n j) : (s.incSat f i n).net j = s.net j := rfl
@[simp] theorem incSat_get_home (f i n j) : (s.incSat f i n).home j = s.home j := rfl
@[simp] theorem incSat_get_now (f i n j) : (s.incSat f i n).now j = s.now j := rfl

/-! incWrap -/
@[simp] theorem incWrap_pending (f i n) : (s.incWrap f i n).pending = s.pending := rfl
@[simp] theorem incWrap_snap (f i n) : (s.incWrap f i n).snap = s.snap := rfl
@[simp] theorem incWrap_mem (f i n) : (s.incWrap f i n).mem = s.mem := rfl
@[simp] theorem incWrap_flash (f i n) : (s.incWrap f i n).flash = s.flash := rfl
@[simp] theorem incWrap_ecc (f i n) : (s.incWrap f i n).ecc = s.ecc := rfl
@[simp] theorem incWrap_time (f i n) : (s.incWrap f i n).time = s.time := rfl
@[simp] theorem incWrap_replicas (f i n) : (s.incWrap f i n).replicas = s.replicas := rfl
@[simp] theorem incWrap_queues (f i n) : (s.incWrap f i n).queues = s.queues := rfl
@[simp] theorem incWrap_lastAt (f i n) : (s.incWrap f i n).lastAt = s.lastAt := rfl
@[simp] theorem incWrap_cmds (f i n) : (s.incWrap f i n).cmds = s.cmds := rfl
@[simp] theorem incWrap_engines (f i n) : (s.incWrap f i n).engines = s.engines := rfl
@[simp] theorem incWrap_accs (f i n) : (s.incWrap f i n).accs = s.accs := rfl
@[simp] theorem incWrap_vecs (f i n) : (s.incWrap f i n).vecs = s.vecs := rfl
@[simp] theorem incWrap_upds (f i n) : (s.incWrap f i n).upds = s.upds := rfl
@[simp] theorem incWrap_chans (f i n) : (s.incWrap f i n).chans = s.chans := rfl
@[simp] theorem incWrap_stks (f i n) : (s.incWrap f i n).stks = s.stks := rfl
@[simp] theorem incWrap_hoistCh (f i n) : (s.incWrap f i n).hoistCh = s.hoistCh := rfl
@[simp] theorem incWrap_hoists (f i n) : (s.incWrap f i n).hoists = s.hoists := rfl
@[simp] theorem incWrap_holds (f i n) : (s.incWrap f i n).holds = s.holds := rfl
@[simp] theorem incWrap_caches (f i n) : (s.incWrap f i n).caches = s.caches := rfl
@[simp] theorem incWrap_dir (f i n) : (s.incWrap f i n).dir = s.dir := rfl
@[simp] theorem incWrap_homes (f i n) : (s.incWrap f i n).homes = s.homes := rfl
@[simp] theorem incWrap_harts (f i n) : (s.incWrap f i n).harts = s.harts := rfl
@[simp] theorem incWrap_imsics (f i n) : (s.incWrap f i n).imsics = s.imsics := rfl
@[simp] theorem incWrap_aplic (f i n) : (s.incWrap f i n).aplic = s.aplic := rfl
@[simp] theorem incWrap_aplicIe (f i n) : (s.incWrap f i n).aplicIe = s.aplicIe := rfl
@[simp] theorem incWrap_input (f i n) : (s.incWrap f i n).input = s.input := rfl
@[simp] theorem incWrap_ports (f i n) : (s.incWrap f i n).ports = s.ports := rfl
@[simp] theorem incWrap_nets (f i n) : (s.incWrap f i n).nets = s.nets := rfl
@[simp] theorem incWrap_coll (f i n) : (s.incWrap f i n).coll = s.coll := rfl
@[simp] theorem incWrap_pwr (f i n) : (s.incWrap f i n).pwr = s.pwr := rfl
@[simp] theorem incWrap_sec (f i n) : (s.incWrap f i n).sec = s.sec := rfl
@[simp] theorem incWrap_obs (f i n) : (s.incWrap f i n).obs = s.obs := rfl
@[simp] theorem incWrap_links (f i n) : (s.incWrap f i n).links = s.links := rfl
@[simp] theorem incWrap_counters (f i n) : (s.incWrap f i n).counters = s.counters := rfl
@[simp] theorem incWrap_draws (f i n) : (s.incWrap f i n).draws = s.draws := rfl
@[simp] theorem incWrap_tx (f i n) : (s.incWrap f i n).tx = s.tx := rfl
@[simp] theorem incWrap_resp (f i n) : (s.incWrap f i n).resp = s.resp := rfl
@[simp] theorem incWrap_get_cmd (f i n z) : (s.incWrap f i n).cmd z = s.cmd z := rfl
@[simp] theorem incWrap_get_running (f i n) : (s.incWrap f i n).running = s.running := rfl
@[simp] theorem incWrap_get_queue (f i n j) : (s.incWrap f i n).queue j = s.queue j := rfl
@[simp] theorem incWrap_get_engine (f i n j) : (s.incWrap f i n).engine j = s.engine j := rfl
@[simp] theorem incWrap_get_acc (f i n j) : (s.incWrap f i n).acc j = s.acc j := rfl
@[simp] theorem incWrap_get_vec (f i n j) : (s.incWrap f i n).vec j = s.vec j := rfl
@[simp] theorem incWrap_get_upd (f i n j) : (s.incWrap f i n).upd j = s.upd j := rfl
@[simp] theorem incWrap_get_chan (f i n j) : (s.incWrap f i n).chan j = s.chan j := rfl
@[simp] theorem incWrap_get_stack (f i n j) : (s.incWrap f i n).stack j = s.stack j := rfl
@[simp] theorem incWrap_get_hoistChan (f i n j) : (s.incWrap f i n).hoistChan j = s.hoistChan j := rfl
@[simp] theorem incWrap_get_hoist (f i n j) : (s.incWrap f i n).hoist j = s.hoist j := rfl
@[simp] theorem incWrap_get_hart (f i n j) : (s.incWrap f i n).hart j = s.hart j := rfl
@[simp] theorem incWrap_get_port (f i n j) : (s.incWrap f i n).port j = s.port j := rfl
@[simp] theorem incWrap_get_net (f i n j) : (s.incWrap f i n).net j = s.net j := rfl
@[simp] theorem incWrap_get_home (f i n j) : (s.incWrap f i n).home j = s.home j := rfl
@[simp] theorem incWrap_get_now (f i n j) : (s.incWrap f i n).now j = s.now j := rfl

/-! orFlags -/
@[simp] theorem orFlags_pending (r i fl) : (s.orFlags r i fl).pending = s.pending := rfl
@[simp] theorem orFlags_snap (r i fl) : (s.orFlags r i fl).snap = s.snap := rfl
@[simp] theorem orFlags_mem (r i fl) : (s.orFlags r i fl).mem = s.mem := rfl
@[simp] theorem orFlags_flash (r i fl) : (s.orFlags r i fl).flash = s.flash := rfl
@[simp] theorem orFlags_ecc (r i fl) : (s.orFlags r i fl).ecc = s.ecc := rfl
@[simp] theorem orFlags_time (r i fl) : (s.orFlags r i fl).time = s.time := rfl
@[simp] theorem orFlags_replicas (r i fl) : (s.orFlags r i fl).replicas = s.replicas := rfl
@[simp] theorem orFlags_queues (r i fl) : (s.orFlags r i fl).queues = s.queues := rfl
@[simp] theorem orFlags_lastAt (r i fl) : (s.orFlags r i fl).lastAt = s.lastAt := rfl
@[simp] theorem orFlags_cmds (r i fl) : (s.orFlags r i fl).cmds = s.cmds := rfl
@[simp] theorem orFlags_engines (r i fl) : (s.orFlags r i fl).engines = s.engines := rfl
@[simp] theorem orFlags_accs (r i fl) : (s.orFlags r i fl).accs = s.accs := rfl
@[simp] theorem orFlags_vecs (r i fl) : (s.orFlags r i fl).vecs = s.vecs := rfl
@[simp] theorem orFlags_upds (r i fl) : (s.orFlags r i fl).upds = s.upds := rfl
@[simp] theorem orFlags_chans (r i fl) : (s.orFlags r i fl).chans = s.chans := rfl
@[simp] theorem orFlags_stks (r i fl) : (s.orFlags r i fl).stks = s.stks := rfl
@[simp] theorem orFlags_hoistCh (r i fl) : (s.orFlags r i fl).hoistCh = s.hoistCh := rfl
@[simp] theorem orFlags_hoists (r i fl) : (s.orFlags r i fl).hoists = s.hoists := rfl
@[simp] theorem orFlags_holds (r i fl) : (s.orFlags r i fl).holds = s.holds := rfl
@[simp] theorem orFlags_caches (r i fl) : (s.orFlags r i fl).caches = s.caches := rfl
@[simp] theorem orFlags_dir (r i fl) : (s.orFlags r i fl).dir = s.dir := rfl
@[simp] theorem orFlags_homes (r i fl) : (s.orFlags r i fl).homes = s.homes := rfl
@[simp] theorem orFlags_harts (r i fl) : (s.orFlags r i fl).harts = s.harts := rfl
@[simp] theorem orFlags_imsics (r i fl) : (s.orFlags r i fl).imsics = s.imsics := rfl
@[simp] theorem orFlags_aplic (r i fl) : (s.orFlags r i fl).aplic = s.aplic := rfl
@[simp] theorem orFlags_aplicIe (r i fl) : (s.orFlags r i fl).aplicIe = s.aplicIe := rfl
@[simp] theorem orFlags_input (r i fl) : (s.orFlags r i fl).input = s.input := rfl
@[simp] theorem orFlags_ports (r i fl) : (s.orFlags r i fl).ports = s.ports := rfl
@[simp] theorem orFlags_nets (r i fl) : (s.orFlags r i fl).nets = s.nets := rfl
@[simp] theorem orFlags_coll (r i fl) : (s.orFlags r i fl).coll = s.coll := rfl
@[simp] theorem orFlags_pwr (r i fl) : (s.orFlags r i fl).pwr = s.pwr := rfl
@[simp] theorem orFlags_sec (r i fl) : (s.orFlags r i fl).sec = s.sec := rfl
@[simp] theorem orFlags_obs (r i fl) : (s.orFlags r i fl).obs = s.obs := rfl
@[simp] theorem orFlags_links (r i fl) : (s.orFlags r i fl).links = s.links := rfl
@[simp] theorem orFlags_counters (r i fl) : (s.orFlags r i fl).counters = s.counters := rfl
@[simp] theorem orFlags_draws (r i fl) : (s.orFlags r i fl).draws = s.draws := rfl
@[simp] theorem orFlags_tx (r i fl) : (s.orFlags r i fl).tx = s.tx := rfl
@[simp] theorem orFlags_resp (r i fl) : (s.orFlags r i fl).resp = s.resp := rfl
@[simp] theorem orFlags_get_cmd (r i fl z) : (s.orFlags r i fl).cmd z = s.cmd z := rfl
@[simp] theorem orFlags_get_running (r i fl) : (s.orFlags r i fl).running = s.running := rfl
@[simp] theorem orFlags_get_queue (r i fl j) : (s.orFlags r i fl).queue j = s.queue j := rfl
@[simp] theorem orFlags_get_engine (r i fl j) : (s.orFlags r i fl).engine j = s.engine j := rfl
@[simp] theorem orFlags_get_acc (r i fl j) : (s.orFlags r i fl).acc j = s.acc j := rfl
@[simp] theorem orFlags_get_vec (r i fl j) : (s.orFlags r i fl).vec j = s.vec j := rfl
@[simp] theorem orFlags_get_upd (r i fl j) : (s.orFlags r i fl).upd j = s.upd j := rfl
@[simp] theorem orFlags_get_chan (r i fl j) : (s.orFlags r i fl).chan j = s.chan j := rfl
@[simp] theorem orFlags_get_stack (r i fl j) : (s.orFlags r i fl).stack j = s.stack j := rfl
@[simp] theorem orFlags_get_hoistChan (r i fl j) : (s.orFlags r i fl).hoistChan j = s.hoistChan j := rfl
@[simp] theorem orFlags_get_hoist (r i fl j) : (s.orFlags r i fl).hoist j = s.hoist j := rfl
@[simp] theorem orFlags_get_hart (r i fl j) : (s.orFlags r i fl).hart j = s.hart j := rfl
@[simp] theorem orFlags_get_port (r i fl j) : (s.orFlags r i fl).port j = s.port j := rfl
@[simp] theorem orFlags_get_net (r i fl j) : (s.orFlags r i fl).net j = s.net j := rfl
@[simp] theorem orFlags_get_home (r i fl j) : (s.orFlags r i fl).home j = s.home j := rfl
@[simp] theorem orFlags_get_now (r i fl j) : (s.orFlags r i fl).now j = s.now j := rfl

/-! setQState -/
@[simp] theorem setQState_pending (q v) : (s.setQState q v).pending = s.pending := rfl
@[simp] theorem setQState_snap (q v) : (s.setQState q v).snap = s.snap := rfl
@[simp] theorem setQState_mem (q v) : (s.setQState q v).mem = s.mem := rfl
@[simp] theorem setQState_flash (q v) : (s.setQState q v).flash = s.flash := rfl
@[simp] theorem setQState_ecc (q v) : (s.setQState q v).ecc = s.ecc := rfl
@[simp] theorem setQState_time (q v) : (s.setQState q v).time = s.time := rfl
@[simp] theorem setQState_replicas (q v) : (s.setQState q v).replicas = s.replicas := rfl
@[simp] theorem setQState_queues (q v) : (s.setQState q v).queues = s.queues := rfl
@[simp] theorem setQState_lastAt (q v) : (s.setQState q v).lastAt = s.lastAt := rfl
@[simp] theorem setQState_cmds (q v) : (s.setQState q v).cmds = s.cmds := rfl
@[simp] theorem setQState_engines (q v) : (s.setQState q v).engines = s.engines := rfl
@[simp] theorem setQState_accs (q v) : (s.setQState q v).accs = s.accs := rfl
@[simp] theorem setQState_vecs (q v) : (s.setQState q v).vecs = s.vecs := rfl
@[simp] theorem setQState_upds (q v) : (s.setQState q v).upds = s.upds := rfl
@[simp] theorem setQState_chans (q v) : (s.setQState q v).chans = s.chans := rfl
@[simp] theorem setQState_stks (q v) : (s.setQState q v).stks = s.stks := rfl
@[simp] theorem setQState_hoistCh (q v) : (s.setQState q v).hoistCh = s.hoistCh := rfl
@[simp] theorem setQState_hoists (q v) : (s.setQState q v).hoists = s.hoists := rfl
@[simp] theorem setQState_holds (q v) : (s.setQState q v).holds = s.holds := rfl
@[simp] theorem setQState_caches (q v) : (s.setQState q v).caches = s.caches := rfl
@[simp] theorem setQState_dir (q v) : (s.setQState q v).dir = s.dir := rfl
@[simp] theorem setQState_homes (q v) : (s.setQState q v).homes = s.homes := rfl
@[simp] theorem setQState_harts (q v) : (s.setQState q v).harts = s.harts := rfl
@[simp] theorem setQState_imsics (q v) : (s.setQState q v).imsics = s.imsics := rfl
@[simp] theorem setQState_aplic (q v) : (s.setQState q v).aplic = s.aplic := rfl
@[simp] theorem setQState_aplicIe (q v) : (s.setQState q v).aplicIe = s.aplicIe := rfl
@[simp] theorem setQState_input (q v) : (s.setQState q v).input = s.input := rfl
@[simp] theorem setQState_ports (q v) : (s.setQState q v).ports = s.ports := rfl
@[simp] theorem setQState_nets (q v) : (s.setQState q v).nets = s.nets := rfl
@[simp] theorem setQState_coll (q v) : (s.setQState q v).coll = s.coll := rfl
@[simp] theorem setQState_pwr (q v) : (s.setQState q v).pwr = s.pwr := rfl
@[simp] theorem setQState_sec (q v) : (s.setQState q v).sec = s.sec := rfl
@[simp] theorem setQState_obs (q v) : (s.setQState q v).obs = s.obs := rfl
@[simp] theorem setQState_links (q v) : (s.setQState q v).links = s.links := rfl
@[simp] theorem setQState_counters (q v) : (s.setQState q v).counters = s.counters := rfl
@[simp] theorem setQState_draws (q v) : (s.setQState q v).draws = s.draws := rfl
@[simp] theorem setQState_tx (q v) : (s.setQState q v).tx = s.tx := rfl
@[simp] theorem setQState_resp (q v) : (s.setQState q v).resp = s.resp := rfl
@[simp] theorem setQState_get_cmd (q v z) : (s.setQState q v).cmd z = s.cmd z := rfl
@[simp] theorem setQState_get_running (q v) : (s.setQState q v).running = s.running := rfl
@[simp] theorem setQState_get_queue (q v j) : (s.setQState q v).queue j = s.queue j := rfl
@[simp] theorem setQState_get_engine (q v j) : (s.setQState q v).engine j = s.engine j := rfl
@[simp] theorem setQState_get_acc (q v j) : (s.setQState q v).acc j = s.acc j := rfl
@[simp] theorem setQState_get_vec (q v j) : (s.setQState q v).vec j = s.vec j := rfl
@[simp] theorem setQState_get_upd (q v j) : (s.setQState q v).upd j = s.upd j := rfl
@[simp] theorem setQState_get_chan (q v j) : (s.setQState q v).chan j = s.chan j := rfl
@[simp] theorem setQState_get_stack (q v j) : (s.setQState q v).stack j = s.stack j := rfl
@[simp] theorem setQState_get_hoistChan (q v j) : (s.setQState q v).hoistChan j = s.hoistChan j := rfl
@[simp] theorem setQState_get_hoist (q v j) : (s.setQState q v).hoist j = s.hoist j := rfl
@[simp] theorem setQState_get_hart (q v j) : (s.setQState q v).hart j = s.hart j := rfl
@[simp] theorem setQState_get_port (q v j) : (s.setQState q v).port j = s.port j := rfl
@[simp] theorem setQState_get_net (q v j) : (s.setQState q v).net j = s.net j := rfl
@[simp] theorem setQState_get_home (q v j) : (s.setQState q v).home j = s.home j := rfl
@[simp] theorem setQState_get_now (q v j) : (s.setQState q v).now j = s.now j := rfl

/-! setByte -/
@[simp] theorem setByte_pending (pa b) : (s.setByte pa b).pending = s.pending := rfl
@[simp] theorem setByte_regs (pa b) : (s.setByte pa b).regs = s.regs := rfl
@[simp] theorem setByte_snap (pa b) : (s.setByte pa b).snap = s.snap := rfl
@[simp] theorem setByte_mem (pa b) : (s.setByte pa b).mem = Tab.set Memory.blank s.mem pa (BitVec.ofNat 8 b) := rfl
@[simp] theorem setByte_flash (pa b) : (s.setByte pa b).flash = s.flash := rfl
@[simp] theorem setByte_ecc (pa b) : (s.setByte pa b).ecc = s.ecc := rfl
@[simp] theorem setByte_time (pa b) : (s.setByte pa b).time = s.time := rfl
@[simp] theorem setByte_replicas (pa b) : (s.setByte pa b).replicas = s.replicas := rfl
@[simp] theorem setByte_queues (pa b) : (s.setByte pa b).queues = s.queues := rfl
@[simp] theorem setByte_lastAt (pa b) : (s.setByte pa b).lastAt = s.lastAt := rfl
@[simp] theorem setByte_cmds (pa b) : (s.setByte pa b).cmds = s.cmds := rfl
@[simp] theorem setByte_engines (pa b) : (s.setByte pa b).engines = s.engines := rfl
@[simp] theorem setByte_accs (pa b) : (s.setByte pa b).accs = s.accs := rfl
@[simp] theorem setByte_vecs (pa b) : (s.setByte pa b).vecs = s.vecs := rfl
@[simp] theorem setByte_upds (pa b) : (s.setByte pa b).upds = s.upds := rfl
@[simp] theorem setByte_chans (pa b) : (s.setByte pa b).chans = s.chans := rfl
@[simp] theorem setByte_stks (pa b) : (s.setByte pa b).stks = s.stks := rfl
@[simp] theorem setByte_hoistCh (pa b) : (s.setByte pa b).hoistCh = s.hoistCh := rfl
@[simp] theorem setByte_hoists (pa b) : (s.setByte pa b).hoists = s.hoists := rfl
@[simp] theorem setByte_holds (pa b) : (s.setByte pa b).holds = s.holds := rfl
@[simp] theorem setByte_caches (pa b) : (s.setByte pa b).caches = s.caches := rfl
@[simp] theorem setByte_dir (pa b) : (s.setByte pa b).dir = s.dir := rfl
@[simp] theorem setByte_homes (pa b) : (s.setByte pa b).homes = s.homes := rfl
@[simp] theorem setByte_harts (pa b) : (s.setByte pa b).harts = s.harts := rfl
@[simp] theorem setByte_imsics (pa b) : (s.setByte pa b).imsics = s.imsics := rfl
@[simp] theorem setByte_aplic (pa b) : (s.setByte pa b).aplic = s.aplic := rfl
@[simp] theorem setByte_aplicIe (pa b) : (s.setByte pa b).aplicIe = s.aplicIe := rfl
@[simp] theorem setByte_input (pa b) : (s.setByte pa b).input = s.input := rfl
@[simp] theorem setByte_ports (pa b) : (s.setByte pa b).ports = s.ports := rfl
@[simp] theorem setByte_nets (pa b) : (s.setByte pa b).nets = s.nets := rfl
@[simp] theorem setByte_coll (pa b) : (s.setByte pa b).coll = s.coll := rfl
@[simp] theorem setByte_pwr (pa b) : (s.setByte pa b).pwr = s.pwr := rfl
@[simp] theorem setByte_sec (pa b) : (s.setByte pa b).sec = s.sec := rfl
@[simp] theorem setByte_obs (pa b) : (s.setByte pa b).obs = s.obs := rfl
@[simp] theorem setByte_links (pa b) : (s.setByte pa b).links = s.links := rfl
@[simp] theorem setByte_counters (pa b) : (s.setByte pa b).counters = s.counters := rfl
@[simp] theorem setByte_draws (pa b) : (s.setByte pa b).draws = s.draws := rfl
@[simp] theorem setByte_tx (pa b) : (s.setByte pa b).tx = s.tx := rfl
@[simp] theorem setByte_resp (pa b) : (s.setByte pa b).resp = s.resp := rfl
@[simp] theorem setByte_get_cmd (pa b z) : (s.setByte pa b).cmd z = s.cmd z := rfl
@[simp] theorem setByte_get_getR (pa b z j) : (s.setByte pa b).getR z j = s.getR z j := rfl
@[simp] theorem setByte_get_fld (pa b g j) : (s.setByte pa b).fld g j = s.fld g j := rfl
@[simp] theorem setByte_get_flag (pa b g j) : (s.setByte pa b).flag g j = s.flag g j := rfl
@[simp] theorem setByte_get_localGib (pa b) : (s.setByte pa b).localGib = s.localGib := rfl
@[simp] theorem setByte_get_frozen (pa b) : (s.setByte pa b).frozen = s.frozen := rfl
@[simp] theorem setByte_get_braking (pa b) : (s.setByte pa b).braking = s.braking := rfl
@[simp] theorem setByte_get_qState (pa b j) : (s.setByte pa b).qState j = s.qState j := rfl
@[simp] theorem setByte_get_running (pa b) : (s.setByte pa b).running = s.running := rfl
@[simp] theorem setByte_get_queue (pa b j) : (s.setByte pa b).queue j = s.queue j := rfl
@[simp] theorem setByte_get_engine (pa b j) : (s.setByte pa b).engine j = s.engine j := rfl
@[simp] theorem setByte_get_acc (pa b j) : (s.setByte pa b).acc j = s.acc j := rfl
@[simp] theorem setByte_get_vec (pa b j) : (s.setByte pa b).vec j = s.vec j := rfl
@[simp] theorem setByte_get_upd (pa b j) : (s.setByte pa b).upd j = s.upd j := rfl
@[simp] theorem setByte_get_chan (pa b j) : (s.setByte pa b).chan j = s.chan j := rfl
@[simp] theorem setByte_get_stack (pa b j) : (s.setByte pa b).stack j = s.stack j := rfl
@[simp] theorem setByte_get_hoistChan (pa b j) : (s.setByte pa b).hoistChan j = s.hoistChan j := rfl
@[simp] theorem setByte_get_hoist (pa b j) : (s.setByte pa b).hoist j = s.hoist j := rfl
@[simp] theorem setByte_get_hart (pa b j) : (s.setByte pa b).hart j = s.hart j := rfl
@[simp] theorem setByte_get_port (pa b j) : (s.setByte pa b).port j = s.port j := rfl
@[simp] theorem setByte_get_net (pa b j) : (s.setByte pa b).net j = s.net j := rfl
@[simp] theorem setByte_get_home (pa b j) : (s.setByte pa b).home j = s.home j := rfl
@[simp] theorem setByte_get_now (pa b j) : (s.setByte pa b).now j = s.now j := rfl

/-! setQueue -/
@[simp] theorem setQueue_pending (q x) : (s.setQueue q x).pending = s.pending := rfl
@[simp] theorem setQueue_regs (q x) : (s.setQueue q x).regs = s.regs := rfl
@[simp] theorem setQueue_snap (q x) : (s.setQueue q x).snap = s.snap := rfl
@[simp] theorem setQueue_mem (q x) : (s.setQueue q x).mem = s.mem := rfl
@[simp] theorem setQueue_flash (q x) : (s.setQueue q x).flash = s.flash := rfl
@[simp] theorem setQueue_ecc (q x) : (s.setQueue q x).ecc = s.ecc := rfl
@[simp] theorem setQueue_time (q x) : (s.setQueue q x).time = s.time := rfl
@[simp] theorem setQueue_replicas (q x) : (s.setQueue q x).replicas = s.replicas := rfl
@[simp] theorem setQueue_queues (q x) : (s.setQueue q x).queues = Tab.set {} s.queues q x := rfl
@[simp] theorem setQueue_lastAt (q x) : (s.setQueue q x).lastAt = s.lastAt := rfl
@[simp] theorem setQueue_cmds (q x) : (s.setQueue q x).cmds = s.cmds := rfl
@[simp] theorem setQueue_engines (q x) : (s.setQueue q x).engines = s.engines := rfl
@[simp] theorem setQueue_accs (q x) : (s.setQueue q x).accs = s.accs := rfl
@[simp] theorem setQueue_vecs (q x) : (s.setQueue q x).vecs = s.vecs := rfl
@[simp] theorem setQueue_upds (q x) : (s.setQueue q x).upds = s.upds := rfl
@[simp] theorem setQueue_chans (q x) : (s.setQueue q x).chans = s.chans := rfl
@[simp] theorem setQueue_stks (q x) : (s.setQueue q x).stks = s.stks := rfl
@[simp] theorem setQueue_hoistCh (q x) : (s.setQueue q x).hoistCh = s.hoistCh := rfl
@[simp] theorem setQueue_hoists (q x) : (s.setQueue q x).hoists = s.hoists := rfl
@[simp] theorem setQueue_holds (q x) : (s.setQueue q x).holds = s.holds := rfl
@[simp] theorem setQueue_caches (q x) : (s.setQueue q x).caches = s.caches := rfl
@[simp] theorem setQueue_dir (q x) : (s.setQueue q x).dir = s.dir := rfl
@[simp] theorem setQueue_homes (q x) : (s.setQueue q x).homes = s.homes := rfl
@[simp] theorem setQueue_harts (q x) : (s.setQueue q x).harts = s.harts := rfl
@[simp] theorem setQueue_imsics (q x) : (s.setQueue q x).imsics = s.imsics := rfl
@[simp] theorem setQueue_aplic (q x) : (s.setQueue q x).aplic = s.aplic := rfl
@[simp] theorem setQueue_aplicIe (q x) : (s.setQueue q x).aplicIe = s.aplicIe := rfl
@[simp] theorem setQueue_input (q x) : (s.setQueue q x).input = s.input := rfl
@[simp] theorem setQueue_ports (q x) : (s.setQueue q x).ports = s.ports := rfl
@[simp] theorem setQueue_nets (q x) : (s.setQueue q x).nets = s.nets := rfl
@[simp] theorem setQueue_coll (q x) : (s.setQueue q x).coll = s.coll := rfl
@[simp] theorem setQueue_pwr (q x) : (s.setQueue q x).pwr = s.pwr := rfl
@[simp] theorem setQueue_sec (q x) : (s.setQueue q x).sec = s.sec := rfl
@[simp] theorem setQueue_obs (q x) : (s.setQueue q x).obs = s.obs := rfl
@[simp] theorem setQueue_links (q x) : (s.setQueue q x).links = s.links := rfl
@[simp] theorem setQueue_counters (q x) : (s.setQueue q x).counters = s.counters := rfl
@[simp] theorem setQueue_draws (q x) : (s.setQueue q x).draws = s.draws := rfl
@[simp] theorem setQueue_tx (q x) : (s.setQueue q x).tx = s.tx := rfl
@[simp] theorem setQueue_resp (q x) : (s.setQueue q x).resp = s.resp := rfl
@[simp] theorem setQueue_get_cmd (q x z) : (s.setQueue q x).cmd z = s.cmd z := rfl
@[simp] theorem setQueue_get_getR (q x z j) : (s.setQueue q x).getR z j = s.getR z j := rfl
@[simp] theorem setQueue_get_fld (q x g j) : (s.setQueue q x).fld g j = s.fld g j := rfl
@[simp] theorem setQueue_get_flag (q x g j) : (s.setQueue q x).flag g j = s.flag g j := rfl
@[simp] theorem setQueue_get_localGib (q x) : (s.setQueue q x).localGib = s.localGib := rfl
@[simp] theorem setQueue_get_frozen (q x) : (s.setQueue q x).frozen = s.frozen := rfl
@[simp] theorem setQueue_get_braking (q x) : (s.setQueue q x).braking = s.braking := rfl
@[simp] theorem setQueue_get_qState (q x j) : (s.setQueue q x).qState j = s.qState j := rfl
@[simp] theorem setQueue_get_running (q x) : (s.setQueue q x).running = s.running := rfl
@[simp] theorem setQueue_get_engine (q x j) : (s.setQueue q x).engine j = s.engine j := rfl
@[simp] theorem setQueue_get_acc (q x j) : (s.setQueue q x).acc j = s.acc j := rfl
@[simp] theorem setQueue_get_vec (q x j) : (s.setQueue q x).vec j = s.vec j := rfl
@[simp] theorem setQueue_get_upd (q x j) : (s.setQueue q x).upd j = s.upd j := rfl
@[simp] theorem setQueue_get_chan (q x j) : (s.setQueue q x).chan j = s.chan j := rfl
@[simp] theorem setQueue_get_stack (q x j) : (s.setQueue q x).stack j = s.stack j := rfl
@[simp] theorem setQueue_get_hoistChan (q x j) : (s.setQueue q x).hoistChan j = s.hoistChan j := rfl
@[simp] theorem setQueue_get_hoist (q x j) : (s.setQueue q x).hoist j = s.hoist j := rfl
@[simp] theorem setQueue_get_hart (q x j) : (s.setQueue q x).hart j = s.hart j := rfl
@[simp] theorem setQueue_get_port (q x j) : (s.setQueue q x).port j = s.port j := rfl
@[simp] theorem setQueue_get_net (q x j) : (s.setQueue q x).net j = s.net j := rfl
@[simp] theorem setQueue_get_home (q x j) : (s.setQueue q x).home j = s.home j := rfl
@[simp] theorem setQueue_get_now (q x j) : (s.setQueue q x).now j = s.now j := rfl

/-! setEngine -/
@[simp] theorem setEngine_pending (q x) : (s.setEngine q x).pending = s.pending := rfl
@[simp] theorem setEngine_regs (q x) : (s.setEngine q x).regs = s.regs := rfl
@[simp] theorem setEngine_snap (q x) : (s.setEngine q x).snap = s.snap := rfl
@[simp] theorem setEngine_mem (q x) : (s.setEngine q x).mem = s.mem := rfl
@[simp] theorem setEngine_flash (q x) : (s.setEngine q x).flash = s.flash := rfl
@[simp] theorem setEngine_ecc (q x) : (s.setEngine q x).ecc = s.ecc := rfl
@[simp] theorem setEngine_time (q x) : (s.setEngine q x).time = s.time := rfl
@[simp] theorem setEngine_replicas (q x) : (s.setEngine q x).replicas = s.replicas := rfl
@[simp] theorem setEngine_queues (q x) : (s.setEngine q x).queues = s.queues := rfl
@[simp] theorem setEngine_lastAt (q x) : (s.setEngine q x).lastAt = s.lastAt := rfl
@[simp] theorem setEngine_cmds (q x) : (s.setEngine q x).cmds = s.cmds := rfl
@[simp] theorem setEngine_engines (q x) : (s.setEngine q x).engines = Tab.set {} s.engines q x := rfl
@[simp] theorem setEngine_accs (q x) : (s.setEngine q x).accs = s.accs := rfl
@[simp] theorem setEngine_vecs (q x) : (s.setEngine q x).vecs = s.vecs := rfl
@[simp] theorem setEngine_upds (q x) : (s.setEngine q x).upds = s.upds := rfl
@[simp] theorem setEngine_chans (q x) : (s.setEngine q x).chans = s.chans := rfl
@[simp] theorem setEngine_stks (q x) : (s.setEngine q x).stks = s.stks := rfl
@[simp] theorem setEngine_hoistCh (q x) : (s.setEngine q x).hoistCh = s.hoistCh := rfl
@[simp] theorem setEngine_hoists (q x) : (s.setEngine q x).hoists = s.hoists := rfl
@[simp] theorem setEngine_holds (q x) : (s.setEngine q x).holds = s.holds := rfl
@[simp] theorem setEngine_caches (q x) : (s.setEngine q x).caches = s.caches := rfl
@[simp] theorem setEngine_dir (q x) : (s.setEngine q x).dir = s.dir := rfl
@[simp] theorem setEngine_homes (q x) : (s.setEngine q x).homes = s.homes := rfl
@[simp] theorem setEngine_harts (q x) : (s.setEngine q x).harts = s.harts := rfl
@[simp] theorem setEngine_imsics (q x) : (s.setEngine q x).imsics = s.imsics := rfl
@[simp] theorem setEngine_aplic (q x) : (s.setEngine q x).aplic = s.aplic := rfl
@[simp] theorem setEngine_aplicIe (q x) : (s.setEngine q x).aplicIe = s.aplicIe := rfl
@[simp] theorem setEngine_input (q x) : (s.setEngine q x).input = s.input := rfl
@[simp] theorem setEngine_ports (q x) : (s.setEngine q x).ports = s.ports := rfl
@[simp] theorem setEngine_nets (q x) : (s.setEngine q x).nets = s.nets := rfl
@[simp] theorem setEngine_coll (q x) : (s.setEngine q x).coll = s.coll := rfl
@[simp] theorem setEngine_pwr (q x) : (s.setEngine q x).pwr = s.pwr := rfl
@[simp] theorem setEngine_sec (q x) : (s.setEngine q x).sec = s.sec := rfl
@[simp] theorem setEngine_obs (q x) : (s.setEngine q x).obs = s.obs := rfl
@[simp] theorem setEngine_links (q x) : (s.setEngine q x).links = s.links := rfl
@[simp] theorem setEngine_counters (q x) : (s.setEngine q x).counters = s.counters := rfl
@[simp] theorem setEngine_draws (q x) : (s.setEngine q x).draws = s.draws := rfl
@[simp] theorem setEngine_tx (q x) : (s.setEngine q x).tx = s.tx := rfl
@[simp] theorem setEngine_resp (q x) : (s.setEngine q x).resp = s.resp := rfl
@[simp] theorem setEngine_get_cmd (q x z) : (s.setEngine q x).cmd z = s.cmd z := rfl
@[simp] theorem setEngine_get_getR (q x z j) : (s.setEngine q x).getR z j = s.getR z j := rfl
@[simp] theorem setEngine_get_fld (q x g j) : (s.setEngine q x).fld g j = s.fld g j := rfl
@[simp] theorem setEngine_get_flag (q x g j) : (s.setEngine q x).flag g j = s.flag g j := rfl
@[simp] theorem setEngine_get_localGib (q x) : (s.setEngine q x).localGib = s.localGib := rfl
@[simp] theorem setEngine_get_frozen (q x) : (s.setEngine q x).frozen = s.frozen := rfl
@[simp] theorem setEngine_get_braking (q x) : (s.setEngine q x).braking = s.braking := rfl
@[simp] theorem setEngine_get_qState (q x j) : (s.setEngine q x).qState j = s.qState j := rfl
@[simp] theorem setEngine_get_running (q x) : (s.setEngine q x).running = s.running := rfl
@[simp] theorem setEngine_get_queue (q x j) : (s.setEngine q x).queue j = s.queue j := rfl
@[simp] theorem setEngine_get_acc (q x j) : (s.setEngine q x).acc j = s.acc j := rfl
@[simp] theorem setEngine_get_vec (q x j) : (s.setEngine q x).vec j = s.vec j := rfl
@[simp] theorem setEngine_get_upd (q x j) : (s.setEngine q x).upd j = s.upd j := rfl
@[simp] theorem setEngine_get_chan (q x j) : (s.setEngine q x).chan j = s.chan j := rfl
@[simp] theorem setEngine_get_stack (q x j) : (s.setEngine q x).stack j = s.stack j := rfl
@[simp] theorem setEngine_get_hoistChan (q x j) : (s.setEngine q x).hoistChan j = s.hoistChan j := rfl
@[simp] theorem setEngine_get_hoist (q x j) : (s.setEngine q x).hoist j = s.hoist j := rfl
@[simp] theorem setEngine_get_hart (q x j) : (s.setEngine q x).hart j = s.hart j := rfl
@[simp] theorem setEngine_get_port (q x j) : (s.setEngine q x).port j = s.port j := rfl
@[simp] theorem setEngine_get_net (q x j) : (s.setEngine q x).net j = s.net j := rfl
@[simp] theorem setEngine_get_home (q x j) : (s.setEngine q x).home j = s.home j := rfl
@[simp] theorem setEngine_get_now (q x j) : (s.setEngine q x).now j = s.now j := rfl

/-! setAcc -/
@[simp] theorem setAcc_pending (q x) : (s.setAcc q x).pending = s.pending := rfl
@[simp] theorem setAcc_regs (q x) : (s.setAcc q x).regs = s.regs := rfl
@[simp] theorem setAcc_snap (q x) : (s.setAcc q x).snap = s.snap := rfl
@[simp] theorem setAcc_mem (q x) : (s.setAcc q x).mem = s.mem := rfl
@[simp] theorem setAcc_flash (q x) : (s.setAcc q x).flash = s.flash := rfl
@[simp] theorem setAcc_ecc (q x) : (s.setAcc q x).ecc = s.ecc := rfl
@[simp] theorem setAcc_time (q x) : (s.setAcc q x).time = s.time := rfl
@[simp] theorem setAcc_replicas (q x) : (s.setAcc q x).replicas = s.replicas := rfl
@[simp] theorem setAcc_queues (q x) : (s.setAcc q x).queues = s.queues := rfl
@[simp] theorem setAcc_lastAt (q x) : (s.setAcc q x).lastAt = s.lastAt := rfl
@[simp] theorem setAcc_cmds (q x) : (s.setAcc q x).cmds = s.cmds := rfl
@[simp] theorem setAcc_engines (q x) : (s.setAcc q x).engines = s.engines := rfl
@[simp] theorem setAcc_accs (q x) : (s.setAcc q x).accs = Tab.set {} s.accs q x := rfl
@[simp] theorem setAcc_vecs (q x) : (s.setAcc q x).vecs = s.vecs := rfl
@[simp] theorem setAcc_upds (q x) : (s.setAcc q x).upds = s.upds := rfl
@[simp] theorem setAcc_chans (q x) : (s.setAcc q x).chans = s.chans := rfl
@[simp] theorem setAcc_stks (q x) : (s.setAcc q x).stks = s.stks := rfl
@[simp] theorem setAcc_hoistCh (q x) : (s.setAcc q x).hoistCh = s.hoistCh := rfl
@[simp] theorem setAcc_hoists (q x) : (s.setAcc q x).hoists = s.hoists := rfl
@[simp] theorem setAcc_holds (q x) : (s.setAcc q x).holds = s.holds := rfl
@[simp] theorem setAcc_caches (q x) : (s.setAcc q x).caches = s.caches := rfl
@[simp] theorem setAcc_dir (q x) : (s.setAcc q x).dir = s.dir := rfl
@[simp] theorem setAcc_homes (q x) : (s.setAcc q x).homes = s.homes := rfl
@[simp] theorem setAcc_harts (q x) : (s.setAcc q x).harts = s.harts := rfl
@[simp] theorem setAcc_imsics (q x) : (s.setAcc q x).imsics = s.imsics := rfl
@[simp] theorem setAcc_aplic (q x) : (s.setAcc q x).aplic = s.aplic := rfl
@[simp] theorem setAcc_aplicIe (q x) : (s.setAcc q x).aplicIe = s.aplicIe := rfl
@[simp] theorem setAcc_input (q x) : (s.setAcc q x).input = s.input := rfl
@[simp] theorem setAcc_ports (q x) : (s.setAcc q x).ports = s.ports := rfl
@[simp] theorem setAcc_nets (q x) : (s.setAcc q x).nets = s.nets := rfl
@[simp] theorem setAcc_coll (q x) : (s.setAcc q x).coll = s.coll := rfl
@[simp] theorem setAcc_pwr (q x) : (s.setAcc q x).pwr = s.pwr := rfl
@[simp] theorem setAcc_sec (q x) : (s.setAcc q x).sec = s.sec := rfl
@[simp] theorem setAcc_obs (q x) : (s.setAcc q x).obs = s.obs := rfl
@[simp] theorem setAcc_links (q x) : (s.setAcc q x).links = s.links := rfl
@[simp] theorem setAcc_counters (q x) : (s.setAcc q x).counters = s.counters := rfl
@[simp] theorem setAcc_draws (q x) : (s.setAcc q x).draws = s.draws := rfl
@[simp] theorem setAcc_tx (q x) : (s.setAcc q x).tx = s.tx := rfl
@[simp] theorem setAcc_resp (q x) : (s.setAcc q x).resp = s.resp := rfl
@[simp] theorem setAcc_get_cmd (q x z) : (s.setAcc q x).cmd z = s.cmd z := rfl
@[simp] theorem setAcc_get_getR (q x z j) : (s.setAcc q x).getR z j = s.getR z j := rfl
@[simp] theorem setAcc_get_fld (q x g j) : (s.setAcc q x).fld g j = s.fld g j := rfl
@[simp] theorem setAcc_get_flag (q x g j) : (s.setAcc q x).flag g j = s.flag g j := rfl
@[simp] theorem setAcc_get_localGib (q x) : (s.setAcc q x).localGib = s.localGib := rfl
@[simp] theorem setAcc_get_frozen (q x) : (s.setAcc q x).frozen = s.frozen := rfl
@[simp] theorem setAcc_get_braking (q x) : (s.setAcc q x).braking = s.braking := rfl
@[simp] theorem setAcc_get_qState (q x j) : (s.setAcc q x).qState j = s.qState j := rfl
@[simp] theorem setAcc_get_running (q x) : (s.setAcc q x).running = s.running := rfl
@[simp] theorem setAcc_get_queue (q x j) : (s.setAcc q x).queue j = s.queue j := rfl
@[simp] theorem setAcc_get_engine (q x j) : (s.setAcc q x).engine j = s.engine j := rfl
@[simp] theorem setAcc_get_vec (q x j) : (s.setAcc q x).vec j = s.vec j := rfl
@[simp] theorem setAcc_get_upd (q x j) : (s.setAcc q x).upd j = s.upd j := rfl
@[simp] theorem setAcc_get_chan (q x j) : (s.setAcc q x).chan j = s.chan j := rfl
@[simp] theorem setAcc_get_stack (q x j) : (s.setAcc q x).stack j = s.stack j := rfl
@[simp] theorem setAcc_get_hoistChan (q x j) : (s.setAcc q x).hoistChan j = s.hoistChan j := rfl
@[simp] theorem setAcc_get_hoist (q x j) : (s.setAcc q x).hoist j = s.hoist j := rfl
@[simp] theorem setAcc_get_hart (q x j) : (s.setAcc q x).hart j = s.hart j := rfl
@[simp] theorem setAcc_get_port (q x j) : (s.setAcc q x).port j = s.port j := rfl
@[simp] theorem setAcc_get_net (q x j) : (s.setAcc q x).net j = s.net j := rfl
@[simp] theorem setAcc_get_home (q x j) : (s.setAcc q x).home j = s.home j := rfl
@[simp] theorem setAcc_get_now (q x j) : (s.setAcc q x).now j = s.now j := rfl

/-! setVec -/
@[simp] theorem setVec_pending (q x) : (s.setVec q x).pending = s.pending := rfl
@[simp] theorem setVec_regs (q x) : (s.setVec q x).regs = s.regs := rfl
@[simp] theorem setVec_snap (q x) : (s.setVec q x).snap = s.snap := rfl
@[simp] theorem setVec_mem (q x) : (s.setVec q x).mem = s.mem := rfl
@[simp] theorem setVec_flash (q x) : (s.setVec q x).flash = s.flash := rfl
@[simp] theorem setVec_ecc (q x) : (s.setVec q x).ecc = s.ecc := rfl
@[simp] theorem setVec_time (q x) : (s.setVec q x).time = s.time := rfl
@[simp] theorem setVec_replicas (q x) : (s.setVec q x).replicas = s.replicas := rfl
@[simp] theorem setVec_queues (q x) : (s.setVec q x).queues = s.queues := rfl
@[simp] theorem setVec_lastAt (q x) : (s.setVec q x).lastAt = s.lastAt := rfl
@[simp] theorem setVec_cmds (q x) : (s.setVec q x).cmds = s.cmds := rfl
@[simp] theorem setVec_engines (q x) : (s.setVec q x).engines = s.engines := rfl
@[simp] theorem setVec_accs (q x) : (s.setVec q x).accs = s.accs := rfl
@[simp] theorem setVec_vecs (q x) : (s.setVec q x).vecs = Tab.set {} s.vecs q x := rfl
@[simp] theorem setVec_upds (q x) : (s.setVec q x).upds = s.upds := rfl
@[simp] theorem setVec_chans (q x) : (s.setVec q x).chans = s.chans := rfl
@[simp] theorem setVec_stks (q x) : (s.setVec q x).stks = s.stks := rfl
@[simp] theorem setVec_hoistCh (q x) : (s.setVec q x).hoistCh = s.hoistCh := rfl
@[simp] theorem setVec_hoists (q x) : (s.setVec q x).hoists = s.hoists := rfl
@[simp] theorem setVec_holds (q x) : (s.setVec q x).holds = s.holds := rfl
@[simp] theorem setVec_caches (q x) : (s.setVec q x).caches = s.caches := rfl
@[simp] theorem setVec_dir (q x) : (s.setVec q x).dir = s.dir := rfl
@[simp] theorem setVec_homes (q x) : (s.setVec q x).homes = s.homes := rfl
@[simp] theorem setVec_harts (q x) : (s.setVec q x).harts = s.harts := rfl
@[simp] theorem setVec_imsics (q x) : (s.setVec q x).imsics = s.imsics := rfl
@[simp] theorem setVec_aplic (q x) : (s.setVec q x).aplic = s.aplic := rfl
@[simp] theorem setVec_aplicIe (q x) : (s.setVec q x).aplicIe = s.aplicIe := rfl
@[simp] theorem setVec_input (q x) : (s.setVec q x).input = s.input := rfl
@[simp] theorem setVec_ports (q x) : (s.setVec q x).ports = s.ports := rfl
@[simp] theorem setVec_nets (q x) : (s.setVec q x).nets = s.nets := rfl
@[simp] theorem setVec_coll (q x) : (s.setVec q x).coll = s.coll := rfl
@[simp] theorem setVec_pwr (q x) : (s.setVec q x).pwr = s.pwr := rfl
@[simp] theorem setVec_sec (q x) : (s.setVec q x).sec = s.sec := rfl
@[simp] theorem setVec_obs (q x) : (s.setVec q x).obs = s.obs := rfl
@[simp] theorem setVec_links (q x) : (s.setVec q x).links = s.links := rfl
@[simp] theorem setVec_counters (q x) : (s.setVec q x).counters = s.counters := rfl
@[simp] theorem setVec_draws (q x) : (s.setVec q x).draws = s.draws := rfl
@[simp] theorem setVec_tx (q x) : (s.setVec q x).tx = s.tx := rfl
@[simp] theorem setVec_resp (q x) : (s.setVec q x).resp = s.resp := rfl
@[simp] theorem setVec_get_cmd (q x z) : (s.setVec q x).cmd z = s.cmd z := rfl
@[simp] theorem setVec_get_getR (q x z j) : (s.setVec q x).getR z j = s.getR z j := rfl
@[simp] theorem setVec_get_fld (q x g j) : (s.setVec q x).fld g j = s.fld g j := rfl
@[simp] theorem setVec_get_flag (q x g j) : (s.setVec q x).flag g j = s.flag g j := rfl
@[simp] theorem setVec_get_localGib (q x) : (s.setVec q x).localGib = s.localGib := rfl
@[simp] theorem setVec_get_frozen (q x) : (s.setVec q x).frozen = s.frozen := rfl
@[simp] theorem setVec_get_braking (q x) : (s.setVec q x).braking = s.braking := rfl
@[simp] theorem setVec_get_qState (q x j) : (s.setVec q x).qState j = s.qState j := rfl
@[simp] theorem setVec_get_running (q x) : (s.setVec q x).running = s.running := rfl
@[simp] theorem setVec_get_queue (q x j) : (s.setVec q x).queue j = s.queue j := rfl
@[simp] theorem setVec_get_engine (q x j) : (s.setVec q x).engine j = s.engine j := rfl
@[simp] theorem setVec_get_acc (q x j) : (s.setVec q x).acc j = s.acc j := rfl
@[simp] theorem setVec_get_upd (q x j) : (s.setVec q x).upd j = s.upd j := rfl
@[simp] theorem setVec_get_chan (q x j) : (s.setVec q x).chan j = s.chan j := rfl
@[simp] theorem setVec_get_stack (q x j) : (s.setVec q x).stack j = s.stack j := rfl
@[simp] theorem setVec_get_hoistChan (q x j) : (s.setVec q x).hoistChan j = s.hoistChan j := rfl
@[simp] theorem setVec_get_hoist (q x j) : (s.setVec q x).hoist j = s.hoist j := rfl
@[simp] theorem setVec_get_hart (q x j) : (s.setVec q x).hart j = s.hart j := rfl
@[simp] theorem setVec_get_port (q x j) : (s.setVec q x).port j = s.port j := rfl
@[simp] theorem setVec_get_net (q x j) : (s.setVec q x).net j = s.net j := rfl
@[simp] theorem setVec_get_home (q x j) : (s.setVec q x).home j = s.home j := rfl
@[simp] theorem setVec_get_now (q x j) : (s.setVec q x).now j = s.now j := rfl

/-! setUpd -/
@[simp] theorem setUpd_pending (q x) : (s.setUpd q x).pending = s.pending := rfl
@[simp] theorem setUpd_regs (q x) : (s.setUpd q x).regs = s.regs := rfl
@[simp] theorem setUpd_snap (q x) : (s.setUpd q x).snap = s.snap := rfl
@[simp] theorem setUpd_mem (q x) : (s.setUpd q x).mem = s.mem := rfl
@[simp] theorem setUpd_flash (q x) : (s.setUpd q x).flash = s.flash := rfl
@[simp] theorem setUpd_ecc (q x) : (s.setUpd q x).ecc = s.ecc := rfl
@[simp] theorem setUpd_time (q x) : (s.setUpd q x).time = s.time := rfl
@[simp] theorem setUpd_replicas (q x) : (s.setUpd q x).replicas = s.replicas := rfl
@[simp] theorem setUpd_queues (q x) : (s.setUpd q x).queues = s.queues := rfl
@[simp] theorem setUpd_lastAt (q x) : (s.setUpd q x).lastAt = s.lastAt := rfl
@[simp] theorem setUpd_cmds (q x) : (s.setUpd q x).cmds = s.cmds := rfl
@[simp] theorem setUpd_engines (q x) : (s.setUpd q x).engines = s.engines := rfl
@[simp] theorem setUpd_accs (q x) : (s.setUpd q x).accs = s.accs := rfl
@[simp] theorem setUpd_vecs (q x) : (s.setUpd q x).vecs = s.vecs := rfl
@[simp] theorem setUpd_upds (q x) : (s.setUpd q x).upds = Tab.set {} s.upds q x := rfl
@[simp] theorem setUpd_chans (q x) : (s.setUpd q x).chans = s.chans := rfl
@[simp] theorem setUpd_stks (q x) : (s.setUpd q x).stks = s.stks := rfl
@[simp] theorem setUpd_hoistCh (q x) : (s.setUpd q x).hoistCh = s.hoistCh := rfl
@[simp] theorem setUpd_hoists (q x) : (s.setUpd q x).hoists = s.hoists := rfl
@[simp] theorem setUpd_holds (q x) : (s.setUpd q x).holds = s.holds := rfl
@[simp] theorem setUpd_caches (q x) : (s.setUpd q x).caches = s.caches := rfl
@[simp] theorem setUpd_dir (q x) : (s.setUpd q x).dir = s.dir := rfl
@[simp] theorem setUpd_homes (q x) : (s.setUpd q x).homes = s.homes := rfl
@[simp] theorem setUpd_harts (q x) : (s.setUpd q x).harts = s.harts := rfl
@[simp] theorem setUpd_imsics (q x) : (s.setUpd q x).imsics = s.imsics := rfl
@[simp] theorem setUpd_aplic (q x) : (s.setUpd q x).aplic = s.aplic := rfl
@[simp] theorem setUpd_aplicIe (q x) : (s.setUpd q x).aplicIe = s.aplicIe := rfl
@[simp] theorem setUpd_input (q x) : (s.setUpd q x).input = s.input := rfl
@[simp] theorem setUpd_ports (q x) : (s.setUpd q x).ports = s.ports := rfl
@[simp] theorem setUpd_nets (q x) : (s.setUpd q x).nets = s.nets := rfl
@[simp] theorem setUpd_coll (q x) : (s.setUpd q x).coll = s.coll := rfl
@[simp] theorem setUpd_pwr (q x) : (s.setUpd q x).pwr = s.pwr := rfl
@[simp] theorem setUpd_sec (q x) : (s.setUpd q x).sec = s.sec := rfl
@[simp] theorem setUpd_obs (q x) : (s.setUpd q x).obs = s.obs := rfl
@[simp] theorem setUpd_links (q x) : (s.setUpd q x).links = s.links := rfl
@[simp] theorem setUpd_counters (q x) : (s.setUpd q x).counters = s.counters := rfl
@[simp] theorem setUpd_draws (q x) : (s.setUpd q x).draws = s.draws := rfl
@[simp] theorem setUpd_tx (q x) : (s.setUpd q x).tx = s.tx := rfl
@[simp] theorem setUpd_resp (q x) : (s.setUpd q x).resp = s.resp := rfl
@[simp] theorem setUpd_get_cmd (q x z) : (s.setUpd q x).cmd z = s.cmd z := rfl
@[simp] theorem setUpd_get_getR (q x z j) : (s.setUpd q x).getR z j = s.getR z j := rfl
@[simp] theorem setUpd_get_fld (q x g j) : (s.setUpd q x).fld g j = s.fld g j := rfl
@[simp] theorem setUpd_get_flag (q x g j) : (s.setUpd q x).flag g j = s.flag g j := rfl
@[simp] theorem setUpd_get_localGib (q x) : (s.setUpd q x).localGib = s.localGib := rfl
@[simp] theorem setUpd_get_frozen (q x) : (s.setUpd q x).frozen = s.frozen := rfl
@[simp] theorem setUpd_get_braking (q x) : (s.setUpd q x).braking = s.braking := rfl
@[simp] theorem setUpd_get_qState (q x j) : (s.setUpd q x).qState j = s.qState j := rfl
@[simp] theorem setUpd_get_running (q x) : (s.setUpd q x).running = s.running := rfl
@[simp] theorem setUpd_get_queue (q x j) : (s.setUpd q x).queue j = s.queue j := rfl
@[simp] theorem setUpd_get_engine (q x j) : (s.setUpd q x).engine j = s.engine j := rfl
@[simp] theorem setUpd_get_acc (q x j) : (s.setUpd q x).acc j = s.acc j := rfl
@[simp] theorem setUpd_get_vec (q x j) : (s.setUpd q x).vec j = s.vec j := rfl
@[simp] theorem setUpd_get_chan (q x j) : (s.setUpd q x).chan j = s.chan j := rfl
@[simp] theorem setUpd_get_stack (q x j) : (s.setUpd q x).stack j = s.stack j := rfl
@[simp] theorem setUpd_get_hoistChan (q x j) : (s.setUpd q x).hoistChan j = s.hoistChan j := rfl
@[simp] theorem setUpd_get_hoist (q x j) : (s.setUpd q x).hoist j = s.hoist j := rfl
@[simp] theorem setUpd_get_hart (q x j) : (s.setUpd q x).hart j = s.hart j := rfl
@[simp] theorem setUpd_get_port (q x j) : (s.setUpd q x).port j = s.port j := rfl
@[simp] theorem setUpd_get_net (q x j) : (s.setUpd q x).net j = s.net j := rfl
@[simp] theorem setUpd_get_home (q x j) : (s.setUpd q x).home j = s.home j := rfl
@[simp] theorem setUpd_get_now (q x j) : (s.setUpd q x).now j = s.now j := rfl

/-! setChan -/
@[simp] theorem setChan_pending (q x) : (s.setChan q x).pending = s.pending := rfl
@[simp] theorem setChan_regs (q x) : (s.setChan q x).regs = s.regs := rfl
@[simp] theorem setChan_snap (q x) : (s.setChan q x).snap = s.snap := rfl
@[simp] theorem setChan_mem (q x) : (s.setChan q x).mem = s.mem := rfl
@[simp] theorem setChan_flash (q x) : (s.setChan q x).flash = s.flash := rfl
@[simp] theorem setChan_ecc (q x) : (s.setChan q x).ecc = s.ecc := rfl
@[simp] theorem setChan_time (q x) : (s.setChan q x).time = s.time := rfl
@[simp] theorem setChan_replicas (q x) : (s.setChan q x).replicas = s.replicas := rfl
@[simp] theorem setChan_queues (q x) : (s.setChan q x).queues = s.queues := rfl
@[simp] theorem setChan_lastAt (q x) : (s.setChan q x).lastAt = s.lastAt := rfl
@[simp] theorem setChan_cmds (q x) : (s.setChan q x).cmds = s.cmds := rfl
@[simp] theorem setChan_engines (q x) : (s.setChan q x).engines = s.engines := rfl
@[simp] theorem setChan_accs (q x) : (s.setChan q x).accs = s.accs := rfl
@[simp] theorem setChan_vecs (q x) : (s.setChan q x).vecs = s.vecs := rfl
@[simp] theorem setChan_upds (q x) : (s.setChan q x).upds = s.upds := rfl
@[simp] theorem setChan_chans (q x) : (s.setChan q x).chans = Tab.set {} s.chans q x := rfl
@[simp] theorem setChan_stks (q x) : (s.setChan q x).stks = s.stks := rfl
@[simp] theorem setChan_hoistCh (q x) : (s.setChan q x).hoistCh = s.hoistCh := rfl
@[simp] theorem setChan_hoists (q x) : (s.setChan q x).hoists = s.hoists := rfl
@[simp] theorem setChan_holds (q x) : (s.setChan q x).holds = s.holds := rfl
@[simp] theorem setChan_caches (q x) : (s.setChan q x).caches = s.caches := rfl
@[simp] theorem setChan_dir (q x) : (s.setChan q x).dir = s.dir := rfl
@[simp] theorem setChan_homes (q x) : (s.setChan q x).homes = s.homes := rfl
@[simp] theorem setChan_harts (q x) : (s.setChan q x).harts = s.harts := rfl
@[simp] theorem setChan_imsics (q x) : (s.setChan q x).imsics = s.imsics := rfl
@[simp] theorem setChan_aplic (q x) : (s.setChan q x).aplic = s.aplic := rfl
@[simp] theorem setChan_aplicIe (q x) : (s.setChan q x).aplicIe = s.aplicIe := rfl
@[simp] theorem setChan_input (q x) : (s.setChan q x).input = s.input := rfl
@[simp] theorem setChan_ports (q x) : (s.setChan q x).ports = s.ports := rfl
@[simp] theorem setChan_nets (q x) : (s.setChan q x).nets = s.nets := rfl
@[simp] theorem setChan_coll (q x) : (s.setChan q x).coll = s.coll := rfl
@[simp] theorem setChan_pwr (q x) : (s.setChan q x).pwr = s.pwr := rfl
@[simp] theorem setChan_sec (q x) : (s.setChan q x).sec = s.sec := rfl
@[simp] theorem setChan_obs (q x) : (s.setChan q x).obs = s.obs := rfl
@[simp] theorem setChan_links (q x) : (s.setChan q x).links = s.links := rfl
@[simp] theorem setChan_counters (q x) : (s.setChan q x).counters = s.counters := rfl
@[simp] theorem setChan_draws (q x) : (s.setChan q x).draws = s.draws := rfl
@[simp] theorem setChan_tx (q x) : (s.setChan q x).tx = s.tx := rfl
@[simp] theorem setChan_resp (q x) : (s.setChan q x).resp = s.resp := rfl
@[simp] theorem setChan_get_cmd (q x z) : (s.setChan q x).cmd z = s.cmd z := rfl
@[simp] theorem setChan_get_getR (q x z j) : (s.setChan q x).getR z j = s.getR z j := rfl
@[simp] theorem setChan_get_fld (q x g j) : (s.setChan q x).fld g j = s.fld g j := rfl
@[simp] theorem setChan_get_flag (q x g j) : (s.setChan q x).flag g j = s.flag g j := rfl
@[simp] theorem setChan_get_localGib (q x) : (s.setChan q x).localGib = s.localGib := rfl
@[simp] theorem setChan_get_frozen (q x) : (s.setChan q x).frozen = s.frozen := rfl
@[simp] theorem setChan_get_braking (q x) : (s.setChan q x).braking = s.braking := rfl
@[simp] theorem setChan_get_qState (q x j) : (s.setChan q x).qState j = s.qState j := rfl
@[simp] theorem setChan_get_running (q x) : (s.setChan q x).running = s.running := rfl
@[simp] theorem setChan_get_queue (q x j) : (s.setChan q x).queue j = s.queue j := rfl
@[simp] theorem setChan_get_engine (q x j) : (s.setChan q x).engine j = s.engine j := rfl
@[simp] theorem setChan_get_acc (q x j) : (s.setChan q x).acc j = s.acc j := rfl
@[simp] theorem setChan_get_vec (q x j) : (s.setChan q x).vec j = s.vec j := rfl
@[simp] theorem setChan_get_upd (q x j) : (s.setChan q x).upd j = s.upd j := rfl
@[simp] theorem setChan_get_stack (q x j) : (s.setChan q x).stack j = s.stack j := rfl
@[simp] theorem setChan_get_hoistChan (q x j) : (s.setChan q x).hoistChan j = s.hoistChan j := rfl
@[simp] theorem setChan_get_hoist (q x j) : (s.setChan q x).hoist j = s.hoist j := rfl
@[simp] theorem setChan_get_hart (q x j) : (s.setChan q x).hart j = s.hart j := rfl
@[simp] theorem setChan_get_port (q x j) : (s.setChan q x).port j = s.port j := rfl
@[simp] theorem setChan_get_net (q x j) : (s.setChan q x).net j = s.net j := rfl
@[simp] theorem setChan_get_home (q x j) : (s.setChan q x).home j = s.home j := rfl
@[simp] theorem setChan_get_now (q x j) : (s.setChan q x).now j = s.now j := rfl

/-! setStack -/
@[simp] theorem setStack_pending (q x) : (s.setStack q x).pending = s.pending := rfl
@[simp] theorem setStack_regs (q x) : (s.setStack q x).regs = s.regs := rfl
@[simp] theorem setStack_snap (q x) : (s.setStack q x).snap = s.snap := rfl
@[simp] theorem setStack_mem (q x) : (s.setStack q x).mem = s.mem := rfl
@[simp] theorem setStack_flash (q x) : (s.setStack q x).flash = s.flash := rfl
@[simp] theorem setStack_ecc (q x) : (s.setStack q x).ecc = s.ecc := rfl
@[simp] theorem setStack_time (q x) : (s.setStack q x).time = s.time := rfl
@[simp] theorem setStack_replicas (q x) : (s.setStack q x).replicas = s.replicas := rfl
@[simp] theorem setStack_queues (q x) : (s.setStack q x).queues = s.queues := rfl
@[simp] theorem setStack_lastAt (q x) : (s.setStack q x).lastAt = s.lastAt := rfl
@[simp] theorem setStack_cmds (q x) : (s.setStack q x).cmds = s.cmds := rfl
@[simp] theorem setStack_engines (q x) : (s.setStack q x).engines = s.engines := rfl
@[simp] theorem setStack_accs (q x) : (s.setStack q x).accs = s.accs := rfl
@[simp] theorem setStack_vecs (q x) : (s.setStack q x).vecs = s.vecs := rfl
@[simp] theorem setStack_upds (q x) : (s.setStack q x).upds = s.upds := rfl
@[simp] theorem setStack_chans (q x) : (s.setStack q x).chans = s.chans := rfl
@[simp] theorem setStack_stks (q x) : (s.setStack q x).stks = Tab.set {} s.stks q x := rfl
@[simp] theorem setStack_hoistCh (q x) : (s.setStack q x).hoistCh = s.hoistCh := rfl
@[simp] theorem setStack_hoists (q x) : (s.setStack q x).hoists = s.hoists := rfl
@[simp] theorem setStack_holds (q x) : (s.setStack q x).holds = s.holds := rfl
@[simp] theorem setStack_caches (q x) : (s.setStack q x).caches = s.caches := rfl
@[simp] theorem setStack_dir (q x) : (s.setStack q x).dir = s.dir := rfl
@[simp] theorem setStack_homes (q x) : (s.setStack q x).homes = s.homes := rfl
@[simp] theorem setStack_harts (q x) : (s.setStack q x).harts = s.harts := rfl
@[simp] theorem setStack_imsics (q x) : (s.setStack q x).imsics = s.imsics := rfl
@[simp] theorem setStack_aplic (q x) : (s.setStack q x).aplic = s.aplic := rfl
@[simp] theorem setStack_aplicIe (q x) : (s.setStack q x).aplicIe = s.aplicIe := rfl
@[simp] theorem setStack_input (q x) : (s.setStack q x).input = s.input := rfl
@[simp] theorem setStack_ports (q x) : (s.setStack q x).ports = s.ports := rfl
@[simp] theorem setStack_nets (q x) : (s.setStack q x).nets = s.nets := rfl
@[simp] theorem setStack_coll (q x) : (s.setStack q x).coll = s.coll := rfl
@[simp] theorem setStack_pwr (q x) : (s.setStack q x).pwr = s.pwr := rfl
@[simp] theorem setStack_sec (q x) : (s.setStack q x).sec = s.sec := rfl
@[simp] theorem setStack_obs (q x) : (s.setStack q x).obs = s.obs := rfl
@[simp] theorem setStack_links (q x) : (s.setStack q x).links = s.links := rfl
@[simp] theorem setStack_counters (q x) : (s.setStack q x).counters = s.counters := rfl
@[simp] theorem setStack_draws (q x) : (s.setStack q x).draws = s.draws := rfl
@[simp] theorem setStack_tx (q x) : (s.setStack q x).tx = s.tx := rfl
@[simp] theorem setStack_resp (q x) : (s.setStack q x).resp = s.resp := rfl
@[simp] theorem setStack_get_cmd (q x z) : (s.setStack q x).cmd z = s.cmd z := rfl
@[simp] theorem setStack_get_getR (q x z j) : (s.setStack q x).getR z j = s.getR z j := rfl
@[simp] theorem setStack_get_fld (q x g j) : (s.setStack q x).fld g j = s.fld g j := rfl
@[simp] theorem setStack_get_flag (q x g j) : (s.setStack q x).flag g j = s.flag g j := rfl
@[simp] theorem setStack_get_localGib (q x) : (s.setStack q x).localGib = s.localGib := rfl
@[simp] theorem setStack_get_frozen (q x) : (s.setStack q x).frozen = s.frozen := rfl
@[simp] theorem setStack_get_braking (q x) : (s.setStack q x).braking = s.braking := rfl
@[simp] theorem setStack_get_qState (q x j) : (s.setStack q x).qState j = s.qState j := rfl
@[simp] theorem setStack_get_running (q x) : (s.setStack q x).running = s.running := rfl
@[simp] theorem setStack_get_queue (q x j) : (s.setStack q x).queue j = s.queue j := rfl
@[simp] theorem setStack_get_engine (q x j) : (s.setStack q x).engine j = s.engine j := rfl
@[simp] theorem setStack_get_acc (q x j) : (s.setStack q x).acc j = s.acc j := rfl
@[simp] theorem setStack_get_vec (q x j) : (s.setStack q x).vec j = s.vec j := rfl
@[simp] theorem setStack_get_upd (q x j) : (s.setStack q x).upd j = s.upd j := rfl
@[simp] theorem setStack_get_chan (q x j) : (s.setStack q x).chan j = s.chan j := rfl
@[simp] theorem setStack_get_hoistChan (q x j) : (s.setStack q x).hoistChan j = s.hoistChan j := rfl
@[simp] theorem setStack_get_hoist (q x j) : (s.setStack q x).hoist j = s.hoist j := rfl
@[simp] theorem setStack_get_hart (q x j) : (s.setStack q x).hart j = s.hart j := rfl
@[simp] theorem setStack_get_port (q x j) : (s.setStack q x).port j = s.port j := rfl
@[simp] theorem setStack_get_net (q x j) : (s.setStack q x).net j = s.net j := rfl
@[simp] theorem setStack_get_home (q x j) : (s.setStack q x).home j = s.home j := rfl
@[simp] theorem setStack_get_now (q x j) : (s.setStack q x).now j = s.now j := rfl

/-! setHoistChan -/
@[simp] theorem setHoistChan_pending (q x) : (s.setHoistChan q x).pending = s.pending := rfl
@[simp] theorem setHoistChan_regs (q x) : (s.setHoistChan q x).regs = s.regs := rfl
@[simp] theorem setHoistChan_snap (q x) : (s.setHoistChan q x).snap = s.snap := rfl
@[simp] theorem setHoistChan_mem (q x) : (s.setHoistChan q x).mem = s.mem := rfl
@[simp] theorem setHoistChan_flash (q x) : (s.setHoistChan q x).flash = s.flash := rfl
@[simp] theorem setHoistChan_ecc (q x) : (s.setHoistChan q x).ecc = s.ecc := rfl
@[simp] theorem setHoistChan_time (q x) : (s.setHoistChan q x).time = s.time := rfl
@[simp] theorem setHoistChan_replicas (q x) : (s.setHoistChan q x).replicas = s.replicas := rfl
@[simp] theorem setHoistChan_queues (q x) : (s.setHoistChan q x).queues = s.queues := rfl
@[simp] theorem setHoistChan_lastAt (q x) : (s.setHoistChan q x).lastAt = s.lastAt := rfl
@[simp] theorem setHoistChan_cmds (q x) : (s.setHoistChan q x).cmds = s.cmds := rfl
@[simp] theorem setHoistChan_engines (q x) : (s.setHoistChan q x).engines = s.engines := rfl
@[simp] theorem setHoistChan_accs (q x) : (s.setHoistChan q x).accs = s.accs := rfl
@[simp] theorem setHoistChan_vecs (q x) : (s.setHoistChan q x).vecs = s.vecs := rfl
@[simp] theorem setHoistChan_upds (q x) : (s.setHoistChan q x).upds = s.upds := rfl
@[simp] theorem setHoistChan_chans (q x) : (s.setHoistChan q x).chans = s.chans := rfl
@[simp] theorem setHoistChan_stks (q x) : (s.setHoistChan q x).stks = s.stks := rfl
@[simp] theorem setHoistChan_hoistCh (q x) : (s.setHoistChan q x).hoistCh = Tab.set {} s.hoistCh q x := rfl
@[simp] theorem setHoistChan_hoists (q x) : (s.setHoistChan q x).hoists = s.hoists := rfl
@[simp] theorem setHoistChan_holds (q x) : (s.setHoistChan q x).holds = s.holds := rfl
@[simp] theorem setHoistChan_caches (q x) : (s.setHoistChan q x).caches = s.caches := rfl
@[simp] theorem setHoistChan_dir (q x) : (s.setHoistChan q x).dir = s.dir := rfl
@[simp] theorem setHoistChan_homes (q x) : (s.setHoistChan q x).homes = s.homes := rfl
@[simp] theorem setHoistChan_harts (q x) : (s.setHoistChan q x).harts = s.harts := rfl
@[simp] theorem setHoistChan_imsics (q x) : (s.setHoistChan q x).imsics = s.imsics := rfl
@[simp] theorem setHoistChan_aplic (q x) : (s.setHoistChan q x).aplic = s.aplic := rfl
@[simp] theorem setHoistChan_aplicIe (q x) : (s.setHoistChan q x).aplicIe = s.aplicIe := rfl
@[simp] theorem setHoistChan_input (q x) : (s.setHoistChan q x).input = s.input := rfl
@[simp] theorem setHoistChan_ports (q x) : (s.setHoistChan q x).ports = s.ports := rfl
@[simp] theorem setHoistChan_nets (q x) : (s.setHoistChan q x).nets = s.nets := rfl
@[simp] theorem setHoistChan_coll (q x) : (s.setHoistChan q x).coll = s.coll := rfl
@[simp] theorem setHoistChan_pwr (q x) : (s.setHoistChan q x).pwr = s.pwr := rfl
@[simp] theorem setHoistChan_sec (q x) : (s.setHoistChan q x).sec = s.sec := rfl
@[simp] theorem setHoistChan_obs (q x) : (s.setHoistChan q x).obs = s.obs := rfl
@[simp] theorem setHoistChan_links (q x) : (s.setHoistChan q x).links = s.links := rfl
@[simp] theorem setHoistChan_counters (q x) : (s.setHoistChan q x).counters = s.counters := rfl
@[simp] theorem setHoistChan_draws (q x) : (s.setHoistChan q x).draws = s.draws := rfl
@[simp] theorem setHoistChan_tx (q x) : (s.setHoistChan q x).tx = s.tx := rfl
@[simp] theorem setHoistChan_resp (q x) : (s.setHoistChan q x).resp = s.resp := rfl
@[simp] theorem setHoistChan_get_cmd (q x z) : (s.setHoistChan q x).cmd z = s.cmd z := rfl
@[simp] theorem setHoistChan_get_getR (q x z j) : (s.setHoistChan q x).getR z j = s.getR z j := rfl
@[simp] theorem setHoistChan_get_fld (q x g j) : (s.setHoistChan q x).fld g j = s.fld g j := rfl
@[simp] theorem setHoistChan_get_flag (q x g j) : (s.setHoistChan q x).flag g j = s.flag g j := rfl
@[simp] theorem setHoistChan_get_localGib (q x) : (s.setHoistChan q x).localGib = s.localGib := rfl
@[simp] theorem setHoistChan_get_frozen (q x) : (s.setHoistChan q x).frozen = s.frozen := rfl
@[simp] theorem setHoistChan_get_braking (q x) : (s.setHoistChan q x).braking = s.braking := rfl
@[simp] theorem setHoistChan_get_qState (q x j) : (s.setHoistChan q x).qState j = s.qState j := rfl
@[simp] theorem setHoistChan_get_running (q x) : (s.setHoistChan q x).running = s.running := rfl
@[simp] theorem setHoistChan_get_queue (q x j) : (s.setHoistChan q x).queue j = s.queue j := rfl
@[simp] theorem setHoistChan_get_engine (q x j) : (s.setHoistChan q x).engine j = s.engine j := rfl
@[simp] theorem setHoistChan_get_acc (q x j) : (s.setHoistChan q x).acc j = s.acc j := rfl
@[simp] theorem setHoistChan_get_vec (q x j) : (s.setHoistChan q x).vec j = s.vec j := rfl
@[simp] theorem setHoistChan_get_upd (q x j) : (s.setHoistChan q x).upd j = s.upd j := rfl
@[simp] theorem setHoistChan_get_chan (q x j) : (s.setHoistChan q x).chan j = s.chan j := rfl
@[simp] theorem setHoistChan_get_stack (q x j) : (s.setHoistChan q x).stack j = s.stack j := rfl
@[simp] theorem setHoistChan_get_hoist (q x j) : (s.setHoistChan q x).hoist j = s.hoist j := rfl
@[simp] theorem setHoistChan_get_hart (q x j) : (s.setHoistChan q x).hart j = s.hart j := rfl
@[simp] theorem setHoistChan_get_port (q x j) : (s.setHoistChan q x).port j = s.port j := rfl
@[simp] theorem setHoistChan_get_net (q x j) : (s.setHoistChan q x).net j = s.net j := rfl
@[simp] theorem setHoistChan_get_home (q x j) : (s.setHoistChan q x).home j = s.home j := rfl
@[simp] theorem setHoistChan_get_now (q x j) : (s.setHoistChan q x).now j = s.now j := rfl

/-! setHoist -/
@[simp] theorem setHoist_pending (q x) : (s.setHoist q x).pending = s.pending := rfl
@[simp] theorem setHoist_regs (q x) : (s.setHoist q x).regs = s.regs := rfl
@[simp] theorem setHoist_snap (q x) : (s.setHoist q x).snap = s.snap := rfl
@[simp] theorem setHoist_mem (q x) : (s.setHoist q x).mem = s.mem := rfl
@[simp] theorem setHoist_flash (q x) : (s.setHoist q x).flash = s.flash := rfl
@[simp] theorem setHoist_ecc (q x) : (s.setHoist q x).ecc = s.ecc := rfl
@[simp] theorem setHoist_time (q x) : (s.setHoist q x).time = s.time := rfl
@[simp] theorem setHoist_replicas (q x) : (s.setHoist q x).replicas = s.replicas := rfl
@[simp] theorem setHoist_queues (q x) : (s.setHoist q x).queues = s.queues := rfl
@[simp] theorem setHoist_lastAt (q x) : (s.setHoist q x).lastAt = s.lastAt := rfl
@[simp] theorem setHoist_cmds (q x) : (s.setHoist q x).cmds = s.cmds := rfl
@[simp] theorem setHoist_engines (q x) : (s.setHoist q x).engines = s.engines := rfl
@[simp] theorem setHoist_accs (q x) : (s.setHoist q x).accs = s.accs := rfl
@[simp] theorem setHoist_vecs (q x) : (s.setHoist q x).vecs = s.vecs := rfl
@[simp] theorem setHoist_upds (q x) : (s.setHoist q x).upds = s.upds := rfl
@[simp] theorem setHoist_chans (q x) : (s.setHoist q x).chans = s.chans := rfl
@[simp] theorem setHoist_stks (q x) : (s.setHoist q x).stks = s.stks := rfl
@[simp] theorem setHoist_hoistCh (q x) : (s.setHoist q x).hoistCh = s.hoistCh := rfl
@[simp] theorem setHoist_hoists (q x) : (s.setHoist q x).hoists = Tab.set {} s.hoists q x := rfl
@[simp] theorem setHoist_holds (q x) : (s.setHoist q x).holds = s.holds := rfl
@[simp] theorem setHoist_caches (q x) : (s.setHoist q x).caches = s.caches := rfl
@[simp] theorem setHoist_dir (q x) : (s.setHoist q x).dir = s.dir := rfl
@[simp] theorem setHoist_homes (q x) : (s.setHoist q x).homes = s.homes := rfl
@[simp] theorem setHoist_harts (q x) : (s.setHoist q x).harts = s.harts := rfl
@[simp] theorem setHoist_imsics (q x) : (s.setHoist q x).imsics = s.imsics := rfl
@[simp] theorem setHoist_aplic (q x) : (s.setHoist q x).aplic = s.aplic := rfl
@[simp] theorem setHoist_aplicIe (q x) : (s.setHoist q x).aplicIe = s.aplicIe := rfl
@[simp] theorem setHoist_input (q x) : (s.setHoist q x).input = s.input := rfl
@[simp] theorem setHoist_ports (q x) : (s.setHoist q x).ports = s.ports := rfl
@[simp] theorem setHoist_nets (q x) : (s.setHoist q x).nets = s.nets := rfl
@[simp] theorem setHoist_coll (q x) : (s.setHoist q x).coll = s.coll := rfl
@[simp] theorem setHoist_pwr (q x) : (s.setHoist q x).pwr = s.pwr := rfl
@[simp] theorem setHoist_sec (q x) : (s.setHoist q x).sec = s.sec := rfl
@[simp] theorem setHoist_obs (q x) : (s.setHoist q x).obs = s.obs := rfl
@[simp] theorem setHoist_links (q x) : (s.setHoist q x).links = s.links := rfl
@[simp] theorem setHoist_counters (q x) : (s.setHoist q x).counters = s.counters := rfl
@[simp] theorem setHoist_draws (q x) : (s.setHoist q x).draws = s.draws := rfl
@[simp] theorem setHoist_tx (q x) : (s.setHoist q x).tx = s.tx := rfl
@[simp] theorem setHoist_resp (q x) : (s.setHoist q x).resp = s.resp := rfl
@[simp] theorem setHoist_get_cmd (q x z) : (s.setHoist q x).cmd z = s.cmd z := rfl
@[simp] theorem setHoist_get_getR (q x z j) : (s.setHoist q x).getR z j = s.getR z j := rfl
@[simp] theorem setHoist_get_fld (q x g j) : (s.setHoist q x).fld g j = s.fld g j := rfl
@[simp] theorem setHoist_get_flag (q x g j) : (s.setHoist q x).flag g j = s.flag g j := rfl
@[simp] theorem setHoist_get_localGib (q x) : (s.setHoist q x).localGib = s.localGib := rfl
@[simp] theorem setHoist_get_frozen (q x) : (s.setHoist q x).frozen = s.frozen := rfl
@[simp] theorem setHoist_get_braking (q x) : (s.setHoist q x).braking = s.braking := rfl
@[simp] theorem setHoist_get_qState (q x j) : (s.setHoist q x).qState j = s.qState j := rfl
@[simp] theorem setHoist_get_running (q x) : (s.setHoist q x).running = s.running := rfl
@[simp] theorem setHoist_get_queue (q x j) : (s.setHoist q x).queue j = s.queue j := rfl
@[simp] theorem setHoist_get_engine (q x j) : (s.setHoist q x).engine j = s.engine j := rfl
@[simp] theorem setHoist_get_acc (q x j) : (s.setHoist q x).acc j = s.acc j := rfl
@[simp] theorem setHoist_get_vec (q x j) : (s.setHoist q x).vec j = s.vec j := rfl
@[simp] theorem setHoist_get_upd (q x j) : (s.setHoist q x).upd j = s.upd j := rfl
@[simp] theorem setHoist_get_chan (q x j) : (s.setHoist q x).chan j = s.chan j := rfl
@[simp] theorem setHoist_get_stack (q x j) : (s.setHoist q x).stack j = s.stack j := rfl
@[simp] theorem setHoist_get_hoistChan (q x j) : (s.setHoist q x).hoistChan j = s.hoistChan j := rfl
@[simp] theorem setHoist_get_hart (q x j) : (s.setHoist q x).hart j = s.hart j := rfl
@[simp] theorem setHoist_get_port (q x j) : (s.setHoist q x).port j = s.port j := rfl
@[simp] theorem setHoist_get_net (q x j) : (s.setHoist q x).net j = s.net j := rfl
@[simp] theorem setHoist_get_home (q x j) : (s.setHoist q x).home j = s.home j := rfl
@[simp] theorem setHoist_get_now (q x j) : (s.setHoist q x).now j = s.now j := rfl

/-! setHold -/
@[simp] theorem setHold_pending (q k x) : (s.setHold q k x).pending = s.pending := rfl
@[simp] theorem setHold_regs (q k x) : (s.setHold q k x).regs = s.regs := rfl
@[simp] theorem setHold_snap (q k x) : (s.setHold q k x).snap = s.snap := rfl
@[simp] theorem setHold_mem (q k x) : (s.setHold q k x).mem = s.mem := rfl
@[simp] theorem setHold_flash (q k x) : (s.setHold q k x).flash = s.flash := rfl
@[simp] theorem setHold_ecc (q k x) : (s.setHold q k x).ecc = s.ecc := rfl
@[simp] theorem setHold_time (q k x) : (s.setHold q k x).time = s.time := rfl
@[simp] theorem setHold_replicas (q k x) : (s.setHold q k x).replicas = s.replicas := rfl
@[simp] theorem setHold_queues (q k x) : (s.setHold q k x).queues = s.queues := rfl
@[simp] theorem setHold_lastAt (q k x) : (s.setHold q k x).lastAt = s.lastAt := rfl
@[simp] theorem setHold_cmds (q k x) : (s.setHold q k x).cmds = s.cmds := rfl
@[simp] theorem setHold_engines (q k x) : (s.setHold q k x).engines = s.engines := rfl
@[simp] theorem setHold_accs (q k x) : (s.setHold q k x).accs = s.accs := rfl
@[simp] theorem setHold_vecs (q k x) : (s.setHold q k x).vecs = s.vecs := rfl
@[simp] theorem setHold_upds (q k x) : (s.setHold q k x).upds = s.upds := rfl
@[simp] theorem setHold_chans (q k x) : (s.setHold q k x).chans = s.chans := rfl
@[simp] theorem setHold_stks (q k x) : (s.setHold q k x).stks = s.stks := rfl
@[simp] theorem setHold_hoistCh (q k x) : (s.setHold q k x).hoistCh = s.hoistCh := rfl
@[simp] theorem setHold_hoists (q k x) : (s.setHold q k x).hoists = s.hoists := rfl
@[simp] theorem setHold_holds (q k x) : (s.setHold q k x).holds = Tab.set none s.holds (16 * q + k) x := rfl
@[simp] theorem setHold_caches (q k x) : (s.setHold q k x).caches = s.caches := rfl
@[simp] theorem setHold_dir (q k x) : (s.setHold q k x).dir = s.dir := rfl
@[simp] theorem setHold_homes (q k x) : (s.setHold q k x).homes = s.homes := rfl
@[simp] theorem setHold_harts (q k x) : (s.setHold q k x).harts = s.harts := rfl
@[simp] theorem setHold_imsics (q k x) : (s.setHold q k x).imsics = s.imsics := rfl
@[simp] theorem setHold_aplic (q k x) : (s.setHold q k x).aplic = s.aplic := rfl
@[simp] theorem setHold_aplicIe (q k x) : (s.setHold q k x).aplicIe = s.aplicIe := rfl
@[simp] theorem setHold_input (q k x) : (s.setHold q k x).input = s.input := rfl
@[simp] theorem setHold_ports (q k x) : (s.setHold q k x).ports = s.ports := rfl
@[simp] theorem setHold_nets (q k x) : (s.setHold q k x).nets = s.nets := rfl
@[simp] theorem setHold_coll (q k x) : (s.setHold q k x).coll = s.coll := rfl
@[simp] theorem setHold_pwr (q k x) : (s.setHold q k x).pwr = s.pwr := rfl
@[simp] theorem setHold_sec (q k x) : (s.setHold q k x).sec = s.sec := rfl
@[simp] theorem setHold_obs (q k x) : (s.setHold q k x).obs = s.obs := rfl
@[simp] theorem setHold_links (q k x) : (s.setHold q k x).links = s.links := rfl
@[simp] theorem setHold_counters (q k x) : (s.setHold q k x).counters = s.counters := rfl
@[simp] theorem setHold_draws (q k x) : (s.setHold q k x).draws = s.draws := rfl
@[simp] theorem setHold_tx (q k x) : (s.setHold q k x).tx = s.tx := rfl
@[simp] theorem setHold_resp (q k x) : (s.setHold q k x).resp = s.resp := rfl
@[simp] theorem setHold_get_cmd (q k x z) : (s.setHold q k x).cmd z = s.cmd z := rfl
@[simp] theorem setHold_get_getR (q k x z j) : (s.setHold q k x).getR z j = s.getR z j := rfl
@[simp] theorem setHold_get_fld (q k x g j) : (s.setHold q k x).fld g j = s.fld g j := rfl
@[simp] theorem setHold_get_flag (q k x g j) : (s.setHold q k x).flag g j = s.flag g j := rfl
@[simp] theorem setHold_get_localGib (q k x) : (s.setHold q k x).localGib = s.localGib := rfl
@[simp] theorem setHold_get_frozen (q k x) : (s.setHold q k x).frozen = s.frozen := rfl
@[simp] theorem setHold_get_braking (q k x) : (s.setHold q k x).braking = s.braking := rfl
@[simp] theorem setHold_get_qState (q k x j) : (s.setHold q k x).qState j = s.qState j := rfl
@[simp] theorem setHold_get_running (q k x) : (s.setHold q k x).running = s.running := rfl
@[simp] theorem setHold_get_queue (q k x j) : (s.setHold q k x).queue j = s.queue j := rfl
@[simp] theorem setHold_get_engine (q k x j) : (s.setHold q k x).engine j = s.engine j := rfl
@[simp] theorem setHold_get_acc (q k x j) : (s.setHold q k x).acc j = s.acc j := rfl
@[simp] theorem setHold_get_vec (q k x j) : (s.setHold q k x).vec j = s.vec j := rfl
@[simp] theorem setHold_get_upd (q k x j) : (s.setHold q k x).upd j = s.upd j := rfl
@[simp] theorem setHold_get_chan (q k x j) : (s.setHold q k x).chan j = s.chan j := rfl
@[simp] theorem setHold_get_stack (q k x j) : (s.setHold q k x).stack j = s.stack j := rfl
@[simp] theorem setHold_get_hoistChan (q k x j) : (s.setHold q k x).hoistChan j = s.hoistChan j := rfl
@[simp] theorem setHold_get_hoist (q k x j) : (s.setHold q k x).hoist j = s.hoist j := rfl
@[simp] theorem setHold_get_hart (q k x j) : (s.setHold q k x).hart j = s.hart j := rfl
@[simp] theorem setHold_get_port (q k x j) : (s.setHold q k x).port j = s.port j := rfl
@[simp] theorem setHold_get_net (q k x j) : (s.setHold q k x).net j = s.net j := rfl
@[simp] theorem setHold_get_home (q k x j) : (s.setHold q k x).home j = s.home j := rfl
@[simp] theorem setHold_get_now (q k x j) : (s.setHold q k x).now j = s.now j := rfl

/-! setHart -/
@[simp] theorem setHart_pending (q x) : (s.setHart q x).pending = s.pending := rfl
@[simp] theorem setHart_regs (q x) : (s.setHart q x).regs = s.regs := rfl
@[simp] theorem setHart_snap (q x) : (s.setHart q x).snap = s.snap := rfl
@[simp] theorem setHart_mem (q x) : (s.setHart q x).mem = s.mem := rfl
@[simp] theorem setHart_flash (q x) : (s.setHart q x).flash = s.flash := rfl
@[simp] theorem setHart_ecc (q x) : (s.setHart q x).ecc = s.ecc := rfl
@[simp] theorem setHart_time (q x) : (s.setHart q x).time = s.time := rfl
@[simp] theorem setHart_replicas (q x) : (s.setHart q x).replicas = s.replicas := rfl
@[simp] theorem setHart_queues (q x) : (s.setHart q x).queues = s.queues := rfl
@[simp] theorem setHart_lastAt (q x) : (s.setHart q x).lastAt = s.lastAt := rfl
@[simp] theorem setHart_cmds (q x) : (s.setHart q x).cmds = s.cmds := rfl
@[simp] theorem setHart_engines (q x) : (s.setHart q x).engines = s.engines := rfl
@[simp] theorem setHart_accs (q x) : (s.setHart q x).accs = s.accs := rfl
@[simp] theorem setHart_vecs (q x) : (s.setHart q x).vecs = s.vecs := rfl
@[simp] theorem setHart_upds (q x) : (s.setHart q x).upds = s.upds := rfl
@[simp] theorem setHart_chans (q x) : (s.setHart q x).chans = s.chans := rfl
@[simp] theorem setHart_stks (q x) : (s.setHart q x).stks = s.stks := rfl
@[simp] theorem setHart_hoistCh (q x) : (s.setHart q x).hoistCh = s.hoistCh := rfl
@[simp] theorem setHart_hoists (q x) : (s.setHart q x).hoists = s.hoists := rfl
@[simp] theorem setHart_holds (q x) : (s.setHart q x).holds = s.holds := rfl
@[simp] theorem setHart_caches (q x) : (s.setHart q x).caches = s.caches := rfl
@[simp] theorem setHart_dir (q x) : (s.setHart q x).dir = s.dir := rfl
@[simp] theorem setHart_homes (q x) : (s.setHart q x).homes = s.homes := rfl
@[simp] theorem setHart_harts (q x) : (s.setHart q x).harts = Tab.set {} s.harts q x := rfl
@[simp] theorem setHart_imsics (q x) : (s.setHart q x).imsics = s.imsics := rfl
@[simp] theorem setHart_aplic (q x) : (s.setHart q x).aplic = s.aplic := rfl
@[simp] theorem setHart_aplicIe (q x) : (s.setHart q x).aplicIe = s.aplicIe := rfl
@[simp] theorem setHart_input (q x) : (s.setHart q x).input = s.input := rfl
@[simp] theorem setHart_ports (q x) : (s.setHart q x).ports = s.ports := rfl
@[simp] theorem setHart_nets (q x) : (s.setHart q x).nets = s.nets := rfl
@[simp] theorem setHart_coll (q x) : (s.setHart q x).coll = s.coll := rfl
@[simp] theorem setHart_pwr (q x) : (s.setHart q x).pwr = s.pwr := rfl
@[simp] theorem setHart_sec (q x) : (s.setHart q x).sec = s.sec := rfl
@[simp] theorem setHart_obs (q x) : (s.setHart q x).obs = s.obs := rfl
@[simp] theorem setHart_links (q x) : (s.setHart q x).links = s.links := rfl
@[simp] theorem setHart_counters (q x) : (s.setHart q x).counters = s.counters := rfl
@[simp] theorem setHart_draws (q x) : (s.setHart q x).draws = s.draws := rfl
@[simp] theorem setHart_tx (q x) : (s.setHart q x).tx = s.tx := rfl
@[simp] theorem setHart_resp (q x) : (s.setHart q x).resp = s.resp := rfl
@[simp] theorem setHart_get_cmd (q x z) : (s.setHart q x).cmd z = s.cmd z := rfl
@[simp] theorem setHart_get_getR (q x z j) : (s.setHart q x).getR z j = s.getR z j := rfl
@[simp] theorem setHart_get_fld (q x g j) : (s.setHart q x).fld g j = s.fld g j := rfl
@[simp] theorem setHart_get_flag (q x g j) : (s.setHart q x).flag g j = s.flag g j := rfl
@[simp] theorem setHart_get_localGib (q x) : (s.setHart q x).localGib = s.localGib := rfl
@[simp] theorem setHart_get_frozen (q x) : (s.setHart q x).frozen = s.frozen := rfl
@[simp] theorem setHart_get_braking (q x) : (s.setHart q x).braking = s.braking := rfl
@[simp] theorem setHart_get_qState (q x j) : (s.setHart q x).qState j = s.qState j := rfl
@[simp] theorem setHart_get_running (q x) : (s.setHart q x).running = s.running := rfl
@[simp] theorem setHart_get_queue (q x j) : (s.setHart q x).queue j = s.queue j := rfl
@[simp] theorem setHart_get_engine (q x j) : (s.setHart q x).engine j = s.engine j := rfl
@[simp] theorem setHart_get_acc (q x j) : (s.setHart q x).acc j = s.acc j := rfl
@[simp] theorem setHart_get_vec (q x j) : (s.setHart q x).vec j = s.vec j := rfl
@[simp] theorem setHart_get_upd (q x j) : (s.setHart q x).upd j = s.upd j := rfl
@[simp] theorem setHart_get_chan (q x j) : (s.setHart q x).chan j = s.chan j := rfl
@[simp] theorem setHart_get_stack (q x j) : (s.setHart q x).stack j = s.stack j := rfl
@[simp] theorem setHart_get_hoistChan (q x j) : (s.setHart q x).hoistChan j = s.hoistChan j := rfl
@[simp] theorem setHart_get_hoist (q x j) : (s.setHart q x).hoist j = s.hoist j := rfl
@[simp] theorem setHart_get_port (q x j) : (s.setHart q x).port j = s.port j := rfl
@[simp] theorem setHart_get_net (q x j) : (s.setHart q x).net j = s.net j := rfl
@[simp] theorem setHart_get_home (q x j) : (s.setHart q x).home j = s.home j := rfl
@[simp] theorem setHart_get_now (q x j) : (s.setHart q x).now j = s.now j := rfl

/-! setPort -/
@[simp] theorem setPort_pending (q x) : (s.setPort q x).pending = s.pending := rfl
@[simp] theorem setPort_regs (q x) : (s.setPort q x).regs = s.regs := rfl
@[simp] theorem setPort_snap (q x) : (s.setPort q x).snap = s.snap := rfl
@[simp] theorem setPort_mem (q x) : (s.setPort q x).mem = s.mem := rfl
@[simp] theorem setPort_flash (q x) : (s.setPort q x).flash = s.flash := rfl
@[simp] theorem setPort_ecc (q x) : (s.setPort q x).ecc = s.ecc := rfl
@[simp] theorem setPort_time (q x) : (s.setPort q x).time = s.time := rfl
@[simp] theorem setPort_replicas (q x) : (s.setPort q x).replicas = s.replicas := rfl
@[simp] theorem setPort_queues (q x) : (s.setPort q x).queues = s.queues := rfl
@[simp] theorem setPort_lastAt (q x) : (s.setPort q x).lastAt = s.lastAt := rfl
@[simp] theorem setPort_cmds (q x) : (s.setPort q x).cmds = s.cmds := rfl
@[simp] theorem setPort_engines (q x) : (s.setPort q x).engines = s.engines := rfl
@[simp] theorem setPort_accs (q x) : (s.setPort q x).accs = s.accs := rfl
@[simp] theorem setPort_vecs (q x) : (s.setPort q x).vecs = s.vecs := rfl
@[simp] theorem setPort_upds (q x) : (s.setPort q x).upds = s.upds := rfl
@[simp] theorem setPort_chans (q x) : (s.setPort q x).chans = s.chans := rfl
@[simp] theorem setPort_stks (q x) : (s.setPort q x).stks = s.stks := rfl
@[simp] theorem setPort_hoistCh (q x) : (s.setPort q x).hoistCh = s.hoistCh := rfl
@[simp] theorem setPort_hoists (q x) : (s.setPort q x).hoists = s.hoists := rfl
@[simp] theorem setPort_holds (q x) : (s.setPort q x).holds = s.holds := rfl
@[simp] theorem setPort_caches (q x) : (s.setPort q x).caches = s.caches := rfl
@[simp] theorem setPort_dir (q x) : (s.setPort q x).dir = s.dir := rfl
@[simp] theorem setPort_homes (q x) : (s.setPort q x).homes = s.homes := rfl
@[simp] theorem setPort_harts (q x) : (s.setPort q x).harts = s.harts := rfl
@[simp] theorem setPort_imsics (q x) : (s.setPort q x).imsics = s.imsics := rfl
@[simp] theorem setPort_aplic (q x) : (s.setPort q x).aplic = s.aplic := rfl
@[simp] theorem setPort_aplicIe (q x) : (s.setPort q x).aplicIe = s.aplicIe := rfl
@[simp] theorem setPort_input (q x) : (s.setPort q x).input = s.input := rfl
@[simp] theorem setPort_ports (q x) : (s.setPort q x).ports = Tab.set {} s.ports q x := rfl
@[simp] theorem setPort_nets (q x) : (s.setPort q x).nets = s.nets := rfl
@[simp] theorem setPort_coll (q x) : (s.setPort q x).coll = s.coll := rfl
@[simp] theorem setPort_pwr (q x) : (s.setPort q x).pwr = s.pwr := rfl
@[simp] theorem setPort_sec (q x) : (s.setPort q x).sec = s.sec := rfl
@[simp] theorem setPort_obs (q x) : (s.setPort q x).obs = s.obs := rfl
@[simp] theorem setPort_links (q x) : (s.setPort q x).links = s.links := rfl
@[simp] theorem setPort_counters (q x) : (s.setPort q x).counters = s.counters := rfl
@[simp] theorem setPort_draws (q x) : (s.setPort q x).draws = s.draws := rfl
@[simp] theorem setPort_tx (q x) : (s.setPort q x).tx = s.tx := rfl
@[simp] theorem setPort_resp (q x) : (s.setPort q x).resp = s.resp := rfl
@[simp] theorem setPort_get_cmd (q x z) : (s.setPort q x).cmd z = s.cmd z := rfl
@[simp] theorem setPort_get_getR (q x z j) : (s.setPort q x).getR z j = s.getR z j := rfl
@[simp] theorem setPort_get_fld (q x g j) : (s.setPort q x).fld g j = s.fld g j := rfl
@[simp] theorem setPort_get_flag (q x g j) : (s.setPort q x).flag g j = s.flag g j := rfl
@[simp] theorem setPort_get_localGib (q x) : (s.setPort q x).localGib = s.localGib := rfl
@[simp] theorem setPort_get_frozen (q x) : (s.setPort q x).frozen = s.frozen := rfl
@[simp] theorem setPort_get_braking (q x) : (s.setPort q x).braking = s.braking := rfl
@[simp] theorem setPort_get_qState (q x j) : (s.setPort q x).qState j = s.qState j := rfl
@[simp] theorem setPort_get_running (q x) : (s.setPort q x).running = s.running := rfl
@[simp] theorem setPort_get_queue (q x j) : (s.setPort q x).queue j = s.queue j := rfl
@[simp] theorem setPort_get_engine (q x j) : (s.setPort q x).engine j = s.engine j := rfl
@[simp] theorem setPort_get_acc (q x j) : (s.setPort q x).acc j = s.acc j := rfl
@[simp] theorem setPort_get_vec (q x j) : (s.setPort q x).vec j = s.vec j := rfl
@[simp] theorem setPort_get_upd (q x j) : (s.setPort q x).upd j = s.upd j := rfl
@[simp] theorem setPort_get_chan (q x j) : (s.setPort q x).chan j = s.chan j := rfl
@[simp] theorem setPort_get_stack (q x j) : (s.setPort q x).stack j = s.stack j := rfl
@[simp] theorem setPort_get_hoistChan (q x j) : (s.setPort q x).hoistChan j = s.hoistChan j := rfl
@[simp] theorem setPort_get_hoist (q x j) : (s.setPort q x).hoist j = s.hoist j := rfl
@[simp] theorem setPort_get_hart (q x j) : (s.setPort q x).hart j = s.hart j := rfl
@[simp] theorem setPort_get_net (q x j) : (s.setPort q x).net j = s.net j := rfl
@[simp] theorem setPort_get_home (q x j) : (s.setPort q x).home j = s.home j := rfl
@[simp] theorem setPort_get_now (q x j) : (s.setPort q x).now j = s.now j := rfl

/-! setNet -/
@[simp] theorem setNet_pending (q x) : (s.setNet q x).pending = s.pending := rfl
@[simp] theorem setNet_regs (q x) : (s.setNet q x).regs = s.regs := rfl
@[simp] theorem setNet_snap (q x) : (s.setNet q x).snap = s.snap := rfl
@[simp] theorem setNet_mem (q x) : (s.setNet q x).mem = s.mem := rfl
@[simp] theorem setNet_flash (q x) : (s.setNet q x).flash = s.flash := rfl
@[simp] theorem setNet_ecc (q x) : (s.setNet q x).ecc = s.ecc := rfl
@[simp] theorem setNet_time (q x) : (s.setNet q x).time = s.time := rfl
@[simp] theorem setNet_replicas (q x) : (s.setNet q x).replicas = s.replicas := rfl
@[simp] theorem setNet_queues (q x) : (s.setNet q x).queues = s.queues := rfl
@[simp] theorem setNet_lastAt (q x) : (s.setNet q x).lastAt = s.lastAt := rfl
@[simp] theorem setNet_cmds (q x) : (s.setNet q x).cmds = s.cmds := rfl
@[simp] theorem setNet_engines (q x) : (s.setNet q x).engines = s.engines := rfl
@[simp] theorem setNet_accs (q x) : (s.setNet q x).accs = s.accs := rfl
@[simp] theorem setNet_vecs (q x) : (s.setNet q x).vecs = s.vecs := rfl
@[simp] theorem setNet_upds (q x) : (s.setNet q x).upds = s.upds := rfl
@[simp] theorem setNet_chans (q x) : (s.setNet q x).chans = s.chans := rfl
@[simp] theorem setNet_stks (q x) : (s.setNet q x).stks = s.stks := rfl
@[simp] theorem setNet_hoistCh (q x) : (s.setNet q x).hoistCh = s.hoistCh := rfl
@[simp] theorem setNet_hoists (q x) : (s.setNet q x).hoists = s.hoists := rfl
@[simp] theorem setNet_holds (q x) : (s.setNet q x).holds = s.holds := rfl
@[simp] theorem setNet_caches (q x) : (s.setNet q x).caches = s.caches := rfl
@[simp] theorem setNet_dir (q x) : (s.setNet q x).dir = s.dir := rfl
@[simp] theorem setNet_homes (q x) : (s.setNet q x).homes = s.homes := rfl
@[simp] theorem setNet_harts (q x) : (s.setNet q x).harts = s.harts := rfl
@[simp] theorem setNet_imsics (q x) : (s.setNet q x).imsics = s.imsics := rfl
@[simp] theorem setNet_aplic (q x) : (s.setNet q x).aplic = s.aplic := rfl
@[simp] theorem setNet_aplicIe (q x) : (s.setNet q x).aplicIe = s.aplicIe := rfl
@[simp] theorem setNet_input (q x) : (s.setNet q x).input = s.input := rfl
@[simp] theorem setNet_ports (q x) : (s.setNet q x).ports = s.ports := rfl
@[simp] theorem setNet_nets (q x) : (s.setNet q x).nets = Tab.set {} s.nets q x := rfl
@[simp] theorem setNet_coll (q x) : (s.setNet q x).coll = s.coll := rfl
@[simp] theorem setNet_pwr (q x) : (s.setNet q x).pwr = s.pwr := rfl
@[simp] theorem setNet_sec (q x) : (s.setNet q x).sec = s.sec := rfl
@[simp] theorem setNet_obs (q x) : (s.setNet q x).obs = s.obs := rfl
@[simp] theorem setNet_links (q x) : (s.setNet q x).links = s.links := rfl
@[simp] theorem setNet_counters (q x) : (s.setNet q x).counters = s.counters := rfl
@[simp] theorem setNet_draws (q x) : (s.setNet q x).draws = s.draws := rfl
@[simp] theorem setNet_tx (q x) : (s.setNet q x).tx = s.tx := rfl
@[simp] theorem setNet_resp (q x) : (s.setNet q x).resp = s.resp := rfl
@[simp] theorem setNet_get_cmd (q x z) : (s.setNet q x).cmd z = s.cmd z := rfl
@[simp] theorem setNet_get_getR (q x z j) : (s.setNet q x).getR z j = s.getR z j := rfl
@[simp] theorem setNet_get_fld (q x g j) : (s.setNet q x).fld g j = s.fld g j := rfl
@[simp] theorem setNet_get_flag (q x g j) : (s.setNet q x).flag g j = s.flag g j := rfl
@[simp] theorem setNet_get_localGib (q x) : (s.setNet q x).localGib = s.localGib := rfl
@[simp] theorem setNet_get_frozen (q x) : (s.setNet q x).frozen = s.frozen := rfl
@[simp] theorem setNet_get_braking (q x) : (s.setNet q x).braking = s.braking := rfl
@[simp] theorem setNet_get_qState (q x j) : (s.setNet q x).qState j = s.qState j := rfl
@[simp] theorem setNet_get_running (q x) : (s.setNet q x).running = s.running := rfl
@[simp] theorem setNet_get_queue (q x j) : (s.setNet q x).queue j = s.queue j := rfl
@[simp] theorem setNet_get_engine (q x j) : (s.setNet q x).engine j = s.engine j := rfl
@[simp] theorem setNet_get_acc (q x j) : (s.setNet q x).acc j = s.acc j := rfl
@[simp] theorem setNet_get_vec (q x j) : (s.setNet q x).vec j = s.vec j := rfl
@[simp] theorem setNet_get_upd (q x j) : (s.setNet q x).upd j = s.upd j := rfl
@[simp] theorem setNet_get_chan (q x j) : (s.setNet q x).chan j = s.chan j := rfl
@[simp] theorem setNet_get_stack (q x j) : (s.setNet q x).stack j = s.stack j := rfl
@[simp] theorem setNet_get_hoistChan (q x j) : (s.setNet q x).hoistChan j = s.hoistChan j := rfl
@[simp] theorem setNet_get_hoist (q x j) : (s.setNet q x).hoist j = s.hoist j := rfl
@[simp] theorem setNet_get_hart (q x j) : (s.setNet q x).hart j = s.hart j := rfl
@[simp] theorem setNet_get_port (q x j) : (s.setNet q x).port j = s.port j := rfl
@[simp] theorem setNet_get_home (q x j) : (s.setNet q x).home j = s.home j := rfl
@[simp] theorem setNet_get_now (q x j) : (s.setNet q x).now j = s.now j := rfl

/-! setHome -/
@[simp] theorem setHome_pending (q x) : (s.setHome q x).pending = s.pending := rfl
@[simp] theorem setHome_regs (q x) : (s.setHome q x).regs = s.regs := rfl
@[simp] theorem setHome_snap (q x) : (s.setHome q x).snap = s.snap := rfl
@[simp] theorem setHome_mem (q x) : (s.setHome q x).mem = s.mem := rfl
@[simp] theorem setHome_flash (q x) : (s.setHome q x).flash = s.flash := rfl
@[simp] theorem setHome_ecc (q x) : (s.setHome q x).ecc = s.ecc := rfl
@[simp] theorem setHome_time (q x) : (s.setHome q x).time = s.time := rfl
@[simp] theorem setHome_replicas (q x) : (s.setHome q x).replicas = s.replicas := rfl
@[simp] theorem setHome_queues (q x) : (s.setHome q x).queues = s.queues := rfl
@[simp] theorem setHome_lastAt (q x) : (s.setHome q x).lastAt = s.lastAt := rfl
@[simp] theorem setHome_cmds (q x) : (s.setHome q x).cmds = s.cmds := rfl
@[simp] theorem setHome_engines (q x) : (s.setHome q x).engines = s.engines := rfl
@[simp] theorem setHome_accs (q x) : (s.setHome q x).accs = s.accs := rfl
@[simp] theorem setHome_vecs (q x) : (s.setHome q x).vecs = s.vecs := rfl
@[simp] theorem setHome_upds (q x) : (s.setHome q x).upds = s.upds := rfl
@[simp] theorem setHome_chans (q x) : (s.setHome q x).chans = s.chans := rfl
@[simp] theorem setHome_stks (q x) : (s.setHome q x).stks = s.stks := rfl
@[simp] theorem setHome_hoistCh (q x) : (s.setHome q x).hoistCh = s.hoistCh := rfl
@[simp] theorem setHome_hoists (q x) : (s.setHome q x).hoists = s.hoists := rfl
@[simp] theorem setHome_holds (q x) : (s.setHome q x).holds = s.holds := rfl
@[simp] theorem setHome_caches (q x) : (s.setHome q x).caches = s.caches := rfl
@[simp] theorem setHome_dir (q x) : (s.setHome q x).dir = s.dir := rfl
@[simp] theorem setHome_homes (q x) : (s.setHome q x).homes = Tab.set {} s.homes q x := rfl
@[simp] theorem setHome_harts (q x) : (s.setHome q x).harts = s.harts := rfl
@[simp] theorem setHome_imsics (q x) : (s.setHome q x).imsics = s.imsics := rfl
@[simp] theorem setHome_aplic (q x) : (s.setHome q x).aplic = s.aplic := rfl
@[simp] theorem setHome_aplicIe (q x) : (s.setHome q x).aplicIe = s.aplicIe := rfl
@[simp] theorem setHome_input (q x) : (s.setHome q x).input = s.input := rfl
@[simp] theorem setHome_ports (q x) : (s.setHome q x).ports = s.ports := rfl
@[simp] theorem setHome_nets (q x) : (s.setHome q x).nets = s.nets := rfl
@[simp] theorem setHome_coll (q x) : (s.setHome q x).coll = s.coll := rfl
@[simp] theorem setHome_pwr (q x) : (s.setHome q x).pwr = s.pwr := rfl
@[simp] theorem setHome_sec (q x) : (s.setHome q x).sec = s.sec := rfl
@[simp] theorem setHome_obs (q x) : (s.setHome q x).obs = s.obs := rfl
@[simp] theorem setHome_links (q x) : (s.setHome q x).links = s.links := rfl
@[simp] theorem setHome_counters (q x) : (s.setHome q x).counters = s.counters := rfl
@[simp] theorem setHome_draws (q x) : (s.setHome q x).draws = s.draws := rfl
@[simp] theorem setHome_tx (q x) : (s.setHome q x).tx = s.tx := rfl
@[simp] theorem setHome_resp (q x) : (s.setHome q x).resp = s.resp := rfl
@[simp] theorem setHome_get_cmd (q x z) : (s.setHome q x).cmd z = s.cmd z := rfl
@[simp] theorem setHome_get_getR (q x z j) : (s.setHome q x).getR z j = s.getR z j := rfl
@[simp] theorem setHome_get_fld (q x g j) : (s.setHome q x).fld g j = s.fld g j := rfl
@[simp] theorem setHome_get_flag (q x g j) : (s.setHome q x).flag g j = s.flag g j := rfl
@[simp] theorem setHome_get_localGib (q x) : (s.setHome q x).localGib = s.localGib := rfl
@[simp] theorem setHome_get_frozen (q x) : (s.setHome q x).frozen = s.frozen := rfl
@[simp] theorem setHome_get_braking (q x) : (s.setHome q x).braking = s.braking := rfl
@[simp] theorem setHome_get_qState (q x j) : (s.setHome q x).qState j = s.qState j := rfl
@[simp] theorem setHome_get_running (q x) : (s.setHome q x).running = s.running := rfl
@[simp] theorem setHome_get_queue (q x j) : (s.setHome q x).queue j = s.queue j := rfl
@[simp] theorem setHome_get_engine (q x j) : (s.setHome q x).engine j = s.engine j := rfl
@[simp] theorem setHome_get_acc (q x j) : (s.setHome q x).acc j = s.acc j := rfl
@[simp] theorem setHome_get_vec (q x j) : (s.setHome q x).vec j = s.vec j := rfl
@[simp] theorem setHome_get_upd (q x j) : (s.setHome q x).upd j = s.upd j := rfl
@[simp] theorem setHome_get_chan (q x j) : (s.setHome q x).chan j = s.chan j := rfl
@[simp] theorem setHome_get_stack (q x j) : (s.setHome q x).stack j = s.stack j := rfl
@[simp] theorem setHome_get_hoistChan (q x j) : (s.setHome q x).hoistChan j = s.hoistChan j := rfl
@[simp] theorem setHome_get_hoist (q x j) : (s.setHome q x).hoist j = s.hoist j := rfl
@[simp] theorem setHome_get_hart (q x j) : (s.setHome q x).hart j = s.hart j := rfl
@[simp] theorem setHome_get_port (q x j) : (s.setHome q x).port j = s.port j := rfl
@[simp] theorem setHome_get_net (q x j) : (s.setHome q x).net j = s.net j := rfl
@[simp] theorem setHome_get_now (q x j) : (s.setHome q x).now j = s.now j := rfl

/-! setCmd -/
@[simp] theorem setCmd_pending (c) : (s.setCmd c).pending = s.pending := rfl
@[simp] theorem setCmd_regs (c) : (s.setCmd c).regs = s.regs := rfl
@[simp] theorem setCmd_snap (c) : (s.setCmd c).snap = s.snap := rfl
@[simp] theorem setCmd_mem (c) : (s.setCmd c).mem = s.mem := rfl
@[simp] theorem setCmd_flash (c) : (s.setCmd c).flash = s.flash := rfl
@[simp] theorem setCmd_ecc (c) : (s.setCmd c).ecc = s.ecc := rfl
@[simp] theorem setCmd_time (c) : (s.setCmd c).time = s.time := rfl
@[simp] theorem setCmd_replicas (c) : (s.setCmd c).replicas = s.replicas := rfl
@[simp] theorem setCmd_queues (c) : (s.setCmd c).queues = s.queues := rfl
@[simp] theorem setCmd_lastAt (c) : (s.setCmd c).lastAt = s.lastAt := rfl
@[simp] theorem setCmd_engines (c) : (s.setCmd c).engines = s.engines := rfl
@[simp] theorem setCmd_accs (c) : (s.setCmd c).accs = s.accs := rfl
@[simp] theorem setCmd_vecs (c) : (s.setCmd c).vecs = s.vecs := rfl
@[simp] theorem setCmd_upds (c) : (s.setCmd c).upds = s.upds := rfl
@[simp] theorem setCmd_chans (c) : (s.setCmd c).chans = s.chans := rfl
@[simp] theorem setCmd_stks (c) : (s.setCmd c).stks = s.stks := rfl
@[simp] theorem setCmd_hoistCh (c) : (s.setCmd c).hoistCh = s.hoistCh := rfl
@[simp] theorem setCmd_hoists (c) : (s.setCmd c).hoists = s.hoists := rfl
@[simp] theorem setCmd_holds (c) : (s.setCmd c).holds = s.holds := rfl
@[simp] theorem setCmd_caches (c) : (s.setCmd c).caches = s.caches := rfl
@[simp] theorem setCmd_dir (c) : (s.setCmd c).dir = s.dir := rfl
@[simp] theorem setCmd_homes (c) : (s.setCmd c).homes = s.homes := rfl
@[simp] theorem setCmd_harts (c) : (s.setCmd c).harts = s.harts := rfl
@[simp] theorem setCmd_imsics (c) : (s.setCmd c).imsics = s.imsics := rfl
@[simp] theorem setCmd_aplic (c) : (s.setCmd c).aplic = s.aplic := rfl
@[simp] theorem setCmd_aplicIe (c) : (s.setCmd c).aplicIe = s.aplicIe := rfl
@[simp] theorem setCmd_input (c) : (s.setCmd c).input = s.input := rfl
@[simp] theorem setCmd_ports (c) : (s.setCmd c).ports = s.ports := rfl
@[simp] theorem setCmd_nets (c) : (s.setCmd c).nets = s.nets := rfl
@[simp] theorem setCmd_coll (c) : (s.setCmd c).coll = s.coll := rfl
@[simp] theorem setCmd_pwr (c) : (s.setCmd c).pwr = s.pwr := rfl
@[simp] theorem setCmd_sec (c) : (s.setCmd c).sec = s.sec := rfl
@[simp] theorem setCmd_obs (c) : (s.setCmd c).obs = s.obs := rfl
@[simp] theorem setCmd_links (c) : (s.setCmd c).links = s.links := rfl
@[simp] theorem setCmd_counters (c) : (s.setCmd c).counters = s.counters := rfl
@[simp] theorem setCmd_draws (c) : (s.setCmd c).draws = s.draws := rfl
@[simp] theorem setCmd_tx (c) : (s.setCmd c).tx = s.tx := rfl
@[simp] theorem setCmd_resp (c) : (s.setCmd c).resp = s.resp := rfl
@[simp] theorem setCmd_get_getR (c z j) : (s.setCmd c).getR z j = s.getR z j := rfl
@[simp] theorem setCmd_get_fld (c g j) : (s.setCmd c).fld g j = s.fld g j := rfl
@[simp] theorem setCmd_get_flag (c g j) : (s.setCmd c).flag g j = s.flag g j := rfl
@[simp] theorem setCmd_get_localGib (c) : (s.setCmd c).localGib = s.localGib := rfl
@[simp] theorem setCmd_get_frozen (c) : (s.setCmd c).frozen = s.frozen := rfl
@[simp] theorem setCmd_get_braking (c) : (s.setCmd c).braking = s.braking := rfl
@[simp] theorem setCmd_get_qState (c j) : (s.setCmd c).qState j = s.qState j := rfl
@[simp] theorem setCmd_get_running (c) : (s.setCmd c).running = s.running := rfl
@[simp] theorem setCmd_get_queue (c j) : (s.setCmd c).queue j = s.queue j := rfl
@[simp] theorem setCmd_get_engine (c j) : (s.setCmd c).engine j = s.engine j := rfl
@[simp] theorem setCmd_get_acc (c j) : (s.setCmd c).acc j = s.acc j := rfl
@[simp] theorem setCmd_get_vec (c j) : (s.setCmd c).vec j = s.vec j := rfl
@[simp] theorem setCmd_get_upd (c j) : (s.setCmd c).upd j = s.upd j := rfl
@[simp] theorem setCmd_get_chan (c j) : (s.setCmd c).chan j = s.chan j := rfl
@[simp] theorem setCmd_get_stack (c j) : (s.setCmd c).stack j = s.stack j := rfl
@[simp] theorem setCmd_get_hoistChan (c j) : (s.setCmd c).hoistChan j = s.hoistChan j := rfl
@[simp] theorem setCmd_get_hoist (c j) : (s.setCmd c).hoist j = s.hoist j := rfl
@[simp] theorem setCmd_get_hart (c j) : (s.setCmd c).hart j = s.hart j := rfl
@[simp] theorem setCmd_get_port (c j) : (s.setCmd c).port j = s.port j := rfl
@[simp] theorem setCmd_get_net (c j) : (s.setCmd c).net j = s.net j := rfl
@[simp] theorem setCmd_get_home (c j) : (s.setCmd c).home j = s.home j := rfl
@[simp] theorem setCmd_get_now (c j) : (s.setCmd c).now j = s.now j := rfl

/-! modCmd -/
@[simp] theorem modCmd_pending (r f) : (s.modCmd r f).pending = s.pending := rfl
@[simp] theorem modCmd_regs (r f) : (s.modCmd r f).regs = s.regs := rfl
@[simp] theorem modCmd_snap (r f) : (s.modCmd r f).snap = s.snap := rfl
@[simp] theorem modCmd_mem (r f) : (s.modCmd r f).mem = s.mem := rfl
@[simp] theorem modCmd_flash (r f) : (s.modCmd r f).flash = s.flash := rfl
@[simp] theorem modCmd_ecc (r f) : (s.modCmd r f).ecc = s.ecc := rfl
@[simp] theorem modCmd_time (r f) : (s.modCmd r f).time = s.time := rfl
@[simp] theorem modCmd_replicas (r f) : (s.modCmd r f).replicas = s.replicas := rfl
@[simp] theorem modCmd_queues (r f) : (s.modCmd r f).queues = s.queues := rfl
@[simp] theorem modCmd_lastAt (r f) : (s.modCmd r f).lastAt = s.lastAt := rfl
@[simp] theorem modCmd_engines (r f) : (s.modCmd r f).engines = s.engines := rfl
@[simp] theorem modCmd_accs (r f) : (s.modCmd r f).accs = s.accs := rfl
@[simp] theorem modCmd_vecs (r f) : (s.modCmd r f).vecs = s.vecs := rfl
@[simp] theorem modCmd_upds (r f) : (s.modCmd r f).upds = s.upds := rfl
@[simp] theorem modCmd_chans (r f) : (s.modCmd r f).chans = s.chans := rfl
@[simp] theorem modCmd_stks (r f) : (s.modCmd r f).stks = s.stks := rfl
@[simp] theorem modCmd_hoistCh (r f) : (s.modCmd r f).hoistCh = s.hoistCh := rfl
@[simp] theorem modCmd_hoists (r f) : (s.modCmd r f).hoists = s.hoists := rfl
@[simp] theorem modCmd_holds (r f) : (s.modCmd r f).holds = s.holds := rfl
@[simp] theorem modCmd_caches (r f) : (s.modCmd r f).caches = s.caches := rfl
@[simp] theorem modCmd_dir (r f) : (s.modCmd r f).dir = s.dir := rfl
@[simp] theorem modCmd_homes (r f) : (s.modCmd r f).homes = s.homes := rfl
@[simp] theorem modCmd_harts (r f) : (s.modCmd r f).harts = s.harts := rfl
@[simp] theorem modCmd_imsics (r f) : (s.modCmd r f).imsics = s.imsics := rfl
@[simp] theorem modCmd_aplic (r f) : (s.modCmd r f).aplic = s.aplic := rfl
@[simp] theorem modCmd_aplicIe (r f) : (s.modCmd r f).aplicIe = s.aplicIe := rfl
@[simp] theorem modCmd_input (r f) : (s.modCmd r f).input = s.input := rfl
@[simp] theorem modCmd_ports (r f) : (s.modCmd r f).ports = s.ports := rfl
@[simp] theorem modCmd_nets (r f) : (s.modCmd r f).nets = s.nets := rfl
@[simp] theorem modCmd_coll (r f) : (s.modCmd r f).coll = s.coll := rfl
@[simp] theorem modCmd_pwr (r f) : (s.modCmd r f).pwr = s.pwr := rfl
@[simp] theorem modCmd_sec (r f) : (s.modCmd r f).sec = s.sec := rfl
@[simp] theorem modCmd_obs (r f) : (s.modCmd r f).obs = s.obs := rfl
@[simp] theorem modCmd_links (r f) : (s.modCmd r f).links = s.links := rfl
@[simp] theorem modCmd_counters (r f) : (s.modCmd r f).counters = s.counters := rfl
@[simp] theorem modCmd_draws (r f) : (s.modCmd r f).draws = s.draws := rfl
@[simp] theorem modCmd_tx (r f) : (s.modCmd r f).tx = s.tx := rfl
@[simp] theorem modCmd_resp (r f) : (s.modCmd r f).resp = s.resp := rfl
@[simp] theorem modCmd_get_getR (r f z j) : (s.modCmd r f).getR z j = s.getR z j := rfl
@[simp] theorem modCmd_get_fld (r f g j) : (s.modCmd r f).fld g j = s.fld g j := rfl
@[simp] theorem modCmd_get_flag (r f g j) : (s.modCmd r f).flag g j = s.flag g j := rfl
@[simp] theorem modCmd_get_localGib (r f) : (s.modCmd r f).localGib = s.localGib := rfl
@[simp] theorem modCmd_get_frozen (r f) : (s.modCmd r f).frozen = s.frozen := rfl
@[simp] theorem modCmd_get_braking (r f) : (s.modCmd r f).braking = s.braking := rfl
@[simp] theorem modCmd_get_qState (r f j) : (s.modCmd r f).qState j = s.qState j := rfl
@[simp] theorem modCmd_get_running (r f) : (s.modCmd r f).running = s.running := rfl
@[simp] theorem modCmd_get_queue (r f j) : (s.modCmd r f).queue j = s.queue j := rfl
@[simp] theorem modCmd_get_engine (r f j) : (s.modCmd r f).engine j = s.engine j := rfl
@[simp] theorem modCmd_get_acc (r f j) : (s.modCmd r f).acc j = s.acc j := rfl
@[simp] theorem modCmd_get_vec (r f j) : (s.modCmd r f).vec j = s.vec j := rfl
@[simp] theorem modCmd_get_upd (r f j) : (s.modCmd r f).upd j = s.upd j := rfl
@[simp] theorem modCmd_get_chan (r f j) : (s.modCmd r f).chan j = s.chan j := rfl
@[simp] theorem modCmd_get_stack (r f j) : (s.modCmd r f).stack j = s.stack j := rfl
@[simp] theorem modCmd_get_hoistChan (r f j) : (s.modCmd r f).hoistChan j = s.hoistChan j := rfl
@[simp] theorem modCmd_get_hoist (r f j) : (s.modCmd r f).hoist j = s.hoist j := rfl
@[simp] theorem modCmd_get_hart (r f j) : (s.modCmd r f).hart j = s.hart j := rfl
@[simp] theorem modCmd_get_port (r f j) : (s.modCmd r f).port j = s.port j := rfl
@[simp] theorem modCmd_get_net (r f j) : (s.modCmd r f).net j = s.net j := rfl
@[simp] theorem modCmd_get_home (r f j) : (s.modCmd r f).home j = s.home j := rfl
@[simp] theorem modCmd_get_now (r f j) : (s.modCmd r f).now j = s.now j := rfl

/-! finish -/
@[simp] theorem finish_pending (r a b) : (s.finish r a b).pending = s.pending := rfl
@[simp] theorem finish_regs (r a b) : (s.finish r a b).regs = s.regs := rfl
@[simp] theorem finish_snap (r a b) : (s.finish r a b).snap = s.snap := rfl
@[simp] theorem finish_mem (r a b) : (s.finish r a b).mem = s.mem := rfl
@[simp] theorem finish_flash (r a b) : (s.finish r a b).flash = s.flash := rfl
@[simp] theorem finish_ecc (r a b) : (s.finish r a b).ecc = s.ecc := rfl
@[simp] theorem finish_time (r a b) : (s.finish r a b).time = s.time := rfl
@[simp] theorem finish_replicas (r a b) : (s.finish r a b).replicas = s.replicas := rfl
@[simp] theorem finish_queues (r a b) : (s.finish r a b).queues = s.queues := rfl
@[simp] theorem finish_lastAt (r a b) : (s.finish r a b).lastAt = s.lastAt := rfl
@[simp] theorem finish_engines (r a b) : (s.finish r a b).engines = s.engines := rfl
@[simp] theorem finish_accs (r a b) : (s.finish r a b).accs = s.accs := rfl
@[simp] theorem finish_vecs (r a b) : (s.finish r a b).vecs = s.vecs := rfl
@[simp] theorem finish_upds (r a b) : (s.finish r a b).upds = s.upds := rfl
@[simp] theorem finish_chans (r a b) : (s.finish r a b).chans = s.chans := rfl
@[simp] theorem finish_stks (r a b) : (s.finish r a b).stks = s.stks := rfl
@[simp] theorem finish_hoistCh (r a b) : (s.finish r a b).hoistCh = s.hoistCh := rfl
@[simp] theorem finish_hoists (r a b) : (s.finish r a b).hoists = s.hoists := rfl
@[simp] theorem finish_holds (r a b) : (s.finish r a b).holds = s.holds := rfl
@[simp] theorem finish_caches (r a b) : (s.finish r a b).caches = s.caches := rfl
@[simp] theorem finish_dir (r a b) : (s.finish r a b).dir = s.dir := rfl
@[simp] theorem finish_homes (r a b) : (s.finish r a b).homes = s.homes := rfl
@[simp] theorem finish_harts (r a b) : (s.finish r a b).harts = s.harts := rfl
@[simp] theorem finish_imsics (r a b) : (s.finish r a b).imsics = s.imsics := rfl
@[simp] theorem finish_aplic (r a b) : (s.finish r a b).aplic = s.aplic := rfl
@[simp] theorem finish_aplicIe (r a b) : (s.finish r a b).aplicIe = s.aplicIe := rfl
@[simp] theorem finish_input (r a b) : (s.finish r a b).input = s.input := rfl
@[simp] theorem finish_ports (r a b) : (s.finish r a b).ports = s.ports := rfl
@[simp] theorem finish_nets (r a b) : (s.finish r a b).nets = s.nets := rfl
@[simp] theorem finish_coll (r a b) : (s.finish r a b).coll = s.coll := rfl
@[simp] theorem finish_pwr (r a b) : (s.finish r a b).pwr = s.pwr := rfl
@[simp] theorem finish_sec (r a b) : (s.finish r a b).sec = s.sec := rfl
@[simp] theorem finish_obs (r a b) : (s.finish r a b).obs = s.obs := rfl
@[simp] theorem finish_links (r a b) : (s.finish r a b).links = s.links := rfl
@[simp] theorem finish_counters (r a b) : (s.finish r a b).counters = s.counters := rfl
@[simp] theorem finish_draws (r a b) : (s.finish r a b).draws = s.draws := rfl
@[simp] theorem finish_tx (r a b) : (s.finish r a b).tx = s.tx := rfl
@[simp] theorem finish_resp (r a b) : (s.finish r a b).resp = s.resp := rfl
@[simp] theorem finish_get_getR (r a b z j) : (s.finish r a b).getR z j = s.getR z j := rfl
@[simp] theorem finish_get_fld (r a b g j) : (s.finish r a b).fld g j = s.fld g j := rfl
@[simp] theorem finish_get_flag (r a b g j) : (s.finish r a b).flag g j = s.flag g j := rfl
@[simp] theorem finish_get_localGib (r a b) : (s.finish r a b).localGib = s.localGib := rfl
@[simp] theorem finish_get_frozen (r a b) : (s.finish r a b).frozen = s.frozen := rfl
@[simp] theorem finish_get_braking (r a b) : (s.finish r a b).braking = s.braking := rfl
@[simp] theorem finish_get_qState (r a b j) : (s.finish r a b).qState j = s.qState j := rfl
@[simp] theorem finish_get_running (r a b) : (s.finish r a b).running = s.running := rfl
@[simp] theorem finish_get_queue (r a b j) : (s.finish r a b).queue j = s.queue j := rfl
@[simp] theorem finish_get_engine (r a b j) : (s.finish r a b).engine j = s.engine j := rfl
@[simp] theorem finish_get_acc (r a b j) : (s.finish r a b).acc j = s.acc j := rfl
@[simp] theorem finish_get_vec (r a b j) : (s.finish r a b).vec j = s.vec j := rfl
@[simp] theorem finish_get_upd (r a b j) : (s.finish r a b).upd j = s.upd j := rfl
@[simp] theorem finish_get_chan (r a b j) : (s.finish r a b).chan j = s.chan j := rfl
@[simp] theorem finish_get_stack (r a b j) : (s.finish r a b).stack j = s.stack j := rfl
@[simp] theorem finish_get_hoistChan (r a b j) : (s.finish r a b).hoistChan j = s.hoistChan j := rfl
@[simp] theorem finish_get_hoist (r a b j) : (s.finish r a b).hoist j = s.hoist j := rfl
@[simp] theorem finish_get_hart (r a b j) : (s.finish r a b).hart j = s.hart j := rfl
@[simp] theorem finish_get_port (r a b j) : (s.finish r a b).port j = s.port j := rfl
@[simp] theorem finish_get_net (r a b j) : (s.finish r a b).net j = s.net j := rfl
@[simp] theorem finish_get_home (r a b j) : (s.finish r a b).home j = s.home j := rfl
@[simp] theorem finish_get_now (r a b j) : (s.finish r a b).now j = s.now j := rfl

/-! wrote -/
@[simp] theorem wrote_pending (r) : (s.wrote r).pending = s.pending := rfl
@[simp] theorem wrote_regs (r) : (s.wrote r).regs = s.regs := rfl
@[simp] theorem wrote_snap (r) : (s.wrote r).snap = s.snap := rfl
@[simp] theorem wrote_mem (r) : (s.wrote r).mem = s.mem := rfl
@[simp] theorem wrote_flash (r) : (s.wrote r).flash = s.flash := rfl
@[simp] theorem wrote_ecc (r) : (s.wrote r).ecc = s.ecc := rfl
@[simp] theorem wrote_time (r) : (s.wrote r).time = s.time := rfl
@[simp] theorem wrote_replicas (r) : (s.wrote r).replicas = s.replicas := rfl
@[simp] theorem wrote_queues (r) : (s.wrote r).queues = s.queues := rfl
@[simp] theorem wrote_lastAt (r) : (s.wrote r).lastAt = s.lastAt := rfl
@[simp] theorem wrote_engines (r) : (s.wrote r).engines = s.engines := rfl
@[simp] theorem wrote_accs (r) : (s.wrote r).accs = s.accs := rfl
@[simp] theorem wrote_vecs (r) : (s.wrote r).vecs = s.vecs := rfl
@[simp] theorem wrote_upds (r) : (s.wrote r).upds = s.upds := rfl
@[simp] theorem wrote_chans (r) : (s.wrote r).chans = s.chans := rfl
@[simp] theorem wrote_stks (r) : (s.wrote r).stks = s.stks := rfl
@[simp] theorem wrote_hoistCh (r) : (s.wrote r).hoistCh = s.hoistCh := rfl
@[simp] theorem wrote_hoists (r) : (s.wrote r).hoists = s.hoists := rfl
@[simp] theorem wrote_holds (r) : (s.wrote r).holds = s.holds := rfl
@[simp] theorem wrote_caches (r) : (s.wrote r).caches = s.caches := rfl
@[simp] theorem wrote_dir (r) : (s.wrote r).dir = s.dir := rfl
@[simp] theorem wrote_homes (r) : (s.wrote r).homes = s.homes := rfl
@[simp] theorem wrote_harts (r) : (s.wrote r).harts = s.harts := rfl
@[simp] theorem wrote_imsics (r) : (s.wrote r).imsics = s.imsics := rfl
@[simp] theorem wrote_aplic (r) : (s.wrote r).aplic = s.aplic := rfl
@[simp] theorem wrote_aplicIe (r) : (s.wrote r).aplicIe = s.aplicIe := rfl
@[simp] theorem wrote_input (r) : (s.wrote r).input = s.input := rfl
@[simp] theorem wrote_ports (r) : (s.wrote r).ports = s.ports := rfl
@[simp] theorem wrote_nets (r) : (s.wrote r).nets = s.nets := rfl
@[simp] theorem wrote_coll (r) : (s.wrote r).coll = s.coll := rfl
@[simp] theorem wrote_pwr (r) : (s.wrote r).pwr = s.pwr := rfl
@[simp] theorem wrote_sec (r) : (s.wrote r).sec = s.sec := rfl
@[simp] theorem wrote_obs (r) : (s.wrote r).obs = s.obs := rfl
@[simp] theorem wrote_links (r) : (s.wrote r).links = s.links := rfl
@[simp] theorem wrote_counters (r) : (s.wrote r).counters = s.counters := rfl
@[simp] theorem wrote_draws (r) : (s.wrote r).draws = s.draws := rfl
@[simp] theorem wrote_tx (r) : (s.wrote r).tx = s.tx := rfl
@[simp] theorem wrote_resp (r) : (s.wrote r).resp = s.resp := rfl
@[simp] theorem wrote_get_getR (r z j) : (s.wrote r).getR z j = s.getR z j := rfl
@[simp] theorem wrote_get_fld (r g j) : (s.wrote r).fld g j = s.fld g j := rfl
@[simp] theorem wrote_get_flag (r g j) : (s.wrote r).flag g j = s.flag g j := rfl
@[simp] theorem wrote_get_localGib (r) : (s.wrote r).localGib = s.localGib := rfl
@[simp] theorem wrote_get_frozen (r) : (s.wrote r).frozen = s.frozen := rfl
@[simp] theorem wrote_get_braking (r) : (s.wrote r).braking = s.braking := rfl
@[simp] theorem wrote_get_qState (r j) : (s.wrote r).qState j = s.qState j := rfl
@[simp] theorem wrote_get_running (r) : (s.wrote r).running = s.running := rfl
@[simp] theorem wrote_get_queue (r j) : (s.wrote r).queue j = s.queue j := rfl
@[simp] theorem wrote_get_engine (r j) : (s.wrote r).engine j = s.engine j := rfl
@[simp] theorem wrote_get_acc (r j) : (s.wrote r).acc j = s.acc j := rfl
@[simp] theorem wrote_get_vec (r j) : (s.wrote r).vec j = s.vec j := rfl
@[simp] theorem wrote_get_upd (r j) : (s.wrote r).upd j = s.upd j := rfl
@[simp] theorem wrote_get_chan (r j) : (s.wrote r).chan j = s.chan j := rfl
@[simp] theorem wrote_get_stack (r j) : (s.wrote r).stack j = s.stack j := rfl
@[simp] theorem wrote_get_hoistChan (r j) : (s.wrote r).hoistChan j = s.hoistChan j := rfl
@[simp] theorem wrote_get_hoist (r j) : (s.wrote r).hoist j = s.hoist j := rfl
@[simp] theorem wrote_get_hart (r j) : (s.wrote r).hart j = s.hart j := rfl
@[simp] theorem wrote_get_port (r j) : (s.wrote r).port j = s.port j := rfl
@[simp] theorem wrote_get_net (r j) : (s.wrote r).net j = s.net j := rfl
@[simp] theorem wrote_get_home (r j) : (s.wrote r).home j = s.home j := rfl
@[simp] theorem wrote_get_now (r j) : (s.wrote r).now j = s.now j := rfl

/-! noteCmd -/
@[simp] theorem noteCmd_pending (r n) : (s.noteCmd r n).pending = s.pending := rfl
@[simp] theorem noteCmd_regs (r n) : (s.noteCmd r n).regs = s.regs := rfl
@[simp] theorem noteCmd_snap (r n) : (s.noteCmd r n).snap = s.snap := rfl
@[simp] theorem noteCmd_mem (r n) : (s.noteCmd r n).mem = s.mem := rfl
@[simp] theorem noteCmd_flash (r n) : (s.noteCmd r n).flash = s.flash := rfl
@[simp] theorem noteCmd_ecc (r n) : (s.noteCmd r n).ecc = s.ecc := rfl
@[simp] theorem noteCmd_time (r n) : (s.noteCmd r n).time = s.time := rfl
@[simp] theorem noteCmd_replicas (r n) : (s.noteCmd r n).replicas = s.replicas := rfl
@[simp] theorem noteCmd_queues (r n) : (s.noteCmd r n).queues = s.queues := rfl
@[simp] theorem noteCmd_lastAt (r n) : (s.noteCmd r n).lastAt = s.lastAt := rfl
@[simp] theorem noteCmd_engines (r n) : (s.noteCmd r n).engines = s.engines := rfl
@[simp] theorem noteCmd_accs (r n) : (s.noteCmd r n).accs = s.accs := rfl
@[simp] theorem noteCmd_vecs (r n) : (s.noteCmd r n).vecs = s.vecs := rfl
@[simp] theorem noteCmd_upds (r n) : (s.noteCmd r n).upds = s.upds := rfl
@[simp] theorem noteCmd_chans (r n) : (s.noteCmd r n).chans = s.chans := rfl
@[simp] theorem noteCmd_stks (r n) : (s.noteCmd r n).stks = s.stks := rfl
@[simp] theorem noteCmd_hoistCh (r n) : (s.noteCmd r n).hoistCh = s.hoistCh := rfl
@[simp] theorem noteCmd_hoists (r n) : (s.noteCmd r n).hoists = s.hoists := rfl
@[simp] theorem noteCmd_holds (r n) : (s.noteCmd r n).holds = s.holds := rfl
@[simp] theorem noteCmd_caches (r n) : (s.noteCmd r n).caches = s.caches := rfl
@[simp] theorem noteCmd_dir (r n) : (s.noteCmd r n).dir = s.dir := rfl
@[simp] theorem noteCmd_homes (r n) : (s.noteCmd r n).homes = s.homes := rfl
@[simp] theorem noteCmd_harts (r n) : (s.noteCmd r n).harts = s.harts := rfl
@[simp] theorem noteCmd_imsics (r n) : (s.noteCmd r n).imsics = s.imsics := rfl
@[simp] theorem noteCmd_aplic (r n) : (s.noteCmd r n).aplic = s.aplic := rfl
@[simp] theorem noteCmd_aplicIe (r n) : (s.noteCmd r n).aplicIe = s.aplicIe := rfl
@[simp] theorem noteCmd_input (r n) : (s.noteCmd r n).input = s.input := rfl
@[simp] theorem noteCmd_ports (r n) : (s.noteCmd r n).ports = s.ports := rfl
@[simp] theorem noteCmd_nets (r n) : (s.noteCmd r n).nets = s.nets := rfl
@[simp] theorem noteCmd_coll (r n) : (s.noteCmd r n).coll = s.coll := rfl
@[simp] theorem noteCmd_pwr (r n) : (s.noteCmd r n).pwr = s.pwr := rfl
@[simp] theorem noteCmd_sec (r n) : (s.noteCmd r n).sec = s.sec := rfl
@[simp] theorem noteCmd_obs (r n) : (s.noteCmd r n).obs = s.obs := rfl
@[simp] theorem noteCmd_links (r n) : (s.noteCmd r n).links = s.links := rfl
@[simp] theorem noteCmd_counters (r n) : (s.noteCmd r n).counters = s.counters := rfl
@[simp] theorem noteCmd_draws (r n) : (s.noteCmd r n).draws = s.draws := rfl
@[simp] theorem noteCmd_tx (r n) : (s.noteCmd r n).tx = s.tx := rfl
@[simp] theorem noteCmd_resp (r n) : (s.noteCmd r n).resp = s.resp := rfl
@[simp] theorem noteCmd_get_getR (r n z j) : (s.noteCmd r n).getR z j = s.getR z j := rfl
@[simp] theorem noteCmd_get_fld (r n g j) : (s.noteCmd r n).fld g j = s.fld g j := rfl
@[simp] theorem noteCmd_get_flag (r n g j) : (s.noteCmd r n).flag g j = s.flag g j := rfl
@[simp] theorem noteCmd_get_localGib (r n) : (s.noteCmd r n).localGib = s.localGib := rfl
@[simp] theorem noteCmd_get_frozen (r n) : (s.noteCmd r n).frozen = s.frozen := rfl
@[simp] theorem noteCmd_get_braking (r n) : (s.noteCmd r n).braking = s.braking := rfl
@[simp] theorem noteCmd_get_qState (r n j) : (s.noteCmd r n).qState j = s.qState j := rfl
@[simp] theorem noteCmd_get_running (r n) : (s.noteCmd r n).running = s.running := rfl
@[simp] theorem noteCmd_get_queue (r n j) : (s.noteCmd r n).queue j = s.queue j := rfl
@[simp] theorem noteCmd_get_engine (r n j) : (s.noteCmd r n).engine j = s.engine j := rfl
@[simp] theorem noteCmd_get_acc (r n j) : (s.noteCmd r n).acc j = s.acc j := rfl
@[simp] theorem noteCmd_get_vec (r n j) : (s.noteCmd r n).vec j = s.vec j := rfl
@[simp] theorem noteCmd_get_upd (r n j) : (s.noteCmd r n).upd j = s.upd j := rfl
@[simp] theorem noteCmd_get_chan (r n j) : (s.noteCmd r n).chan j = s.chan j := rfl
@[simp] theorem noteCmd_get_stack (r n j) : (s.noteCmd r n).stack j = s.stack j := rfl
@[simp] theorem noteCmd_get_hoistChan (r n j) : (s.noteCmd r n).hoistChan j = s.hoistChan j := rfl
@[simp] theorem noteCmd_get_hoist (r n j) : (s.noteCmd r n).hoist j = s.hoist j := rfl
@[simp] theorem noteCmd_get_hart (r n j) : (s.noteCmd r n).hart j = s.hart j := rfl
@[simp] theorem noteCmd_get_port (r n j) : (s.noteCmd r n).port j = s.port j := rfl
@[simp] theorem noteCmd_get_net (r n j) : (s.noteCmd r n).net j = s.net j := rfl
@[simp] theorem noteCmd_get_home (r n j) : (s.noteCmd r n).home j = s.home j := rfl
@[simp] theorem noteCmd_get_now (r n j) : (s.noteCmd r n).now j = s.now j := rfl

/-! phaseCmd -/
@[simp] theorem phaseCmd_pending (r p) : (s.phaseCmd r p).pending = s.pending := rfl
@[simp] theorem phaseCmd_regs (r p) : (s.phaseCmd r p).regs = s.regs := rfl
@[simp] theorem phaseCmd_snap (r p) : (s.phaseCmd r p).snap = s.snap := rfl
@[simp] theorem phaseCmd_mem (r p) : (s.phaseCmd r p).mem = s.mem := rfl
@[simp] theorem phaseCmd_flash (r p) : (s.phaseCmd r p).flash = s.flash := rfl
@[simp] theorem phaseCmd_ecc (r p) : (s.phaseCmd r p).ecc = s.ecc := rfl
@[simp] theorem phaseCmd_time (r p) : (s.phaseCmd r p).time = s.time := rfl
@[simp] theorem phaseCmd_replicas (r p) : (s.phaseCmd r p).replicas = s.replicas := rfl
@[simp] theorem phaseCmd_queues (r p) : (s.phaseCmd r p).queues = s.queues := rfl
@[simp] theorem phaseCmd_lastAt (r p) : (s.phaseCmd r p).lastAt = s.lastAt := rfl
@[simp] theorem phaseCmd_engines (r p) : (s.phaseCmd r p).engines = s.engines := rfl
@[simp] theorem phaseCmd_accs (r p) : (s.phaseCmd r p).accs = s.accs := rfl
@[simp] theorem phaseCmd_vecs (r p) : (s.phaseCmd r p).vecs = s.vecs := rfl
@[simp] theorem phaseCmd_upds (r p) : (s.phaseCmd r p).upds = s.upds := rfl
@[simp] theorem phaseCmd_chans (r p) : (s.phaseCmd r p).chans = s.chans := rfl
@[simp] theorem phaseCmd_stks (r p) : (s.phaseCmd r p).stks = s.stks := rfl
@[simp] theorem phaseCmd_hoistCh (r p) : (s.phaseCmd r p).hoistCh = s.hoistCh := rfl
@[simp] theorem phaseCmd_hoists (r p) : (s.phaseCmd r p).hoists = s.hoists := rfl
@[simp] theorem phaseCmd_holds (r p) : (s.phaseCmd r p).holds = s.holds := rfl
@[simp] theorem phaseCmd_caches (r p) : (s.phaseCmd r p).caches = s.caches := rfl
@[simp] theorem phaseCmd_dir (r p) : (s.phaseCmd r p).dir = s.dir := rfl
@[simp] theorem phaseCmd_homes (r p) : (s.phaseCmd r p).homes = s.homes := rfl
@[simp] theorem phaseCmd_harts (r p) : (s.phaseCmd r p).harts = s.harts := rfl
@[simp] theorem phaseCmd_imsics (r p) : (s.phaseCmd r p).imsics = s.imsics := rfl
@[simp] theorem phaseCmd_aplic (r p) : (s.phaseCmd r p).aplic = s.aplic := rfl
@[simp] theorem phaseCmd_aplicIe (r p) : (s.phaseCmd r p).aplicIe = s.aplicIe := rfl
@[simp] theorem phaseCmd_input (r p) : (s.phaseCmd r p).input = s.input := rfl
@[simp] theorem phaseCmd_ports (r p) : (s.phaseCmd r p).ports = s.ports := rfl
@[simp] theorem phaseCmd_nets (r p) : (s.phaseCmd r p).nets = s.nets := rfl
@[simp] theorem phaseCmd_coll (r p) : (s.phaseCmd r p).coll = s.coll := rfl
@[simp] theorem phaseCmd_pwr (r p) : (s.phaseCmd r p).pwr = s.pwr := rfl
@[simp] theorem phaseCmd_sec (r p) : (s.phaseCmd r p).sec = s.sec := rfl
@[simp] theorem phaseCmd_obs (r p) : (s.phaseCmd r p).obs = s.obs := rfl
@[simp] theorem phaseCmd_links (r p) : (s.phaseCmd r p).links = s.links := rfl
@[simp] theorem phaseCmd_counters (r p) : (s.phaseCmd r p).counters = s.counters := rfl
@[simp] theorem phaseCmd_draws (r p) : (s.phaseCmd r p).draws = s.draws := rfl
@[simp] theorem phaseCmd_tx (r p) : (s.phaseCmd r p).tx = s.tx := rfl
@[simp] theorem phaseCmd_resp (r p) : (s.phaseCmd r p).resp = s.resp := rfl
@[simp] theorem phaseCmd_get_getR (r p z j) : (s.phaseCmd r p).getR z j = s.getR z j := rfl
@[simp] theorem phaseCmd_get_fld (r p g j) : (s.phaseCmd r p).fld g j = s.fld g j := rfl
@[simp] theorem phaseCmd_get_flag (r p g j) : (s.phaseCmd r p).flag g j = s.flag g j := rfl
@[simp] theorem phaseCmd_get_localGib (r p) : (s.phaseCmd r p).localGib = s.localGib := rfl
@[simp] theorem phaseCmd_get_frozen (r p) : (s.phaseCmd r p).frozen = s.frozen := rfl
@[simp] theorem phaseCmd_get_braking (r p) : (s.phaseCmd r p).braking = s.braking := rfl
@[simp] theorem phaseCmd_get_qState (r p j) : (s.phaseCmd r p).qState j = s.qState j := rfl
@[simp] theorem phaseCmd_get_running (r p) : (s.phaseCmd r p).running = s.running := rfl
@[simp] theorem phaseCmd_get_queue (r p j) : (s.phaseCmd r p).queue j = s.queue j := rfl
@[simp] theorem phaseCmd_get_engine (r p j) : (s.phaseCmd r p).engine j = s.engine j := rfl
@[simp] theorem phaseCmd_get_acc (r p j) : (s.phaseCmd r p).acc j = s.acc j := rfl
@[simp] theorem phaseCmd_get_vec (r p j) : (s.phaseCmd r p).vec j = s.vec j := rfl
@[simp] theorem phaseCmd_get_upd (r p j) : (s.phaseCmd r p).upd j = s.upd j := rfl
@[simp] theorem phaseCmd_get_chan (r p j) : (s.phaseCmd r p).chan j = s.chan j := rfl
@[simp] theorem phaseCmd_get_stack (r p j) : (s.phaseCmd r p).stack j = s.stack j := rfl
@[simp] theorem phaseCmd_get_hoistChan (r p j) : (s.phaseCmd r p).hoistChan j = s.hoistChan j := rfl
@[simp] theorem phaseCmd_get_hoist (r p j) : (s.phaseCmd r p).hoist j = s.hoist j := rfl
@[simp] theorem phaseCmd_get_hart (r p j) : (s.phaseCmd r p).hart j = s.hart j := rfl
@[simp] theorem phaseCmd_get_port (r p j) : (s.phaseCmd r p).port j = s.port j := rfl
@[simp] theorem phaseCmd_get_net (r p j) : (s.phaseCmd r p).net j = s.net j := rfl
@[simp] theorem phaseCmd_get_home (r p j) : (s.phaseCmd r p).home j = s.home j := rfl
@[simp] theorem phaseCmd_get_now (r p j) : (s.phaseCmd r p).now j = s.now j := rfl

/-! account -/
@[simp] theorem account_pending (r f) : (s.account r f).pending = s.pending := rfl
@[simp] theorem account_regs (r f) : (s.account r f).regs = s.regs := rfl
@[simp] theorem account_snap (r f) : (s.account r f).snap = s.snap := rfl
@[simp] theorem account_mem (r f) : (s.account r f).mem = s.mem := rfl
@[simp] theorem account_flash (r f) : (s.account r f).flash = s.flash := rfl
@[simp] theorem account_ecc (r f) : (s.account r f).ecc = s.ecc := rfl
@[simp] theorem account_time (r f) : (s.account r f).time = s.time := rfl
@[simp] theorem account_replicas (r f) : (s.account r f).replicas = s.replicas := rfl
@[simp] theorem account_queues (r f) : (s.account r f).queues = s.queues := rfl
@[simp] theorem account_lastAt (r f) : (s.account r f).lastAt = s.lastAt := rfl
@[simp] theorem account_engines (r f) : (s.account r f).engines = s.engines := rfl
@[simp] theorem account_accs (r f) : (s.account r f).accs = s.accs := rfl
@[simp] theorem account_vecs (r f) : (s.account r f).vecs = s.vecs := rfl
@[simp] theorem account_upds (r f) : (s.account r f).upds = s.upds := rfl
@[simp] theorem account_chans (r f) : (s.account r f).chans = s.chans := rfl
@[simp] theorem account_stks (r f) : (s.account r f).stks = s.stks := rfl
@[simp] theorem account_hoistCh (r f) : (s.account r f).hoistCh = s.hoistCh := rfl
@[simp] theorem account_hoists (r f) : (s.account r f).hoists = s.hoists := rfl
@[simp] theorem account_holds (r f) : (s.account r f).holds = s.holds := rfl
@[simp] theorem account_caches (r f) : (s.account r f).caches = s.caches := rfl
@[simp] theorem account_dir (r f) : (s.account r f).dir = s.dir := rfl
@[simp] theorem account_homes (r f) : (s.account r f).homes = s.homes := rfl
@[simp] theorem account_harts (r f) : (s.account r f).harts = s.harts := rfl
@[simp] theorem account_imsics (r f) : (s.account r f).imsics = s.imsics := rfl
@[simp] theorem account_aplic (r f) : (s.account r f).aplic = s.aplic := rfl
@[simp] theorem account_aplicIe (r f) : (s.account r f).aplicIe = s.aplicIe := rfl
@[simp] theorem account_input (r f) : (s.account r f).input = s.input := rfl
@[simp] theorem account_ports (r f) : (s.account r f).ports = s.ports := rfl
@[simp] theorem account_nets (r f) : (s.account r f).nets = s.nets := rfl
@[simp] theorem account_coll (r f) : (s.account r f).coll = s.coll := rfl
@[simp] theorem account_pwr (r f) : (s.account r f).pwr = s.pwr := rfl
@[simp] theorem account_sec (r f) : (s.account r f).sec = s.sec := rfl
@[simp] theorem account_obs (r f) : (s.account r f).obs = s.obs := rfl
@[simp] theorem account_links (r f) : (s.account r f).links = s.links := rfl
@[simp] theorem account_counters (r f) : (s.account r f).counters = s.counters := rfl
@[simp] theorem account_draws (r f) : (s.account r f).draws = s.draws := rfl
@[simp] theorem account_tx (r f) : (s.account r f).tx = s.tx := rfl
@[simp] theorem account_resp (r f) : (s.account r f).resp = s.resp := rfl
@[simp] theorem account_get_getR (r f z j) : (s.account r f).getR z j = s.getR z j := rfl
@[simp] theorem account_get_fld (r f g j) : (s.account r f).fld g j = s.fld g j := rfl
@[simp] theorem account_get_flag (r f g j) : (s.account r f).flag g j = s.flag g j := rfl
@[simp] theorem account_get_localGib (r f) : (s.account r f).localGib = s.localGib := rfl
@[simp] theorem account_get_frozen (r f) : (s.account r f).frozen = s.frozen := rfl
@[simp] theorem account_get_braking (r f) : (s.account r f).braking = s.braking := rfl
@[simp] theorem account_get_qState (r f j) : (s.account r f).qState j = s.qState j := rfl
@[simp] theorem account_get_running (r f) : (s.account r f).running = s.running := rfl
@[simp] theorem account_get_queue (r f j) : (s.account r f).queue j = s.queue j := rfl
@[simp] theorem account_get_engine (r f j) : (s.account r f).engine j = s.engine j := rfl
@[simp] theorem account_get_acc (r f j) : (s.account r f).acc j = s.acc j := rfl
@[simp] theorem account_get_vec (r f j) : (s.account r f).vec j = s.vec j := rfl
@[simp] theorem account_get_upd (r f j) : (s.account r f).upd j = s.upd j := rfl
@[simp] theorem account_get_chan (r f j) : (s.account r f).chan j = s.chan j := rfl
@[simp] theorem account_get_stack (r f j) : (s.account r f).stack j = s.stack j := rfl
@[simp] theorem account_get_hoistChan (r f j) : (s.account r f).hoistChan j = s.hoistChan j := rfl
@[simp] theorem account_get_hoist (r f j) : (s.account r f).hoist j = s.hoist j := rfl
@[simp] theorem account_get_hart (r f j) : (s.account r f).hart j = s.hart j := rfl
@[simp] theorem account_get_port (r f j) : (s.account r f).port j = s.port j := rfl
@[simp] theorem account_get_net (r f j) : (s.account r f).net j = s.net j := rfl
@[simp] theorem account_get_home (r f j) : (s.account r f).home j = s.home j := rfl
@[simp] theorem account_get_now (r f j) : (s.account r f).now j = s.now j := rfl

/-! aon -/
@[simp] theorem aon_pending (n v) : (s.aon n v).pending = s.pending := rfl
@[simp] theorem aon_regs (n v) : (s.aon n v).regs = s.regs := rfl
@[simp] theorem aon_snap (n v) : (s.aon n v).snap = s.snap := rfl
@[simp] theorem aon_mem (n v) : (s.aon n v).mem = s.mem := rfl
@[simp] theorem aon_flash (n v) : (s.aon n v).flash = s.flash := rfl
@[simp] theorem aon_ecc (n v) : (s.aon n v).ecc = s.ecc := rfl
@[simp] theorem aon_time (n v) : (s.aon n v).time = s.time := rfl
@[simp] theorem aon_replicas (n v) : (s.aon n v).replicas = s.replicas := rfl
@[simp] theorem aon_queues (n v) : (s.aon n v).queues = s.queues := rfl
@[simp] theorem aon_lastAt (n v) : (s.aon n v).lastAt = s.lastAt := rfl
@[simp] theorem aon_cmds (n v) : (s.aon n v).cmds = s.cmds := rfl
@[simp] theorem aon_engines (n v) : (s.aon n v).engines = s.engines := rfl
@[simp] theorem aon_accs (n v) : (s.aon n v).accs = s.accs := rfl
@[simp] theorem aon_vecs (n v) : (s.aon n v).vecs = s.vecs := rfl
@[simp] theorem aon_upds (n v) : (s.aon n v).upds = s.upds := rfl
@[simp] theorem aon_chans (n v) : (s.aon n v).chans = s.chans := rfl
@[simp] theorem aon_stks (n v) : (s.aon n v).stks = s.stks := rfl
@[simp] theorem aon_hoistCh (n v) : (s.aon n v).hoistCh = s.hoistCh := rfl
@[simp] theorem aon_hoists (n v) : (s.aon n v).hoists = s.hoists := rfl
@[simp] theorem aon_holds (n v) : (s.aon n v).holds = s.holds := rfl
@[simp] theorem aon_caches (n v) : (s.aon n v).caches = s.caches := rfl
@[simp] theorem aon_dir (n v) : (s.aon n v).dir = s.dir := rfl
@[simp] theorem aon_homes (n v) : (s.aon n v).homes = s.homes := rfl
@[simp] theorem aon_harts (n v) : (s.aon n v).harts = s.harts := rfl
@[simp] theorem aon_imsics (n v) : (s.aon n v).imsics = s.imsics := rfl
@[simp] theorem aon_aplic (n v) : (s.aon n v).aplic = s.aplic := rfl
@[simp] theorem aon_aplicIe (n v) : (s.aon n v).aplicIe = s.aplicIe := rfl
@[simp] theorem aon_input (n v) : (s.aon n v).input = s.input := rfl
@[simp] theorem aon_ports (n v) : (s.aon n v).ports = s.ports := rfl
@[simp] theorem aon_nets (n v) : (s.aon n v).nets = s.nets := rfl
@[simp] theorem aon_coll (n v) : (s.aon n v).coll = s.coll := rfl
@[simp] theorem aon_pwr (n v) : (s.aon n v).pwr = s.pwr := rfl
@[simp] theorem aon_sec (n v) : (s.aon n v).sec = s.sec := rfl
@[simp] theorem aon_obs (n v) : (s.aon n v).obs = s.obs := rfl
@[simp] theorem aon_links (n v) : (s.aon n v).links = s.links := rfl
@[simp] theorem aon_draws (n v) : (s.aon n v).draws = s.draws := rfl
@[simp] theorem aon_tx (n v) : (s.aon n v).tx = s.tx := rfl
@[simp] theorem aon_resp (n v) : (s.aon n v).resp = s.resp := rfl
@[simp] theorem aon_get_cmd (n v z) : (s.aon n v).cmd z = s.cmd z := rfl
@[simp] theorem aon_get_getR (n v z j) : (s.aon n v).getR z j = s.getR z j := rfl
@[simp] theorem aon_get_fld (n v g j) : (s.aon n v).fld g j = s.fld g j := rfl
@[simp] theorem aon_get_flag (n v g j) : (s.aon n v).flag g j = s.flag g j := rfl
@[simp] theorem aon_get_localGib (n v) : (s.aon n v).localGib = s.localGib := rfl
@[simp] theorem aon_get_frozen (n v) : (s.aon n v).frozen = s.frozen := rfl
@[simp] theorem aon_get_braking (n v) : (s.aon n v).braking = s.braking := rfl
@[simp] theorem aon_get_qState (n v j) : (s.aon n v).qState j = s.qState j := rfl
@[simp] theorem aon_get_running (n v) : (s.aon n v).running = s.running := rfl
@[simp] theorem aon_get_queue (n v j) : (s.aon n v).queue j = s.queue j := rfl
@[simp] theorem aon_get_engine (n v j) : (s.aon n v).engine j = s.engine j := rfl
@[simp] theorem aon_get_acc (n v j) : (s.aon n v).acc j = s.acc j := rfl
@[simp] theorem aon_get_vec (n v j) : (s.aon n v).vec j = s.vec j := rfl
@[simp] theorem aon_get_upd (n v j) : (s.aon n v).upd j = s.upd j := rfl
@[simp] theorem aon_get_chan (n v j) : (s.aon n v).chan j = s.chan j := rfl
@[simp] theorem aon_get_stack (n v j) : (s.aon n v).stack j = s.stack j := rfl
@[simp] theorem aon_get_hoistChan (n v j) : (s.aon n v).hoistChan j = s.hoistChan j := rfl
@[simp] theorem aon_get_hoist (n v j) : (s.aon n v).hoist j = s.hoist j := rfl
@[simp] theorem aon_get_hart (n v j) : (s.aon n v).hart j = s.hart j := rfl
@[simp] theorem aon_get_port (n v j) : (s.aon n v).port j = s.port j := rfl
@[simp] theorem aon_get_net (n v j) : (s.aon n v).net j = s.net j := rfl
@[simp] theorem aon_get_home (n v j) : (s.aon n v).home j = s.home j := rfl
@[simp] theorem aon_get_now (n v j) : (s.aon n v).now j = s.now j := rfl

/-! compat -/
@[simp] theorem compat_pending (n v) : (s.compat n v).pending = s.pending := rfl
@[simp] theorem compat_regs (n v) : (s.compat n v).regs = s.regs := rfl
@[simp] theorem compat_snap (n v) : (s.compat n v).snap = s.snap := rfl
@[simp] theorem compat_mem (n v) : (s.compat n v).mem = s.mem := rfl
@[simp] theorem compat_flash (n v) : (s.compat n v).flash = s.flash := rfl
@[simp] theorem compat_ecc (n v) : (s.compat n v).ecc = s.ecc := rfl
@[simp] theorem compat_time (n v) : (s.compat n v).time = s.time := rfl
@[simp] theorem compat_replicas (n v) : (s.compat n v).replicas = s.replicas := rfl
@[simp] theorem compat_queues (n v) : (s.compat n v).queues = s.queues := rfl
@[simp] theorem compat_lastAt (n v) : (s.compat n v).lastAt = s.lastAt := rfl
@[simp] theorem compat_cmds (n v) : (s.compat n v).cmds = s.cmds := rfl
@[simp] theorem compat_engines (n v) : (s.compat n v).engines = s.engines := rfl
@[simp] theorem compat_accs (n v) : (s.compat n v).accs = s.accs := rfl
@[simp] theorem compat_vecs (n v) : (s.compat n v).vecs = s.vecs := rfl
@[simp] theorem compat_upds (n v) : (s.compat n v).upds = s.upds := rfl
@[simp] theorem compat_chans (n v) : (s.compat n v).chans = s.chans := rfl
@[simp] theorem compat_stks (n v) : (s.compat n v).stks = s.stks := rfl
@[simp] theorem compat_hoistCh (n v) : (s.compat n v).hoistCh = s.hoistCh := rfl
@[simp] theorem compat_hoists (n v) : (s.compat n v).hoists = s.hoists := rfl
@[simp] theorem compat_holds (n v) : (s.compat n v).holds = s.holds := rfl
@[simp] theorem compat_caches (n v) : (s.compat n v).caches = s.caches := rfl
@[simp] theorem compat_dir (n v) : (s.compat n v).dir = s.dir := rfl
@[simp] theorem compat_homes (n v) : (s.compat n v).homes = s.homes := rfl
@[simp] theorem compat_harts (n v) : (s.compat n v).harts = s.harts := rfl
@[simp] theorem compat_imsics (n v) : (s.compat n v).imsics = s.imsics := rfl
@[simp] theorem compat_aplic (n v) : (s.compat n v).aplic = s.aplic := rfl
@[simp] theorem compat_aplicIe (n v) : (s.compat n v).aplicIe = s.aplicIe := rfl
@[simp] theorem compat_input (n v) : (s.compat n v).input = s.input := rfl
@[simp] theorem compat_ports (n v) : (s.compat n v).ports = s.ports := rfl
@[simp] theorem compat_nets (n v) : (s.compat n v).nets = s.nets := rfl
@[simp] theorem compat_coll (n v) : (s.compat n v).coll = s.coll := rfl
@[simp] theorem compat_pwr (n v) : (s.compat n v).pwr = s.pwr := rfl
@[simp] theorem compat_sec (n v) : (s.compat n v).sec = s.sec := rfl
@[simp] theorem compat_obs (n v) : (s.compat n v).obs = s.obs := rfl
@[simp] theorem compat_links (n v) : (s.compat n v).links = s.links := rfl
@[simp] theorem compat_draws (n v) : (s.compat n v).draws = s.draws := rfl
@[simp] theorem compat_tx (n v) : (s.compat n v).tx = s.tx := rfl
@[simp] theorem compat_resp (n v) : (s.compat n v).resp = s.resp := rfl
@[simp] theorem compat_get_cmd (n v z) : (s.compat n v).cmd z = s.cmd z := rfl
@[simp] theorem compat_get_getR (n v z j) : (s.compat n v).getR z j = s.getR z j := rfl
@[simp] theorem compat_get_fld (n v g j) : (s.compat n v).fld g j = s.fld g j := rfl
@[simp] theorem compat_get_flag (n v g j) : (s.compat n v).flag g j = s.flag g j := rfl
@[simp] theorem compat_get_localGib (n v) : (s.compat n v).localGib = s.localGib := rfl
@[simp] theorem compat_get_frozen (n v) : (s.compat n v).frozen = s.frozen := rfl
@[simp] theorem compat_get_braking (n v) : (s.compat n v).braking = s.braking := rfl
@[simp] theorem compat_get_qState (n v j) : (s.compat n v).qState j = s.qState j := rfl
@[simp] theorem compat_get_running (n v) : (s.compat n v).running = s.running := rfl
@[simp] theorem compat_get_queue (n v j) : (s.compat n v).queue j = s.queue j := rfl
@[simp] theorem compat_get_engine (n v j) : (s.compat n v).engine j = s.engine j := rfl
@[simp] theorem compat_get_acc (n v j) : (s.compat n v).acc j = s.acc j := rfl
@[simp] theorem compat_get_vec (n v j) : (s.compat n v).vec j = s.vec j := rfl
@[simp] theorem compat_get_upd (n v j) : (s.compat n v).upd j = s.upd j := rfl
@[simp] theorem compat_get_chan (n v j) : (s.compat n v).chan j = s.chan j := rfl
@[simp] theorem compat_get_stack (n v j) : (s.compat n v).stack j = s.stack j := rfl
@[simp] theorem compat_get_hoistChan (n v j) : (s.compat n v).hoistChan j = s.hoistChan j := rfl
@[simp] theorem compat_get_hoist (n v j) : (s.compat n v).hoist j = s.hoist j := rfl
@[simp] theorem compat_get_hart (n v j) : (s.compat n v).hart j = s.hart j := rfl
@[simp] theorem compat_get_port (n v j) : (s.compat n v).port j = s.port j := rfl
@[simp] theorem compat_get_net (n v j) : (s.compat n v).net j = s.net j := rfl
@[simp] theorem compat_get_home (n v j) : (s.compat n v).home j = s.home j := rfl
@[simp] theorem compat_get_now (n v j) : (s.compat n v).now j = s.now j := rfl

/-! clockStop -/
@[simp] theorem clockStop_pending (u) : (s.clockStop u).pending = s.pending := rfl
@[simp] theorem clockStop_regs (u) : (s.clockStop u).regs = s.regs := rfl
@[simp] theorem clockStop_snap (u) : (s.clockStop u).snap = s.snap := rfl
@[simp] theorem clockStop_mem (u) : (s.clockStop u).mem = s.mem := rfl
@[simp] theorem clockStop_flash (u) : (s.clockStop u).flash = s.flash := rfl
@[simp] theorem clockStop_ecc (u) : (s.clockStop u).ecc = s.ecc := rfl
@[simp] theorem clockStop_time (u) : (s.clockStop u).time = s.time := rfl
@[simp] theorem clockStop_replicas (u) : (s.clockStop u).replicas = s.replicas := rfl
@[simp] theorem clockStop_queues (u) : (s.clockStop u).queues = s.queues := rfl
@[simp] theorem clockStop_lastAt (u) : (s.clockStop u).lastAt = s.lastAt := rfl
@[simp] theorem clockStop_cmds (u) : (s.clockStop u).cmds = s.cmds := rfl
@[simp] theorem clockStop_engines (u) : (s.clockStop u).engines = s.engines := rfl
@[simp] theorem clockStop_accs (u) : (s.clockStop u).accs = s.accs := rfl
@[simp] theorem clockStop_vecs (u) : (s.clockStop u).vecs = s.vecs := rfl
@[simp] theorem clockStop_upds (u) : (s.clockStop u).upds = s.upds := rfl
@[simp] theorem clockStop_chans (u) : (s.clockStop u).chans = s.chans := rfl
@[simp] theorem clockStop_stks (u) : (s.clockStop u).stks = s.stks := rfl
@[simp] theorem clockStop_hoistCh (u) : (s.clockStop u).hoistCh = s.hoistCh := rfl
@[simp] theorem clockStop_hoists (u) : (s.clockStop u).hoists = s.hoists := rfl
@[simp] theorem clockStop_holds (u) : (s.clockStop u).holds = s.holds := rfl
@[simp] theorem clockStop_caches (u) : (s.clockStop u).caches = s.caches := rfl
@[simp] theorem clockStop_dir (u) : (s.clockStop u).dir = s.dir := rfl
@[simp] theorem clockStop_homes (u) : (s.clockStop u).homes = s.homes := rfl
@[simp] theorem clockStop_harts (u) : (s.clockStop u).harts = s.harts := rfl
@[simp] theorem clockStop_imsics (u) : (s.clockStop u).imsics = s.imsics := rfl
@[simp] theorem clockStop_aplic (u) : (s.clockStop u).aplic = s.aplic := rfl
@[simp] theorem clockStop_aplicIe (u) : (s.clockStop u).aplicIe = s.aplicIe := rfl
@[simp] theorem clockStop_input (u) : (s.clockStop u).input = s.input := rfl
@[simp] theorem clockStop_ports (u) : (s.clockStop u).ports = s.ports := rfl
@[simp] theorem clockStop_nets (u) : (s.clockStop u).nets = s.nets := rfl
@[simp] theorem clockStop_coll (u) : (s.clockStop u).coll = s.coll := rfl
@[simp] theorem clockStop_pwr (u) : (s.clockStop u).pwr = s.pwr := rfl
@[simp] theorem clockStop_sec (u) : (s.clockStop u).sec = s.sec := rfl
@[simp] theorem clockStop_links (u) : (s.clockStop u).links = s.links := rfl
@[simp] theorem clockStop_counters (u) : (s.clockStop u).counters = s.counters := rfl
@[simp] theorem clockStop_draws (u) : (s.clockStop u).draws = s.draws := rfl
@[simp] theorem clockStop_tx (u) : (s.clockStop u).tx = s.tx := rfl
@[simp] theorem clockStop_resp (u) : (s.clockStop u).resp = s.resp := rfl
@[simp] theorem clockStop_get_cmd (u z) : (s.clockStop u).cmd z = s.cmd z := rfl
@[simp] theorem clockStop_get_getR (u z j) : (s.clockStop u).getR z j = s.getR z j := rfl
@[simp] theorem clockStop_get_fld (u g j) : (s.clockStop u).fld g j = s.fld g j := rfl
@[simp] theorem clockStop_get_flag (u g j) : (s.clockStop u).flag g j = s.flag g j := rfl
@[simp] theorem clockStop_get_localGib (u) : (s.clockStop u).localGib = s.localGib := rfl
@[simp] theorem clockStop_get_frozen (u) : (s.clockStop u).frozen = s.frozen := rfl
@[simp] theorem clockStop_get_braking (u) : (s.clockStop u).braking = s.braking := rfl
@[simp] theorem clockStop_get_qState (u j) : (s.clockStop u).qState j = s.qState j := rfl
@[simp] theorem clockStop_get_running (u) : (s.clockStop u).running = s.running := rfl
@[simp] theorem clockStop_get_queue (u j) : (s.clockStop u).queue j = s.queue j := rfl
@[simp] theorem clockStop_get_engine (u j) : (s.clockStop u).engine j = s.engine j := rfl
@[simp] theorem clockStop_get_acc (u j) : (s.clockStop u).acc j = s.acc j := rfl
@[simp] theorem clockStop_get_vec (u j) : (s.clockStop u).vec j = s.vec j := rfl
@[simp] theorem clockStop_get_upd (u j) : (s.clockStop u).upd j = s.upd j := rfl
@[simp] theorem clockStop_get_chan (u j) : (s.clockStop u).chan j = s.chan j := rfl
@[simp] theorem clockStop_get_stack (u j) : (s.clockStop u).stack j = s.stack j := rfl
@[simp] theorem clockStop_get_hoistChan (u j) : (s.clockStop u).hoistChan j = s.hoistChan j := rfl
@[simp] theorem clockStop_get_hoist (u j) : (s.clockStop u).hoist j = s.hoist j := rfl
@[simp] theorem clockStop_get_hart (u j) : (s.clockStop u).hart j = s.hart j := rfl
@[simp] theorem clockStop_get_port (u j) : (s.clockStop u).port j = s.port j := rfl
@[simp] theorem clockStop_get_net (u j) : (s.clockStop u).net j = s.net j := rfl
@[simp] theorem clockStop_get_home (u j) : (s.clockStop u).home j = s.home j := rfl
@[simp] theorem clockStop_get_now (u j) : (s.clockStop u).now j = s.now j := rfl

theorem setQueue_queue (q x j) : (s.setQueue q x).queue j = if j = q then x else s.queue j := Tab.get_set _ _ _ _ _
@[simp] theorem setQueue_queue_same (q x) : (s.setQueue q x).queue q = x := Tab.get_set_same _ _ _ _
theorem setEngine_engine (q x j) : (s.setEngine q x).engine j = if j = q then x else s.engine j := Tab.get_set _ _ _ _ _
@[simp] theorem setEngine_engine_same (q x) : (s.setEngine q x).engine q = x := Tab.get_set_same _ _ _ _
theorem setAcc_acc (q x j) : (s.setAcc q x).acc j = if j = q then x else s.acc j := Tab.get_set _ _ _ _ _
@[simp] theorem setAcc_acc_same (q x) : (s.setAcc q x).acc q = x := Tab.get_set_same _ _ _ _
theorem setVec_vec (q x j) : (s.setVec q x).vec j = if j = q then x else s.vec j := Tab.get_set _ _ _ _ _
@[simp] theorem setVec_vec_same (q x) : (s.setVec q x).vec q = x := Tab.get_set_same _ _ _ _
theorem setUpd_upd (q x j) : (s.setUpd q x).upd j = if j = q then x else s.upd j := Tab.get_set _ _ _ _ _
@[simp] theorem setUpd_upd_same (q x) : (s.setUpd q x).upd q = x := Tab.get_set_same _ _ _ _
theorem setChan_chan (q x j) : (s.setChan q x).chan j = if j = q then x else s.chan j := Tab.get_set _ _ _ _ _
@[simp] theorem setChan_chan_same (q x) : (s.setChan q x).chan q = x := Tab.get_set_same _ _ _ _
theorem setStack_stack (q x j) : (s.setStack q x).stack j = if j = q then x else s.stack j := Tab.get_set _ _ _ _ _
@[simp] theorem setStack_stack_same (q x) : (s.setStack q x).stack q = x := Tab.get_set_same _ _ _ _
theorem setHoistChan_hoistChan (q x j) : (s.setHoistChan q x).hoistChan j = if j = q then x else s.hoistChan j := Tab.get_set _ _ _ _ _
@[simp] theorem setHoistChan_hoistChan_same (q x) : (s.setHoistChan q x).hoistChan q = x := Tab.get_set_same _ _ _ _
theorem setHoist_hoist (q x j) : (s.setHoist q x).hoist j = if j = q then x else s.hoist j := Tab.get_set _ _ _ _ _
@[simp] theorem setHoist_hoist_same (q x) : (s.setHoist q x).hoist q = x := Tab.get_set_same _ _ _ _
theorem setHart_hart (q x j) : (s.setHart q x).hart j = if j = q then x else s.hart j := Tab.get_set _ _ _ _ _
@[simp] theorem setHart_hart_same (q x) : (s.setHart q x).hart q = x := Tab.get_set_same _ _ _ _
theorem setPort_port (q x j) : (s.setPort q x).port j = if j = q then x else s.port j := Tab.get_set _ _ _ _ _
@[simp] theorem setPort_port_same (q x) : (s.setPort q x).port q = x := Tab.get_set_same _ _ _ _
theorem setNet_net (q x j) : (s.setNet q x).net j = if j = q then x else s.net j := Tab.get_set _ _ _ _ _
@[simp] theorem setNet_net_same (q x) : (s.setNet q x).net q = x := Tab.get_set_same _ _ _ _
theorem setHome_home (q x j) : (s.setHome q x).home j = if j = q then x else s.home j := Tab.get_set _ _ _ _ _
@[simp] theorem setHome_home_same (q x) : (s.setHome q x).home q = x := Tab.get_set_same _ _ _ _
@[simp] theorem setHold_hold_same (q k x) : (s.setHold q k x).hold q k = x := Tab.get_set_same _ _ _ _

end Sys2Proof.Machine.State
end

