-- ==== Sys2Proof/Laws/Mem.lean ====
section
/-! SUPPORT. Reading memory after a write, in a state whose memory has no errors and no cached lines. -/
namespace Sys2Proof.Machine

theorem State.rawByte_setByte (s : State) (pa b a : Nat) : (s.setByte pa b).rawByte a = if a = pa then b % 256 else s.rawByte a := by
  simp only [State.rawByte, State.setByte_mem, Tab.get_set]
  split <;> simp

/-- Bytes written one after the other. -/
theorem State.rawByte_putRaw (a : Nat) : ∀ (n : Nat) (s : State) (pa v : Nat),
    (s.putRaw pa v n).rawByte a = if pa ≤ a ∧ a < pa + n then (v >>> (8 * (a - pa))) % 256 else s.rawByte a
  | 0, s, pa, v => by simp only [State.putRaw]; rw [if_neg]; omega
  | n + 1, s, pa, v => by
    rw [State.putRaw, State.rawByte_putRaw a n, State.rawByte_setByte]
    by_cases h : a = pa
    · subst h
      rw [if_neg (by omega), if_pos rfl, if_pos (by omega), Nat.sub_self, Nat.mul_zero, Nat.shiftRight_zero, Nat.mod_mod]
    · by_cases h1 : pa + 1 ≤ a ∧ a < pa + 1 + n
      · rw [if_pos h1, if_pos (by omega), ← Nat.shiftRight_add]
        congr 2
        omega
      · rw [if_neg h1, if_neg h, if_neg (by omega)]

/-- What a sequence of byte writes leaves alone. -/
theorem State.putRaw_eq : ∀ (n : Nat) (s : State) (pa v : Nat), s.putRaw pa v n = { s with mem := (s.putRaw pa v n).mem }
  | 0, _, _, _ => rfl
  | n + 1, s, pa, v => by rw [State.putRaw, State.putRaw_eq n]; rfl

namespace State.MemOnly
theorem refl (s : State) : MemOnly s s := ⟨rfl⟩
theorem trans {s t u : State} (h : MemOnly s t) (g : MemOnly t u) : MemOnly s u := ⟨by rw [g.eq, h.eq]⟩
theorem cmds {s t : State} (h : MemOnly s t) : t.cmds = s.cmds := by rw [h.eq]
theorem regs {s t : State} (h : MemOnly s t) : t.regs = s.regs := by rw [h.eq]
theorem ecc {s t : State} (h : MemOnly s t) : t.ecc = s.ecc := by rw [h.eq]
theorem caches {s t : State} (h : MemOnly s t) : t.caches = s.caches := by rw [h.eq]
theorem pwr {s t : State} (h : MemOnly s t) : t.pwr = s.pwr := by rw [h.eq]
theorem homes {s t : State} (h : MemOnly s t) : t.homes = s.homes := by rw [h.eq]
theorem chans {s t : State} (h : MemOnly s t) : t.chans = s.chans := by rw [h.eq]
theorem plain {s t : State} (h : MemOnly s t) (p : s.Plain) : t.Plain :=
  ⟨h.ecc.trans p.ecc, h.caches.trans p.caches, h.homes.trans p.homes, by simpa only [State.chan, h.chans] using p.scrubs⟩
theorem cmd {s t : State} (h : MemOnly s t) (r : CmdRef) : t.cmd r = s.cmd r := by simp only [State.cmd, h.cmds]
end State.MemOnly

theorem State.Plain.byteAt {s : State} (p : s.Plain) (a : Nat) : s.byteAt a = s.rawByte a := by
  simp [State.byteAt, p.ecc, p.caches, p.homes]

theorem State.Plain.dropCollected {s : State} (p : s.Plain) (line : Nat) : s.dropCollected line = s := by
  simp [State.dropCollected, State.home, p.homes, Tab.get, Tab.find]

theorem State.Plain.readLine {s : State} (p : s.Plain) (line : Nat) : s.readLine line = (s.burstData line, false) := by
  simp [State.readLine, State.ownerCopy, State.copyIn, State.collected, State.home, State.memLine, State.burst, p.caches, p.homes, p.ecc,
    Tab.get, Tab.find]

theorem State.Plain.scrubFirst {s : State} (p : s.Plain) (line : Nat) : s.scrubFirst line = s := by
  unfold State.scrubFirst
  split
  · rfl
  · split
    · rfl
    · next ca _ =>
      have h : (s.chan ca.gch).queue.filter (fun q => decide (q.line = line) && q.op.isScrub) = [] := by
        rw [List.filter_eq_nil_iff]
        intro q hq
        simp [p.scrubs ca.gch q hq]
      simp only [h]

/-- No burst of a plain state is read with an error. -/
theorem State.Plain.readBurst {s : State} (p : s.Plain) (line src : Nat) : s.readBurst line src = s := by
  simp [State.readBurst, p.ecc, Tab.find]

/-- A write of a plain state meets nothing to record. -/
theorem State.Plain.mergeRecords {s : State} (p : s.Plain) (pa n : Nat) : s.mergeRecords pa n = s := by
  unfold State.mergeRecords
  split
  · rfl
  · refine List.foldlRecOn (motive := fun t => t = s) _ _ rfl (fun t h ln _ => ?_)
    subst h
    have bad : t.badLine ln = false := by simp [State.badLine, p.readLine]
    have note : t.mergeNote ln = t := by simp [State.mergeNote, bad]
    simp [p.scrubFirst, p.readBurst, note]

theorem State.Plain.dropCopies {s : State} (p : s.Plain) (line : Nat) :
    State.MemOnly s (s.dropCopies line) ∧ (s.dropCopies line).mem = s.mem := by
  unfold State.dropCopies
  rw [p.dropCollected]
  dsimp only
  split
  · exact ⟨.refl s, rfl⟩
  · refine ⟨⟨?_⟩, rfl⟩
    have e : (List.range 13).foldl (fun (t : Tab CLine) k => Tab.erase t (cacheKey k line)) s.caches = s.caches := by
      rw [p.caches]
      exact List.foldlRecOn (motive := fun t => t = []) (List.range 13) _ rfl (fun t h k _ => by rw [h]; rfl)
    simp only [e]

theorem State.Plain.storeLine {s : State} (p : s.Plain) (line d : Nat) :
    State.MemOnly s (s.storeLine line d false) ∧
    ∀ a, (s.storeLine line d false).rawByte a = if 64 * line ≤ a ∧ a < 64 * line + 64 then (d >>> (8 * (a - 64 * line))) % 256 else s.rawByte a := by
  have e : s.storeLine line d false = s.putRaw (64 * line) d 64 := by
    have h := State.putRaw_eq 64 s (64 * line) d
    have h2 : (s.putRaw (64 * line) d 64).ecc = [] := by rw [h]; exact p.ecc
    simp only [State.storeLine, Bool.false_eq_true, if_false]
    rw [h2]
    rw [h]
    simp [Tab.erase, p.ecc]
  rw [e]
  exact ⟨⟨by rw [State.putRaw_eq]⟩, fun a => State.rawByte_putRaw a 64 s _ d⟩

/-- Masked bytes of a line, one after the other. -/
theorem State.rawByte_maskFold (s : State) (base mask d a : Nat) : ∀ n : Nat,
    ((List.range n).foldl (fun (u : State) k => if mask.testBit k then u.setByte (base + k) (le d k 1) else u) s).rawByte a =
      if base ≤ a ∧ a < base + n ∧ mask.testBit (a - base) then (d >>> (8 * (a - base))) % 256 else s.rawByte a
  | 0 => by simp only [List.range_zero, List.foldl_nil]; rw [if_neg]; omega
  | n + 1 => by
    rw [List.range_succ, List.foldl_append]
    simp only [List.foldl_cons, List.foldl_nil]
    have ih := State.rawByte_maskFold s base mask d a n
    by_cases hm : mask.testBit n
    · rw [if_pos hm, State.rawByte_setByte]
      by_cases h : a = base + n
      · subst h
        simp [hm, le]
      · rw [if_neg h, ih]
        by_cases h1 : base ≤ a ∧ a < base + n ∧ mask.testBit (a - base)
        · rw [if_pos h1, if_pos ⟨h1.1, by omega, h1.2.2⟩]
        · rw [if_neg h1, if_neg (fun h2 => h1 ⟨h2.1, by omega, h2.2.2⟩)]
    · rw [if_neg hm, ih]
      by_cases h : a = base + n
      · subst h
        rw [if_neg (by omega), if_neg (by simp [hm])]
      · by_cases h1 : base ≤ a ∧ a < base + n ∧ mask.testBit (a - base)
        · rw [if_pos h1, if_pos ⟨h1.1, by omega, h1.2.2⟩]
        · rw [if_neg h1, if_neg (fun h2 => h1 ⟨h2.1, by omega, h2.2.2⟩)]

theorem State.maskFold_memOnly (s : State) (base mask d : Nat) : ∀ n : Nat,
    State.MemOnly s ((List.range n).foldl (fun (u : State) k => if mask.testBit k then u.setByte (base + k) (le d k 1) else u) s)
  | 0 => .refl s
  | n + 1 => by
    rw [List.range_succ, List.foldl_append]
    refine (State.maskFold_memOnly s base mask d n).trans ?_
    simp only [List.foldl_cons, List.foldl_nil]
    split
    · exact ⟨rfl⟩
    · exact .refl _

/-- A write of masked bytes of one line. -/
theorem State.Plain.writeLine {s : State} (p : s.Plain) (line mask d : Nat) :
    State.MemOnly s (s.writeLine line mask d) ∧
    ∀ a, (s.writeLine line mask d).rawByte a =
      if 64 * line ≤ a ∧ a < 64 * line + 64 ∧ mask.testBit (a - 64 * line) then (d >>> (8 * (a - 64 * line))) % 256 else s.rawByte a := by
  obtain ⟨d1, d2⟩ := p.dropCopies line
  have hraw : ∀ a, (s.dropCopies line).rawByte a = s.rawByte a := fun a => by simp only [State.rawByte, d2]
  unfold State.writeLine
  split
  · next he =>
    obtain ⟨e1, e2⟩ := (d1.plain p).storeLine line d
    refine ⟨d1.trans e1, fun a => ?_⟩
    rw [e2, hraw]
    by_cases h : 64 * line ≤ a ∧ a < 64 * line + 64
    · have : mask.testBit (a - 64 * line) = true := by
        rw [he, Nat.testBit_two_pow_sub_one]
        simp only [decide_eq_true_eq]; omega
      rw [if_pos h, if_pos ⟨h.1, h.2, this⟩]
    · rw [if_neg h, if_neg (fun q => h ⟨q.1, q.2.1⟩)]
  · rw [p.readLine]
    simp only [Bool.false_eq_true, if_false, State.plain, p.ecc, p.caches, p.homes, List.isEmpty_nil, and_self, if_true]
    refine ⟨d1.trans (State.maskFold_memOnly _ _ _ _ 64), fun a => ?_⟩
    rw [State.rawByte_maskFold, hraw]

/-- `n` bytes written from `pa`, line by line. -/
theorem State.Plain.putGo : ∀ (fuel : Nat) {s : State} (_ : s.Plain) (pa v n : Nat) (_ : n ≤ fuel),
    State.MemOnly s (s.putGo pa v n fuel) ∧
    ∀ a, (s.putGo pa v n fuel).rawByte a = if pa ≤ a ∧ a < pa + n then (v >>> (8 * (a - pa))) % 256 else s.rawByte a
  | 0, s, _, pa, v, n, hn => by
    refine ⟨.refl s, fun a => ?_⟩
    rw [if_neg (by omega)]; rfl
  | fuel + 1, s, p, pa, v, n, hn => by
    unfold State.putGo
    split
    · next h0 => exact ⟨.refl s, fun a => by rw [if_neg (by omega)]⟩
    · next h0 =>
      dsimp only
      have hk : 1 ≤ min n (64 - pa % 64) := by omega
      generalize hkk : min n (64 - pa % 64) = k at hk
      obtain ⟨w1, w2⟩ := p.writeLine (lineOf pa) (maskOf (pa % 64) k) ((v % 2 ^ (8 * k)) <<< (8 * (pa % 64)))
      obtain ⟨g1, g2⟩ := State.Plain.putGo fuel (w1.plain p) (pa + k) (v >>> (8 * k)) (n - k) (by omega)
      refine ⟨w1.trans g1, fun a => ?_⟩
      rw [g2, w2]
      have hl : 64 * lineOf pa + pa % 64 = pa := by unfold lineOf; omega
      by_cases h1 : pa + k ≤ a ∧ a < pa + k + (n - k)
      · rw [if_pos h1, if_pos (by omega), ← Nat.shiftRight_add]
        congr 2; omega
      · rw [if_neg h1]
        by_cases h2 : pa ≤ a ∧ a < pa + n
        · have h3 : a < pa + k := by omega
          have hb : (maskOf (pa % 64) k).testBit (a - 64 * lineOf pa) = true := by
            rw [maskOf, Nat.testBit_shiftLeft, Nat.testBit_two_pow_sub_one]
            simp only [Bool.and_eq_true, decide_eq_true_eq]; omega
          rw [if_pos h2, if_pos ⟨by omega, by omega, hb⟩]
          apply Nat.eq_of_testBit_eq
          intro j
          have e256 : (256 : Nat) = 2 ^ 8 := rfl
          simp only [e256, Nat.testBit_mod_two_pow, Nat.testBit_shiftRight, Nat.testBit_shiftLeft]
          by_cases hj : j < 8
          · have a1 : 8 * (a - 64 * lineOf pa) + j ≥ 8 * (pa % 64) := by omega
            have a2 : 8 * (a - 64 * lineOf pa) + j - 8 * (pa % 64) < 8 * k := by omega
            have a3 : 8 * (a - 64 * lineOf pa) + j - 8 * (pa % 64) = 8 * (a - pa) + j := by omega
            simp [hj, a1, a3]
            omega
          · simp [hj]
        · have hb : ¬ (64 * lineOf pa ≤ a ∧ a < 64 * lineOf pa + 64 ∧ (maskOf (pa % 64) k).testBit (a - 64 * lineOf pa) = true) := by
            rintro ⟨b1, b2, b3⟩
            rw [maskOf, Nat.testBit_shiftLeft, Nat.testBit_two_pow_sub_one] at b3
            simp only [Bool.and_eq_true, decide_eq_true_eq] at b3
            omega
          rw [if_neg h2, if_neg hb]

/-- A write in a plain state: its bytes, and every other byte as before; nothing else changes but the directory. -/
theorem State.Plain.writeMem {s : State} (p : s.Plain) (pa v n : Nat) :
    State.MemOnly s (s.writeMem pa v n) ∧
    ∀ a, (s.writeMem pa v n).rawByte a = if pa ≤ a ∧ a < pa + n then (v >>> (8 * (a - pa))) % 256 else s.rawByte a := by
  unfold State.writeMem State.putMem
  rw [p.mergeRecords]
  exact State.Plain.putGo (n + 1) p pa v n (by omega)

end Sys2Proof.Machine
end

