-- ==== Sys2Proof/Laws/Cmds.lean ====
section
/-! SUPPORT. What becomes of a command in the operations that every meaning is written with, and what those operations do in a state
where nothing stands in a command's way. -/
namespace Sys2Proof.Machine

theorem find_map_same {l : List Cmd} {r x : CmdRef} {f : Cmd → Cmd} (hf : ∀ c, (f c).ref = c.ref) :
    (l.map (fun d => if d.ref = r then f d else d)).find? (fun c => c.ref = x) =
      (l.find? (fun c => c.ref = x)).map (fun d => if d.ref = r then f d else d) := by
  rw [List.find?_map]
  congr 2
  funext c
  simp only [Function.comp]
  split
  · rw [hf]
  · rfl

/-- The command changed. -/
theorem State.cmd_modCmd {s : State} {r : CmdRef} {f : Cmd → Cmd} (hf : ∀ c, (f c).ref = c.ref) {c : Cmd} (h : s.cmd r = some c) :
    (s.modCmd r f).cmd r = some (f c) := by
  simp only [State.cmd, State.modCmd] at h ⊢
  rw [find_map_same hf, h]
  have : c.ref = r := by simpa using List.find?_some h
  simp [this]

/-- Every other command. -/
theorem State.cmd_modCmd_other {s : State} {r x : CmdRef} {f : Cmd → Cmd} (hf : ∀ c, (f c).ref = c.ref) (hx : x ≠ r) :
    (s.modCmd r f).cmd x = s.cmd x := by
  simp only [State.cmd, State.modCmd]
  rw [find_map_same hf]
  cases h : s.cmds.find? (fun c => c.ref = x) with
  | none => rfl
  | some c =>
    have : c.ref = x := by simpa using List.find?_some h
    simp [this, hx]

/-- A command that has not ended ends. -/
theorem State.ended_finish {s : State} {r : CmdRef} {c : Cmd} {a b : Nat} (h : s.cmd r = some c) (h1 : c.phase ≠ .ended)
    (h2 : c.phase ≠ .completed) : (s.finish r a b).Ended r a b := by
  refine ⟨{ c with phase := .ended, status := a, detail := b }, ?_, rfl, rfl, rfl⟩
  unfold State.finish
  rw [State.cmd_modCmd (by intro c; split <;> rfl) h, if_neg (by simp [h1, h2])]

theorem State.othersKept_finish (s : State) (r : CmdRef) (a b : Nat) : s.OthersKept (s.finish r a b) r := fun _ hx =>
  State.cmd_modCmd_other (by intro c; split <;> rfl) hx

theorem State.cmd_wrote {s : State} {r : CmdRef} {c : Cmd} (h : s.cmd r = some c) : (s.wrote r).cmd r = some { c with wrote := true } :=
  State.cmd_modCmd (f := fun d => { d with wrote := true }) (fun _ => rfl) h

theorem State.cmd_wrote_other {s : State} {r x : CmdRef} (hx : x ≠ r) : (s.wrote r).cmd x = s.cmd x := State.cmd_modCmd_other (fun _ => rfl) hx

theorem State.cmd_phaseCmd {s : State} {r : CmdRef} {c : Cmd} {p : Phase} (h : s.cmd r = some c) :
    (s.phaseCmd r p).cmd r = some { c with phase := p } :=
  State.cmd_modCmd (f := fun d => { d with phase := p }) (fun _ => rfl) h

theorem State.cmd_phaseCmd_other {s : State} {r x : CmdRef} {p : Phase} (hx : x ≠ r) : (s.phaseCmd r p).cmd x = s.cmd x :=
  State.cmd_modCmd_other (fun _ => rfl) hx

namespace State.Ready
variable {s : State} {r : CmdRef} {op : Nat} {c : Cmd}

/-- A command that is ready runs. -/
theorem run (h : s.Ready r op c) (k : Cmd → State) : s.run r op k = k c := by
  simp [State.run, h.cmd, h.opcode, h.phase, h.held, h.running, h.stalled, h.idle]

/-- It ends. -/
theorem ended {t : State} (h : s.Ready r op c) (ht : t.cmds = s.cmds) (a b : Nat) : (t.finish r a b).Ended r a b := by
  refine State.ended_finish (c := c) (by rw [State.cmd, ht]; exact h.cmd) ?_ ?_ <;> rw [h.phase] <;> decide

/-- It ends after it has been noted that it wrote. -/
theorem ended_wrote {t : State} (h : s.Ready r op c) (ht : t.cmds = s.cmds) (a b : Nat) : ((t.wrote r).finish r a b).Ended r a b := by
  refine State.ended_finish (State.cmd_wrote (c := c) (by rw [State.cmd, ht]; exact h.cmd)) ?_ ?_ <;> dsimp only <;> rw [h.phase] <;> decide

end State.Ready

/-- A unit that is free runs the command whose queue has the turn, and notes the turn. -/
theorem State.UnitReady.runUnit {s : State} {r : CmdRef} {op : Nat} {c : Cmd} (h : s.UnitReady r op c) (k : Cmd → State) :
    s.runUnit r op k = (k c).tookTurn c := by
  simp [State.runUnit, h.frozen, h.ready.run, h.turn]

/-- A note of the turn changes that alone. -/
theorem State.tookTurn_eq (s : State) (c : Cmd) : s.tookTurn c = { s with lastAt := (s.tookTurn c).lastAt } := by
  unfold State.tookTurn
  split <;> rfl

/-! The counters of the links. -/

namespace State.LinksOnly
theorem refl (s : State) : LinksOnly s s := fun _ _ => rfl
theorem trans {s t u : State} (h : LinksOnly s t) (g : LinksOnly t u) : LinksOnly s u := fun k hk => (g k hk).trans (h k hk)
end State.LinksOnly

/-- Only the counters of the links have changed. -/
structure State.CountOnly (s t : State) : Prop where
  eq    : t = { s with counters := t.counters }
  links : s.LinksOnly t

namespace State.CountOnly
theorem refl (s : State) : CountOnly s s := ⟨rfl, .refl s⟩
theorem trans {s t u : State} (h : CountOnly s t) (g : CountOnly t u) : CountOnly s u := ⟨by rw [g.eq, h.eq], h.links.trans g.links⟩
theorem plain {s t : State} (h : CountOnly s t) (p : s.Plain) : t.Plain := by
  rw [h.eq]; exact ⟨p.ecc, p.caches, p.homes, p.scrubs⟩
end State.CountOnly

/-- The counters of one link of a path. -/
theorem State.compat_countOnly (s : State) (x n : Nat) (h : 6 ≤ x ∧ x < 22) : State.CountOnly s (s.compat x n) := by
  refine ⟨rfl, fun k hk => ?_⟩
  simp only [State.compat, State.aon]
  rw [Tab.get_set, if_neg (by omega)]

/-- The links of a path are among the eight of the device. -/
theorem linkPath_lt (a b : Nat) : ∀ l ∈ linkPath a b, l.1 < 8 := by
  intro l hl
  unfold linkPath at hl
  split at hl
  · simp at hl
  · next h =>
    repeat' split at hl
    all_goals simp only [List.mem_cons, List.not_mem_nil, or_false] at hl
    · subst hl; dsimp only; omega
    · subst hl; dsimp only; omega
    · subst hl; dsimp only; omega
    · subst hl; dsimp only; omega
    · rcases hl with h | h <;> subst h <;> dsimp only <;> omega

theorem State.travel_countOnly (s : State) (a b n : Nat) : State.CountOnly s (s.travel a b n) := by
  unfold State.travel
  refine List.foldlRecOn (motive := State.CountOnly s) _ _ (.refl s) (fun t h l hl => h.trans (t.compat_countOnly _ _ ?_))
  have := linkPath_lt a b l hl
  have : b2n (!l.2) < 2 := by unfold b2n; split <;> omega
  omega

theorem State.carry_countOnly (s : State) (here : Nat) (inward : Bool) (l : List (Nat × Nat)) : State.CountOnly s (s.carry here inward l) := by
  unfold State.carry
  refine List.foldlRecOn (motive := State.CountOnly s) _ _ (.refl s) (fun t h p _ => ?_)
  split
  · exact h
  · refine List.foldlRecOn (motive := State.CountOnly s) _ _ h (fun u g k _ => ?_)
    dsimp only
    split
    · split
      · exact g.trans (u.travel_countOnly _ _ _)
      · exact g.trans (u.travel_countOnly _ _ _)
    · exact g

theorem State.Plain.readBursts {s : State} (p : s.Plain) (l : List (Nat × Nat)) : s.readBursts l = s := by simp [State.readBursts, p.ecc]

theorem State.Plain.demand {s : State} (p : s.Plain) (l : List (Nat × Nat)) : s.demand l = s := by
  simp [State.demand, p.readBursts, p.caches]

theorem State.Plain.badIn {s : State} (p : s.Plain) (pa n : Nat) : s.badIn pa n = none := by simp [State.badIn, State.plain, p.ecc, p.caches, p.homes]

theorem State.Plain.firstBad {s : State} (p : s.Plain) (l : List (Nat × Nat)) : s.firstBad l = none := by
  have : l.findSome? (fun p => s.badIn p.1 p.2) = none := by
    rw [List.findSome?_eq_none_iff]
    exact fun x _ => p.badIn _ _
  simp [State.firstBad, this]

/-- A read by a unit of H of a plain state changes the counters of the links alone. -/
theorem State.Plain.hubReads {s : State} (p : s.Plain) (l : List (Nat × Nat)) : State.CountOnly s (s.hubReads l) := by
  unfold State.hubReads
  rw [p.demand]
  exact s.carry_countOnly _ _ _

/-- A write by a unit of H is the write and the counters of the links. -/
theorem State.hubWrites_countOnly (s : State) (pa v n : Nat) : State.CountOnly (s.writeMem pa v n) (s.hubWrites pa v n) :=
  State.carry_countOnly _ _ _ _

/-- A command of a plain state reads its operands: only the counters of the links change. -/
theorem State.Plain.fetchSpans {s : State} (p : s.Plain) (r : CmdRef) (l : List (Nat × Nat)) : State.CountOnly s (s.fetchSpans r l) := by
  unfold State.fetchSpans
  rw [p.demand]
  exact s.carry_countOnly _ _ _

/-- It meets no poison. -/
theorem State.Plain.readingThen {s : State} (p : s.Plain) (r : CmdRef) (l : List (Nat × Nat)) (k : State → State) :
    s.readingThen r l k = k (s.fetchSpans r l) := by
  simp [State.readingThen, ((p.fetchSpans r l).plain p).firstBad]

end Sys2Proof.Machine
end

