-- ==== Sys2Proof/Laws/Keeps.lean ====
section
/-! SUPPORT. What every meaning keeps: the queue of waiting commands is left alone, memory and flash keep their canonical form, and
no free value is taken twice. One relation between the state before and the state after, closed under composition. -/
namespace Sys2Proof.Machine

/-- `t` comes from `s` by work that leaves the waiting commands alone, keeps memory and flash canonical and only moves forward
through the free values. -/
structure Keeps (s t : State) : Prop where
  pending : t.pending = s.pending
  mem     : Memory.wf s.mem = true → Memory.wf t.mem = true
  flash   : Tab.wf (fun _ => flashBlank) s.flash = true → Tab.wf (fun _ => flashBlank) t.flash = true
  draws   : s.draws ≤ t.draws

/-- Every next state of an outcome comes from `s` by such work. -/
def KeepsO (s : State) (o : Host.Outcome State Fault Refusal) : Prop := ∀ t, o = .next t → Keeps s t

namespace Keeps

theorem refl (s : State) : Keeps s s := ⟨rfl, id, id, Nat.le_refl _⟩

theorem trans {s t u : State} (h : Keeps s t) (g : Keeps t u) : Keeps s u :=
  ⟨g.pending.trans h.pending, fun w => g.mem (h.mem w), fun w => g.flash (h.flash w), Nat.le_trans h.draws g.draws⟩

/-- A state that agrees with `t` on the four fields. -/
theorem like {s t u : State} (h : Keeps s t) (hp : u.pending = t.pending) (hm : u.mem = t.mem) (hf : u.flash = t.flash)
    (hd : u.draws = t.draws) : Keeps s u :=
  ⟨hp.trans h.pending, fun w => hm ▸ h.mem w, fun w => hf ▸ h.flash w, hd ▸ h.draws⟩

/-- A record update of other fields. -/
theorem upd {s0 x : State} {v1 : Tab (BitVec 64)} {v2 : Tab (BitVec 64)} {v5 : Tab Nat} {v6 : Nat} {v7 : Tab Int} {v8 : Tab QueueSt} {v9 : Tab Nat} {v10 : List Cmd} {v11 : Tab Engine} {v12 : Tab AccUnit} {v13 : Tab VecUnit} {v14 : Tab UpdUnit} {v15 : Tab Chan} {v16 : Tab Stack} {v17 : Tab HoistChan} {v18 : Tab Hoist} {v19 : Tab (Option Hold)} {v20 : Tab CLine} {v21 : Tab (Option DirEntry)} {v22 : Tab Home} {v23 : Tab Hart} {v24 : Tab Imsic} {v25 : Tab AplicSrc} {v26 : Nat} {v27 : InputUnits} {v28 : Tab PortSt} {v29 : Tab NetSt} {v30 : CollUnit} {v31 : Power} {v32 : Secure} {v33 : Observe} {v34 : Tab Link} {v35 : Tab Nat} {v37 : List Sent} {v38 : Resp}
    (h : Keeps s0 x) : Keeps s0 (State.mk x.pending v1 v2 x.mem x.flash v5 v6 v7 v8 v9 v10 v11 v12 v13 v14 v15 v16 v17 v18 v19 v20 v21 v22 v23 v24 v25 v26 v27 v28 v29 v30 v31 v32 v33 v34 v35 x.draws v37 v38) :=
  ⟨h.pending, h.mem, h.flash, h.draws⟩

theorem elim {α : Type} {s0 a : State} {f : α → State} {o : Option α} (ha : Keeps s0 a) (hf : ∀ x, Keeps s0 (f x)) :
    Keeps s0 (o.elim a f) := by
  cases o with
  | none => exact ha
  | some x => exact hf x

theorem foldl {α : Type} {s0 : State} {g : State → α → State} (hg : ∀ t x, Keeps s0 t → Keeps s0 (g t x)) :
    ∀ {l : List α} {s : State}, Keeps s0 s → Keeps s0 (l.foldl g s)
  | [], _, h => h
  | x :: l, s, h => foldl (l := l) (s := g s x) hg (hg s x h)

theorem foldl1 {α β : Type} {s0 : State} {g : State × β → α → State × β} (hg : ∀ t b x, Keeps s0 t → Keeps s0 (g (t, b) x).1) :
    ∀ {l : List α} {p : State × β}, Keeps s0 p.1 → Keeps s0 (l.foldl g p).1
  | [], _, h => h
  | x :: l, (t, b), h => foldl1 (l := l) (p := g (t, b) x) hg (hg t b x h)

theorem foldl2 {α β : Type} {s0 : State} {g : β × State → α → β × State} (hg : ∀ t b x, Keeps s0 t → Keeps s0 (g (b, t) x).2) :
    ∀ {l : List α} {p : β × State}, Keeps s0 p.2 → Keeps s0 (l.foldl g p).2
  | [], _, h => h
  | x :: l, (b, t), h => foldl2 (l := l) (p := g (b, t) x) hg (hg t b x h)

/-- The state part of a pair that a computation answered. -/
theorem of1 {β : Type} {s0 t : State} {b : β} {p : State × β} (e : p = (t, b)) (h : Keeps s0 p.1) : Keeps s0 t := by
  subst e; exact h

theorem of2 {β : Type} {s0 t : State} {b : β} {p : β × State} (e : p = (b, t)) (h : Keeps s0 p.2) : Keeps s0 t := by
  subst e; exact h

/-! A value bound on the way: only that it keeps is carried on. -/

theorem bind {s0 v : State} {b : State → State} (hv : Keeps s0 v) (hb : ∀ s, Keeps s0 s → Keeps s0 (b s)) :
    Keeps s0 (let s := v; b s) := hb v hv

theorem bind1 {β : Type} {s0 v : State} {b : State → State × β} (hv : Keeps s0 v) (hb : ∀ s, Keeps s0 s → Keeps s0 (b s).1) :
    Keeps s0 (let s := v; b s).1 := hb v hv

theorem bind2 {β : Type} {s0 v : State} {b : State → β × State} (hv : Keeps s0 v) (hb : ∀ s, Keeps s0 s → Keeps s0 (b s).2) :
    Keeps s0 (let s := v; b s).2 := hb v hv

theorem bindO {s0 v : State} {b : State → Host.Outcome State Fault Refusal} (hv : Keeps s0 v)
    (hb : ∀ s, Keeps s0 s → KeepsO s0 (b s)) : KeepsO s0 (let s := v; b s) := hb v hv

theorem letv {α : Type} {s0 : State} {v : α} {b : α → State} (hb : ∀ x, Keeps s0 (b x)) : Keeps s0 (let x := v; b x) := hb v

theorem letv1 {α β : Type} {s0 : State} {v : α} {b : α → State × β} (hb : ∀ x, Keeps s0 (b x).1) : Keeps s0 (let x := v; b x).1 := hb v

theorem letv2 {α β : Type} {s0 : State} {v : α} {b : α → β × State} (hb : ∀ x, Keeps s0 (b x).2) : Keeps s0 (let x := v; b x).2 := hb v

theorem letvO {α : Type} {s0 : State} {v : α} {b : α → Host.Outcome State Fault Refusal} (hb : ∀ x, KeepsO s0 (b x)) :
    KeepsO s0 (let x := v; b x) := hb v

theorem fst {β : Type} {s0 t : State} {b : β} (h : Keeps s0 t) : Keeps s0 (t, b).1 := h

theorem snd {β : Type} {s0 t : State} {b : β} (h : Keeps s0 t) : Keeps s0 (b, t).2 := h

theorem next {s t : State} (h : Keeps s t) : KeepsO s (.next t) := fun _ e => by cases e; exact h

theorem fault {s : State} (f : Fault) : KeepsO s (.fault f) := fun _ e => nomatch e

end Keeps
end Sys2Proof.Machine
end

