-- ==== Sys2Proof/Laws/KeepsOps.lean ====
section
/-! SUPPORT. What the operations of Ops.lean, RegWrite.lean, Burst.lean keep: one lemma each, by composition (Laws/Keeps.lean). -/
namespace Sys2Proof.Machine

theorem State.draw_keeps {s0 : State} {x0 : State} {x1 : Nat} (h : Keeps s0 x0) :
    Keeps s0 (State.draw x0 x1).2 := by
  exact Keeps.trans h ⟨rfl, id, id, Nat.le_succ _⟩

theorem State.setR_keeps {s0 : State} {x0 : State} {x1 : Reg} {x2 : Nat} {x3 : BitVec 64} (h : Keeps s0 x0) :
    Keeps s0 (State.setR x0 x1 x2 x3) := by
  unfold State.setR
  refine Keeps.upd ?_
  exact h

theorem State.setFld_keeps {s0 : State} {x0 : State} {x1 : Fld} {x2 : Nat} {x3 : Nat} (h : Keeps s0 x0) :
    Keeps s0 (State.setFld x0 x1 x2 x3) := by
  unfold State.setFld
  refine State.setR_keeps ?_
  exact h

theorem State.incSat_keeps {s0 : State} {x0 : State} {x1 : Fld} {x2 : Nat} {x3 : Nat} (h : Keeps s0 x0) :
    Keeps s0 (State.incSat x0 x1 x2 x3) := by
  unfold State.incSat
  refine State.setFld_keeps ?_
  exact h

theorem State.incWrap_keeps {s0 : State} {x0 : State} {x1 : Fld} {x2 : Nat} {x3 : Nat} (h : Keeps s0 x0) :
    Keeps s0 (State.incWrap x0 x1 x2 x3) := by
  unfold State.incWrap
  refine State.setFld_keeps ?_
  exact h

theorem State.orFlags_keeps {s0 : State} {x0 : State} {x1 : Reg} {x2 : Nat} {x3 : NumFlags} (h : Keeps s0 x0) :
    Keeps s0 (State.orFlags x0 x1 x2 x3) := by
  unfold State.orFlags
  refine State.setR_keeps ?_
  exact h

theorem State.setByte_keeps {s0 : State} {x0 : State} {x1 : Nat} {x2 : Nat} (h : Keeps s0 x0) :
    Keeps s0 (State.setByte x0 x1 x2) := by
  exact Keeps.trans h ⟨rfl, fun w => Tab.wf_set _ _ w, id, Nat.le_refl _⟩

theorem State.putRaw_keeps {s0 : State} {x0 : State} {x1 : Nat} {x2 : Nat} {x3 : Nat} (h : Keeps s0 x0) :
    Keeps s0 (State.putRaw x0 x1 x2 x3) := by
  induction x3 generalizing x0 x1 x2 with
  | zero => exact h
  | succ n ih => exact ih (State.setByte_keeps h)

theorem State.setHome_keeps {s0 : State} {x0 : State} {x1 : Nat} {x2 : Home} (h : Keeps s0 x0) :
    Keeps s0 (State.setHome x0 x1 x2) := by
  unfold State.setHome
  refine Keeps.upd ?_
  exact h

theorem State.dropCollected_keeps {s0 : State} {x0 : State} {x1 : Nat} (h : Keeps s0 x0) :
    Keeps s0 (State.dropCollected x0 x1) := by
  unfold State.dropCollected
  split
  · split
    · exact h
    · refine State.setHome_keeps ?_
      exact h
  · exact h

theorem State.dropCopies_keeps {s0 : State} {x0 : State} {x1 : Nat} (h : Keeps s0 x0) :
    Keeps s0 (State.dropCopies x0 x1) := by
  unfold State.dropCopies
  extract_lets +onlyGivenNames a1
  have ka1 : Keeps s0 a1 := by
    unfold a1
    refine State.dropCollected_keeps ?_
    exact h
  split
  · exact ka1
  · refine Keeps.upd ?_
    exact ka1

theorem State.storeLine_keeps {s0 : State} {x0 : State} {x1 : Nat} {x2 : Nat} {x3 : Bool} (h : Keeps s0 x0) :
    Keeps s0 (State.storeLine x0 x1 x2 x3) := by
  unfold State.storeLine
  extract_lets +onlyGivenNames a1
  have ka1 : Keeps s0 a1 := by
    unfold a1
    refine State.putRaw_keeps ?_
    exact h
  refine Keeps.upd ?_
  exact ka1

theorem State.writeLine_keeps {s0 : State} {x0 : State} {x1 : Nat} {x2 : Nat} {x3 : Nat} (h : Keeps s0 x0) :
    Keeps s0 (State.writeLine x0 x1 x2 x3) := by
  unfold State.writeLine
  split
  · refine State.storeLine_keeps ?_
    refine State.dropCopies_keeps ?_
    exact h
  · split
    extract_lets +onlyGivenNames a1
    have ka1 : Keeps s0 a1 := by
      unfold a1
      refine State.dropCopies_keeps ?_
      exact h
    split
    · refine State.storeLine_keeps ?_
      exact ka1
    · split
      · refine Keeps.foldl ?_ ?_
        · intro b1 b2 b3
          split
          · refine State.setByte_keeps ?_
            exact b3
          · exact b3
        · exact ka1
      · refine State.storeLine_keeps ?_
        exact ka1

theorem State.putLine_keeps {s0 : State} {x0 : State} {x1 : Nat} {x2 : Nat} (h : Keeps s0 x0) :
    Keeps s0 (State.putLine x0 x1 x2) := by
  unfold State.putLine
  refine State.storeLine_keeps ?_
  refine State.dropCopies_keeps ?_
  exact h

theorem State.putGo_keeps {s0 : State} {x0 : State} {x1 : Nat} {x2 : Nat} {x3 : Nat} {x4 : Nat} (h : Keeps s0 x0) :
    Keeps s0 (State.putGo x0 x1 x2 x3 x4) := by
  induction x4 generalizing x0 x1 x2 x3 with
  | zero => exact h
  | succ n ih =>
    unfold State.putGo
    split
    · exact h
    · exact ih (State.writeLine_keeps h)

theorem State.putMem_keeps {s0 : State} {x0 : State} {x1 : Nat} {x2 : Nat} {x3 : Nat} (h : Keeps s0 x0) :
    Keeps s0 (State.putMem x0 x1 x2 x3) := by
  unfold State.putMem
  refine State.putGo_keeps ?_
  exact h

theorem State.zeroMem_keeps {s0 : State} {x0 : State} {x1 : Nat} {x2 : Nat} (h : Keeps s0 x0) :
    Keeps s0 (State.zeroMem x0 x1 x2) := by
  unfold State.zeroMem
  split
  · exact Keeps.trans h ⟨rfl, fun w => Tab.wf_filter _ w, id, Nat.le_refl _⟩
  · exact Keeps.foldl (fun _ _ k => State.putLine_keeps k) h

theorem State.msi_keeps {s0 : State} {x0 : State} {x1 : Nat} {x2 : Nat} (h : Keeps s0 x0) :
    Keeps s0 (State.msi x0 x1 x2) := by
  unfold State.msi
  split
  · extract_lets +onlyGivenNames a1
    refine Keeps.upd ?_
    exact h
  · exact h

theorem State.aplicRaise_keeps {s0 : State} {x0 : State} {x1 : Nat} (h : Keeps s0 x0) :
    Keeps s0 (State.aplicRaise x0 x1) := by
  unfold State.aplicRaise
  extract_lets +onlyGivenNames a2
  split
  · exact h
  · split
    · refine State.msi_keeps ?_
      exact h
    · refine Keeps.upd ?_
      exact h

theorem State.wire_keeps {s0 : State} {x0 : State} {x1 : State} {x2 : Nat} (h : Keeps s0 x0) :
    Keeps s0 (State.wire x0 x1 x2) := by
  unfold State.wire
  split
  · refine State.aplicRaise_keeps ?_
    exact h
  · exact h

theorem State.ringLines_keeps {s0 : State} {x0 : State} {x1 : Nat} {x2 : List Nat} (h : Keeps s0 x0) :
    Keeps s0 (State.ringLines x0 x1 x2).1 := by
  fun_induction State.ringLines x0 x1 x2 with
  | case1 s a b rest base size p ih => exact ih (State.setFld_keeps (State.putLine_keeps h))
  | case2 => exact h

theorem State.flushRing_keeps {s0 : State} {x0 : State} {x1 : Nat} (h : Keeps s0 x0) :
    Keeps s0 (State.flushRing x0 x1) := by
  unfold State.flushRing
  split
  · exact h
  · extract_lets +onlyGivenNames a1
    split
    refine State.wire_keeps ?_
    refine Keeps.upd ?_
    refine Keeps.of1 ‹_› ?_
    refine State.ringLines_keeps ?_
    exact h

theorem State.traceAs_keeps {s0 : State} {x0 : State} {x1 : Nat} {x2 : Nat} {x3 : Nat} {x4 : Nat} {x5 : Nat} {x6 : Bool} (h : Keeps s0 x0) :
    Keeps s0 (State.traceAs x0 x1 x2 x3 x4 x5 x6) := by
  unfold State.traceAs
  extract_lets +onlyGivenNames a1
  split
  · refine State.incSat_keeps ?_
    exact h
  · extract_lets +onlyGivenNames a2
    extract_lets +onlyGivenNames a3
    extract_lets +onlyGivenNames a4
    extract_lets +onlyGivenNames a5
    have ka5 : Keeps s0 a5 := by
      unfold a5
      refine Keeps.upd ?_
      exact h
    extract_lets +onlyGivenNames a6
    extract_lets +onlyGivenNames a7
    split
    · extract_lets +onlyGivenNames a8
      have ka8 : Keeps s0 a8 := by
        unfold a8
        refine State.incSat_keeps ?_
        exact ka5
      refine Keeps.upd ?_
      exact ka8
    · split
      extract_lets +onlyGivenNames a8
      extract_lets +onlyGivenNames a9
      extract_lets +onlyGivenNames a10
      have ka10 : Keeps s0 a10 := by
        unfold a10
        refine Keeps.upd ?_
        refine Keeps.of2 ‹_› ?_
        refine State.draw_keeps ?_
        exact ka5
      refine State.flushRing_keeps ?_
      exact ka10

theorem State.trace_keeps {s0 : State} {x0 : State} {x1 : Nat} {x2 : Nat} {x3 : Nat} (h : Keeps s0 x0) :
    Keeps s0 (State.trace x0 x1 x2 x3) := by
  unfold State.trace
  refine State.traceAs_keeps ?_
  exact h

theorem State.clockResume_keeps {s0 : State} {x0 : State} {x1 : Nat} (h : Keeps s0 x0) :
    Keeps s0 (State.clockResume x0 x1) := by
  unfold State.clockResume
  extract_lets +onlyGivenNames a1
  split
  · exact h
  · refine State.trace_keeps ?_
    refine Keeps.upd ?_
    exact h

theorem State.clockStop_keeps {s0 : State} {x0 : State} {x1 : Nat} (h : Keeps s0 x0) :
    Keeps s0 (State.clockStop x0 x1) := by
  unfold State.clockStop
  refine Keeps.upd ?_
  exact h

theorem State.ringWrite_keeps {s0 : State} {x0 : State} {x1 : Nat} (h : Keeps s0 x0) :
    Keeps s0 (State.ringWrite x0 x1) := by
  unfold State.ringWrite
  extract_lets +onlyGivenNames a1
  extract_lets +onlyGivenNames a2
  split
  · exact h
  · extract_lets +onlyGivenNames a3
    split
    · extract_lets +onlyGivenNames a4
      have ka4 : Keeps s0 a4 := by
        unfold a4
        refine State.incSat_keeps ?_
        exact h
      refine Keeps.upd ?_
      exact ka4
    · extract_lets +onlyGivenNames a4
      extract_lets +onlyGivenNames a5
      have ka5 : Keeps s0 a5 := by
        unfold a5
        refine State.putLine_keeps ?_
        exact h
      extract_lets +onlyGivenNames a6
      have ka6 : Keeps s0 a6 := by
        unfold a6
        refine State.setFld_keeps ?_
        exact ka5
      refine State.wire_keeps ?_
      refine Keeps.upd ?_
      exact ka6

theorem State.record_keeps {s0 : State} {x0 : State} {x1 : ErrRec} {x2 : Bool} (h : Keeps s0 x0) :
    Keeps s0 (State.record x0 x1 x2) := by
  unfold State.record
  extract_lets +onlyGivenNames a1
  extract_lets +onlyGivenNames a2
  split
  · refine Keeps.upd ?_
    exact h
  · extract_lets +onlyGivenNames a3
    extract_lets +onlyGivenNames a4
    extract_lets +onlyGivenNames a5
    extract_lets +onlyGivenNames a6
    extract_lets +onlyGivenNames a7
    have ka7 : Keeps s0 a7 := by
      unfold a7
      refine State.setFld_keeps ?_
      exact h
    extract_lets +onlyGivenNames a8
    extract_lets +onlyGivenNames a9
    extract_lets +onlyGivenNames a10
    have ka10 : Keeps s0 a10 := by
      unfold a10
      refine Keeps.upd ?_
      exact ka7
    split
    · refine State.ringWrite_keeps ?_
      exact ka10
    · exact ka10

theorem State.report_keeps {s0 : State} {x0 : State} {x1 : ErrRec} (h : Keeps s0 x0) :
    Keeps s0 (State.report x0 x1) := by
  unfold State.report
  refine State.record_keeps ?_
  exact h

theorem State.fatal_keeps {s0 : State} {x0 : State} {x1 : Nat} {x2 : Nat} {x3 : Nat} {x4 : Nat} (h : Keeps s0 x0) :
    Keeps s0 (State.fatal x0 x1 x2 x3 x4) := by
  unfold State.fatal
  split
  · exact h
  · extract_lets +onlyGivenNames a1
    have ka1 : Keeps s0 a1 := by
      unfold a1
      refine State.record_keeps ?_
      exact h
    extract_lets +onlyGivenNames a2
    have ka2 : Keeps s0 a2 := by
      unfold a2
      refine State.setFld_keeps ?_
      refine State.setFld_keeps ?_
      exact ka1
    refine Keeps.upd ?_
    exact ka2

theorem State.mmioRefuse_keeps {s0 : State} {x0 : State} {x1 : Nat} {x2 : Nat} {x3 : Bool} (h : Keeps s0 x0) :
    Keeps s0 (State.mmioRefuse x0 x1 x2 x3) := by
  unfold State.mmioRefuse
  extract_lets +onlyGivenNames a1
  have ka1 : Keeps s0 a1 := by
    unfold a1
    refine State.report_keeps ?_
    exact h
  split
  · refine State.incSat_keeps ?_
    exact ka1
  · exact ka1

theorem State.unpopulated_keeps {s0 : State} {x0 : State} {x1 : Nat} {x2 : Nat} {x3 : Nat} (h : Keeps s0 x0) :
    Keeps s0 (State.unpopulated x0 x1 x2 x3) := by
  unfold State.unpopulated
  extract_lets +onlyGivenNames a1
  extract_lets +onlyGivenNames a2
  have ka2 : Keeps s0 a2 := by
    unfold a2
    split
    · refine State.setFld_keeps ?_
      refine State.setFld_keeps ?_
      exact h
    · refine State.setFld_keeps ?_
      refine State.setFld_keeps ?_
      refine State.setFld_keeps ?_
      refine State.setFld_keeps ?_
      refine State.setFld_keeps ?_
      refine State.setFld_keeps ?_
      exact h
  refine State.report_keeps ?_
  refine State.wire_keeps ?_
  exact ka2

theorem State.aon_keeps {s0 : State} {x0 : State} {x1 : Nat} {x2 : Nat} (h : Keeps s0 x0) :
    Keeps s0 (State.aon x0 x1 x2) := by
  unfold State.aon
  refine Keeps.upd ?_
  exact h

theorem State.compat_keeps {s0 : State} {x0 : State} {x1 : Nat} {x2 : Nat} (h : Keeps s0 x0) :
    Keeps s0 (State.compat x0 x1 x2) := by
  unfold State.compat
  refine State.aon_keeps ?_
  exact h

theorem State.profAdd_keeps {s0 : State} {x0 : State} {x1 : Nat} {x2 : Nat} (h : Keeps s0 x0) :
    Keeps s0 (State.profAdd x0 x1 x2) := by
  unfold State.profAdd
  extract_lets +onlyGivenNames a1
  extract_lets +onlyGivenNames a2
  have ka2 : Keeps s0 a2 := by
    unfold a2
    refine State.setFld_keeps ?_
    exact h
  split
  · exact ka2
  · extract_lets +onlyGivenNames a3
    have ka3 : Keeps s0 a3 := by
      unfold a3
      refine State.setFld_keeps ?_
      exact ka2
    split
    · refine State.trace_keeps ?_
      exact ka3
    · exact ka3

theorem State.prof_keeps {s0 : State} {x0 : State} {x1 : Nat} {x2 : Nat} {x3 : Nat} (h : Keeps s0 x0) :
    Keeps s0 (State.prof x0 x1 x2 x3) := by
  unfold State.prof
  refine Keeps.foldl ?_ ?_
  · intro b1 b2 b3
    extract_lets +onlyGivenNames a1
    split
    · refine State.profAdd_keeps ?_
      exact b3
    · exact b3
  · exact h

theorem State.setQueue_keeps {s0 : State} {x0 : State} {x1 : Nat} {x2 : QueueSt} (h : Keeps s0 x0) :
    Keeps s0 (State.setQueue x0 x1 x2) := by
  unfold State.setQueue
  refine Keeps.upd ?_
  exact h

theorem State.setEngine_keeps {s0 : State} {x0 : State} {x1 : Nat} {x2 : Engine} (h : Keeps s0 x0) :
    Keeps s0 (State.setEngine x0 x1 x2) := by
  unfold State.setEngine
  refine Keeps.upd ?_
  exact h

theorem State.setAcc_keeps {s0 : State} {x0 : State} {x1 : Nat} {x2 : AccUnit} (h : Keeps s0 x0) :
    Keeps s0 (State.setAcc x0 x1 x2) := by
  unfold State.setAcc
  refine Keeps.upd ?_
  exact h

theorem State.setVec_keeps {s0 : State} {x0 : State} {x1 : Nat} {x2 : VecUnit} (h : Keeps s0 x0) :
    Keeps s0 (State.setVec x0 x1 x2) := by
  unfold State.setVec
  refine Keeps.upd ?_
  exact h

theorem State.setUpd_keeps {s0 : State} {x0 : State} {x1 : Nat} {x2 : UpdUnit} (h : Keeps s0 x0) :
    Keeps s0 (State.setUpd x0 x1 x2) := by
  unfold State.setUpd
  refine Keeps.upd ?_
  exact h

theorem State.setChan_keeps {s0 : State} {x0 : State} {x1 : Nat} {x2 : Chan} (h : Keeps s0 x0) :
    Keeps s0 (State.setChan x0 x1 x2) := by
  unfold State.setChan
  refine Keeps.upd ?_
  exact h

theorem State.setStack_keeps {s0 : State} {x0 : State} {x1 : Nat} {x2 : Stack} (h : Keeps s0 x0) :
    Keeps s0 (State.setStack x0 x1 x2) := by
  unfold State.setStack
  refine Keeps.upd ?_
  exact h

theorem State.setHoistChan_keeps {s0 : State} {x0 : State} {x1 : Nat} {x2 : HoistChan} (h : Keeps s0 x0) :
    Keeps s0 (State.setHoistChan x0 x1 x2) := by
  unfold State.setHoistChan
  refine Keeps.upd ?_
  exact h

theorem State.setHoist_keeps {s0 : State} {x0 : State} {x1 : Nat} {x2 : Hoist} (h : Keeps s0 x0) :
    Keeps s0 (State.setHoist x0 x1 x2) := by
  unfold State.setHoist
  refine Keeps.upd ?_
  exact h

theorem State.setHold_keeps {s0 : State} {x0 : State} {x1 : Nat} {x2 : Nat} {x3 : Option Hold} (h : Keeps s0 x0) :
    Keeps s0 (State.setHold x0 x1 x2 x3) := by
  unfold State.setHold
  refine Keeps.upd ?_
  exact h

theorem State.setHart_keeps {s0 : State} {x0 : State} {x1 : Nat} {x2 : Hart} (h : Keeps s0 x0) :
    Keeps s0 (State.setHart x0 x1 x2) := by
  unfold State.setHart
  refine Keeps.upd ?_
  exact h

theorem State.setPort_keeps {s0 : State} {x0 : State} {x1 : Nat} {x2 : PortSt} (h : Keeps s0 x0) :
    Keeps s0 (State.setPort x0 x1 x2) := by
  unfold State.setPort
  refine Keeps.upd ?_
  exact h

theorem State.setNet_keeps {s0 : State} {x0 : State} {x1 : Nat} {x2 : NetSt} (h : Keeps s0 x0) :
    Keeps s0 (State.setNet x0 x1 x2) := by
  unfold State.setNet
  refine Keeps.upd ?_
  exact h

theorem State.emit_keeps {s0 : State} {x0 : State} {x1 : Sent} (h : Keeps s0 x0) :
    Keeps s0 (State.emit x0 x1) := by
  unfold State.emit
  split
  · refine Keeps.upd ?_
    exact h
  · split
    · extract_lets +onlyGivenNames a1
      refine State.setPort_keeps ?_
      exact h
    · refine Keeps.upd ?_
      exact h

theorem State.send_keeps {s0 : State} {x0 : State} {x1 : TxFrame} (h : Keeps s0 x0) :
    Keeps s0 (State.send x0 x1) := by
  unfold State.send
  refine State.emit_keeps ?_
  exact h

theorem State.unpause_keeps {s0 : State} {x0 : State} {x1 : Nat} (h : Keeps s0 x0) :
    Keeps s0 (State.unpause x0 x1) := by
  unfold State.unpause
  extract_lets +onlyGivenNames a1
  extract_lets +onlyGivenNames a2
  refine Keeps.foldl ?_ ?_
  · intro b1 b2 b3
    refine State.emit_keeps ?_
    exact b3
  · refine State.setPort_keeps ?_
    exact h

theorem State.rxFrame_keeps {s0 : State} {x0 : State} {x1 : Nat} {x2 : RxHdr} {x3 : State → State} (h : Keeps s0 x0) (k3 : ∀ {y0}, Keeps s0 y0 → Keeps s0 (x3 y0)) :
    Keeps s0 (State.rxFrame x0 x1 x2 x3) := by
  unfold State.rxFrame
  extract_lets +onlyGivenNames a1
  extract_lets +onlyGivenNames a2
  split
  · refine State.incSat_keeps ?_
    exact h
  · split
    · refine State.incSat_keeps ?_
      exact h
    · split
      · refine State.incSat_keeps ?_
        exact h
      · refine k3 ?_
        exact h

theorem State.rxUdp_keeps {s0 : State} {x0 : State} {x1 : Nat} {x2 : RxHdr} {x3 : Nat} {x4 : State → State} (h : Keeps s0 x0) (k4 : ∀ {y0}, Keeps s0 y0 → Keeps s0 (x4 y0)) :
    Keeps s0 (State.rxUdp x0 x1 x2 x3 x4) := by
  unfold State.rxUdp
  refine State.rxFrame_keeps ?_ ?_
  · exact h
  · intro b1 b2
    split
    · refine State.incSat_keeps ?_
      exact b2
    · split
      · exact b2
      · refine k4 ?_
        exact b2

theorem tick_keeps {s0 : State} {x0 : State} (h : Keeps s0 x0) :
    Keeps s0 (tick x0) := by
  unfold tick
  extract_lets +onlyGivenNames a1
  split
  · refine Keeps.upd ?_
    exact h
  · exact h

theorem State.setCmd_keeps {s0 : State} {x0 : State} {x1 : Cmd} (h : Keeps s0 x0) :
    Keeps s0 (State.setCmd x0 x1) := by
  unfold State.setCmd
  refine Keeps.upd ?_
  exact h

theorem State.modCmd_keeps {s0 : State} {x0 : State} {x1 : CmdRef} {x2 : Cmd → Cmd} (h : Keeps s0 x0) :
    Keeps s0 (State.modCmd x0 x1 x2) := by
  unfold State.modCmd
  refine Keeps.upd ?_
  exact h

theorem State.putField_keeps {s0 : State} {x0 : State} {x1 : Reg} {x2 : Nat} {x3 : Nat × Nat × Acc} {x4 : Nat} {x5 : Nat} (h : Keeps s0 x0) :
    Keeps s0 (State.putField x0 x1 x2 x3 x4 x5) := by
  unfold State.putField
  extract_lets +onlyGivenNames a1
  extract_lets +onlyGivenNames a2
  extract_lets +onlyGivenNames a3
  extract_lets +onlyGivenNames a4
  split
  · extract_lets +onlyGivenNames a5
    split
    · exact h
    · refine State.setFld_keeps ?_
      exact h
  · refine State.setFld_keeps ?_
    exact h
  · exact h

theorem State.putFields_keeps {s0 : State} {x0 : State} {x1 : Reg} {x2 : Nat} {x3 : Nat} {x4 : Nat} (h : Keeps s0 x0) :
    Keeps s0 (State.putFields x0 x1 x2 x3 x4) := by
  unfold State.putFields
  refine Keeps.foldl ?_ ?_
  · intro b1 b2 b3
    refine State.putField_keeps ?_
    exact b3
  · exact h

theorem State.traceFree_keeps {s0 : State} {x0 : State} {x1 : Nat} {x2 : Nat} (h : Keeps s0 x0) :
    Keeps s0 (State.traceFree x0 x1 x2) := by
  unfold State.traceFree
  split
  refine State.trace_keeps ?_
  refine Keeps.of2 ‹_› ?_
  refine State.draw_keeps ?_
  exact h

theorem State.countLanes_keeps {s0 : State} {x0 : State} {x1 : Nat} {x2 : Nat} (h : Keeps s0 x0) :
    Keeps s0 (State.countLanes x0 x1 x2) := by
  unfold State.countLanes
  extract_lets +onlyGivenNames a1
  extract_lets +onlyGivenNames a2
  extract_lets +onlyGivenNames a3
  extract_lets +onlyGivenNames a4
  extract_lets +onlyGivenNames a5
  extract_lets +onlyGivenNames a6
  have ka6 : Keeps s0 a6 := by
    unfold a6
    refine State.setChan_keeps ?_
    exact h
  extract_lets +onlyGivenNames a7
  refine Keeps.foldl ?_ ?_
  · intro b1 b2 b3
    extract_lets +onlyGivenNames a8
    have ka8 : Keeps s0 a8 := by
      unfold a8
      refine State.setFld_keeps ?_
      exact b3
    extract_lets +onlyGivenNames a9
    have ka9 : Keeps s0 a9 := by
      unfold a9
      refine State.trace_keeps ?_
      exact ka8
    refine State.report_keeps ?_
    exact ka9
  · exact ka6

theorem State.captureUe_keeps {s0 : State} {x0 : State} {x1 : Nat} {x2 : Place} {x3 : Nat} (h : Keeps s0 x0) :
    Keeps s0 (State.captureUe x0 x1 x2 x3) := by
  unfold State.captureUe
  split
  · refine State.setFld_keeps ?_
    exact h
  · refine State.setFld_keeps ?_
    refine State.setFld_keeps ?_
    refine State.setFld_keeps ?_
    refine State.setFld_keeps ?_
    refine State.setFld_keeps ?_
    refine State.setFld_keeps ?_
    exact h

theorem State.ueWindow_keeps {s0 : State} {x0 : State} {x1 : Nat} {x2 : Nat} (h : Keeps s0 x0) :
    Keeps s0 (State.ueWindow x0 x1 x2) := by
  unfold State.ueWindow
  extract_lets +onlyGivenNames a1
  extract_lets +onlyGivenNames a2
  extract_lets +onlyGivenNames a3
  extract_lets +onlyGivenNames a4
  have ka4 : Keeps s0 a4 := by
    unfold a4
    refine State.setChan_keeps ?_
    exact h
  split
  · extract_lets +onlyGivenNames a5
    have ka5 : Keeps s0 a5 := by
      unfold a5
      refine State.traceFree_keeps ?_
      refine State.setFld_keeps ?_
      exact ka4
    refine State.report_keeps ?_
    exact ka5
  · exact ka4

theorem State.readBurst_keeps {s0 : State} {x0 : State} {x1 : Nat} {x2 : Nat} (h : Keeps s0 x0) :
    Keeps s0 (State.readBurst x0 x1 x2) := by
  unfold State.readBurst
  split
  · extract_lets +onlyGivenNames a1
    split
    · exact h
    · extract_lets +onlyGivenNames a2
      have ka2 : Keeps s0 a2 := by
        unfold a2
        refine State.aon_keeps ?_
        refine State.incSat_keeps ?_
        exact h
      extract_lets +onlyGivenNames a3
      have ka3 : Keeps s0 a3 := by
        unfold a3
        refine State.countLanes_keeps ?_
        exact ka2
      extract_lets +onlyGivenNames a4
      split
      · exact ka3
      · refine State.setChan_keeps ?_
        exact ka3
    · refine State.incSat_keeps ?_
      exact h
    · extract_lets +onlyGivenNames a2
      have ka2 : Keeps s0 a2 := by
        unfold a2
        refine State.storeLine_keeps ?_
        exact h
      extract_lets +onlyGivenNames a3
      have ka3 : Keeps s0 a3 := by
        unfold a3
        refine State.aon_keeps ?_
        refine State.incSat_keeps ?_
        exact ka2
      extract_lets +onlyGivenNames a4
      have ka4 : Keeps s0 a4 := by
        unfold a4
        refine State.captureUe_keeps ?_
        exact ka3
      extract_lets +onlyGivenNames a5
      have ka5 : Keeps s0 a5 := by
        unfold a5
        refine State.report_keeps ?_
        exact ka4
      refine State.ueWindow_keeps ?_
      exact ka5
  · exact h

theorem State.readBursts_keeps {s0 : State} {x0 : State} {x1 : List (Nat × Nat)} (h : Keeps s0 x0) :
    Keeps s0 (State.readBursts x0 x1) := by
  unfold State.readBursts
  refine Keeps.foldl ?_ ?_
  · intro b1 b2 b3
    split
    · refine State.readBurst_keeps ?_
      exact b3
    · exact b3
  · exact h

theorem State.demand_keeps {s0 : State} {x0 : State} {x1 : List (Nat × Nat)} (h : Keeps s0 x0) :
    Keeps s0 (State.demand x0 x1) := by
  unfold State.demand
  extract_lets +onlyGivenNames a1
  have ka1 : Keeps s0 a1 := by
    unfold a1
    refine State.readBursts_keeps ?_
    exact h
  refine Keeps.foldl ?_ ?_
  · intro b1 b2 b3
    split
    · refine State.incWrap_keeps ?_
      exact b3
    · exact b3
  · exact ka1

theorem State.scrubFirst_keeps {s0 : State} {x0 : State} {x1 : Nat} (h : Keeps s0 x0) :
    Keeps s0 (State.scrubFirst x0 x1) := by
  unfold State.scrubFirst
  split
  · exact h
  · split
    · exact h
    · extract_lets +onlyGivenNames a1
      extract_lets +onlyGivenNames a2
      split
      · exact h
      · extract_lets +onlyGivenNames a3
        have ka3 : Keeps s0 a3 := by
          unfold a3
          refine State.setChan_keeps ?_
          exact h
        extract_lets +onlyGivenNames a4
        have ka4 : Keeps s0 a4 := by
          unfold a4
          refine State.readBurst_keeps ?_
          exact ka3
        split
        · refine State.incWrap_keeps ?_
          exact ka4
        · exact ka4

theorem State.mergeNote_keeps {s0 : State} {x0 : State} {x1 : Nat} (h : Keeps s0 x0) :
    Keeps s0 (State.mergeNote x0 x1) := by
  unfold State.mergeNote
  split
  · extract_lets +onlyGivenNames a1
    refine State.report_keeps ?_
    exact h
  · exact h

theorem State.mergeRecords_keeps {s0 : State} {x0 : State} {x1 : Nat} {x2 : Nat} (h : Keeps s0 x0) :
    Keeps s0 (State.mergeRecords x0 x1 x2) := by
  unfold State.mergeRecords
  split
  · exact h
  · extract_lets +onlyGivenNames a1
    refine Keeps.foldl ?_ ?_
    · intro b1 b2 b3
      extract_lets +onlyGivenNames a2
      have ka2 : Keeps s0 a2 := by
        unfold a2
        refine State.scrubFirst_keeps ?_
        exact b3
      extract_lets +onlyGivenNames a3
      split
      · exact ka2
      · extract_lets +onlyGivenNames a4
        have ka4 : Keeps s0 a4 := by
          unfold a4
          split
          · refine State.readBurst_keeps ?_
            exact ka2
          · exact ka2
        refine State.mergeNote_keeps ?_
        exact ka4
    · exact h

theorem State.writeMem_keeps {s0 : State} {x0 : State} {x1 : Nat} {x2 : Nat} {x3 : Nat} (h : Keeps s0 x0) :
    Keeps s0 (State.writeMem x0 x1 x2 x3) := by
  unfold State.writeMem
  refine State.putMem_keeps ?_
  refine State.mergeRecords_keeps ?_
  exact h

theorem State.add64_keeps {s0 : State} {x0 : State} {x1 : Nat} {x2 : Nat} (h : Keeps s0 x0) :
    Keeps s0 (State.add64 x0 x1 x2) := by
  unfold State.add64
  split
  · exact h
  · extract_lets +onlyGivenNames a2
    have ka2 : Keeps s0 a2 := by
      unfold a2
      refine State.mergeRecords_keeps ?_
      exact h
    refine State.putMem_keeps ?_
    exact ka2

theorem State.max32_keeps {s0 : State} {x0 : State} {x1 : Nat} {x2 : Nat} (h : Keeps s0 x0) :
    Keeps s0 (State.max32 x0 x1 x2) := by
  unfold State.max32
  extract_lets +onlyGivenNames a1
  have ka1 : Keeps s0 a1 := by
    unfold a1
    refine State.mergeRecords_keeps ?_
    exact h
  refine State.putMem_keeps ?_
  exact ka1

end Sys2Proof.Machine
end

