-- ==== Sys2Proof/Laws/KeepsCmds.lean ====
section
/-! SUPPORT. What the operations of Operands.lean, Cmds.lean, Homes.lean, Engine.lean, Queue.lean, Control.lean keep: one lemma each, by composition (Laws/Keeps.lean). -/
namespace Sys2Proof.Machine

theorem State.finish_keeps {s0 : State} {x0 : State} {x1 : CmdRef} {x2 : Nat} {x3 : Nat} (h : Keeps s0 x0) :
    Keeps s0 (State.finish x0 x1 x2 x3) := by
  unfold State.finish
  refine State.modCmd_keeps ?_
  exact h

theorem State.wrote_keeps {s0 : State} {x0 : State} {x1 : CmdRef} (h : Keeps s0 x0) :
    Keeps s0 (State.wrote x0 x1) := by
  unfold State.wrote
  refine State.modCmd_keeps ?_
  exact h

theorem State.noteCmd_keeps {s0 : State} {x0 : State} {x1 : CmdRef} {x2 : Nat} (h : Keeps s0 x0) :
    Keeps s0 (State.noteCmd x0 x1 x2) := by
  unfold State.noteCmd
  refine State.modCmd_keeps ?_
  exact h

theorem State.phaseCmd_keeps {s0 : State} {x0 : State} {x1 : CmdRef} {x2 : Phase} (h : Keeps s0 x0) :
    Keeps s0 (State.phaseCmd x0 x1 x2) := by
  unfold State.phaseCmd
  refine State.modCmd_keeps ?_
  exact h

theorem State.settleQuars_keeps {s0 : State} {x0 : State} (h : Keeps s0 x0) :
    Keeps s0 (State.settleQuars x0) := by
  unfold State.settleQuars
  refine Keeps.foldl ?_ ?_
  · intro b1 b2 b3
    extract_lets +onlyGivenNames a1
    split
    · refine State.finish_keeps ?_
      split
      · refine State.setFld_keeps ?_
        exact b3
      · exact b3
    · exact b3
  · exact h

theorem State.stall_keeps {s0 : State} {x0 : State} {x1 : Cmd} (h : Keeps s0 x0) :
    Keeps s0 (State.stall x0 x1) := by
  unfold State.stall
  split
  · refine State.noteCmd_keeps ?_
    exact h
  · exact h

theorem State.run_keeps {s0 : State} {x0 : State} {x1 : CmdRef} {x2 : Nat} {x3 : Cmd → State} (h : Keeps s0 x0) (k3 : ∀ {y0}, Keeps s0 (x3 y0)) :
    Keeps s0 (State.run x0 x1 x2 x3) := by
  unfold State.run
  split
  · split
    · split
      · refine State.stall_keeps ?_
        exact h
      · split
        · exact h
        · refine k3 
    · exact h
  · exact h

theorem State.served_keeps {s0 : State} {x0 : State} {x1 : Nat} {x2 : CmdRef} (h : Keeps s0 x0) :
    Keeps s0 (State.served x0 x1 x2) := by
  unfold State.served
  refine Keeps.upd ?_
  exact h

theorem State.tookTurn_keeps {s0 : State} {x0 : State} {x1 : Cmd} (h : Keeps s0 x0) :
    Keeps s0 (State.tookTurn x0 x1) := by
  unfold State.tookTurn
  split
  · refine State.served_keeps ?_
    exact h
  · exact h

theorem State.runUnit_keeps {s0 : State} {x0 : State} {x1 : CmdRef} {x2 : Nat} {x3 : Cmd → State} (h : Keeps s0 x0) (k3 : ∀ {y0}, Keeps s0 (x3 y0)) :
    Keeps s0 (State.runUnit x0 x1 x2 x3) := by
  unfold State.runUnit
  split
  · exact h
  · refine State.run_keeps ?_ ?_
    · exact h
    · intro b1
      split
      · refine State.tookTurn_keeps ?_
        refine k3 
      · exact h

theorem State.account_keeps {s0 : State} {x0 : State} {x1 : CmdRef} {x2 : Acct → Acct} (h : Keeps s0 x0) :
    Keeps s0 (State.account x0 x1 x2) := by
  unfold State.account
  refine State.modCmd_keeps ?_
  exact h

theorem ok_keeps {s0 : State} {x0 : State} (h : Keeps s0 x0) :
    KeepsO s0 (ok x0) := by
  unfold ok
  refine Keeps.next ?_
  exact h

theorem State.poisoned_keeps {s0 : State} {x0 : State} {x1 : CmdRef} {x2 : Nat} (h : Keeps s0 x0) :
    Keeps s0 (State.poisoned x0 x1 x2) := by
  unfold State.poisoned
  refine State.finish_keeps ?_
  exact h

theorem State.travel_keeps {s0 : State} {x0 : State} {x1 : Nat} {x2 : Nat} {x3 : Nat} (h : Keeps s0 x0) :
    Keeps s0 (State.travel x0 x1 x2 x3) := by
  unfold State.travel
  refine Keeps.foldl ?_ ?_
  · intro b1 b2 b3
    refine State.compat_keeps ?_
    exact b3
  · exact h

theorem State.carry_keeps {s0 : State} {x0 : State} {x1 : Nat} {x2 : Bool} {x3 : List (Nat × Nat)} (h : Keeps s0 x0) :
    Keeps s0 (State.carry x0 x1 x2 x3) := by
  unfold State.carry
  refine Keeps.foldl ?_ ?_
  · intro b1 b2 b3
    split
    · exact b3
    · refine Keeps.foldl ?_ ?_
      · intro b4 b5 b6
        extract_lets +onlyGivenNames a1
        extract_lets +onlyGivenNames a2
        split
        · split
          · refine State.travel_keeps ?_
            exact b6
          · refine State.travel_keeps ?_
            exact b6
        · exact b6
      · exact b3
  · exact h

theorem State.fetchSpans_keeps {s0 : State} {x0 : State} {x1 : CmdRef} {x2 : List (Nat × Nat)} (h : Keeps s0 x0) :
    Keeps s0 (State.fetchSpans x0 x1 x2) := by
  unfold State.fetchSpans
  refine State.carry_keeps ?_
  refine State.demand_keeps ?_
  exact h

theorem State.hubReads_keeps {s0 : State} {x0 : State} {x1 : List (Nat × Nat)} (h : Keeps s0 x0) :
    Keeps s0 (State.hubReads x0 x1) := by
  unfold State.hubReads
  refine State.carry_keeps ?_
  refine State.demand_keeps ?_
  exact h

theorem State.hubWrites_keeps {s0 : State} {x0 : State} {x1 : Nat} {x2 : Nat} {x3 : Nat} (h : Keeps s0 x0) :
    Keeps s0 (State.hubWrites x0 x1 x2 x3) := by
  unfold State.hubWrites
  refine State.carry_keeps ?_
  refine State.writeMem_keeps ?_
  exact h

theorem State.readingThen_keeps {s0 : State} {x0 : State} {x1 : CmdRef} {x2 : List (Nat × Nat)} {x3 : State → State} (h : Keeps s0 x0) (k3 : ∀ {y0}, Keeps s0 y0 → Keeps s0 (x3 y0)) :
    Keeps s0 (State.readingThen x0 x1 x2 x3) := by
  unfold State.readingThen
  extract_lets +onlyGivenNames a1
  have ka1 : Keeps s0 a1 := by
    unfold a1
    refine State.fetchSpans_keeps ?_
    exact h
  split
  · refine State.poisoned_keeps ?_
    exact ka1
  · refine k3 ?_
    exact ka1

theorem State.writePart_keeps {s0 : State} {x0 : State} {x1 : Cmd} {x2 : Td} {x3 : Nat} {x4 : Nat} {x5 : Nat} {x6 : Nat} {x7 : List Val} (h : Keeps s0 x0) :
    Keeps s0 (State.writePart x0 x1 x2 x3 x4 x5 x6 x7).1 := by
  unfold State.writePart
  extract_lets +onlyGivenNames a1
  extract_lets +onlyGivenNames a2
  split
  extract_lets +onlyGivenNames a3
  extract_lets +onlyGivenNames a4
  extract_lets +onlyGivenNames a5
  extract_lets +onlyGivenNames a6
  have ka6 : Keeps s0 a6 := by
    unfold a6
    refine State.writeMem_keeps ?_
    exact h
  extract_lets +onlyGivenNames a7
  extract_lets +onlyGivenNames a8
  extract_lets +onlyGivenNames a9
  extract_lets +onlyGivenNames a10
  extract_lets +onlyGivenNames a11
  have ka11 : Keeps s0 a11 := by
    unfold a11
    refine State.writeMem_keeps ?_
    exact ka6
  extract_lets +onlyGivenNames a12
  have ka12 : Keeps s0 a12 := by
    unfold a12
    split
    · refine State.writeMem_keeps ?_
      exact ka11
    · exact ka11
  extract_lets +onlyGivenNames a13
  extract_lets +onlyGivenNames a14
  have ka14 : Keeps s0 a14 := by
    unfold a14
    split
    · split
      · refine State.writeMem_keeps ?_
        exact ka12
      · exact ka12
    · exact ka6
  refine Keeps.fst ?_
  refine State.carry_keeps ?_
  exact ka14

theorem State.writeRow_keeps {s0 : State} {x0 : State} {x1 : CmdRef} {x2 : Cmd} {x3 : Td} {x4 : Nat} {x5 : Nat} {x6 : Nat} {x7 : List Val} (h : Keeps s0 x0) :
    Keeps s0 (State.writeRow x0 x1 x2 x3 x4 x5 x6 x7).1 := by
  unfold State.writeRow
  split
  refine Keeps.fst ?_
  refine State.modCmd_keeps ?_
  refine Keeps.of1 ‹_› ?_
  refine State.writePart_keeps ?_
  exact h

theorem State.setCopy_keeps {s0 : State} {x0 : State} {x1 : Nat} {x2 : Nat} {x3 : CLine} (h : Keeps s0 x0) :
    Keeps s0 (State.setCopy x0 x1 x2 x3) := by
  unfold State.setCopy
  refine Keeps.upd ?_
  exact h

theorem State.setDir_keeps {s0 : State} {x0 : State} {x1 : Nat} {x2 : Option DirEntry} (h : Keeps s0 x0) :
    Keeps s0 (State.setDir x0 x1 x2) := by
  unfold State.setDir
  refine Keeps.upd ?_
  exact h

theorem State.coherenceFatal_keeps {s0 : State} {x0 : State} {x1 : Nat} {x2 : Nat} {x3 : Nat} (h : Keeps s0 x0) :
    Keeps s0 (State.coherenceFatal x0 x1 x2 x3) := by
  unfold State.coherenceFatal
  extract_lets +onlyGivenNames a1
  extract_lets +onlyGivenNames a2
  extract_lets +onlyGivenNames a3
  have ka3 : Keeps s0 a3 := by
    unfold a3
    refine State.setR_keeps ?_
    exact h
  refine State.fatal_keeps ?_
  exact ka3

theorem State.hpmEvent_keeps {s0 : State} {x0 : State} {x1 : Nat} {x2 : Nat} {x3 : Nat} (h : Keeps s0 x0) :
    Keeps s0 (State.hpmEvent x0 x1 x2 x3) := by
  unfold State.hpmEvent
  extract_lets +onlyGivenNames a1
  split
  · exact h
  · refine State.setHart_keeps ?_
    exact h

theorem State.clusterEvents_keeps {s0 : State} {x0 : State} {x1 : Nat} {x2 : List Nat} (h : Keeps s0 x0) :
    Keeps s0 (State.clusterEvents x0 x1 x2) := by
  unfold State.clusterEvents
  split
  · exact h
  · split
    refine Keeps.foldl ?_ ?_
    · intro b1 b2 b3
      refine State.hpmEvent_keeps ?_
      exact b3
    · refine Keeps.of2 ‹_› ?_
      refine State.draw_keeps ?_
      exact h

theorem State.backInvalidate_keeps {s0 : State} {x0 : State} {x1 : Nat} (h : Keeps s0 x0) :
    Keeps s0 (State.backInvalidate x0 x1) := by
  unfold State.backInvalidate
  extract_lets +onlyGivenNames a1
  have ka1 : Keeps s0 a1 := by
    unfold a1
    split
    · refine State.storeLine_keeps ?_
      refine State.dropCopies_keeps ?_
      exact h
    · refine State.dropCopies_keeps ?_
      exact h
  refine State.incWrap_keeps ?_
  exact ka1

theorem State.makeRoom_keeps {s0 : State} {x0 : State} {x1 : Nat} (h : Keeps s0 x0) :
    Keeps s0 (State.makeRoom x0 x1) := by
  unfold State.makeRoom
  split
  · exact h
  · extract_lets +onlyGivenNames a1
    split
    · exact h
    · extract_lets +onlyGivenNames a2
      extract_lets +onlyGivenNames a3
      clear_value a3
      split
      · refine State.backInvalidate_keeps ?_
        exact h
      · exact h

theorem State.note_keeps {s0 : State} {x0 : State} {x1 : Nat} {x2 : Nat} {x3 : Nat} {x4 : Nat} (h : Keeps s0 x0) :
    Keeps s0 (State.note x0 x1 x2 x3 x4) := by
  unfold State.note
  extract_lets +onlyGivenNames a1
  have ka1 : Keeps s0 a1 := by
    unfold a1
    refine State.makeRoom_keeps ?_
    exact h
  extract_lets +onlyGivenNames a2
  extract_lets +onlyGivenNames a3
  refine State.setDir_keeps ?_
  exact ka1

theorem State.forget_keeps {s0 : State} {x0 : State} {x1 : Nat} {x2 : Nat} (h : Keeps s0 x0) :
    Keeps s0 (State.forget x0 x1 x2) := by
  unfold State.forget
  split
  · extract_lets +onlyGivenNames a1
    split
    · refine State.setDir_keeps ?_
      exact h
    · refine State.setDir_keeps ?_
      exact h
  · exact h

theorem State.evictLine_keeps {s0 : State} {x0 : State} {x1 : Nat} {x2 : Nat} (h : Keeps s0 x0) :
    Keeps s0 (State.evictLine x0 x1 x2) := by
  unfold State.evictLine
  split
  · refine State.forget_keeps ?_
    refine State.setCopy_keeps ?_
    exact h
  · split
    · refine State.setCopy_keeps ?_
      exact h
    · exact h

theorem State.writeBackLine_keeps {s0 : State} {x0 : State} {x1 : Nat} {x2 : Nat} {x3 : Bool} {x4 : Nat} (h : Keeps s0 x0) :
    Keeps s0 (State.writeBackLine x0 x1 x2 x3 x4) := by
  unfold State.writeBackLine
  extract_lets +onlyGivenNames a1
  split
  · extract_lets +onlyGivenNames a2
    extract_lets +onlyGivenNames a3
    have ka3 : Keeps s0 a3 := by
      unfold a3
      split
      · exact h
      · refine State.report_keeps ?_
        exact h
    extract_lets +onlyGivenNames a4
    have ka4 : Keeps s0 a4 := by
      unfold a4
      refine State.storeLine_keeps ?_
      exact ka3
    split
    · refine State.forget_keeps ?_
      refine State.setCopy_keeps ?_
      exact ka4
    · split
      · refine State.setCopy_keeps ?_
        exact ka4
      · extract_lets +onlyGivenNames a5
        refine State.setCopy_keeps ?_
        refine State.note_keeps ?_
        exact ka4
  · exact h

theorem State.frameStart_keeps {s0 : State} {x0 : State} {x1 : Nat} (h : Keeps s0 x0) :
    Keeps s0 (State.frameStart x0 x1) := by
  unfold State.frameStart
  extract_lets +onlyGivenNames a1
  extract_lets +onlyGivenNames a2
  refine State.setChan_keeps ?_
  exact h

theorem State.countSlot_keeps {s0 : State} {x0 : State} {x1 : Nat} {x2 : TClass} {x3 : Bool} {x4 : Bool} {x5 : Nat} (h : Keeps s0 x0) :
    Keeps s0 (State.countSlot x0 x1 x2 x3 x4 x5) := by
  unfold State.countSlot
  extract_lets +onlyGivenNames a1
  extract_lets +onlyGivenNames a2
  extract_lets +onlyGivenNames a3
  have ka3 : Keeps s0 a3 := by
    unfold a3
    refine State.setChan_keeps ?_
    exact h
  refine State.compat_keeps ?_
  refine State.prof_keeps ?_
  refine State.prof_keeps ?_
  exact ka3

theorem State.nextSlot_keeps {s0 : State} {x0 : State} {x1 : Nat} (h : Keeps s0 x0) :
    Keeps s0 (State.nextSlot x0 x1) := by
  unfold State.nextSlot
  refine State.setChan_keeps ?_
  exact h

theorem State.tokenTick_keeps {s0 : State} {x0 : State} {x1 : Nat} (h : Keeps s0 x0) :
    Keeps s0 (State.tokenTick x0 x1) := by
  unfold State.tokenTick
  extract_lets +onlyGivenNames a1
  extract_lets +onlyGivenNames a2
  refine State.setChan_keeps ?_
  exact h

theorem State.serveShared_keeps {s0 : State} {x0 : State} {x1 : Nat} {x2 : Nat} {x3 : Nat} {x4 : Bool} {x5 : Bool} (h : Keeps s0 x0) :
    Keeps s0 (State.serveShared x0 x1 x2 x3 x4 x5) := by
  unfold State.serveShared
  extract_lets +onlyGivenNames a1
  extract_lets +onlyGivenNames a2
  have ka2 : Keeps s0 a2 := by
    unfold a2
    refine Keeps.upd ?_
    exact h
  split
  · exact ka2
  · split
    · extract_lets +onlyGivenNames a3
      extract_lets +onlyGivenNames a4
      refine State.setCopy_keeps ?_
      refine State.note_keeps ?_
      exact ka2
    · split
      · refine State.setCopy_keeps ?_
        refine State.note_keeps ?_
        exact ka2
      · refine State.setCopy_keeps ?_
        refine State.note_keeps ?_
        exact ka2

theorem State.serveUnique_keeps {s0 : State} {x0 : State} {x1 : Nat} {x2 : Nat} {x3 : Nat} {x4 : Bool} {x5 : Nat} {x6 : Nat} {x7 : Bool} (h : Keeps s0 x0) :
    Keeps s0 (State.serveUnique x0 x1 x2 x3 x4 x5 x6 x7) := by
  unfold State.serveUnique
  refine State.setCopy_keeps ?_
  refine State.note_keeps ?_
  exact h

theorem State.gatherLine_keeps {s0 : State} {x0 : State} {x1 : Nat} {x2 : Nat} {x3 : Bool} {x4 : Bool} (h : Keeps s0 x0) :
    Keeps s0 (State.gatherLine x0 x1 x2 x3 x4) := by
  unfold State.gatherLine
  refine State.dropCopies_keeps ?_
  split
  · refine State.storeLine_keeps ?_
    exact h
  · exact h

theorem State.serveMerge_keeps {s0 : State} {x0 : State} {x1 : Nat} {x2 : Nat} {x3 : Nat} (h : Keeps s0 x0) :
    Keeps s0 (State.serveMerge x0 x1 x2 x3) := by
  unfold State.serveMerge
  refine State.writeLine_keeps ?_
  split
  · refine State.mergeNote_keeps ?_
    exact h
  · exact h

theorem State.serveAtomic_keeps {s0 : State} {x0 : State} {x1 : Nat} {x2 : Nat} {x3 : Nat} {x4 : Nat → Nat} (h : Keeps s0 x0) :
    Keeps s0 (State.serveAtomic x0 x1 x2 x3 x4) := by
  unfold State.serveAtomic
  extract_lets +onlyGivenNames a1
  have ka1 : Keeps s0 a1 := by
    unfold a1
    refine State.mergeNote_keeps ?_
    exact h
  refine State.putMem_keeps ?_
  exact ka1

theorem State.serveTxn_keeps {s0 : State} {x0 : State} {x1 : Nat} {x2 : Txn} (h : Keeps s0 x0) :
    Keeps s0 (State.serveTxn x0 x1 x2) := by
  unfold State.serveTxn
  extract_lets +onlyGivenNames a1
  have ka1 : Keeps s0 a1 := by
    unfold a1
    split
    · refine State.incWrap_keeps ?_
      exact h
    · exact h
  split
  split
  · refine State.serveShared_keeps ?_
    exact ka1
  · refine State.serveUnique_keeps ?_
    exact ka1
  · refine State.serveUnique_keeps ?_
    exact ka1
  · refine Keeps.upd ?_
    exact ka1
  · refine State.storeLine_keeps ?_
    refine State.dropCopies_keeps ?_
    exact ka1
  · refine State.serveMerge_keeps ?_
    refine State.gatherLine_keeps ?_
    exact ka1
  · refine State.serveAtomic_keeps ?_
    refine State.gatherLine_keeps ?_
    exact ka1
  · refine State.serveAtomic_keeps ?_
    refine State.gatherLine_keeps ?_
    exact ka1
  · exact ka1
  · refine State.writeBackLine_keeps ?_
    exact ka1
  · refine State.evictLine_keeps ?_
    refine State.writeBackLine_keeps ?_
    exact ka1

theorem State.slotBegins_keeps {s0 : State} {x0 : State} {x1 : Nat} (h : Keeps s0 x0) :
    Keeps s0 (State.slotBegins x0 x1) := by
  unfold State.slotBegins
  extract_lets +onlyGivenNames a1
  have ka1 : Keeps s0 a1 := by
    unfold a1
    refine State.tokenTick_keeps ?_
    exact h
  split
  · refine State.frameStart_keeps ?_
    exact ka1
  · exact ka1

theorem State.takeSlot_keeps {s0 : State} {x0 : State} {x1 : Nat} {x2 : TClass} {x3 : Nat} (h : Keeps s0 x0) :
    Keeps s0 (State.takeSlot x0 x1 x2 x3) := by
  unfold State.takeSlot
  cases x0.placeAt x1 with
  | none => exact h
  | some q => exact State.nextSlot_keeps (State.countSlot_keeps (State.slotBegins_keeps h))

theorem State.queueHome_keeps {s0 : State} {x0 : State} {x1 : Nat} {x2 : TClass} (h : Keeps s0 x0) :
    Keeps s0 (State.queueHome x0 x1 x2) := by
  unfold State.queueHome
  cases chanOf x0.localGib (64 * x1) with
  | none => exact h
  | some ca =>
    dsimp only [Option.elim]
    split
    · exact h
    · exact State.setChan_keeps h

theorem State.lineTravels_keeps {s0 : State} {x0 : State} {x1 : Nat} {x2 : Txn} (h : Keeps s0 x0) :
    Keeps s0 (State.lineTravels x0 x1 x2) := by
  unfold State.lineTravels
  extract_lets +onlyGivenNames a1
  split
  · split
    · refine State.travel_keeps ?_
      exact h
    · exact h
  · split
    · refine State.travel_keeps ?_
      exact h
    · exact h
  · split
    · refine State.travel_keeps ?_
      exact h
    · exact h
  · refine State.travel_keeps ?_
    exact h
  · refine State.travel_keeps ?_
    exact h
  · exact h

theorem State.serveNow_keeps {s0 : State} {x0 : State} {x1 : Nat} {x2 : Txn} (h : Keeps s0 x0) :
    Keeps s0 (State.serveNow x0 x1 x2) := by
  unfold State.serveNow
  extract_lets +onlyGivenNames a1
  extract_lets +onlyGivenNames a2
  have ka2 : Keeps s0 a2 := by
    unfold a2
    refine State.lineTravels_keeps ?_
    split
    · refine State.readBurst_keeps ?_
      exact h
    · exact h
  refine State.setHome_keeps ?_
  refine State.serveTxn_keeps ?_
  exact ka2

theorem State.tryServe_keeps {s0 : State} {x0 : State} {x1 : Nat} (h : Keeps s0 x0) :
    Keeps s0 (State.tryServe x0 x1) := by
  unfold State.tryServe
  split
  · split
    · exact h
    · split
      · refine State.serveNow_keeps ?_
        exact h
      · split
        · refine State.queueHome_keeps ?_
          exact h
        · refine State.serveNow_keeps ?_
          refine State.takeSlot_keeps ?_
          exact h
  · exact h

theorem State.homeBurst_keeps {s0 : State} {x0 : State} {x1 : Nat} (h : Keeps s0 x0) :
    Keeps s0 (State.homeBurst x0 x1) := by
  unfold State.homeBurst
  split
  · split
    · exact h
    · refine State.serveNow_keeps ?_
      exact h
  · exact h

theorem State.takeReq_keeps {s0 : State} {x0 : State} {x1 : Nat} {x2 : HReq} (h : Keeps s0 x0) :
    Keeps s0 (State.takeReq x0 x1 x2) := by
  unfold State.takeReq
  extract_lets +onlyGivenNames a1
  refine State.tryServe_keeps ?_
  refine State.setHome_keeps ?_
  exact h

theorem State.instantReq_keeps {s0 : State} {x0 : State} {x1 : Nat} {x2 : HReq} (h : Keeps s0 x0) :
    Keeps s0 (State.instantReq x0 x1 x2) := by
  unfold State.instantReq
  split
  · refine State.evictLine_keeps ?_
    exact h
  · refine State.evictLine_keeps ?_
    exact h
  · exact h

theorem State.takeNext_keeps {s0 : State} {x0 : State} {x1 : Nat} {x2 : List HReq} (h : Keeps s0 x0) :
    Keeps s0 (State.takeNext x0 x1 x2) := by
  induction x2 generalizing x0 with
  | nil =>
    unfold State.takeNext
    refine State.setHome_keeps ?_
    exact h
  | cons a l ih =>
    unfold State.takeNext
    split
    · refine ih ?_
      refine State.instantReq_keeps ?_
      refine State.setHome_keeps ?_
      exact h
    · refine State.takeReq_keeps ?_
      refine State.setHome_keeps ?_
      exact h

theorem State.rejectReq_keeps {s0 : State} {x0 : State} {x1 : Nat} {x2 : Nat} {x3 : HReq} (h : Keeps s0 x0) :
    Keeps s0 (State.rejectReq x0 x1 x2 x3) := by
  unfold State.rejectReq
  extract_lets +onlyGivenNames a1
  extract_lets +onlyGivenNames a2
  have ka2 : Keeps s0 a2 := by
    unfold a2
    refine State.unpopulated_keeps ?_
    exact h
  split
  · exact ka2
  · refine Keeps.upd ?_
    exact ka2

theorem State.request1_keeps {s0 : State} {x0 : State} {x1 : Nat} {x2 : Nat} {x3 : HReq} {x4 : DirEcc} (h : Keeps s0 x0) :
    Keeps s0 (State.request1 x0 x1 x2 x3 x4) := by
  unfold State.request1
  split
  · exact h
  · split
    · refine State.rejectReq_keeps ?_
      exact h
    · split
      · exact h
      · split
        · refine State.coherenceFatal_keeps ?_
          exact h
        · extract_lets +onlyGivenNames a1
          have ka1 : Keeps s0 a1 := by
            unfold a1
            split
            · refine State.incSat_keeps ?_
              exact h
            · exact h
          extract_lets +onlyGivenNames a2
          split
          · split
            · refine State.instantReq_keeps ?_
              exact ka1
            · refine State.takeReq_keeps ?_
              exact ka1
          · refine State.setHome_keeps ?_
            exact ka1

theorem State.setEngMap_keeps {s0 : State} {x0 : State} {x1 : Nat} {x2 : Nat} (h : Keeps s0 x0) :
    Keeps s0 (State.setEngMap x0 x1 x2) := by
  unfold State.setEngMap
  extract_lets +onlyGivenNames a1
  extract_lets +onlyGivenNames a2
  refine State.setR_keeps ?_
  exact h

theorem State.quarantineEngine_keeps {s0 : State} {x0 : State} {x1 : Nat} {x2 : Nat} {x3 : Option CmdRef} {x4 : Nat} (h : Keeps s0 x0) :
    Keeps s0 (State.quarantineEngine x0 x1 x2 x3 x4) := by
  unfold State.quarantineEngine
  extract_lets +onlyGivenNames a1
  extract_lets +onlyGivenNames a2
  extract_lets +onlyGivenNames a3
  have ka3 : Keeps s0 a3 := by
    unfold a3
    refine State.setEngMap_keeps ?_
    exact h
  extract_lets +onlyGivenNames a4
  extract_lets +onlyGivenNames a5
  have ka5 : Keeps s0 a5 := by
    unfold a5
    refine Keeps.upd ?_
    exact ka3
  extract_lets +onlyGivenNames a6
  refine State.report_keeps ?_
  exact ka5

theorem State.modMat_keeps {s0 : State} {x0 : State} {x1 : CmdRef} {x2 : MatWork → MatWork} (h : Keeps s0 x0) :
    Keeps s0 (State.modMat x0 x1 x2) := by
  unfold State.modMat
  refine State.modCmd_keeps ?_
  exact h

theorem State.releaseEngines_keeps {s0 : State} {x0 : State} {x1 : Nat} {x2 : CmdRef} (h : Keeps s0 x0) :
    Keeps s0 (State.releaseEngines x0 x1 x2) := by
  unfold State.releaseEngines
  refine Keeps.foldl ?_ ?_
  · intro b1 b2 b3
    extract_lets +onlyGivenNames a1
    extract_lets +onlyGivenNames a2
    split
    · refine State.setEngine_keeps ?_
      exact b3
    · exact b3
  · exact h

theorem State.writeE_keeps {s0 : State} {x0 : State} {x1 : Cmd} {x2 : Geo} {x3 : Nat × Nat × Nat} {x4 : Val} (h : Keeps s0 x0) :
    Keeps s0 (State.writeE x0 x1 x2 x3 x4).1 := by
  unfold State.writeE
  extract_lets +onlyGivenNames a1
  extract_lets +onlyGivenNames a2
  split
  refine Keeps.fst ?_
  refine State.modCmd_keeps ?_
  refine Keeps.of1 ‹_› ?_
  refine State.writePart_keeps ?_
  exact h

theorem State.finishRows_keeps {s0 : State} {x0 : State} {x1 : Nat} {x2 : Cmd} {x3 : Geo} (h : Keeps s0 x0) :
    Keeps s0 (State.finishRows x0 x1 x2 x3) := by
  unfold State.finishRows
  split
  · refine Keeps.foldl ?_ ?_
    · intro b1 b2 b3
      extract_lets +onlyGivenNames a1
      clear_value a1
      split
      · exact b3
      · split
        split
        refine State.orFlags_keeps ?_
        refine Keeps.of1 ‹_› ?_
        refine State.writeE_keeps ?_
        exact b3
    · exact h
  · exact h

theorem State.countOperands_keeps {s0 : State} {x0 : State} {x1 : Cmd} {x2 : Geo} (h : Keeps s0 x0) :
    Keeps s0 (State.countOperands x0 x1 x2) := by
  unfold State.countOperands
  dsimp only
  repeat' (first | assumption | refine Keeps.foldl (fun _ _ k => State.modCmd_keeps k) ?_ | split)

theorem State.matTotals_keeps {s0 : State} {x0 : State} {x1 : Nat} {x2 : Cmd} {x3 : Geo} (h : Keeps s0 x0) :
    Keeps s0 (State.matTotals x0 x1 x2 x3) := by
  unfold State.matTotals
  extract_lets +onlyGivenNames a1
  extract_lets +onlyGivenNames a2
  have ka2 : Keeps s0 a2 := by
    unfold a2
    split
    · exact h
    · refine State.account_keeps ?_
      refine State.countOperands_keeps ?_
      exact h
  split
  · exact ka2
  · split
    refine State.orFlags_keeps ?_
    refine State.max32_keeps ?_
    exact ka2

theorem State.releaseFrames_keeps {s0 : State} {x0 : State} {x1 : Nat} {x2 : CmdRef} (h : Keeps s0 x0) :
    Keeps s0 (State.releaseFrames x0 x1 x2) := by
  unfold State.releaseFrames
  extract_lets +onlyGivenNames a1
  refine State.setAcc_keeps ?_
  exact h

theorem State.markSaved_keeps {s0 : State} {x0 : State} {x1 : Nat} (h : Keeps s0 x0) :
    Keeps s0 (State.markSaved x0 x1) := by
  unfold State.markSaved
  refine State.setFld_keeps ?_
  exact h

theorem State.freeSlots_keeps {s0 : State} {x0 : State} {x1 : CmdRef} (h : Keeps s0 x0) :
    Keeps s0 (State.freeSlots x0 x1) := by
  unfold State.freeSlots
  extract_lets +onlyGivenNames a1
  split
  · extract_lets +onlyGivenNames a2
    have ka2 : Keeps s0 a2 := by
      unfold a2
      refine Keeps.foldl ?_ ?_
      · intro b1 b2 b3
        refine State.putMem_keeps ?_
        exact b3
      · exact h
    refine State.markSaved_keeps ?_
    refine State.setQueue_keeps ?_
    exact ka2
  · exact h

theorem State.rewritePrimary_keeps {s0 : State} {x0 : State} {x1 : Cmd} {x2 : List Nat} (h : Keeps s0 x0) :
    Keeps s0 (State.rewritePrimary x0 x1 x2) := by
  unfold State.rewritePrimary
  split
  · exact h
  · extract_lets +onlyGivenNames a1
    extract_lets +onlyGivenNames a2
    refine State.putMem_keeps ?_
    exact h

theorem State.restartSaved_keeps {s0 : State} {x0 : State} {x1 : CmdRef} {x2 : Cmd} {x3 : List Nat} (h : Keeps s0 x0) :
    Keeps s0 (State.restartSaved x0 x1 x2 x3) := by
  unfold State.restartSaved
  refine Keeps.foldl ?_ ?_
  · intro b1 b2 b3
    split
    · extract_lets +onlyGivenNames a1
      extract_lets +onlyGivenNames a2
      extract_lets +onlyGivenNames a3
      extract_lets +onlyGivenNames a4
      refine State.putMem_keeps ?_
      exact b3
    · exact b3
  · exact h

theorem State.endAbandoned_keeps {s0 : State} {x0 : State} {x1 : Cmd} (h : Keeps s0 x0) :
    Keeps s0 (State.endAbandoned x0 x1) := by
  unfold State.endAbandoned
  extract_lets +onlyGivenNames a1
  extract_lets +onlyGivenNames a2
  extract_lets +onlyGivenNames a3
  extract_lets +onlyGivenNames a4
  extract_lets +onlyGivenNames a5
  have ka5 : Keeps s0 a5 := by
    unfold a5
    refine State.restartSaved_keeps ?_
    exact h
  extract_lets +onlyGivenNames a6
  extract_lets +onlyGivenNames a7
  extract_lets +onlyGivenNames a8
  extract_lets +onlyGivenNames a9
  extract_lets +onlyGivenNames a10
  extract_lets +onlyGivenNames a11
  have ka11 : Keeps s0 a11 := by
    unfold a11
    refine State.releaseFrames_keeps ?_
    refine State.modMat_keeps ?_
    exact ka5
  extract_lets +onlyGivenNames a12
  have ka12 : Keeps s0 a12 := by
    unfold a12
    refine State.rewritePrimary_keeps ?_
    exact ka11
  extract_lets +onlyGivenNames a13
  extract_lets +onlyGivenNames a14
  extract_lets +onlyGivenNames a15
  have ka15 : Keeps s0 a15 := by
    unfold a15
    refine State.setQueue_keeps ?_
    exact ka12
  extract_lets +onlyGivenNames a16
  have ka16 : Keeps s0 a16 := by
    unfold a16
    refine State.releaseEngines_keeps ?_
    refine State.matTotals_keeps ?_
    exact ka15
  extract_lets +onlyGivenNames a17
  refine State.finish_keeps ?_
  exact ka16

theorem State.endMat_keeps {s0 : State} {x0 : State} {x1 : Nat} {x2 : Cmd} {x3 : Nat} {x4 : Nat} (h : Keeps s0 x0) :
    Keeps s0 (State.endMat x0 x1 x2 x3 x4) := by
  unfold State.endMat
  extract_lets +onlyGivenNames a1
  have ka1 : Keeps s0 a1 := by
    unfold a1
    refine State.matTotals_keeps ?_
    exact h
  refine State.finish_keeps ?_
  refine State.releaseEngines_keeps ?_
  refine State.releaseFrames_keeps ?_
  refine State.freeSlots_keeps ?_
  exact ka1

theorem State.settleMat_keeps {s0 : State} {x0 : State} {x1 : CmdRef} (h : Keeps s0 x0) :
    Keeps s0 (State.settleMat x0 x1) := by
  unfold State.settleMat
  split
  · exact h
  · split
    · exact h
    · extract_lets +onlyGivenNames a1
      extract_lets +onlyGivenNames a2
      extract_lets +onlyGivenNames a3
      split
      · exact h
      · split
        · refine State.endMat_keeps ?_
          exact h
        · split
          · refine State.endAbandoned_keeps ?_
            exact h
          · split
            · refine State.endMat_keeps ?_
              refine State.finishRows_keeps ?_
              exact h
            · split
              · refine State.endMat_keeps ?_
                exact h
              · exact h

theorem State.settleLost_keeps {s0 : State} {x0 : State} {x1 : Nat} (h : Keeps s0 x0) :
    Keeps s0 (State.settleLost x0 x1) := by
  unfold State.settleLost
  refine Keeps.foldl ?_ ?_
  · intro b1 b2 b3
    split
    · refine State.settleMat_keeps ?_
      exact b3
    · exact b3
  · exact h

theorem State.failMat_keeps {s0 : State} {x0 : State} {x1 : CmdRef} {x2 : Nat} {x3 : Nat} (h : Keeps s0 x0) :
    Keeps s0 (State.failMat x0 x1 x2 x3) := by
  unfold State.failMat
  refine State.settleMat_keeps ?_
  refine State.modCmd_keeps ?_
  exact h

theorem State.abandon_keeps {s0 : State} {x0 : State} {x1 : CmdRef} (h : Keeps s0 x0) :
    Keeps s0 (State.abandon x0 x1) := by
  unfold State.abandon
  refine State.settleMat_keeps ?_
  refine State.modMat_keeps ?_
  exact h

theorem State.readingMat_keeps {s0 : State} {x0 : State} {x1 : CmdRef} {x2 : List (Nat × Nat)} {x3 : State → State} (h : Keeps s0 x0) (k3 : ∀ {y0}, Keeps s0 y0 → Keeps s0 (x3 y0)) :
    Keeps s0 (State.readingMat x0 x1 x2 x3) := by
  unfold State.readingMat
  extract_lets +onlyGivenNames a1
  have ka1 : Keeps s0 a1 := by
    unfold a1
    refine State.fetchSpans_keeps ?_
    exact h
  split
  · refine State.failMat_keeps ?_
    exact ka1
  · refine k3 ?_
    exact ka1

theorem State.readMask_keeps {s0 : State} {x0 : State} {x1 : Cmd} {x2 : State → State} (h : Keeps s0 x0) (k2 : ∀ {y0}, Keeps s0 y0 → Keeps s0 (x2 y0)) :
    Keeps s0 (State.readMask x0 x1 x2) := by
  unfold State.readMask
  refine State.readingThen_keeps ?_ ?_
  · exact h
  · intro b1 b2
    refine k2 ?_
    split
    · extract_lets +onlyGivenNames a1
      refine State.modMat_keeps ?_
      exact b2
    · exact b2

theorem startMat_keeps {s0 : State} {x0 : CmdRef} {x1 : Nat} {x2 : State} (h : Keeps s0 x2) :
    Keeps s0 (startMat x0 x1 x2) := by
  unfold startMat
  refine State.runUnit_keeps ?_ ?_
  · exact h
  · intro b1
    refine State.readMask_keeps ?_ ?_
    · exact h
    · intro b2 b3
      refine State.settleMat_keeps ?_
      refine State.phaseCmd_keeps ?_
      exact b3

theorem execMatmul_keeps {s0 : State} {x0 : CmdRef} {x1 : State} (h : Keeps s0 x1) :
    KeepsO s0 (execMatmul x0 x1) := by
  unfold execMatmul
  refine Keeps.next ?_
  refine startMat_keeps ?_
  exact h

theorem execMatmulWgrad_keeps {s0 : State} {x0 : CmdRef} {x1 : State} (h : Keeps s0 x1) :
    KeepsO s0 (execMatmulWgrad x0 x1) := by
  unfold execMatmulWgrad
  refine Keeps.next ?_
  refine startMat_keeps ?_
  exact h

theorem execConv_keeps {s0 : State} {x0 : CmdRef} {x1 : State} (h : Keeps s0 x1) :
    KeepsO s0 (execConv x0 x1) := by
  unfold execConv
  refine Keeps.next ?_
  refine startMat_keeps ?_
  exact h

theorem State.withFrames_keeps {s0 : State} {x0 : State} {x1 : Nat} {x2 : Cmd} {x3 : Nat} (h : Keeps s0 x0) :
    Keeps s0 (State.withFrames x0 x1 x2 x3).1 := by
  unfold State.withFrames
  extract_lets +onlyGivenNames a1
  extract_lets +onlyGivenNames a2
  split
  · with_reducible assumption
  · split
    · refine Keeps.fst ?_
      refine State.setAcc_keeps ?_
      exact h
    · split
      · with_reducible assumption
      · refine Keeps.fst ?_
        refine State.setAcc_keeps ?_
        exact h

theorem execFrameGrant_keeps {s0 : State} {x0 : Fin 4} {x1 : State} (h : Keeps s0 x1) :
    KeepsO s0 (execFrameGrant x0 x1) := by
  unfold execFrameGrant
  extract_lets +onlyGivenNames a1
  split
  · refine Keeps.next ?_
    exact h
  · split
    · refine Keeps.next ?_
      refine State.setAcc_keeps ?_
      exact h
    · extract_lets +onlyGivenNames a2
      split
      · refine Keeps.next ?_
        exact h
      · refine Keeps.next ?_
        refine State.setAcc_keeps ?_
        exact h

theorem State.takeItem_keeps {s0 : State} {x0 : State} {x1 : CmdRef} {x2 : Nat} (h : Keeps s0 x0) :
    Keeps s0 (State.takeItem x0 x1 x2) := by
  unfold State.takeItem
  refine State.modMat_keeps ?_
  exact h

theorem State.turnBuffers_keeps {s0 : State} {x0 : State} {x1 : Nat} {x2 : Cmd} {x3 : Bool} {x4 : Item} {x5 : Nat} (h : Keeps s0 x0) :
    Keeps s0 (State.turnBuffers x0 x1 x2 x3 x4 x5) := by
  unfold State.turnBuffers
  extract_lets +onlyGivenNames a1
  extract_lets +onlyGivenNames a2
  extract_lets +onlyGivenNames a3
  extract_lets +onlyGivenNames a4
  refine State.setEngine_keeps ?_
  exact h

theorem State.loadBuffers_keeps {s0 : State} {x0 : State} {x1 : Nat} {x2 : Cmd} {x3 : Bool} (h : Keeps s0 x0) :
    Keeps s0 (State.loadBuffers x0 x1 x2 x3) := by
  unfold State.loadBuffers
  split
  · refine State.turnBuffers_keeps ?_
    exact h
  · exact h

theorem State.respare_keeps {s0 : State} {x0 : State} {x1 : Nat} (h : Keeps s0 x0) :
    Keeps s0 (State.respare x0 x1) := by
  unfold State.respare
  extract_lets +onlyGivenNames a1
  extract_lets +onlyGivenNames a2
  split
  · exact h
  · split
    refine State.setEngine_keeps ?_
    refine Keeps.of2 ‹_› ?_
    refine State.draw_keeps ?_
    exact h

theorem State.loadItem_keeps {s0 : State} {x0 : State} {x1 : Nat} {x2 : Cmd} {x3 : Item} (h : Keeps s0 x0) :
    Keeps s0 (State.loadItem x0 x1 x2 x3) := by
  unfold State.loadItem
  extract_lets +onlyGivenNames a1
  extract_lets +onlyGivenNames a2
  have ka2 : Keeps s0 a2 := by
    unfold a2
    split
    · refine State.respare_keeps ?_
      exact h
    · exact h
  extract_lets +onlyGivenNames a3
  refine State.loadBuffers_keeps ?_
  refine State.setEngine_keeps ?_
  exact ka2

theorem execTileDispatch_keeps {s0 : State} {x0 : Fin 16} {x1 : State} (h : Keeps s0 x1) :
    KeepsO s0 (execTileDispatch x0 x1) := by
  unfold execTileDispatch
  extract_lets +onlyGivenNames a1
  extract_lets +onlyGivenNames a2
  extract_lets +onlyGivenNames a3
  split
  · refine Keeps.next ?_
    exact h
  · split
    · refine Keeps.next ?_
      exact h
    · extract_lets +onlyGivenNames a4
      extract_lets +onlyGivenNames a5
      extract_lets +onlyGivenNames a6
      extract_lets +onlyGivenNames a7
      split
      · refine Keeps.next ?_
        exact h
      · split
        · refine Keeps.next ?_
          exact h
        · extract_lets +onlyGivenNames a8
          extract_lets +onlyGivenNames a9
          split
          · refine Keeps.next ?_
            refine State.settleMat_keeps ?_
            refine State.takeItem_keeps ?_
            exact h
          · extract_lets +onlyGivenNames a10
            split
            · refine Keeps.next ?_
              exact h
            · split
              split
              · refine Keeps.next ?_
                refine Keeps.of1 ‹_› ?_
                refine State.withFrames_keeps ?_
                exact h
              · extract_lets +onlyGivenNames a11
                extract_lets +onlyGivenNames a12
                extract_lets +onlyGivenNames a13
                have ka13 : Keeps s0 a13 := by
                  unfold a13
                  refine State.served_keeps ?_
                  refine State.loadItem_keeps ?_
                  refine State.takeItem_keeps ?_
                  refine Keeps.of1 ‹_› ?_
                  refine State.withFrames_keeps ?_
                  exact h
                refine Keeps.next ?_
                refine State.traceAs_keeps ?_
                exact ka13

theorem State.captureMismatch_keeps {s0 : State} {x0 : State} {x1 : Nat} {x2 : Option CmdRef} {x3 : Nat} {x4 : Nat} (h : Keeps s0 x0) :
    Keeps s0 (State.captureMismatch x0 x1 x2 x3 x4) := by
  unfold State.captureMismatch
  split
  · refine State.setFld_keeps ?_
    exact h
  · extract_lets +onlyGivenNames a1
    extract_lets +onlyGivenNames a2
    refine State.setR_keeps ?_
    exact h

theorem State.resetTile_keeps {s0 : State} {x0 : State} {x1 : Nat} {x2 : CmdRef} {x3 : Nat} (h : Keeps s0 x0) :
    Keeps s0 (State.resetTile x0 x1 x2 x3) := by
  unfold State.resetTile
  extract_lets +onlyGivenNames a1
  refine State.setAcc_keeps ?_
  exact h

theorem State.restartItem_keeps {s0 : State} {x0 : State} {x1 : Nat} (h : Keeps s0 x0) :
    Keeps s0 (State.restartItem x0 x1) := by
  unfold State.restartItem
  extract_lets +onlyGivenNames a1
  split
  · exact h
  · extract_lets +onlyGivenNames a2
    have ka2 : Keeps s0 a2 := by
      unfold a2
      refine State.setEngine_keeps ?_
      exact h
    split
    · extract_lets +onlyGivenNames a3
      have ka3 : Keeps s0 a3 := by
        unfold a3
        refine State.loadBuffers_keeps ?_
        exact ka2
      split
      · refine State.resetTile_keeps ?_
        exact ka3
      · exact ka3
    · exact ka2

theorem State.dropCompute_keeps {s0 : State} {x0 : State} {x1 : Nat} (h : Keeps s0 x0) :
    Keeps s0 (State.dropCompute x0 x1) := by
  unfold State.dropCompute
  refine State.setEngine_keeps ?_
  exact h

theorem State.runAgain_keeps {s0 : State} {x0 : State} {x1 : CmdRef} {x2 : Nat} (h : Keeps s0 x0) :
    Keeps s0 (State.runAgain x0 x1 x2) := by
  unfold State.runAgain
  refine State.modMat_keeps ?_
  exact h

theorem State.countMismatch_keeps {s0 : State} {x0 : State} {x1 : Nat} {x2 : CmdRef} {x3 : Bool} {x4 : ArrayEvent} (h : Keeps s0 x0) :
    Keeps s0 (State.countMismatch x0 x1 x2 x3 x4) := by
  unfold State.countMismatch
  extract_lets +onlyGivenNames a1
  have ka1 : ∀ (s : State), Keeps s0 s → Keeps s0 (a1 s) := by
    intro b1 b2
    unfold a1
    split
    · refine State.incSat_keeps ?_
      exact b2
    · refine State.aon_keeps ?_
      refine State.incSat_keeps ?_
      exact b2
  split
  · refine State.captureMismatch_keeps ?_
    refine ka1 ?_ ?_
    exact h
  · refine State.captureMismatch_keeps ?_
    refine ka1 ?_ ?_
    refine State.incSat_keeps ?_
    exact h
  · refine State.incSat_keeps ?_
    exact h
  · exact h

theorem State.engineEvent_keeps {s0 : State} {x0 : State} {x1 : Nat} {x2 : Cmd} {x3 : ArrayEvent} (h : Keeps s0 x0) :
    Keeps s0 (State.engineEvent x0 x1 x2 x3) := by
  unfold State.engineEvent
  extract_lets +onlyGivenNames a1
  extract_lets +onlyGivenNames a2
  extract_lets +onlyGivenNames a3
  extract_lets +onlyGivenNames a4
  have ka4 : Keeps s0 a4 := by
    unfold a4
    refine State.countMismatch_keeps ?_
    exact h
  split
  · extract_lets +onlyGivenNames a5
    have ka5 : Keeps s0 a5 := by
      unfold a5
      refine State.modMat_keeps ?_
      exact ka4
    split
    · exact ka5
    · extract_lets +onlyGivenNames a6
      have ka6 : Keeps s0 a6 := by
        unfold a6
        split
        · refine State.report_keeps ?_
          exact ka5
        · refine State.report_keeps ?_
          exact ka5
        · exact ka5
      refine State.noteCmd_keeps ?_
      exact ka6
  · extract_lets +onlyGivenNames a5
    extract_lets +onlyGivenNames a6
    have ka6 : Keeps s0 a6 := by
      unfold a6
      refine State.quarantineEngine_keeps ?_
      exact ka4
    refine State.settleLost_keeps ?_
    refine State.failMat_keeps ?_
    exact ka6

theorem State.spillwayEvent_keeps {s0 : State} {x0 : State} {x1 : Nat} {x2 : Nat} (h : Keeps s0 x0) :
    Keeps s0 (State.spillwayEvent x0 x1 x2) := by
  unfold State.spillwayEvent
  extract_lets +onlyGivenNames a1
  extract_lets +onlyGivenNames a2
  have ka2 : Keeps s0 a2 := by
    unfold a2
    refine State.incSat_keeps ?_
    exact h
  split
  · exact ka2
  · split
    · exact ka2
    · extract_lets +onlyGivenNames a3
      have ka3 : Keeps s0 a3 := by
        unfold a3
        split
        · refine State.setFld_keeps ?_
          exact ka2
        · refine State.setR_keeps ?_
          exact ka2
      extract_lets +onlyGivenNames a4
      have ka4 : Keeps s0 a4 := by
        unfold a4
        refine State.report_keeps ?_
        exact ka3
      split
      · refine State.failMat_keeps ?_
        exact ka4
      · extract_lets +onlyGivenNames a5
        extract_lets +onlyGivenNames a6
        have ka6 : Keeps s0 a6 := by
          unfold a6
          refine State.resetTile_keeps ?_
          exact ka4
        extract_lets +onlyGivenNames a7
        extract_lets +onlyGivenNames a8
        have ka8 : Keeps s0 a8 := by
          unfold a8
          refine Keeps.foldl ?_ ?_
          · intro b1 b2 b3
            extract_lets +onlyGivenNames a9
            extract_lets +onlyGivenNames a10
            have ka10 : Keeps s0 a10 := by
              unfold a10
              split
              · split
                · refine State.setEngine_keeps ?_
                  exact b3
                · exact b3
              · exact b3
            extract_lets +onlyGivenNames a11
            split
            · split
              · refine State.setEngine_keeps ?_
                exact ka10
              · exact ka10
            · exact ka10
          · exact ka6
        extract_lets +onlyGivenNames a9
        extract_lets +onlyGivenNames a10
        extract_lets +onlyGivenNames a11
        have ka11 : Keeps s0 a11 := by
          unfold a11
          refine State.restartSaved_keeps ?_
          exact ka8
        refine State.settleMat_keeps ?_
        refine State.noteCmd_keeps ?_
        refine State.modMat_keeps ?_
        exact ka11

theorem State.correctedEvent_keeps {s0 : State} {x0 : State} {x1 : Nat} {x2 : ArrayEvent} (h : Keeps s0 x0) :
    Keeps s0 (State.correctedEvent x0 x1 x2) := by
  unfold State.correctedEvent
  split
  · refine State.incSat_keeps ?_
    exact h
  · refine State.incSat_keeps ?_
    exact h
  · exact h

theorem State.runKstep_keeps {s0 : State} {x0 : State} {x1 : Nat} {x2 : Cmd} {x3 : Geo} {x4 : Item} (h : Keeps s0 x0) :
    Keeps s0 (State.runKstep x0 x1 x2 x3 x4) := by
  unfold State.runKstep
  extract_lets +onlyGivenNames a1
  extract_lets +onlyGivenNames a2
  extract_lets +onlyGivenNames a3
  extract_lets +onlyGivenNames a4
  split
  extract_lets +onlyGivenNames a5
  have ka5 : Keeps s0 a5 := by
    unfold a5
    refine State.setEngine_keeps ?_
    exact h
  split
  · refine State.turnBuffers_keeps ?_
    exact ka5
  · exact ka5

theorem State.intoFrame_keeps {s0 : State} {x0 : State} {x1 : Nat} {x2 : Cmd} {x3 : Geo} {x4 : Item} {x5 : Nat} {x6 : Nat} (h : Keeps s0 x0) :
    Keeps s0 (State.intoFrame x0 x1 x2 x3 x4 x5 x6).1 := by
  unfold State.intoFrame
  extract_lets +onlyGivenNames a1
  extract_lets +onlyGivenNames a2
  extract_lets +onlyGivenNames a3
  split
  · with_reducible assumption
  · split
    extract_lets +onlyGivenNames a4
    extract_lets +onlyGivenNames a5
    refine Keeps.fst ?_
    refine State.setAcc_keeps ?_
    exact h

theorem State.kstepNext_keeps {s0 : State} {x0 : State} {x1 : Nat} {x2 : Cmd} {x3 : Geo} {x4 : Nat} (h : Keeps s0 x0) :
    Keeps s0 (State.kstepNext x0 x1 x2 x3 x4) := by
  unfold State.kstepNext
  split
  · exact h
  · split
    · exact h
    · split
      · split
        refine State.setEngine_keeps ?_
        refine Keeps.of1 ‹_› ?_
        refine State.intoFrame_keeps ?_
        exact h
      · refine State.setEngine_keeps ?_
        exact h

theorem State.kstepDone_keeps {s0 : State} {x0 : State} {x1 : Nat} {x2 : Cmd} {x3 : Geo} {x4 : Item} (h : Keeps s0 x0) :
    Keeps s0 (State.kstepDone x0 x1 x2 x3 x4) := by
  unfold State.kstepDone
  extract_lets +onlyGivenNames a1
  extract_lets +onlyGivenNames a2
  have ka2 : Keeps s0 a2 := by
    unfold a2
    split
    · refine State.prof_keeps ?_
      refine State.runKstep_keeps ?_
      exact h
    · exact h
  refine State.kstepNext_keeps ?_
  exact ka2

theorem runKstepEnd_keeps {s0 : State} {x0 : Fin 16} {x1 : ArrayEvent} {x2 : State} (h : Keeps s0 x2) :
    KeepsO s0 (runKstepEnd x0 x1 x2) := by
  unfold runKstepEnd
  extract_lets +onlyGivenNames a1
  extract_lets +onlyGivenNames a2
  split
  · refine Keeps.next ?_
    exact h
  · split
    · refine Keeps.next ?_
      exact h
    · split
      · refine Keeps.next ?_
        refine State.dropCompute_keeps ?_
        exact h
      · extract_lets +onlyGivenNames a3
        split
        · refine Keeps.next ?_
          exact h
        · split
          · refine Keeps.next ?_
            refine State.stall_keeps ?_
            exact h
          · split
            · refine Keeps.next ?_
              exact h
            · split
              · extract_lets +onlyGivenNames a4
                extract_lets +onlyGivenNames a5
                have ka5 : Keeps s0 a5 := by
                  unfold a5
                  split
                  · exact h
                  · refine State.dropCompute_keeps ?_
                    exact h
                extract_lets +onlyGivenNames a6
                have ka6 : Keeps s0 a6 := by
                  unfold a6
                  refine State.engineEvent_keeps ?_
                  exact ka5
                refine Keeps.next ?_
                split
                · refine State.restartItem_keeps ?_
                  exact ka6
                · refine State.settleMat_keeps ?_
                  refine State.dropCompute_keeps ?_
                  exact ka6
              · split
                · refine Keeps.next ?_
                  refine State.spillwayEvent_keeps ?_
                  exact h
                · extract_lets +onlyGivenNames a4
                  have ka4 : Keeps s0 a4 := by
                    unfold a4
                    refine State.correctedEvent_keeps ?_
                    exact h
                  split
                  · refine Keeps.next ?_
                    refine State.settleMat_keeps ?_
                    refine State.dropCompute_keeps ?_
                    exact ka4
                  · split
                    · refine Keeps.next ?_
                      refine State.settleMat_keeps ?_
                      refine State.runAgain_keeps ?_
                      refine State.dropCompute_keeps ?_
                      exact ka4
                    · refine Keeps.next ?_
                      refine State.readingMat_keeps ?_ ?_
                      · exact ka4
                      · intro b1 b2
                        refine State.kstepDone_keeps ?_
                        exact b2

theorem execKstepEnd_keeps {s0 : State} {x0 : Fin 16} {x1 : ArrayEvent} {x2 : State} (h : Keeps s0 x2) :
    KeepsO s0 (execKstepEnd x0 x1 x2) := by
  intro u hu
  unfold execKstepEnd at hu
  split at hu
  · next t e => cases hu; exact State.settleQuars_keeps (runKstepEnd_keeps h t e)
  · exact runKstepEnd_keeps h u hu

theorem State.pushLines_keeps {s0 : State} {x0 : State} {x1 : CmdRef} {x2 : Nat} {x3 : Nat} {x4 : Nat} {x5 : Nat} {x6 : List (Nat × Nat × Val)} (h : Keeps s0 x0) :
    Keeps s0 (State.pushLines x0 x1 x2 x3 x4 x5 x6).1 := by
  unfold State.pushLines
  extract_lets +onlyGivenNames a1
  refine Keeps.fst ?_
  refine Keeps.foldl ?_ ?_
  · intro b1 b2 b3
    split
    · extract_lets +onlyGivenNames a2
      refine State.setUpd_keeps ?_
      exact b3
    · exact b3
  · exact h

theorem State.handLines_keeps {s0 : State} {x0 : State} {x1 : CmdRef} {x2 : Cmd} {x3 : Nat} {x4 : Nat} {x5 : List (Nat × Nat × Val)} (h : Keeps s0 x0) :
    Keeps s0 (State.handLines x0 x1 x2 x3 x4 x5) := by
  unfold State.handLines
  split
  refine State.modCmd_keeps ?_
  refine Keeps.of1 ‹_› ?_
  refine State.pushLines_keeps ?_
  exact h

theorem State.emitRow_keeps {s0 : State} {x0 : State} {x1 : Cmd} {x2 : Geo} {x3 : Nat} {x4 : Nat} {x5 : List Val} (h : Keeps s0 x0) :
    Keeps s0 (State.emitRow x0 x1 x2 x3 x4 x5).1 := by
  unfold State.emitRow
  extract_lets +onlyGivenNames a1
  extract_lets +onlyGivenNames a2
  extract_lets +onlyGivenNames a3
  extract_lets +onlyGivenNames a4
  split
  split
  extract_lets +onlyGivenNames a5
  have ka5 : Keeps s0 a5 := by
    unfold a5
    split
    · refine Keeps.of1 ‹_› ?_
      split
      · split
        refine Keeps.fst ?_
        refine State.modMat_keeps ?_
        exact h
      · with_reducible assumption
    · refine State.modMat_keeps ?_
      refine Keeps.of1 ‹_› ?_
      split
      · split
        refine Keeps.fst ?_
        refine State.modMat_keeps ?_
        exact h
      · with_reducible assumption
  split
  · extract_lets +onlyGivenNames a6
    refine Keeps.fst ?_
    refine State.account_keeps ?_
    refine State.handLines_keeps ?_
    exact ka5
  · split
    refine Keeps.fst ?_
    refine State.modCmd_keeps ?_
    refine Keeps.of1 ‹_› ?_
    refine State.writePart_keeps ?_
    exact ka5

theorem State.emitTile_keeps {s0 : State} {x0 : State} {x1 : Cmd} {x2 : Geo} {x3 : Nat} {x4 : Nat → Nat → Val} (h : Keeps s0 x0) :
    Keeps s0 (State.emitTile x0 x1 x2 x3 x4).1 := by
  unfold State.emitTile
  refine Keeps.foldl1 ?_ ?_
  · intro b1 b2 b3 b4
    split
    refine Keeps.fst ?_
    refine Keeps.of1 ‹_› ?_
    refine State.emitRow_keeps ?_
    with_reducible assumption
  · with_reducible assumption

theorem State.finishTile_keeps {s0 : State} {x0 : State} {x1 : Nat} {x2 : Cmd} {x3 : Geo} {x4 : Nat} {x5 : Nat → Nat → Val} {x6 : NumFlags} {x7 : NumFlags} (h : Keeps s0 x0) :
    Keeps s0 (State.finishTile x0 x1 x2 x3 x4 x5 x6 x7) := by
  unfold State.finishTile
  extract_lets +onlyGivenNames a1
  extract_lets +onlyGivenNames a2
  refine State.readingMat_keeps ?_ ?_
  · exact h
  · intro b1 b2
    split
    extract_lets +onlyGivenNames a3
    have ka3 : Keeps s0 a3 := by
      unfold a3
      refine State.modMat_keeps ?_
      refine Keeps.of1 ‹_› ?_
      refine State.emitTile_keeps ?_
      exact b2
    extract_lets +onlyGivenNames a4
    extract_lets +onlyGivenNames a5
    have ka5 : Keeps s0 a5 := by
      unfold a5
      split
      · exact ka3
      · refine State.setAcc_keeps ?_
        exact ka3
    refine State.settleMat_keeps ?_
    refine State.orFlags_keeps ?_
    refine State.orFlags_keeps ?_
    exact ka5

theorem State.drainItem_keeps {s0 : State} {x0 : State} {x1 : Nat} {x2 : Cmd} {x3 : Geo} {x4 : Item} (h : Keeps s0 x0) :
    Keeps s0 (State.drainItem x0 x1 x2 x3 x4) := by
  unfold State.drainItem
  extract_lets +onlyGivenNames a1
  extract_lets +onlyGivenNames a2
  extract_lets +onlyGivenNames a3
  extract_lets +onlyGivenNames a4
  split
  · extract_lets +onlyGivenNames a5
    refine State.finishTile_keeps ?_
    exact h
  · extract_lets +onlyGivenNames a5
    split
    extract_lets +onlyGivenNames a6
    extract_lets +onlyGivenNames a7
    extract_lets +onlyGivenNames a8
    extract_lets +onlyGivenNames a9
    extract_lets +onlyGivenNames a10
    extract_lets +onlyGivenNames a11
    have ka11 : Keeps s0 a11 := by
      unfold a11
      refine State.settleMat_keeps ?_
      refine State.orFlags_keeps ?_
      refine State.orFlags_keeps ?_
      refine Keeps.of1 ‹_› ?_
      refine State.intoFrame_keeps ?_
      exact h
    split
    · extract_lets +onlyGivenNames a12
      split
      · refine State.finishTile_keeps ?_
        refine Keeps.of1 ‹_› ?_
        refine State.intoFrame_keeps ?_
        exact h
      · exact ka11
    · split
      · refine State.finishTile_keeps ?_
        refine Keeps.of1 ‹_› ?_
        refine State.intoFrame_keeps ?_
        exact h
      · exact ka11
    · exact ka11

theorem runTileDrain_keeps {s0 : State} {x0 : Fin 16} {x1 : ArrayEvent} {x2 : State} (h : Keeps s0 x2) :
    KeepsO s0 (runTileDrain x0 x1 x2) := by
  unfold runTileDrain
  extract_lets +onlyGivenNames a1
  extract_lets +onlyGivenNames a2
  split
  · refine Keeps.next ?_
    exact h
  · split
    · refine Keeps.next ?_
      exact h
    · split
      · refine Keeps.next ?_
        refine State.setEngine_keeps ?_
        exact h
      · extract_lets +onlyGivenNames a3
        extract_lets +onlyGivenNames a4
        split
        · refine Keeps.next ?_
          refine State.stall_keeps ?_
          exact h
        · split
          · refine Keeps.next ?_
            exact h
          · split
            · extract_lets +onlyGivenNames a5
              have ka5 : Keeps s0 a5 := by
                unfold a5
                refine State.setEngine_keeps ?_
                exact h
              extract_lets +onlyGivenNames a6
              have ka6 : Keeps s0 a6 := by
                unfold a6
                refine State.engineEvent_keeps ?_
                exact ka5
              refine Keeps.next ?_
              split
              · refine State.settleMat_keeps ?_
                exact ka6
              · refine State.settleMat_keeps ?_
                refine State.runAgain_keeps ?_
                split
                · refine State.resetTile_keeps ?_
                  exact ka6
                · exact ka6
            · refine Keeps.next ?_
              refine State.spillwayEvent_keeps ?_
              exact h
            · extract_lets +onlyGivenNames a5
              have ka5 : Keeps s0 a5 := by
                unfold a5
                refine State.correctedEvent_keeps ?_
                exact h
              extract_lets +onlyGivenNames a6
              extract_lets +onlyGivenNames a7
              have ka7 : Keeps s0 a7 := by
                unfold a7
                refine State.setEngine_keeps ?_
                exact ka5
              extract_lets +onlyGivenNames a8
              have ka8 : Keeps s0 a8 := by
                unfold a8
                refine State.modMat_keeps ?_
                exact ka7
              extract_lets +onlyGivenNames a9
              have ka9 : Keeps s0 a9 := by
                unfold a9
                refine State.prof_keeps ?_
                refine State.traceAs_keeps ?_
                exact ka8
              refine Keeps.next ?_
              refine State.drainItem_keeps ?_
              exact ka9

theorem execTileDrain_keeps {s0 : State} {x0 : Fin 16} {x1 : ArrayEvent} {x2 : State} (h : Keeps s0 x2) :
    KeepsO s0 (execTileDrain x0 x1 x2) := by
  intro u hu
  unfold execTileDrain at hu
  split at hu
  · next t e => cases hu; exact State.settleQuars_keeps (runTileDrain_keeps h t e)
  · exact runTileDrain_keeps h u hu

theorem execPreemption_keeps {s0 : State} {x0 : Fin 16} {x1 : State} (h : Keeps s0 x1) :
    KeepsO s0 (execPreemption x0 x1) := by
  unfold execPreemption
  extract_lets +onlyGivenNames a1
  extract_lets +onlyGivenNames a2
  extract_lets +onlyGivenNames a3
  split
  · refine Keeps.next ?_
    exact h
  · extract_lets +onlyGivenNames a4
    extract_lets +onlyGivenNames a5
    split
    · refine Keeps.next ?_
      exact h
    · split
      · split
        · refine Keeps.next ?_
          exact h
        · extract_lets +onlyGivenNames a6
          have ka6 : Keeps s0 a6 := by
            unfold a6
            refine State.setEngine_keeps ?_
            exact h
          extract_lets +onlyGivenNames a7
          extract_lets +onlyGivenNames a8
          extract_lets +onlyGivenNames a9
          have ka9 : Keeps s0 a9 := by
            unfold a9
            refine State.setQueue_keeps ?_
            exact ka6
          extract_lets +onlyGivenNames a10
          have ka10 : Keeps s0 a10 := by
            unfold a10
            refine State.modMat_keeps ?_
            exact ka9
          refine Keeps.next ?_
          refine State.prof_keeps ?_
          refine State.markSaved_keeps ?_
          exact ka10
      · refine Keeps.next ?_
        exact h

theorem State.saveComplete_keeps {s0 : State} {x0 : State} {x1 : Nat} {x2 : ArrayEvent} (h : Keeps s0 x0) :
    Keeps s0 (State.saveComplete x0 x1 x2) := by
  unfold State.saveComplete
  extract_lets +onlyGivenNames a1
  split
  · split
    · exact h
    · split
      · refine State.setEngine_keeps ?_
        exact h
      · extract_lets +onlyGivenNames a2
        extract_lets +onlyGivenNames a3
        extract_lets +onlyGivenNames a4
        extract_lets +onlyGivenNames a5
        split
        · extract_lets +onlyGivenNames a6
          have ka6 : Keeps s0 a6 := by
            unfold a6
            refine State.markSaved_keeps ?_
            refine State.setQueue_keeps ?_
            exact h
          refine State.settleMat_keeps ?_
          refine State.engineEvent_keeps ?_
          refine State.setEngine_keeps ?_
          exact ka6
        · extract_lets +onlyGivenNames a6
          have ka6 : Keeps s0 a6 := by
            unfold a6
            split
            · refine State.engineEvent_keeps ?_
              exact h
            · refine State.correctedEvent_keeps ?_
              exact h
          extract_lets +onlyGivenNames a7
          extract_lets +onlyGivenNames a8
          extract_lets +onlyGivenNames a9
          extract_lets +onlyGivenNames a10
          have ka10 : Keeps s0 a10 := by
            unfold a10
            refine Keeps.foldl ?_ ?_
            · intro b1 b2 b3
              extract_lets +onlyGivenNames a11
              refine State.putMem_keeps ?_
              exact b3
            · exact ka6
          extract_lets +onlyGivenNames a11
          have ka11 : Keeps s0 a11 := by
            unfold a11
            refine State.zeroMem_keeps ?_
            exact ka10
          extract_lets +onlyGivenNames a12
          extract_lets +onlyGivenNames a13
          extract_lets +onlyGivenNames a14
          have ka14 : Keeps s0 a14 := by
            unfold a14
            refine State.modMat_keeps ?_
            exact ka11
          extract_lets +onlyGivenNames a15
          extract_lets +onlyGivenNames a16
          have ka16 : Keeps s0 a16 := by
            unfold a16
            refine State.setQueue_keeps ?_
            exact ka14
          extract_lets +onlyGivenNames a17
          extract_lets +onlyGivenNames a18
          extract_lets +onlyGivenNames a19
          extract_lets +onlyGivenNames a20
          have ka20 : Keeps s0 a20 := by
            unfold a20
            refine State.putMem_keeps ?_
            exact ka16
          extract_lets +onlyGivenNames a21
          have ka21 : Keeps s0 a21 := by
            unfold a21
            split
            · split
              · with_reducible assumption
              · refine State.rewritePrimary_keeps ?_
                exact ka20
            · with_reducible assumption
          refine State.settleMat_keeps ?_
          refine State.setEngine_keeps ?_
          exact ka21
  · exact h

theorem execContextRestore_keeps {s0 : State} {x0 : Fin 16} {x1 : State} (h : Keeps s0 x1) :
    KeepsO s0 (execContextRestore x0 x1) := by
  unfold execContextRestore
  extract_lets +onlyGivenNames a1
  extract_lets +onlyGivenNames a2
  extract_lets +onlyGivenNames a3
  split
  · refine Keeps.next ?_
    exact h
  · split
    · refine Keeps.next ?_
      exact h
    · split
      · refine Keeps.next ?_
        exact h
      · extract_lets +onlyGivenNames a4
        extract_lets +onlyGivenNames a5
        split
        · refine Keeps.next ?_
          exact h
        · split
          · refine Keeps.next ?_
            exact h
          · extract_lets +onlyGivenNames a6
            extract_lets +onlyGivenNames a7
            extract_lets +onlyGivenNames a8
            extract_lets +onlyGivenNames a9
            split
            split
            · refine Keeps.next ?_
              refine Keeps.of1 ‹_› ?_
              refine State.withFrames_keeps ?_
              exact h
            · extract_lets +onlyGivenNames a10
              have ka10 : Keeps s0 a10 := by
                unfold a10
                split
                · refine State.resetTile_keeps ?_
                  refine Keeps.of1 ‹_› ?_
                  refine State.withFrames_keeps ?_
                  exact h
                · refine Keeps.of1 ‹_› ?_
                  refine State.withFrames_keeps ?_
                  exact h
              extract_lets +onlyGivenNames a11
              extract_lets +onlyGivenNames a12
              extract_lets +onlyGivenNames a13
              extract_lets +onlyGivenNames a14
              extract_lets +onlyGivenNames a15
              have ka15 : Keeps s0 a15 := by
                unfold a15
                refine State.loadItem_keeps ?_
                exact ka10
              extract_lets +onlyGivenNames a16
              extract_lets +onlyGivenNames a17
              have ka17 : Keeps s0 a17 := by
                unfold a17
                refine State.setEngine_keeps ?_
                exact ka15
              extract_lets +onlyGivenNames a18
              have ka18 : Keeps s0 a18 := by
                unfold a18
                refine State.modMat_keeps ?_
                exact ka17
              extract_lets +onlyGivenNames a19
              have ka19 : Keeps s0 a19 := by
                unfold a19
                refine State.markSaved_keeps ?_
                refine State.setQueue_keeps ?_
                exact ka18
              extract_lets +onlyGivenNames a20
              have ka20 : Keeps s0 a20 := by
                unfold a20
                refine State.putMem_keeps ?_
                exact ka19
              refine Keeps.next ?_
              refine State.served_keeps ?_
              refine State.noteCmd_keeps ?_
              exact ka20

theorem State.setQState_keeps {s0 : State} {x0 : State} {x1 : Nat} {x2 : Nat} (h : Keeps s0 x0) :
    Keeps s0 (State.setQState x0 x1 x2) := by
  unfold State.setQState
  refine State.setFld_keeps ?_
  exact h

theorem State.enableQueue_keeps {s0 : State} {x0 : State} {x1 : Nat} (h : Keeps s0 x0) :
    Keeps s0 (State.enableQueue x0 x1) := by
  unfold State.enableQueue
  extract_lets +onlyGivenNames a1
  extract_lets +onlyGivenNames a2
  have ka2 : Keeps s0 a2 := by
    unfold a2
    refine State.setQState_keeps ?_
    refine State.setFld_keeps ?_
    refine State.setFld_keeps ?_
    exact h
  refine State.setQueue_keeps ?_
  exact ka2

theorem State.writeReply_keeps {s0 : State} {x0 : State} {x1 : Nat} {x2 : Nat} {x3 : Nat} (h : Keeps s0 x0) :
    Keeps s0 (State.writeReply x0 x1 x2 x3) := by
  unfold State.writeReply
  refine State.hubWrites_keeps ?_
  exact h

theorem State.replyTo_keeps {s0 : State} {x0 : State} {x1 : Cmd} (h : Keeps s0 x0) :
    Keeps s0 (State.replyTo x0 x1) := by
  unfold State.replyTo
  split
  split
  · exact h
  · refine State.writeReply_keeps ?_
    exact h

theorem State.settleQueue_keeps {s0 : State} {x0 : State} {x1 : Nat} (h : Keeps s0 x0) :
    Keeps s0 (State.settleQueue x0 x1) := by
  unfold State.settleQueue
  extract_lets +onlyGivenNames a1
  split
  · refine State.setQState_keeps ?_
    exact h
  · split
    · split
      · refine State.setQState_keeps ?_
        exact h
      · split
        · refine State.settleQuars_keeps ?_
          refine Keeps.foldl ?_ ?_
          · intro b1 b2 b3
            split
            · refine State.abandon_keeps ?_
              exact b3
            · exact b3
          · exact h
        · exact h
    · exact h

theorem State.settleQueues_keeps {s0 : State} {x0 : State} (h : Keeps s0 x0) :
    Keeps s0 (State.settleQueues x0) := by
  unfold State.settleQueues
  refine Keeps.foldl ?_ ?_
  · intro b1 b2 b3
    refine State.settleQueue_keeps ?_
    exact b3
  · exact h

theorem State.haltQueue_keeps {s0 : State} {x0 : State} {x1 : Nat} {x2 : Nat} (h : Keeps s0 x0) :
    Keeps s0 (State.haltQueue x0 x1 x2) := by
  unfold State.haltQueue
  refine State.settleQueue_keeps ?_
  refine State.setQState_keeps ?_
  refine State.setQueue_keeps ?_
  refine State.setFld_keeps ?_
  exact h

theorem execContextSaveComplete_keeps {s0 : State} {x0 : Fin 16} {x1 : ArrayEvent} {x2 : State} (h : Keeps s0 x2) :
    KeepsO s0 (execContextSaveComplete x0 x1 x2) := by
  unfold execContextSaveComplete
  refine Keeps.next ?_
  refine State.settleQueues_keeps ?_
  refine State.settleQuars_keeps ?_
  refine State.saveComplete_keeps ?_
  exact h

theorem State.dbTail_keeps {s0 : State} {x0 : State} {x1 : Nat} {x2 : Nat} (h : Keeps s0 x0) :
    Keeps s0 (State.dbTail x0 x1 x2) := by
  unfold State.dbTail
  extract_lets +onlyGivenNames a1
  extract_lets +onlyGivenNames a2
  extract_lets +onlyGivenNames a3
  extract_lets +onlyGivenNames a4
  split
  · refine State.incSat_keeps ?_
    exact h
  · split
    · exact h
    · split
      · extract_lets +onlyGivenNames a5
        have ka5 : Keeps s0 a5 := by
          unfold a5
          refine State.setFld_keeps ?_
          refine State.incSat_keeps ?_
          exact h
        split
        · refine State.haltQueue_keeps ?_
          exact ka5
        · exact ka5
      · refine State.setFld_keeps ?_
        exact h

theorem State.doorbellWrite_keeps {s0 : State} {x0 : State} {x1 : Nat} {x2 : Nat} {x3 : Nat} {x4 : Nat} (h : Keeps s0 x0) :
    Keeps s0 (State.doorbellWrite x0 x1 x2 x3 x4) := by
  unfold State.doorbellWrite
  split
  · refine State.dbTail_keeps ?_
    exact h
  · refine State.incSat_keeps ?_
    exact h

theorem execDbTailWrite_keeps {s0 : State} {x0 : Fin 256} {x1 : Nat} {x2 : State} (h : Keeps s0 x2) :
    KeepsO s0 (execDbTailWrite x0 x1 x2) := by
  unfold execDbTailWrite
  refine Keeps.next ?_
  refine State.dbTail_keeps ?_
  exact h

theorem State.qEnable_keeps {s0 : State} {x0 : State} {x1 : Nat} (h : Keeps s0 x0) :
    Keeps s0 (State.qEnable x0 x1) := by
  unfold State.qEnable
  split
  · exact h
  · split
    · refine State.setFld_keeps ?_
      exact h
    · refine State.enableQueue_keeps ?_
      exact h

theorem State.qDisable_keeps {s0 : State} {x0 : State} {x1 : Nat} (h : Keeps s0 x0) :
    Keeps s0 (State.qDisable x0 x1) := by
  unfold State.qDisable
  split
  · exact h
  · refine State.settleQueue_keeps ?_
    refine State.setQueue_keeps ?_
    refine State.setQState_keeps ?_
    exact h

theorem State.qRestart_keeps {s0 : State} {x0 : State} {x1 : Nat} (h : Keeps s0 x0) :
    Keeps s0 (State.qRestart x0 x1) := by
  unfold State.qRestart
  split
  · exact h
  · refine State.setQueue_keeps ?_
    refine State.setQState_keeps ?_
    exact h

theorem execQCtlEnable_keeps {s0 : State} {x0 : Fin 256} {x1 : State} (h : Keeps s0 x1) :
    KeepsO s0 (execQCtlEnable x0 x1) := by
  unfold execQCtlEnable
  refine Keeps.next ?_
  refine State.qEnable_keeps ?_
  exact h

theorem execQCtlDisable_keeps {s0 : State} {x0 : Fin 256} {x1 : State} (h : Keeps s0 x1) :
    KeepsO s0 (execQCtlDisable x0 x1) := by
  unfold execQCtlDisable
  refine Keeps.next ?_
  refine State.qDisable_keeps ?_
  exact h

theorem execQCtlRestart_keeps {s0 : State} {x0 : Fin 256} {x1 : State} (h : Keeps s0 x1) :
    KeepsO s0 (execQCtlRestart x0 x1) := by
  unfold execQCtlRestart
  refine Keeps.next ?_
  refine State.qRestart_keeps ?_
  exact h

theorem State.addCensus_keeps {s0 : State} {x0 : State} {x1 : Cmd} (h : Keeps s0 x0) :
    Keeps s0 (State.addCensus x0 x1) := by
  unfold State.addCensus
  split
  · exact h
  · split
    · refine State.incSat_keeps ?_
      exact h
    · refine Keeps.foldl ?_ ?_
      · intro b1 b2 b3
        extract_lets +onlyGivenNames a2
        extract_lets +onlyGivenNames a3
        split
        · exact b3
        · extract_lets +onlyGivenNames a4
          have ka4 : Keeps s0 a4 := by
            unfold a4
            refine State.add64_keeps ?_
            exact b3
          extract_lets +onlyGivenNames a5
          have ka5 : Keeps s0 a5 := by
            unfold a5
            split
            · refine State.add64_keeps ?_
              exact ka4
            · exact ka4
          refine State.add64_keeps ?_
          refine State.add64_keeps ?_
          refine State.add64_keeps ?_
          exact ka5
      · exact h

theorem State.addAccount_keeps {s0 : State} {x0 : State} {x1 : Cmd} (h : Keeps s0 x0) :
    Keeps s0 (State.addAccount x0 x1) := by
  unfold State.addAccount
  split
  · exact h
  · split
    · refine State.incSat_keeps ?_
      exact h
    · split
      · exact h
      · extract_lets +onlyGivenNames a2
        split
        refine Keeps.foldl ?_ ?_
        · intro b1 b2 b3
          refine State.add64_keeps ?_
          exact b3
        · refine Keeps.of2 ‹_› ?_
          split
          · refine State.draw_keeps ?_
            exact h
          · with_reducible assumption

theorem State.advanceHead_keeps {s0 : State} {x0 : State} {x1 : Nat} (h : Keeps s0 x0) :
    Keeps s0 (State.advanceHead x0 x1) := by
  unfold State.advanceHead
  extract_lets +onlyGivenNames a2
  split
  · exact h
  · extract_lets +onlyGivenNames a3
    extract_lets +onlyGivenNames a4
    have ka4 : Keeps s0 a4 := by
      unfold a4
      refine Keeps.upd ?_
      exact h
    extract_lets +onlyGivenNames a5
    have ka5 : Keeps s0 a5 := by
      unfold a5
      refine State.setFld_keeps ?_
      exact ka4
    extract_lets +onlyGivenNames a6
    have ka6 : Keeps s0 a6 := by
      unfold a6
      refine State.setFld_keeps ?_
      exact ka5
    refine State.hubWrites_keeps ?_
    exact ka6

theorem State.queueIrq_keeps {s0 : State} {x0 : State} {x1 : Cmd} (h : Keeps s0 x0) :
    Keeps s0 (State.queueIrq x0 x1) := by
  unfold State.queueIrq
  extract_lets +onlyGivenNames a1
  split
  · refine State.msi_keeps ?_
    exact h
  · exact h

theorem State.complete_keeps {s0 : State} {x0 : State} {x1 : Cmd} (h : Keeps s0 x0) :
    Keeps s0 (State.complete x0 x1) := by
  unfold State.complete
  extract_lets +onlyGivenNames a1
  have ka1 : Keeps s0 a1 := by
    unfold a1
    split
    · exact h
    · refine State.addAccount_keeps ?_
      refine State.addCensus_keeps ?_
      exact h
  extract_lets +onlyGivenNames a2
  have ka2 : Keeps s0 a2 := by
    unfold a2
    refine State.replyTo_keeps ?_
    exact ka1
  extract_lets +onlyGivenNames a3
  have ka3 : Keeps s0 a3 := by
    unfold a3
    refine State.phaseCmd_keeps ?_
    exact ka2
  extract_lets +onlyGivenNames a4
  have ka4 : Keeps s0 a4 := by
    unfold a4
    refine State.advanceHead_keeps ?_
    exact ka3
  extract_lets +onlyGivenNames a5
  have ka5 : Keeps s0 a5 := by
    unfold a5
    refine State.queueIrq_keeps ?_
    exact ka4
  extract_lets +onlyGivenNames a6
  have ka6 : Keeps s0 a6 := by
    unfold a6
    refine State.traceAs_keeps ?_
    exact ka5
  extract_lets +onlyGivenNames a7
  extract_lets +onlyGivenNames a8
  extract_lets +onlyGivenNames a9
  have ka9 : Keeps s0 a9 := by
    unfold a9
    split
    · refine Keeps.upd ?_
      exact ka6
    · exact ka6
  refine State.settleQueue_keeps ?_
  exact ka9

theorem execCommandComplete_keeps {s0 : State} {x0 : CmdRef} {x1 : State} (h : Keeps s0 x1) :
    KeepsO s0 (execCommandComplete x0 x1) := by
  unfold execCommandComplete
  split
  · refine Keeps.next ?_
    split
    · refine State.complete_keeps ?_
      exact h
    · exact h
  · refine Keeps.next ?_
    exact h

theorem execNop_keeps {s0 : State} {x0 : CmdRef} {x1 : State} (h : Keeps s0 x1) :
    KeepsO s0 (execNop x0 x1) := by
  unfold execNop
  refine Keeps.next ?_
  refine State.run_keeps ?_ ?_
  · exact h
  · intro b1
    refine State.finish_keeps ?_
    exact h

theorem execFence_keeps {s0 : State} {x0 : CmdRef} {x1 : State} (h : Keeps s0 x1) :
    KeepsO s0 (execFence x0 x1) := by
  unfold execFence
  refine Keeps.next ?_
  refine State.run_keeps ?_ ?_
  · exact h
  · intro b1
    refine State.finish_keeps ?_
    exact h

theorem State.waitRead_keeps {s0 : State} {x0 : State} {x1 : Cmd} (h : Keeps s0 x0) :
    Keeps s0 (State.waitRead x0 x1) := by
  unfold State.waitRead
  extract_lets +onlyGivenNames a1
  refine State.readingThen_keeps ?_ ?_
  · exact h
  · intro b1 b2
    extract_lets +onlyGivenNames a2
    extract_lets +onlyGivenNames a3
    split
    · split
      · refine State.finish_keeps ?_
        exact b2
      · refine State.phaseCmd_keeps ?_
        exact b2
    · split
      · refine State.finish_keeps ?_
        exact b2
      · refine State.phaseCmd_keeps ?_
        exact b2

theorem execWait_keeps {s0 : State} {x0 : CmdRef} {x1 : State} (h : Keeps s0 x1) :
    KeepsO s0 (execWait x0 x1) := by
  unfold execWait
  refine Keeps.next ?_
  refine State.run_keeps ?_ ?_
  · exact h
  · intro b1
    split
    · exact h
    · refine State.waitRead_keeps ?_
      exact h

theorem execWaitPoll_keeps {s0 : State} {x0 : CmdRef} {x1 : State} (h : Keeps s0 x1) :
    KeepsO s0 (execWaitPoll x0 x1) := by
  unfold execWaitPoll
  split
  · refine Keeps.next ?_
    split
    · refine State.waitRead_keeps ?_
      exact h
    · exact h
  · refine Keeps.next ?_
    exact h

theorem execSignal_keeps {s0 : State} {x0 : CmdRef} {x1 : State} (h : Keeps s0 x1) :
    KeepsO s0 (execSignal x0 x1) := by
  unfold execSignal
  refine Keeps.next ?_
  refine State.run_keeps ?_ ?_
  · exact h
  · intro b1
    extract_lets +onlyGivenNames a1
    extract_lets +onlyGivenNames a2
    split
    · refine State.finish_keeps ?_
      refine State.wrote_keeps ?_
      refine State.hubWrites_keeps ?_
      exact h
    · extract_lets +onlyGivenNames a3
      have ka3 : Keeps s0 a3 := by
        unfold a3
        refine State.mergeRecords_keeps ?_
        exact h
      split
      · refine State.poisoned_keeps ?_
        exact ka3
      · refine State.finish_keeps ?_
        refine State.wrote_keeps ?_
        refine State.carry_keeps ?_
        refine State.putMem_keeps ?_
        exact ka3

theorem execQueryCaps_keeps {s0 : State} {x0 : CmdRef} {x1 : State} (h : Keeps s0 x1) :
    KeepsO s0 (execQueryCaps x0 x1) := by
  unfold execQueryCaps
  refine Keeps.next ?_
  refine State.run_keeps ?_ ?_
  · exact h
  · intro b1
    refine State.finish_keeps ?_
    refine State.wrote_keeps ?_
    refine State.hubWrites_keeps ?_
    exact h

theorem State.loadQueue_keeps {s0 : State} {x0 : State} {x1 : Nat} {x2 : Nat} {x3 : Nat} (h : Keeps s0 x0) :
    Keeps s0 (State.loadQueue x0 x1 x2 x3) := by
  unfold State.loadQueue
  refine Keeps.foldl ?_ ?_
  · intro b1 b2 b3
    refine State.setR_keeps ?_
    exact b3
  · exact h

theorem execQueueSetup_keeps {s0 : State} {x0 : CmdRef} {x1 : State} (h : Keeps s0 x1) :
    KeepsO s0 (execQueueSetup x0 x1) := by
  unfold execQueueSetup
  refine Keeps.next ?_
  refine State.run_keeps ?_ ?_
  · exact h
  · intro b1
    extract_lets +onlyGivenNames a1
    extract_lets +onlyGivenNames a2
    split
    · refine State.finish_keeps ?_
      exact h
    · split
      · refine State.finish_keeps ?_
        exact h
      · extract_lets +onlyGivenNames a3
        have ka3 : Keeps s0 a3 := by
          unfold a3
          refine State.loadQueue_keeps ?_
          exact h
        refine State.finish_keeps ?_
        split
        · refine State.enableQueue_keeps ?_
          exact ka3
        · exact ka3

end Sys2Proof.Machine
end

