-- ==== Sys2Proof/Laws/KeepsUnits.lean ====
section
/-! SUPPORT. What the operations of Hoist.lean, Stack.lean, Mover.lean, Vector.lean, Pages.lean, Attention.lean, Update.lean, Telemetry.lean keep: one lemma each, by composition (Laws/Keeps.lean). -/
namespace Sys2Proof.Machine

theorem State.setAttr_keeps {s0 : State} {x0 : State} {x1 : Nat} {x2 : Nat} {x3 : Nat} {x4 : Nat} {x5 : Nat} (h : Keeps s0 x0) :
    Keeps s0 (State.setAttr x0 x1 x2 x3 x4 x5) := by
  unfold State.setAttr
  extract_lets +onlyGivenNames a1
  refine State.setHoist_keeps ?_
  exact h

theorem State.startSwap_keeps {s0 : State} {x0 : State} {x1 : Nat} (h : Keeps s0 x0) :
    Keeps s0 (State.startSwap x0 x1) := by
  unfold State.startSwap
  extract_lets +onlyGivenNames a1
  split
  · exact h
  · extract_lets +onlyGivenNames a2
    split
    · exact h
    · split
      · exact h
      · split
        · exact h
        · split
          · exact h
          · refine State.setHoistChan_keeps ?_
            exact h

theorem State.takeHint_keeps {s0 : State} {x0 : State} {x1 : Nat} {x2 : Hint} (h : Keeps s0 x0) :
    Keeps s0 (State.takeHint x0 x1 x2) := by
  unfold State.takeHint
  split
  · refine Keeps.foldl ?_ ?_
    · intro b1 b2 b3
      refine State.setAttr_keeps ?_
      exact b3
    · exact h
  · refine Keeps.foldl ?_ ?_
    · intro b1 b2 b3
      split
      · exact b3
      · refine State.setAttr_keeps ?_
        exact b3
    · exact h
  · refine Keeps.foldl ?_ ?_
    · intro b1 b2 b3
      refine State.setAttr_keeps ?_
      refine State.setAttr_keeps ?_
      exact b3
    · exact h
  · refine Keeps.foldl ?_ ?_
    · intro b1 b2 b3
      refine State.setAttr_keeps ?_
      exact b3
    · exact h
  · refine Keeps.foldl ?_ ?_
    · intro b1 b2 b3
      refine State.setAttr_keeps ?_
      refine State.setAttr_keeps ?_
      exact b3
    · exact h
  · refine Keeps.foldl ?_ ?_
    · intro b1 b2 b3
      split
      · refine State.setAttr_keeps ?_
        refine State.setAttr_keeps ?_
        exact b3
      · split
        · exact b3
        · refine State.setAttr_keeps ?_
          refine State.setAttr_keeps ?_
          exact b3
    · exact h
  · refine Keeps.foldl ?_ ?_
    · intro b1 b2 b3
      extract_lets +onlyGivenNames a1
      have ka1 : Keeps s0 a1 := by
        unfold a1
        split
        · exact b3
        · refine State.setAttr_keeps ?_
          exact b3
      refine State.setAttr_keeps ?_
      refine State.setAttr_keeps ?_
      refine State.setAttr_keeps ?_
      exact ka1
    · exact h

theorem State.hintEnds_keeps {s0 : State} {x0 : State} {x1 : Hint} (h : Keeps s0 x0) :
    Keeps s0 (State.hintEnds x0 x1) := by
  unfold State.hintEnds
  split
  · exact h
  · split
    · exact h
    · refine State.finish_keeps ?_
      exact h

theorem State.runHoist_keeps {s0 : State} {x0 : State} {x1 : Nat} {x2 : Nat} (h : Keeps s0 x0) :
    Keeps s0 (State.runHoist x0 x1 x2) := by
  induction x2 generalizing x0 with
  | zero =>
    unfold State.runHoist
    exact h
  | succ n ih =>
    unfold State.runHoist
    split
    · exact h
    · split
      · exact h
      · extract_lets +onlyGivenNames a1
        have ka1 : Keeps s0 a1 := by
          unfold a1
          refine State.takeHint_keeps ?_
          exact h
        extract_lets +onlyGivenNames a2
        extract_lets +onlyGivenNames a3
        have ka3 : Keeps s0 a3 := by
          unfold a3
          split
          · exact h
          · refine State.setHoist_keeps ?_
            exact ka1
        split
        · extract_lets +onlyGivenNames a4
          extract_lets +onlyGivenNames a5
          have ka5 : Keeps s0 a5 := by
            unfold a5
            refine State.setHoist_keeps ?_
            exact ka3
          refine ih ?_
          refine State.hintEnds_keeps ?_
          exact ka5
        · refine Keeps.foldl ?_ ?_
          · intro b1 b2 b3
            refine State.startSwap_keeps ?_
            exact b3
          · exact ka3

theorem State.sendHints_keeps {s0 : State} {x0 : State} {x1 : List (Nat × Hint)} (h : Keeps s0 x0) :
    Keeps s0 (State.sendHints x0 x1) := by
  unfold State.sendHints
  extract_lets +onlyGivenNames a1
  have ka1 : Keeps s0 a1 := by
    unfold a1
    refine Keeps.foldl ?_ ?_
    · intro b1 b2 b3
      refine State.setHoist_keeps ?_
      exact b3
    · exact h
  refine Keeps.foldl ?_ ?_
  · intro b1 b2 b3
    refine State.runHoist_keeps ?_
    exact b3
  · exact ka1

theorem State.sendHint_keeps {s0 : State} {x0 : State} {x1 : List Nat} {x2 : Hint} (h : Keeps s0 x0) :
    Keeps s0 (State.sendHint x0 x1 x2) := by
  unfold State.sendHint
  refine State.sendHints_keeps ?_
  exact h

theorem execSwapComplete_keeps {s0 : State} {x0 : Fin 512} {x1 : State} (h : Keeps s0 x1) :
    KeepsO s0 (execSwapComplete x0 x1) := by
  unfold execSwapComplete
  extract_lets +onlyGivenNames a1
  extract_lets +onlyGivenNames a2
  extract_lets +onlyGivenNames a3
  split
  · refine Keeps.next ?_
    exact h
  · split
    · refine Keeps.next ?_
      exact h
    · extract_lets +onlyGivenNames a4
      extract_lets +onlyGivenNames a5
      extract_lets +onlyGivenNames a6
      extract_lets +onlyGivenNames a7
      have ka7 : Keeps s0 a7 := by
        unfold a7
        refine State.setHoistChan_keeps ?_
        exact h
      extract_lets +onlyGivenNames a8
      have ka8 : Keeps s0 a8 := by
        unfold a8
        refine State.incWrap_keeps ?_
        exact ka7
      refine Keeps.next ?_
      refine State.runHoist_keeps ?_
      exact ka8

theorem hintCommand_keeps {s0 : State} {x0 : CmdRef} {x1 : Nat} {x2 : HintKind} {x3 : State} (h : Keeps s0 x3) :
    Keeps s0 (hintCommand x0 x1 x2 x3) := by
  unfold hintCommand
  refine State.run_keeps ?_ ?_
  · exact h
  · intro b1
    extract_lets +onlyGivenNames a1
    extract_lets +onlyGivenNames a2
    split
    · refine State.finish_keeps ?_
      exact h
    · extract_lets +onlyGivenNames a3
      refine State.sendHint_keeps ?_
      refine State.phaseCmd_keeps ?_
      exact h

theorem execHoist_keeps {s0 : State} {x0 : CmdRef} {x1 : State} (h : Keeps s0 x1) :
    KeepsO s0 (execHoist x0 x1) := by
  unfold execHoist
  refine Keeps.next ?_
  refine hintCommand_keeps ?_
  exact h

theorem execLower_keeps {s0 : State} {x0 : CmdRef} {x1 : State} (h : Keeps s0 x1) :
    KeepsO s0 (execLower x0 x1) := by
  unfold execLower
  refine Keeps.next ?_
  refine hintCommand_keeps ?_
  exact h

theorem execPin_keeps {s0 : State} {x0 : CmdRef} {x1 : State} (h : Keeps s0 x1) :
    KeepsO s0 (execPin x0 x1) := by
  unfold execPin
  refine Keeps.next ?_
  refine hintCommand_keeps ?_
  exact h

theorem execUnpin_keeps {s0 : State} {x0 : CmdRef} {x1 : State} (h : Keeps s0 x1) :
    KeepsO s0 (execUnpin x0 x1) := by
  unfold execUnpin
  refine Keeps.next ?_
  refine hintCommand_keeps ?_
  exact h

theorem State.setStream_keeps {s0 : State} {x0 : State} {x1 : Nat} {x2 : Nat} {x3 : Option Stream} (h : Keeps s0 x0) :
    Keeps s0 (State.setStream x0 x1 x2 x3) := by
  unfold State.setStream
  refine State.setHoist_keeps ?_
  exact h

theorem State.streamOpen_keeps {s0 : State} {x0 : State} {x1 : CmdRef} {x2 : Cmd} (h : Keeps s0 x0) :
    Keeps s0 (State.streamOpen x0 x1 x2) := by
  unfold State.streamOpen
  extract_lets +onlyGivenNames a1
  extract_lets +onlyGivenNames a2
  extract_lets +onlyGivenNames a3
  extract_lets +onlyGivenNames a4
  extract_lets +onlyGivenNames a5
  split
  · refine State.finish_keeps ?_
    exact h
  · split
    · refine State.finish_keeps ?_
      exact h
    · split
      · refine State.finish_keeps ?_
        exact h
      · refine State.sendHint_keeps ?_
        refine State.phaseCmd_keeps ?_
        refine Keeps.foldl ?_ ?_
        · intro b1 b2 b3
          refine State.setStream_keeps ?_
          exact b3
        · exact h

theorem State.streamMove_keeps {s0 : State} {x0 : State} {x1 : CmdRef} {x2 : Cmd} {x3 : List (Nat × Stream)} (h : Keeps s0 x0) :
    Keeps s0 (State.streamMove x0 x1 x2 x3) := by
  unfold State.streamMove
  extract_lets +onlyGivenNames a1
  split
  · split
    · refine State.finish_keeps ?_
      exact h
    · refine State.sendHints_keeps ?_
      refine State.phaseCmd_keeps ?_
      exact h
  · refine State.sendHints_keeps ?_
    refine State.phaseCmd_keeps ?_
    refine Keeps.foldl ?_ ?_
    · intro b1 b2 b3
      refine State.setStream_keeps ?_
      exact b3
    · exact h

theorem execStream_keeps {s0 : State} {x0 : CmdRef} {x1 : State} (h : Keeps s0 x1) :
    KeepsO s0 (execStream x0 x1) := by
  unfold execStream
  refine Keeps.next ?_
  refine State.run_keeps ?_ ?_
  · exact h
  · intro b1
    extract_lets +onlyGivenNames a1
    split
    · refine State.streamOpen_keeps ?_
      exact h
    · split
      · refine State.finish_keeps ?_
        exact h
      · refine State.streamMove_keeps ?_
        exact h

theorem State.hintRaise_keeps {s0 : State} {x0 : State} {x1 : Nat} {x2 : Nat} (h : Keeps s0 x0) :
    Keeps s0 (State.hintRaise x0 x1 x2) := by
  unfold State.hintRaise
  split
  · exact h
  · extract_lets +onlyGivenNames a1
    refine State.sendHint_keeps ?_
    exact h

theorem State.hintMark_keeps {s0 : State} {x0 : State} {x1 : Nat} {x2 : Nat} (h : Keeps s0 x0) :
    Keeps s0 (State.hintMark x0 x1 x2) := by
  unfold State.hintMark
  split
  · exact h
  · refine Keeps.foldl ?_ ?_
    · intro b1 b2 b3
      refine Keeps.foldl ?_ ?_
      · intro b4 b5 b6
        split
        · exact b6
        · refine State.setAttr_keeps ?_
          exact b6
      · exact b3
    · exact h

theorem State.serve_keeps {s0 : State} {x0 : State} {x1 : Nat} {x2 : BurstReq} {x3 : Nat} (h : Keeps s0 x0) :
    Keeps s0 (State.serve x0 x1 x2 x3) := by
  unfold State.serve
  extract_lets +onlyGivenNames a1
  have ka1 : Keeps s0 a1 := by
    unfold a1
    split
    · exact h
    · refine Keeps.upd ?_
      exact h
  split
  · refine State.homeBurst_keeps ?_
    exact ka1
  · extract_lets +onlyGivenNames a2
    have ka2 : Keeps s0 a2 := by
      unfold a2
      refine State.readBurst_keeps ?_
      exact ka1
    split
    · refine State.incWrap_keeps ?_
      exact ka2
    · exact ka2
  · split
    · refine State.storeLine_keeps ?_
      exact ka1
    · exact ka1

theorem State.grant_keeps {s0 : State} {x0 : State} {x1 : Nat} {x2 : Nat} {x3 : Nat} {x4 : Bool} (h : Keeps s0 x0) :
    Keeps s0 (State.grant x0 x1 x2 x3 x4) := by
  unfold State.grant
  split
  · exact h
  · extract_lets +onlyGivenNames a1
    extract_lets +onlyGivenNames a2
    extract_lets +onlyGivenNames a3
    have ka3 : Keeps s0 a3 := by
      unfold a3
      refine State.setChan_keeps ?_
      exact h
    extract_lets +onlyGivenNames a4
    refine State.serve_keeps ?_
    refine State.countSlot_keeps ?_
    exact ka3

theorem State.grantSwap_keeps {s0 : State} {x0 : State} {x1 : Nat} (h : Keeps s0 x0) :
    Keeps s0 (State.grantSwap x0 x1) := by
  unfold State.grantSwap
  split
  · exact h
  · extract_lets +onlyGivenNames a1
    have ka1 : Keeps s0 a1 := by
      unfold a1
      refine State.countSlot_keeps ?_
      exact h
    extract_lets +onlyGivenNames a2
    refine State.setHoistChan_keeps ?_
    exact ka1

theorem State.issueRefresh_keeps {s0 : State} {x0 : State} {x1 : Nat} {x2 : Nat} {x3 : Nat} (h : Keeps s0 x0) :
    Keeps s0 (State.issueRefresh x0 x1 x2 x3) := by
  unfold State.issueRefresh
  extract_lets +onlyGivenNames a1
  extract_lets +onlyGivenNames a2
  extract_lets +onlyGivenNames a3
  refine State.setChan_keeps ?_
  exact h

theorem State.payRefresh_keeps {s0 : State} {x0 : State} {x1 : Nat} (h : Keeps s0 x0) :
    Keeps s0 (State.payRefresh x0 x1) := by
  unfold State.payRefresh
  extract_lets +onlyGivenNames a1
  split
  · exact h
  · refine State.prof_keeps ?_
    refine Keeps.foldl ?_ ?_
    · intro b1 b2 b3
      refine State.issueRefresh_keeps ?_
      exact b3
    · refine State.setChan_keeps ?_
      exact h

theorem State.tentSlot_keeps {s0 : State} {x0 : State} {x1 : Nat} (h : Keeps s0 x0) :
    Keeps s0 (State.tentSlot x0 x1) := by
  unfold State.tentSlot
  extract_lets +onlyGivenNames a1
  extract_lets +onlyGivenNames a2
  extract_lets +onlyGivenNames a3
  have ka3 : Keeps s0 a3 := by
    unfold a3
    refine Keeps.foldl ?_ ?_
    · intro b1 b2 b3
      refine State.issueRefresh_keeps ?_
      exact b3
    · exact h
  refine State.prof_keeps ?_
  refine State.setChan_keeps ?_
  exact ka3

theorem State.dropStale_keeps {s0 : State} {x0 : State} {x1 : Nat} (h : Keeps s0 x0) :
    Keeps s0 (State.dropStale x0 x1) := by
  unfold State.dropStale
  extract_lets +onlyGivenNames a1
  refine State.setChan_keeps ?_
  exact h

theorem State.grantClass_keeps {s0 x0 : State} {x1 x2 x3 : Nat} {x4 : Bool} (h : Keeps s0 x0) :
    ∀ t, State.grantClass x0 x1 x2 x3 x4 = some t → Keeps s0 t := by
  intro t e
  unfold State.grantClass at e
  split at e
  · cases e; exact State.grant_keeps h
  · split at e
    · cases e; exact State.grantSwap_keeps h
    · cases e

theorem execBurstSlot_keeps {s0 : State} {x0 : Fin 512} {x1 : Nat} {x2 : State} (h : Keeps s0 x2) :
    KeepsO s0 (execBurstSlot x0 x1 x2) := by
  unfold execBurstSlot
  extract_lets g a b c d
  have hb : Keeps s0 b := State.tokenTick_keeps (State.dropStale_keeps h)
  have hc : Keeps s0 c := by
    unfold c
    split
    · exact State.frameStart_keeps hb
    · exact hb
  have hd : Keeps s0 d := State.payRefresh_keeps hc
  split
  · exact Keeps.next h
  · split
    · exact Keeps.next (State.nextSlot_keeps (State.tentSlot_keeps hd))
    · split
      · next t e =>
        refine Keeps.next (State.nextSlot_keeps ?_)
        split at e
        · exact State.grantClass_keeps hd _ e
        · cases e
      · split
        · next t e =>
          obtain ⟨d, _, e⟩ := List.exists_of_findSome?_eq_some e
          exact Keeps.next (State.nextSlot_keeps (State.grantClass_keeps hd _ e))
        · exact Keeps.next (State.nextSlot_keeps (State.prof_keeps hd))

theorem execRefreshDue_keeps {s0 : State} {x0 : Fin 512} {x1 : Fin 16} {x2 : Fin 32} {x3 : State} (h : Keeps s0 x3) :
    KeepsO s0 (execRefreshDue x0 x1 x2 x3) := by
  unfold execRefreshDue
  extract_lets +onlyGivenNames a1
  extract_lets +onlyGivenNames a2
  extract_lets +onlyGivenNames a3
  extract_lets +onlyGivenNames a4
  extract_lets +onlyGivenNames a5
  split
  · refine Keeps.next ?_
    exact h
  · split
    · refine Keeps.next ?_
      refine State.issueRefresh_keeps ?_
      exact h
    · split
      · refine Keeps.next ?_
        refine State.setChan_keeps ?_
        exact h
      · refine Keeps.next ?_
        refine State.setChan_keeps ?_
        exact h

theorem execRefreshRateLower_keeps {s0 : State} {x0 : Fin 32} {x1 : State} (h : Keeps s0 x1) :
    KeepsO s0 (execRefreshRateLower x0 x1) := by
  unfold execRefreshRateLower
  extract_lets +onlyGivenNames a1
  split
  · refine Keeps.next ?_
    exact h
  · split
    · refine Keeps.next ?_
      exact h
    · extract_lets +onlyGivenNames a2
      extract_lets +onlyGivenNames a3
      have ka3 : Keeps s0 a3 := by
        unfold a3
        refine Keeps.foldl ?_ ?_
        · intro b1 b2 b3
          refine State.setChan_keeps ?_
          exact b3
        · exact h
      refine Keeps.next ?_
      refine State.setStack_keeps ?_
      exact ka3

theorem execScrubRead_keeps {s0 : State} {x0 : Fin 512} {x1 : State} (h : Keeps s0 x1) :
    KeepsO s0 (execScrubRead x0 x1) := by
  unfold execScrubRead
  extract_lets +onlyGivenNames a1
  split
  · refine Keeps.next ?_
    exact h
  · extract_lets +onlyGivenNames a2
    extract_lets +onlyGivenNames a3
    extract_lets +onlyGivenNames a4
    refine Keeps.next ?_
    refine State.setChan_keeps ?_
    exact h

theorem State.window_keeps {s0 : State} {x0 : State} {x1 : Nat} {x2 : Nat} (h : Keeps s0 x0) :
    Keeps s0 (State.window x0 x1 x2) := by
  unfold State.window
  extract_lets +onlyGivenNames a1
  refine State.setChan_keeps ?_
  exact h

theorem State.extraWindow_keeps {s0 : State} {x0 : State} {x1 : Nat} (h : Keeps s0 x0) :
    Keeps s0 (State.extraWindow x0 x1) := by
  unfold State.extraWindow
  split
  · refine State.incSat_keeps ?_
    refine State.window_keeps ?_
    exact h
  · refine State.incSat_keeps ?_
    refine State.setChan_keeps ?_
    exact h

theorem State.retryExtra_keeps {s0 : State} {x0 : State} {x1 : Nat} (h : Keeps s0 x0) :
    Keeps s0 (State.retryExtra x0 x1) := by
  unfold State.retryExtra
  split
  · refine State.incSat_keeps ?_
    refine State.window_keeps ?_
    refine State.setChan_keeps ?_
    exact h
  · exact h

theorem execTenteringWindow_keeps {s0 : State} {x0 : Fin 512} {x1 : TentKind} {x2 : Nat} {x3 : State} (h : Keeps s0 x3) :
    KeepsO s0 (execTenteringWindow x0 x1 x2 x3) := by
  unfold execTenteringWindow
  extract_lets +onlyGivenNames a1
  split
  · refine Keeps.next ?_
    exact h
  · extract_lets +onlyGivenNames a2
    have ka2 : Keeps s0 a2 := by
      unfold a2
      refine State.window_keeps ?_
      exact h
    extract_lets +onlyGivenNames a3
    extract_lets +onlyGivenNames a4
    have ka4 : Keeps s0 a4 := by
      unfold a4
      refine State.setChan_keeps ?_
      exact ka2
    extract_lets +onlyGivenNames a5
    have ka5 : Keeps s0 a5 := by
      unfold a5
      refine State.retryExtra_keeps ?_
      exact ka4
    split
    · extract_lets +onlyGivenNames a6
      extract_lets +onlyGivenNames a7
      extract_lets +onlyGivenNames a8
      have ka8 : Keeps s0 a8 := by
        unfold a8
        refine State.setChan_keeps ?_
        exact ka5
      extract_lets +onlyGivenNames a9
      refine Keeps.next ?_
      split
      · exact ka8
      · refine State.extraWindow_keeps ?_
        exact ka8
    · refine Keeps.next ?_
      exact ka5

theorem State.setGrade_keeps {s0 : State} {x0 : State} {x1 : Nat} {x2 : Nat} {x3 : Nat} (h : Keeps s0 x0) :
    Keeps s0 (State.setGrade x0 x1 x2 x3) := by
  unfold State.setGrade
  extract_lets +onlyGivenNames a1
  split
  · exact h
  · extract_lets +onlyGivenNames a2
    have ka2 : Keeps s0 a2 := by
      unfold a2
      exact h
    extract_lets +onlyGivenNames a3
    have ka3 : Keeps s0 a3 := by
      unfold a3
      refine State.setFld_keeps ?_
      exact h
    extract_lets +onlyGivenNames a4
    have ka4 : Keeps s0 a4 := by
      unfold a4
      split
      · exact ka3
      · refine State.setFld_keeps ?_
        exact ka3
    extract_lets +onlyGivenNames a5
    extract_lets +onlyGivenNames a6
    have ka6 : Keeps s0 a6 := by
      unfold a6
      refine State.setStack_keeps ?_
      exact ka4
    refine State.wire_keeps ?_
    refine State.trace_keeps ?_
    exact ka6

theorem execSelfRefreshTimeout_keeps {s0 : State} {x0 : Fin 32} {x1 : State} (h : Keeps s0 x1) :
    KeepsO s0 (execSelfRefreshTimeout x0 x1) := by
  unfold execSelfRefreshTimeout
  extract_lets +onlyGivenNames a1
  split
  · refine Keeps.next ?_
    refine State.fatal_keeps ?_
    exact h
  · refine Keeps.next ?_
    exact h

theorem State.setBankRep_keeps {s0 : State} {x0 : State} {x1 : Nat} {x2 : Nat} {x3 : Nat} {x4 : Nat} {x5 : BankRep} (h : Keeps s0 x0) :
    Keeps s0 (State.setBankRep x0 x1 x2 x3 x4 x5) := by
  unfold State.setBankRep
  refine State.setStack_keeps ?_
  exact h

theorem State.copyRow_keeps {s0 : State} {x0 : State} {x1 : Nat} {x2 : Nat} {x3 : Nat} {x4 : Nat} (h : Keeps s0 x0) :
    Keeps s0 (State.copyRow x0 x1 x2 x3 x4) := by
  unfold State.copyRow
  refine Keeps.foldl ?_ ?_
  · intro b1 b2 b3
    extract_lets +onlyGivenNames a1
    have ka1 : Keeps s0 a1 := by
      unfold a1
      refine State.readBurst_keeps ?_
      exact b3
    split
    · refine State.storeLine_keeps ?_
      exact ka1
    · exact ka1
  · exact h

theorem State.repResult_keeps {s0 : State} {x0 : State} {x1 : Nat} {x2 : Nat} (h : Keeps s0 x0) :
    Keeps s0 (State.repResult x0 x1 x2) := by
  unfold State.repResult
  refine State.setFld_keeps ?_
  refine State.setFld_keeps ?_
  exact h

theorem State.softRepair_keeps {s0 : State} {x0 : State} {x1 : Nat} {x2 : Nat} {x3 : Nat} {x4 : Nat} {x5 : Nat} (h : Keeps s0 x0) :
    Keeps s0 (State.softRepair x0 x1 x2 x3 x4 x5).1 := by
  unfold State.softRepair
  extract_lets +onlyGivenNames a1
  split
  · refine Keeps.fst ?_
    refine State.setBankRep_keeps ?_
    refine State.copyRow_keeps ?_
    exact h
  · with_reducible assumption

theorem repCmd_keeps {s0 : State} {x0 : Agent} {x1 : Nat} {x2 : State → State} {x3 : State} (h : Keeps s0 x3) (k2 : ∀ {y0}, Keeps s0 y0 → Keeps s0 (x2 y0)) :
    Keeps s0 (repCmd x0 x1 x2 x3) := by
  unfold repCmd
  split
  · exact h
  · split
    · refine State.mmioRefuse_keeps ?_
      exact h
    · split
      · refine State.incSat_keeps ?_
        exact h
      · refine k2 ?_
        exact h

theorem State.repWaits_keeps {s0 : State} {x0 : State} {x1 : Nat} {x2 : RepOp} (h : Keeps s0 x0) :
    Keeps s0 (State.repWaits x0 x1 x2) := by
  unfold State.repWaits
  refine State.setFld_keeps ?_
  refine State.setStack_keeps ?_
  exact h

theorem State.softRowOp_keeps {s0 : State} {x0 : State} {x1 : Nat} {x2 : Nat} {x3 : Nat} {x4 : Nat} {x5 : Nat} (h : Keeps s0 x0) :
    Keeps s0 (State.softRowOp x0 x1 x2 x3 x4 x5) := by
  unfold State.softRowOp
  split
  · refine State.repResult_keeps ?_
    exact h
  · split
    · split
      refine State.repResult_keeps ?_
      refine Keeps.of1 ‹_› ?_
      refine State.softRepair_keeps ?_
      exact h
    · refine State.repWaits_keeps ?_
      exact h

theorem execSoftRow_keeps {s0 : State} {x0 : Agent} {x1 : Fin 32} {x2 : Fin 16} {x3 : Fin 16} {x4 : Fin 32} {x5 : Fin 8192} {x6 : State} (h : Keeps s0 x6) :
    KeepsO s0 (execSoftRow x0 x1 x2 x3 x4 x5 x6) := by
  unfold execSoftRow
  refine Keeps.next ?_
  refine repCmd_keeps ?_ ?_
  · exact h
  · intro b1 b2
    refine State.softRowOp_keeps ?_
    exact b2

theorem State.hardRowOp_keeps {s0 : State} {x0 : State} {x1 : Nat} {x2 : Nat} {x3 : Nat} {x4 : Nat} {x5 : Nat} (h : Keeps s0 x0) :
    Keeps s0 (State.hardRowOp x0 x1 x2 x3 x4 x5) := by
  unfold State.hardRowOp
  split
  · refine State.repResult_keeps ?_
    exact h
  · split
    · refine State.repResult_keeps ?_
      exact h
    · extract_lets +onlyGivenNames a1
      split
      · refine State.repResult_keeps ?_
        exact h
      · split
        split
        · extract_lets +onlyGivenNames a2
          extract_lets +onlyGivenNames a3
          have ka3 : Keeps s0 a3 := by
            unfold a3
            refine State.setStack_keeps ?_
            refine Keeps.of1 ‹_› ?_
            split
            · with_reducible assumption
            · refine State.softRepair_keeps ?_
              exact h
          refine State.setFld_keeps ?_
          exact ka3
        · refine State.repResult_keeps ?_
          refine Keeps.of1 ‹_› ?_
          split
          · with_reducible assumption
          · refine State.softRepair_keeps ?_
            exact h

theorem execHardRow_keeps {s0 : State} {x0 : Agent} {x1 : Fin 32} {x2 : Fin 16} {x3 : Fin 16} {x4 : Fin 32} {x5 : Fin 8192} {x6 : State} (h : Keeps s0 x6) :
    KeepsO s0 (execHardRow x0 x1 x2 x3 x4 x5 x6) := by
  unfold execHardRow
  refine Keeps.next ?_
  refine repCmd_keeps ?_ ?_
  · exact h
  · intro b1 b2
    refine State.hardRowOp_keeps ?_
    exact b2

theorem State.nextHard_keeps {s0 : State} {x0 : State} {x1 : Nat} {x2 : Nat} (h : Keeps s0 x0) :
    Keeps s0 (State.nextHard x0 x1 x2) := by
  induction x2 generalizing x0 with
  | zero =>
    unfold State.nextHard
    exact h
  | succ n ih =>
    unfold State.nextHard
    split
    · exact h
    · split
      · exact h
      · extract_lets +onlyGivenNames a1
        extract_lets +onlyGivenNames a2
        have ka2 : Keeps s0 a2 := by
          unfold a2
          refine State.setStack_keeps ?_
          exact h
        extract_lets +onlyGivenNames a3
        have ka3 : Keeps s0 a3 := by
          unfold a3
          split
          · refine State.hardRowOp_keeps ?_
            exact ka2
          · exact ka2
        refine ih ?_
        exact ka3

theorem State.hardMove_keeps {s0 : State} {x0 : State} {x1 : Nat} {x2 : RepOp} (h : Keeps s0 x0) :
    Keeps s0 (State.hardMove x0 x1 x2) := by
  unfold State.hardMove
  extract_lets +onlyGivenNames a1
  extract_lets +onlyGivenNames a2
  have ka2 : Keeps s0 a2 := by
    unfold a2
    refine State.copyRow_keeps ?_
    exact h
  extract_lets +onlyGivenNames a3
  have ka3 : Keeps s0 a3 := by
    unfold a3
    refine State.setBankRep_keeps ?_
    exact ka2
  extract_lets +onlyGivenNames a4
  have ka4 : Keeps s0 a4 := by
    unfold a4
    refine State.repResult_keeps ?_
    exact ka3
  refine State.nextHard_keeps ?_
  exact ka4

theorem execHardRowProgramDone_keeps {s0 : State} {x0 : Fin 32} {x1 : State} (h : Keeps s0 x1) :
    KeepsO s0 (execHardRowProgramDone x0 x1) := by
  unfold execHardRowProgramDone
  split
  · refine Keeps.next ?_
    exact h
  · extract_lets +onlyGivenNames a1
    extract_lets +onlyGivenNames a2
    have ka2 : Keeps s0 a2 := by
      unfold a2
      refine State.setStack_keeps ?_
      exact h
    refine Keeps.next ?_
    split
    · refine State.hardMove_keeps ?_
      exact ka2
    · refine State.repWaits_keeps ?_
      exact ka2

theorem State.undoSoftOp_keeps {s0 : State} {x0 : State} {x1 : Nat} {x2 : Nat} {x3 : Nat} {x4 : Nat} {x5 : Nat} (h : Keeps s0 x0) :
    Keeps s0 (State.undoSoftOp x0 x1 x2 x3 x4 x5) := by
  unfold State.undoSoftOp
  extract_lets +onlyGivenNames a1
  split
  · refine State.repResult_keeps ?_
    exact h
  · split
    · refine State.repResult_keeps ?_
      exact h
    · split
      · refine State.repWaits_keeps ?_
        exact h
      · refine State.repResult_keeps ?_
        refine State.setBankRep_keeps ?_
        refine State.copyRow_keeps ?_
        exact h

theorem execUndoSoft_keeps {s0 : State} {x0 : Agent} {x1 : Fin 32} {x2 : Fin 16} {x3 : Fin 16} {x4 : Fin 32} {x5 : Fin 8192} {x6 : State} (h : Keeps s0 x6) :
    KeepsO s0 (execUndoSoft x0 x1 x2 x3 x4 x5 x6) := by
  unfold execUndoSoft
  refine Keeps.next ?_
  refine repCmd_keeps ?_ ?_
  · exact h
  · intro b1 b2
    refine State.undoSoftOp_keeps ?_
    exact b2

theorem State.runRepWait_keeps {s0 : State} {x0 : State} {x1 : Nat} (h : Keeps s0 x0) :
    Keeps s0 (State.runRepWait x0 x1) := by
  unfold State.runRepWait
  split
  · exact h
  · split
    · exact h
    · extract_lets +onlyGivenNames a1
      extract_lets +onlyGivenNames a2
      have ka2 : Keeps s0 a2 := by
        unfold a2
        refine State.setStack_keeps ?_
        exact h
      split
      · refine State.softRowOp_keeps ?_
        exact ka2
      · refine State.undoSoftOp_keeps ?_
        exact ka2
      · refine State.hardMove_keeps ?_
        exact ka2

theorem State.laneCommitOp_keeps {s0 : State} {x0 : State} {x1 : Nat} {x2 : Nat} (h : Keeps s0 x0) :
    Keeps s0 (State.laneCommitOp x0 x1 x2) := by
  unfold State.laneCommitOp
  extract_lets +onlyGivenNames a1
  refine State.repResult_keeps ?_
  refine State.setChan_keeps ?_
  exact h

theorem execLaneCommit_keeps {s0 : State} {x0 : Agent} {x1 : Fin 32} {x2 : Fin 16} {x3 : State} (h : Keeps s0 x3) :
    KeepsO s0 (execLaneCommit x0 x1 x2 x3) := by
  unfold execLaneCommit
  refine Keeps.next ?_
  refine repCmd_keeps ?_ ?_
  · exact h
  · intro b1 b2
    refine State.laneCommitOp_keeps ?_
    exact b2

theorem State.thermalSample_keeps {s0 : State} {x0 : State} {x1 : Nat} {x2 : List Int} (h : Keeps s0 x0) :
    Keeps s0 (State.thermalSample x0 x1 x2) := by
  unfold State.thermalSample
  split
  · exact h
  · extract_lets +onlyGivenNames a1
    extract_lets +onlyGivenNames a2
    extract_lets +onlyGivenNames a3
    have ka3 : Keeps s0 a3 := by
      unfold a3
      refine State.setFld_keeps ?_
      refine State.setFld_keeps ?_
      exact h
    extract_lets +onlyGivenNames a4
    split
    · split
      · extract_lets +onlyGivenNames a5
        have ka5 : Keeps s0 a5 := by
          unfold a5
          refine State.setStack_keeps ?_
          exact ka3
        extract_lets +onlyGivenNames a6
        have ka6 : Keeps s0 a6 := by
          unfold a6
          refine Keeps.foldl ?_ ?_
          · intro b1 b2 b3
            refine State.window_keeps ?_
            refine State.window_keeps ?_
            exact b3
          · exact ka5
        refine State.setGrade_keeps ?_
        exact ka6
      · exact ka3
    · split
      · refine State.setGrade_keeps ?_
        refine State.setStack_keeps ?_
        exact ka3
      · extract_lets +onlyGivenNames a5
        split
        · refine State.setGrade_keeps ?_
          exact ka3
        · split
          · exact ka3
          · split
            · split
              · refine State.setStack_keeps ?_
                exact ka3
              · refine State.setGrade_keeps ?_
                exact ka3
            · refine State.setStack_keeps ?_
              exact ka3

theorem State.stackSample_keeps {s0 : State} {x0 : State} {x1 : Nat} {x2 : List Int} (h : Keeps s0 x0) :
    Keeps s0 (State.stackSample x0 x1 x2) := by
  unfold State.stackSample
  refine State.runRepWait_keeps ?_
  refine State.thermalSample_keeps ?_
  exact h

theorem State.laneMapWrite_keeps {s0 : State} {x0 : State} {x1 : Nat} {x2 : Nat} {x3 : Nat} (h : Keeps s0 x0) :
    Keeps s0 (State.laneMapWrite x0 x1 x2 x3) := by
  unfold State.laneMapWrite
  extract_lets +onlyGivenNames a1
  refine State.putFields_keeps ?_
  exact h

theorem execChLaneMapWrite_keeps {s0 : State} {x0 : Agent} {x1 : Fin 512} {x2 : Nat} {x3 : State} (h : Keeps s0 x3) :
    KeepsO s0 (execChLaneMapWrite x0 x1 x2 x3) := by
  unfold execChLaneMapWrite
  refine Keeps.next ?_
  split
  · exact h
  · split
    · refine State.laneMapWrite_keeps ?_
      exact h
    · refine State.mmioRefuse_keeps ?_
      exact h

theorem State.copyTensor_keeps {s0 : State} {x0 : State} {x1 : Cmd} {x2 : Td} {x3 : Td} {x4 : Nat} {x5 : Nat} {x6 : List Nat} (h : Keeps s0 x0) :
    Keeps s0 (State.copyTensor x0 x1 x2 x3 x4 x5 x6).1 := by
  unfold State.copyTensor
  extract_lets +onlyGivenNames a1
  have ka1 : Keeps s0 a1 := by
    unfold a1
    exact h
  refine Keeps.foldl1 ?_ ?_
  · intro b1 b2 b3 b4
    extract_lets +onlyGivenNames a2
    have ka2 : Keeps s0 a2 := by
      unfold a2
      with_reducible assumption
    extract_lets +onlyGivenNames a3
    split
    · with_reducible assumption
    · extract_lets +onlyGivenNames a4
      split
      · extract_lets +onlyGivenNames a5
        refine Keeps.fst ?_
        refine State.writeMem_keeps ?_
        exact ka2
      · split
        · extract_lets +onlyGivenNames a5
          refine Keeps.fst ?_
          refine State.writeMem_keeps ?_
          exact ka2
        · extract_lets +onlyGivenNames a5
          extract_lets +onlyGivenNames a6
          refine Keeps.fst ?_
          refine State.writeMem_keeps ?_
          exact ka2
  · with_reducible assumption

theorem State.withHints_keeps {s0 : State} {x0 : State} {x1 : Cmd} {x2 : Option Td} {x3 : Td} {x4 : State → State} (h : Keeps s0 x0) (k4 : ∀ {y0}, Keeps s0 y0 → Keeps s0 (x4 y0)) :
    Keeps s0 (State.withHints x0 x1 x2 x3 x4) := by
  unfold State.withHints
  extract_lets +onlyGivenNames a1
  extract_lets +onlyGivenNames a2
  have ka2 : Keeps s0 a2 := by
    unfold a2
    split
    · refine State.hintRaise_keeps ?_
      exact h
    · exact h
  extract_lets +onlyGivenNames a3
  have ka3 : Keeps s0 a3 := by
    unfold a3
    refine k4 ?_
    exact ka2
  split
  · split
    · refine State.hintMark_keeps ?_
      exact ka3
    · exact ka3
  · exact ka3

theorem State.moved_keeps {s0 : State} {x0 : State} {x1 : CmdRef} {x2 : Nat} {x3 : Nat} {x4 : Nat} (h : Keeps s0 x0) :
    Keeps s0 (State.moved x0 x1 x2 x3 x4) := by
  unfold State.moved
  extract_lets +onlyGivenNames a1
  refine State.wrote_keeps ?_
  refine State.prof_keeps ?_
  refine State.prof_keeps ?_
  refine State.account_keeps ?_
  exact h

theorem State.sent_keeps {s0 : State} {x0 : State} {x1 : CmdRef} {x2 : Td} (h : Keeps s0 x0) :
    Keeps s0 (State.sent x0 x1 x2) := by
  unfold State.sent
  refine State.carry_keeps ?_
  exact h

theorem copyCommand_keeps {s0 : State} {x0 : CmdRef} {x1 : Nat} {x2 : State} (h : Keeps s0 x2) :
    Keeps s0 (copyCommand x0 x1 x2) := by
  unfold copyCommand
  refine State.runUnit_keeps ?_ ?_
  · exact h
  · intro b1
    extract_lets +onlyGivenNames a1
    extract_lets +onlyGivenNames a2
    extract_lets +onlyGivenNames a3
    extract_lets +onlyGivenNames a4
    refine State.readingThen_keeps ?_ ?_
    · exact h
    · intro b2 b3
      extract_lets +onlyGivenNames a5
      extract_lets +onlyGivenNames a6
      split
      · refine State.finish_keeps ?_
        exact b3
      · refine State.finish_keeps ?_
        refine State.withHints_keeps ?_ ?_
        · exact b3
        · intro b4 b5
          split
          refine State.moved_keeps ?_
          refine State.sent_keeps ?_
          refine Keeps.of1 ‹_› ?_
          refine State.copyTensor_keeps ?_
          exact b5

theorem execMove_keeps {s0 : State} {x0 : CmdRef} {x1 : State} (h : Keeps s0 x1) :
    KeepsO s0 (execMove x0 x1) := by
  unfold execMove
  refine Keeps.next ?_
  refine copyCommand_keeps ?_
  exact h

theorem execGather_keeps {s0 : State} {x0 : CmdRef} {x1 : State} (h : Keeps s0 x1) :
    KeepsO s0 (execGather x0 x1) := by
  unfold execGather
  refine Keeps.next ?_
  refine copyCommand_keeps ?_
  exact h

theorem execScatter_keeps {s0 : State} {x0 : CmdRef} {x1 : State} (h : Keeps s0 x1) :
    KeepsO s0 (execScatter x0 x1) := by
  unfold execScatter
  refine Keeps.next ?_
  refine copyCommand_keeps ?_
  exact h

theorem State.convertCmd_keeps {s0 : State} {x0 : State} {x1 : CmdRef} (h : Keeps s0 x0) :
    Keeps s0 (State.convertCmd x0 x1) := by
  unfold State.convertCmd
  refine State.runUnit_keeps ?_ ?_
  · exact h
  · intro b1
    extract_lets +onlyGivenNames a1
    extract_lets +onlyGivenNames a2
    extract_lets +onlyGivenNames a3
    refine State.readingThen_keeps ?_ ?_
    · exact h
    · intro b2 b3
      refine State.finish_keeps ?_
      refine State.withHints_keeps ?_ ?_
      · exact b3
      · intro b4 b5
        extract_lets +onlyGivenNames a4
        have ka4 : Keeps s0 a4 := by
          unfold a4
          exact b5
        extract_lets +onlyGivenNames a5
        have ka5 : Keeps s0 a5 := by
          unfold a5
          refine Keeps.foldl ?_ ?_
          · intro b6 b7 b8
            refine State.modCmd_keeps ?_
            exact b8
          · exact b5
        split
        extract_lets +onlyGivenNames a6
        refine State.moved_keeps ?_
        refine State.orFlags_keeps ?_
        refine Keeps.of1 ‹_› ?_
        refine Keeps.foldl1 ?_ ?_
        · intro b6 b7 b8 b9
          extract_lets +onlyGivenNames a7
          split
          refine Keeps.fst ?_
          refine Keeps.of1 ‹_› ?_
          refine State.writeRow_keeps ?_
          with_reducible assumption
        · with_reducible assumption

theorem execConvert_keeps {s0 : State} {x0 : CmdRef} {x1 : State} (h : Keeps s0 x1) :
    KeepsO s0 (execConvert x0 x1) := by
  unfold execConvert
  refine Keeps.next ?_
  refine State.convertCmd_keeps ?_
  exact h

theorem execFill_keeps {s0 : State} {x0 : CmdRef} {x1 : State} (h : Keeps s0 x1) :
    KeepsO s0 (execFill x0 x1) := by
  unfold execFill
  refine Keeps.next ?_
  refine State.runUnit_keeps ?_ ?_
  · exact h
  · intro b1
    extract_lets +onlyGivenNames a1
    refine State.finish_keeps ?_
    refine State.withHints_keeps ?_ ?_
    · exact h
    · intro b2 b3
      extract_lets +onlyGivenNames a2
      extract_lets +onlyGivenNames a3
      have ka3 : Keeps s0 a3 := by
        unfold a3
        refine Keeps.foldl ?_ ?_
        · intro b4 b5 b6
          refine State.writeMem_keeps ?_
          exact b6
        · exact b3
      refine State.moved_keeps ?_
      refine State.sent_keeps ?_
      exact ka3

theorem State.countOperand_keeps {s0 : State} {x0 : State} {x1 : CmdRef} {x2 : Td} (h : Keeps s0 x0) :
    Keeps s0 (State.countOperand x0 x1 x2) := by
  unfold State.countOperand
  refine Keeps.foldl ?_ ?_
  · intro b1 b2 b3
    split
    · refine State.modCmd_keeps ?_
      exact b3
    · exact b3
  · exact h

theorem State.withBuf_keeps {s0 : State} {x0 : State} {x1 : CmdRef} {x2 : Nat} {x3 : BufEvents} {x4 : State → Nat → State} {x5 : State → State} (h : Keeps s0 x0) (k4 : ∀ {y0 y1}, Keeps s0 y0 → Keeps s0 (x4 y0 y1)) (k5 : ∀ {y0}, Keeps s0 y0 → Keeps s0 (x5 y0)) :
    Keeps s0 (State.withBuf x0 x1 x2 x3 x4 x5) := by
  unfold State.withBuf
  extract_lets +onlyGivenNames a1
  have ka1 : Keeps s0 a1 := by
    unfold a1
    refine k4 ?_
    exact h
  split
  · extract_lets +onlyGivenNames a2
    refine State.finish_keeps ?_
    refine State.report_keeps ?_
    exact ka1
  · refine k5 ?_
    split
    · refine State.noteCmd_keeps ?_
      exact ka1
    · exact ka1

theorem State.vecCorr_keeps {s0 : State} {x0 : Nat} {x1 : State} {x2 : Nat} (h : Keeps s0 x1) :
    Keeps s0 (State.vecCorr x0 x1 x2) := by
  unfold State.vecCorr
  refine State.incSat_keeps ?_
  exact h

theorem State.amaxOut_keeps {s0 : State} {x0 : State} {x1 : Nat} {x2 : Nat} {x3 : List Val} (h : Keeps s0 x0) :
    Keeps s0 (State.amaxOut x0 x1 x2 x3).1 := by
  unfold State.amaxOut
  split
  · with_reducible assumption
  · split
    refine Keeps.fst ?_
    refine State.max32_keeps ?_
    exact h

theorem State.vecRows_keeps {s0 : State} {x0 : State} {x1 : CmdRef} {x2 : Cmd} {x3 : Td} {x4 : Nat} {x5 : Nat → Nat → Nat → List Val × NumFlags} (h : Keeps s0 x0) :
    Keeps s0 (State.vecRows x0 x1 x2 x3 x4 x5) := by
  unfold State.vecRows
  extract_lets +onlyGivenNames a1
  split
  split
  refine State.orFlags_keeps ?_
  refine Keeps.of1 ‹_› ?_
  refine State.amaxOut_keeps ?_
  refine Keeps.of1 ‹_› ?_
  refine Keeps.foldl1 ?_ ?_
  · intro b1 b2 b3 b4
    split
    split
    refine Keeps.fst ?_
    refine Keeps.of1 ‹_› ?_
    refine State.writeRow_keeps ?_
    with_reducible assumption
  · with_reducible assumption

theorem execEltwise_keeps {s0 : State} {x0 : CmdRef} {x1 : BufEvents} {x2 : State} (h : Keeps s0 x2) :
    KeepsO s0 (execEltwise x0 x1 x2) := by
  unfold execEltwise
  refine Keeps.next ?_
  refine State.runUnit_keeps ?_ ?_
  · exact h
  · intro b1
    extract_lets +onlyGivenNames a1
    extract_lets +onlyGivenNames a2
    extract_lets +onlyGivenNames a3
    extract_lets +onlyGivenNames a4
    extract_lets +onlyGivenNames a5
    extract_lets +onlyGivenNames a6
    refine State.readingThen_keeps ?_ ?_
    · exact h
    · intro b2 b3
      refine State.withBuf_keeps ?_ ?_ ?_
      · exact b3
      · intro b4 b5 b6
        refine State.vecCorr_keeps ?_
        exact b6
      · intro b4 b5
        extract_lets +onlyGivenNames a7
        have ka7 : Keeps s0 a7 := by
          unfold a7
          exact b5
        extract_lets +onlyGivenNames a8
        extract_lets +onlyGivenNames a9
        extract_lets +onlyGivenNames a10
        extract_lets +onlyGivenNames a11
        extract_lets +onlyGivenNames a12
        have ka12 : Keeps s0 a12 := by
          unfold a12
          refine State.countOperand_keeps ?_
          exact b5
        extract_lets +onlyGivenNames a13
        have ka13 : Keeps s0 a13 := by
          unfold a13
          split
          · refine State.countOperand_keeps ?_
            exact ka12
          · exact ka12
        extract_lets +onlyGivenNames a14
        have ka14 : Keeps s0 a14 := by
          unfold a14
          refine State.vecRows_keeps ?_
          exact ka13
        refine State.finish_keeps ?_
        refine State.account_keeps ?_
        exact ka14

theorem execReduce_keeps {s0 : State} {x0 : CmdRef} {x1 : BufEvents} {x2 : State} (h : Keeps s0 x2) :
    KeepsO s0 (execReduce x0 x1 x2) := by
  unfold execReduce
  refine Keeps.next ?_
  refine State.runUnit_keeps ?_ ?_
  · exact h
  · intro b1
    extract_lets +onlyGivenNames a1
    extract_lets +onlyGivenNames a2
    extract_lets +onlyGivenNames a3
    refine State.readingThen_keeps ?_ ?_
    · exact h
    · intro b2 b3
      refine State.withBuf_keeps ?_ ?_ ?_
      · exact b3
      · intro b4 b5 b6
        refine State.vecCorr_keeps ?_
        exact b6
      · intro b4 b5
        extract_lets +onlyGivenNames a4
        have ka4 : Keeps s0 a4 := by
          unfold a4
          exact b5
        extract_lets +onlyGivenNames a5
        extract_lets +onlyGivenNames a6
        have ka6 : Keeps s0 a6 := by
          unfold a6
          refine State.vecRows_keeps ?_
          refine State.countOperand_keeps ?_
          exact b5
        refine State.finish_keeps ?_
        refine State.account_keeps ?_
        exact ka6

theorem execTableLoad_keeps {s0 : State} {x0 : CmdRef} {x1 : State} (h : Keeps s0 x1) :
    KeepsO s0 (execTableLoad x0 x1) := by
  unfold execTableLoad
  refine Keeps.next ?_
  refine State.runUnit_keeps ?_ ?_
  · exact h
  · intro b1
    extract_lets +onlyGivenNames a1
    extract_lets +onlyGivenNames a2
    extract_lets +onlyGivenNames a3
    refine State.readingThen_keeps ?_ ?_
    · exact h
    · intro b2 b3
      extract_lets +onlyGivenNames a4
      split
      · extract_lets +onlyGivenNames a5
        extract_lets +onlyGivenNames a6
        have ka6 : Keeps s0 a6 := by
          unfold a6
          refine State.setVec_keeps ?_
          exact b3
        refine State.finish_keeps ?_
        refine State.setFld_keeps ?_
        exact ka6
      · refine State.finish_keeps ?_
        exact b3

theorem execActivate_keeps {s0 : State} {x0 : CmdRef} {x1 : BufEvents} {x2 : State} (h : Keeps s0 x2) :
    KeepsO s0 (execActivate x0 x1 x2) := by
  unfold execActivate
  refine Keeps.next ?_
  refine State.runUnit_keeps ?_ ?_
  · exact h
  · intro b1
    extract_lets +onlyGivenNames a1
    extract_lets +onlyGivenNames a2
    extract_lets +onlyGivenNames a3
    split
    · refine State.finish_keeps ?_
      exact h
    · refine State.readingThen_keeps ?_ ?_
      · exact h
      · intro b2 b3
        refine State.withBuf_keeps ?_ ?_ ?_
        · exact b3
        · intro b4 b5 b6
          refine State.vecCorr_keeps ?_
          exact b6
        · intro b4 b5
          extract_lets +onlyGivenNames a4
          have ka4 : Keeps s0 a4 := by
            unfold a4
            exact b5
          extract_lets +onlyGivenNames a5
          extract_lets +onlyGivenNames a6
          have ka6 : Keeps s0 a6 := by
            unfold a6
            refine State.vecRows_keeps ?_
            refine State.countOperand_keeps ?_
            exact b5
          refine State.finish_keeps ?_
          refine State.account_keeps ?_
          exact ka6

theorem execActivateGrad_keeps {s0 : State} {x0 : CmdRef} {x1 : BufEvents} {x2 : State} (h : Keeps s0 x2) :
    KeepsO s0 (execActivateGrad x0 x1 x2) := by
  unfold execActivateGrad
  refine Keeps.next ?_
  refine State.runUnit_keeps ?_ ?_
  · exact h
  · intro b1
    extract_lets +onlyGivenNames a1
    extract_lets +onlyGivenNames a2
    extract_lets +onlyGivenNames a3
    extract_lets +onlyGivenNames a4
    split
    · refine State.finish_keeps ?_
      exact h
    · refine State.readingThen_keeps ?_ ?_
      · exact h
      · intro b2 b3
        refine State.withBuf_keeps ?_ ?_ ?_
        · exact b3
        · intro b4 b5 b6
          refine State.vecCorr_keeps ?_
          exact b6
        · intro b4 b5
          extract_lets +onlyGivenNames a5
          have ka5 : Keeps s0 a5 := by
            unfold a5
            exact b5
          extract_lets +onlyGivenNames a6
          extract_lets +onlyGivenNames a7
          have ka7 : Keeps s0 a7 := by
            unfold a7
            refine State.vecRows_keeps ?_
            refine State.countOperand_keeps ?_
            refine State.countOperand_keeps ?_
            exact b5
          refine State.finish_keeps ?_
          refine State.account_keeps ?_
          exact ka7

theorem execNorm_keeps {s0 : State} {x0 : CmdRef} {x1 : BufEvents} {x2 : State} (h : Keeps s0 x2) :
    KeepsO s0 (execNorm x0 x1 x2) := by
  unfold execNorm
  refine Keeps.next ?_
  refine State.runUnit_keeps ?_ ?_
  · exact h
  · intro b1
    extract_lets +onlyGivenNames a1
    extract_lets +onlyGivenNames a2
    extract_lets +onlyGivenNames a3
    extract_lets +onlyGivenNames a4
    extract_lets +onlyGivenNames a5
    extract_lets +onlyGivenNames a6
    extract_lets +onlyGivenNames a7
    extract_lets +onlyGivenNames a8
    extract_lets +onlyGivenNames a9
    refine State.readingThen_keeps ?_ ?_
    · exact h
    · intro b2 b3
      refine State.withBuf_keeps ?_ ?_ ?_
      · exact b3
      · intro b4 b5 b6
        refine State.vecCorr_keeps ?_
        exact b6
      · intro b4 b5
        extract_lets +onlyGivenNames a10
        have ka10 : Keeps s0 a10 := by
          unfold a10
          exact b5
        extract_lets +onlyGivenNames a11
        split
        split
        extract_lets +onlyGivenNames a12
        extract_lets +onlyGivenNames a13
        have ka13 : Keeps s0 a13 := by
          unfold a13
          refine State.countOperand_keeps ?_
          refine State.countOperand_keeps ?_
          exact b5
        extract_lets +onlyGivenNames a14
        have ka14 : Keeps s0 a14 := by
          unfold a14
          split
          · refine State.countOperand_keeps ?_
            refine State.countOperand_keeps ?_
            exact ka13
          · split
            · refine State.countOperand_keeps ?_
              exact ka13
            · exact ka13
        extract_lets +onlyGivenNames a15
        extract_lets +onlyGivenNames a16
        have ka16 : Keeps s0 a16 := by
          unfold a16
          refine State.vecRows_keeps ?_
          exact ka14
        extract_lets +onlyGivenNames a17
        have ka17 : Keeps s0 a17 := by
          unfold a17
          split
          · refine State.vecRows_keeps ?_
            exact ka14
          · refine State.vecRows_keeps ?_
            exact ka16
        refine State.finish_keeps ?_
        refine State.account_keeps ?_
        exact ka17

theorem execCombine_keeps {s0 : State} {x0 : CmdRef} {x1 : State} (h : Keeps s0 x1) :
    KeepsO s0 (execCombine x0 x1) := by
  unfold execCombine
  refine Keeps.next ?_
  refine State.runUnit_keeps ?_ ?_
  · exact h
  · intro b1
    extract_lets +onlyGivenNames a1
    extract_lets +onlyGivenNames a2
    extract_lets +onlyGivenNames a3
    extract_lets +onlyGivenNames a4
    refine State.readingThen_keeps ?_ ?_
    · exact h
    · intro b2 b3
      extract_lets +onlyGivenNames a5
      have ka5 : Keeps s0 a5 := by
        unfold a5
        exact b3
      extract_lets +onlyGivenNames a6
      extract_lets +onlyGivenNames a7
      split
      split
      refine State.finish_keeps ?_
      refine State.orFlags_keeps ?_
      refine Keeps.of1 ‹_› ?_
      refine State.amaxOut_keeps ?_
      refine Keeps.of1 ‹_› ?_
      refine Keeps.foldl1 ?_ ?_
      · intro b4 b5 b6 b7
        extract_lets +onlyGivenNames a8
        split
        split
        refine Keeps.fst ?_
        refine Keeps.of1 ‹_› ?_
        refine State.writeRow_keeps ?_
        with_reducible assumption
      · refine Keeps.fst ?_
        refine State.countOperand_keeps ?_
        exact b3

theorem State.setPage_keeps {s0 : State} {x0 : State} {x1 : Pool} {x2 : Nat} {x3 : PageSt} (h : Keeps s0 x0) :
    Keeps s0 (State.setPage x0 x1 x2 x3) := by
  unfold State.setPage
  refine State.writeMem_keeps ?_
  exact h

theorem State.modPage_keeps {s0 : State} {x0 : State} {x1 : Pool} {x2 : Nat} {x3 : PageSt → PageSt} (h : Keeps s0 x0) :
    Keeps s0 (State.modPage x0 x1 x2 x3) := by
  unfold State.modPage
  refine State.setPage_keeps ?_
  exact h

theorem State.decRef_keeps {s0 : State} {x0 : State} {x1 : Pool} {x2 : Nat} (h : Keeps s0 x0) :
    Keeps s0 (State.decRef x0 x1 x2) := by
  unfold State.decRef
  refine State.modPage_keeps ?_
  exact h

theorem State.pinPage_keeps {s0 : State} {x0 : State} {x1 : Pool} {x2 : Nat} (h : Keeps s0 x0) :
    Keeps s0 (State.pinPage x0 x1 x2) := by
  unfold State.pinPage
  refine State.modPage_keeps ?_
  exact h

theorem State.unpinPage_keeps {s0 : State} {x0 : State} {x1 : Pool} {x2 : Nat} (h : Keeps s0 x0) :
    Keeps s0 (State.unpinPage x0 x1 x2) := by
  unfold State.unpinPage
  refine State.modPage_keeps ?_
  exact h

theorem State.setEntry_keeps {s0 : State} {x0 : State} {x1 : SeqD} {x2 : Nat} {x3 : Nat} (h : Keeps s0 x0) :
    Keeps s0 (State.setEntry x0 x1 x2 x3) := by
  unfold State.setEntry
  refine State.writeMem_keeps ?_
  exact h

theorem State.setLen_keeps {s0 : State} {x0 : State} {x1 : SeqD} {x2 : Nat} (h : Keeps s0 x0) :
    Keeps s0 (State.setLen x0 x1 x2) := by
  unfold State.setLen
  refine State.writeMem_keeps ?_
  exact h

theorem State.setDropped_keeps {s0 : State} {x0 : State} {x1 : SeqD} {x2 : Nat} (h : Keeps s0 x0) :
    Keeps s0 (State.setDropped x0 x1 x2) := by
  unfold State.setDropped
  refine State.writeMem_keeps ?_
  exact h

theorem State.withSeqs_keeps {s0 : State} {x0 : State} {x1 : CmdRef} {x2 : Nat} {x3 : List Nat} {x4 : State → List SeqD → State} (h : Keeps s0 x0) (k4 : ∀ {y0 y1}, Keeps s0 y0 → Keeps s0 (x4 y0 y1)) :
    Keeps s0 (State.withSeqs x0 x1 x2 x3 x4) := by
  unfold State.withSeqs
  split
  · refine State.finish_keeps ?_
    exact h
  · refine State.readingThen_keeps ?_ ?_
    · exact h
    · intro b1 b2
      split
      · refine State.finish_keeps ?_
        exact b2
      · extract_lets +onlyGivenNames a1
        refine State.readingThen_keeps ?_ ?_
        · exact b2
        · intro b3 b4
          refine k4 ?_
          exact b4

theorem State.withSeq_keeps {s0 : State} {x0 : State} {x1 : Cmd} {x2 : Nat} {x3 : State → SeqD → State} (h : Keeps s0 x0) (k3 : ∀ {y0 y1}, Keeps s0 y0 → Keeps s0 (x3 y0 y1)) :
    Keeps s0 (State.withSeq x0 x1 x2 x3) := by
  unfold State.withSeq
  refine State.withSeqs_keeps ?_ ?_
  · exact h
  · intro b1 b2 b3
    split
    · refine k3 ?_
      exact b3
    · exact b3

theorem State.dropPage_keeps {s0 : State} {x0 : State} {x1 : Nat} {x2 : Pool} {x3 : Nat} (h : Keeps s0 x0) :
    Keeps s0 (State.dropPage x0 x1 x2 x3) := by
  unfold State.dropPage
  extract_lets +onlyGivenNames a1
  extract_lets +onlyGivenNames a2
  have ka2 : Keeps s0 a2 := by
    unfold a2
    split
    · split
      · extract_lets +onlyGivenNames a3
        have ka3 : Keeps s0 a3 := by
          unfold a3
          refine State.setEntry_keeps ?_
          exact h
        split
        · refine State.setDropped_keeps ?_
          exact ka3
        · with_reducible assumption
      · with_reducible assumption
    · with_reducible assumption
  refine State.incWrap_keeps ?_
  refine State.setPage_keeps ?_
  exact ka2

theorem State.allocPages_keeps {s0 : State} {x0 : State} {x1 : Nat} {x2 : Pool} {x3 : Nat} (h : Keeps s0 x0) :
    Keeps s0 (State.allocPages x0 x1 x2 x3).1 := by
  induction x3 generalizing x0 with
  | zero =>
    unfold State.allocPages
    with_reducible assumption
  | succ n ih =>
    unfold State.allocPages
    extract_lets +onlyGivenNames a2
    have ka2 : Keeps s0 a2 := by
      unfold a2
      split
      · with_reducible assumption
      · split
        · refine State.dropPage_keeps ?_
          exact h
        · with_reducible assumption
    split
    · extract_lets +onlyGivenNames a3
      have ka3 : Keeps s0 a3 := by
        unfold a3
        refine State.setPage_keeps ?_
        exact ka2
      refine ih ?_
      exact ka3
    · with_reducible assumption

theorem State.dropPool_keeps {s0 : State} {x0 : State} {x1 : Nat} {x2 : Pool} (h : Keeps s0 x0) :
    Keeps s0 (State.dropPool x0 x1 x2) := by
  unfold State.dropPool
  extract_lets +onlyGivenNames a1
  extract_lets +onlyGivenNames a2
  have ka2 : Keeps s0 a2 := by
    unfold a2
    refine State.setVec_keeps ?_
    exact h
  extract_lets +onlyGivenNames a3
  have ka3 : Keeps s0 a3 := by
    unfold a3
    refine State.setR_keeps ?_
    exact ka2
  refine State.sendHint_keeps ?_
  exact ka3

theorem execPoolCfg_keeps {s0 : State} {x0 : CmdRef} {x1 : State} (h : Keeps s0 x1) :
    KeepsO s0 (execPoolCfg x0 x1) := by
  unfold execPoolCfg
  refine Keeps.next ?_
  refine State.runUnit_keeps ?_ ?_
  · exact h
  · intro b1
    extract_lets +onlyGivenNames a1
    extract_lets +onlyGivenNames a2
    split
    · clear_value a2
      split
      · refine State.finish_keeps ?_
        exact h
      · extract_lets +onlyGivenNames a2
        have ka2 : Keeps s0 a2 := by
          unfold a2
          refine State.dropPool_keeps ?_
          exact h
        split
        · refine State.finish_keeps ?_
          exact ka2
        · extract_lets +onlyGivenNames a3
          split
          · refine State.finish_keeps ?_
            exact h
          · extract_lets +onlyGivenNames a4
            have ka4 : Keeps s0 a4 := by
              unfold a4
              refine State.writeMem_keeps ?_
              exact ka2
            extract_lets +onlyGivenNames a5
            extract_lets +onlyGivenNames a6
            have ka6 : Keeps s0 a6 := by
              unfold a6
              refine State.setVec_keeps ?_
              exact ka4
            extract_lets +onlyGivenNames a7
            have ka7 : Keeps s0 a7 := by
              unfold a7
              refine State.setR_keeps ?_
              exact ka6
            extract_lets +onlyGivenNames a8
            have ka8 : Keeps s0 a8 := by
              unfold a8
              refine State.setFld_keeps ?_
              exact ka7
            extract_lets +onlyGivenNames a9
            refine State.sendHint_keeps ?_
            refine State.phaseCmd_keeps ?_
            refine State.wrote_keeps ?_
            exact ka8
    · clear_value a2
      split
      · refine State.finish_keeps ?_
        exact h
      · extract_lets +onlyGivenNames a2
        have ka2 : Keeps s0 a2 := by
          unfold a2
          exact h
        split
        · refine State.finish_keeps ?_
          exact ka2
        · extract_lets +onlyGivenNames a3
          split
          · refine State.finish_keeps ?_
            exact h
          · extract_lets +onlyGivenNames a4
            have ka4 : Keeps s0 a4 := by
              unfold a4
              refine State.writeMem_keeps ?_
              exact ka2
            extract_lets +onlyGivenNames a5
            extract_lets +onlyGivenNames a6
            have ka6 : Keeps s0 a6 := by
              unfold a6
              refine State.setVec_keeps ?_
              exact ka4
            extract_lets +onlyGivenNames a7
            have ka7 : Keeps s0 a7 := by
              unfold a7
              refine State.setR_keeps ?_
              exact ka6
            extract_lets +onlyGivenNames a8
            have ka8 : Keeps s0 a8 := by
              unfold a8
              refine State.setFld_keeps ?_
              exact ka7
            extract_lets +onlyGivenNames a9
            refine State.sendHint_keeps ?_
            refine State.phaseCmd_keeps ?_
            refine State.wrote_keeps ?_
            exact ka8

theorem State.copyPage_keeps {s0 : State} {x0 : State} {x1 : Pool} {x2 : Nat} {x3 : Nat} {x4 : List Nat} (h : Keeps s0 x0) :
    Keeps s0 (State.copyPage x0 x1 x2 x3 x4) := by
  unfold State.copyPage
  extract_lets +onlyGivenNames a1
  have ka1 : Keeps s0 a1 := by
    unfold a1
    refine State.pinPage_keeps ?_
    exact h
  split
  · refine Keeps.foldl ?_ ?_
    · intro b1 b2 b3
      extract_lets +onlyGivenNames a2
      extract_lets +onlyGivenNames a3
      have ka3 : Keeps s0 a3 := by
        unfold a3
        refine State.writeMem_keeps ?_
        exact b3
      refine State.writeMem_keeps ?_
      exact ka3
    · exact ka1
  · exact ka1

theorem State.kvTake_keeps {s0 : State} {x0 : State} {x1 : Nat} {x2 : Cmd} {x3 : Pool} {x4 : SeqD} {x5 : Nat} {x6 : Option Nat} (h : Keeps s0 x0) :
    Keeps s0 (State.kvTake x0 x1 x2 x3 x4 x5 x6) := by
  unfold State.kvTake
  split
  extract_lets +onlyGivenNames a1
  have ka1 : Keeps s0 a1 := by
    unfold a1
    split
    · refine State.copyPage_keeps ?_
      refine Keeps.of1 ‹_› ?_
      refine State.allocPages_keeps ?_
      exact h
    · refine Keeps.of1 ‹_› ?_
      refine State.allocPages_keeps ?_
      exact h
  refine State.modCmd_keeps ?_
  exact ka1

theorem State.kvIssue_keeps {s0 : State} {x0 : State} {x1 : Nat} {x2 : Cmd} (h : Keeps s0 x0) :
    Keeps s0 (State.kvIssue x0 x1 x2) := by
  unfold State.kvIssue
  extract_lets +onlyGivenNames a1
  extract_lets +onlyGivenNames a2
  refine State.withSeq_keeps ?_ ?_
  · exact h
  · intro b1 b2 b3
    split
    · refine State.finish_keeps ?_
      exact b3
    · split
      · refine State.finish_keeps ?_
        exact b3
      · split
        · refine State.finish_keeps ?_
          exact b3
        · split
          · extract_lets +onlyGivenNames a3
            split
            · refine State.finish_keeps ?_
              exact b3
            · split
              · refine State.finish_keeps ?_
                exact b3
              · split
                · refine State.finish_keeps ?_
                  exact b3
                · refine State.kvTake_keeps ?_
                  exact b3
          · extract_lets +onlyGivenNames a3
            extract_lets +onlyGivenNames a4
            split
            · refine State.finish_keeps ?_
              exact b3
            · split
              · refine State.finish_keeps ?_
                exact b3
              · extract_lets +onlyGivenNames a5
                extract_lets +onlyGivenNames a6
                extract_lets +onlyGivenNames a7
                extract_lets +onlyGivenNames a8
                split
                · refine State.finish_keeps ?_
                  exact b3
                · refine State.kvTake_keeps ?_
                  exact b3

theorem State.writeTokens_keeps {s0 : State} {x0 : State} {x1 : CmdRef} {x2 : Cmd} {x3 : Pool} {x4 : Nat → Nat × Nat} (h : Keeps s0 x0) :
    Keeps s0 (State.writeTokens x0 x1 x2 x3 x4).1 := by
  have one : ∀ (st : State × NumFlags) (d : Td) (v : Bool) (f : Fmt) (e : Nat), Keeps s0 st.1 → Keeps s0 ((List.range x3.hkv).foldl (fun (st : State × NumFlags) h => (List.range e).foldl (fun (st : State × NumFlags) i =>
      let (img, fl, cn) := f.encodeRow 0 (fun _ => .one) ((x0.rowElems x2 d i h 0).map (·.val))
      let (pg, slot) := x4 i
      let n := x3.d * x3.elem
      ((st.1.writeMem (x3.elemAt pg v h slot 0) (img % 2 ^ (8 * n)) n).modCmd x1 (fun x => x.addCounts (16 + x3.fmt) cn), st.2.or fl)) st) st).1 := by
    intro st d v f e k
    refine Keeps.foldl1 ?_ k
    intro t b i k
    refine Keeps.foldl1 ?_ k
    intro t b j k
    exact State.modCmd_keeps (State.writeMem_keeps k)
  exact one _ _ _ _ _ (one _ _ _ _ _ h)

theorem State.kvAbandon_keeps {s0 : State} {x0 : State} {x1 : CmdRef} (h : Keeps s0 x0) :
    Keeps s0 (State.kvAbandon x0 x1) := by
  unfold State.kvAbandon
  split
  · split
    · extract_lets +onlyGivenNames a1
      have ka1 : Keeps s0 a1 := by
        unfold a1
        refine Keeps.foldl ?_ ?_
        · intro b1 b2 b3
          refine State.setPage_keeps ?_
          exact b3
        · exact h
      split
      · refine State.unpinPage_keeps ?_
        exact ka1
      · exact ka1
    · exact h
  · exact h

theorem State.attCorr_keeps {s0 : State} {x0 : Nat} {x1 : State} {x2 : Nat} (h : Keeps s0 x1) :
    Keeps s0 (State.attCorr x0 x1 x2) := by
  unfold State.attCorr
  refine State.incWrap_keeps ?_
  exact h

theorem execKvAppend_keeps {s0 : State} {x0 : CmdRef} {x1 : BufEvents} {x2 : State} (h : Keeps s0 x2) :
    KeepsO s0 (execKvAppend x0 x1 x2) := by
  unfold execKvAppend
  refine Keeps.next ?_
  refine State.runUnit_keeps ?_ ?_
  · exact h
  · intro b1
    extract_lets +onlyGivenNames a1
    split
    · extract_lets +onlyGivenNames a2
      extract_lets +onlyGivenNames a3
      extract_lets +onlyGivenNames a4
      extract_lets +onlyGivenNames a5
      split
      · extract_lets +onlyGivenNames a6
        have ka6 : Keeps s0 a6 := by
          unfold a6
          refine State.kvAbandon_keeps ?_
          exact h
        refine State.readingThen_keeps ?_ ?_
        · exact ka6
        · intro b2 b3
          refine State.withBuf_keeps ?_ ?_ ?_
          · exact b3
          · intro b4 b5 b6
            refine State.attCorr_keeps ?_
            exact b6
          · intro b4 b5
            dsimp -zeta only [id]
            exact b5
      · refine State.readingThen_keeps ?_ ?_
        · exact h
        · intro b2 b3
          refine State.withBuf_keeps ?_ ?_ ?_
          · exact b3
          · intro b4 b5 b6
            refine State.attCorr_keeps ?_
            exact b6
          · intro b4 b5
            extract_lets +onlyGivenNames a6
            extract_lets +onlyGivenNames a7
            extract_lets +onlyGivenNames a8
            extract_lets +onlyGivenNames a9
            extract_lets +onlyGivenNames a10
            split
            extract_lets +onlyGivenNames a11
            have ka11 : Keeps s0 a11 := by
              unfold a11
              refine State.wrote_keeps ?_
              refine State.orFlags_keeps ?_
              refine Keeps.of1 ‹_› ?_
              refine State.writeTokens_keeps ?_
              refine State.countOperand_keeps ?_
              refine State.countOperand_keeps ?_
              exact b5
            extract_lets +onlyGivenNames a12
            have ka12 : Keeps s0 a12 := by
              unfold a12
              refine Keeps.foldl ?_ ?_
              · intro b6 b7 b8
                split
                · exact b8
                · refine State.setEntry_keeps ?_
                  exact b8
              · exact ka11
            extract_lets +onlyGivenNames a13
            have ka13 : Keeps s0 a13 := by
              unfold a13
              refine Keeps.foldl ?_ ?_
              · intro b6 b7 b8
                refine State.modPage_keeps ?_
                exact b8
              · exact ka12
            extract_lets +onlyGivenNames a14
            have ka14 : Keeps s0 a14 := by
              unfold a14
              split
              · refine State.setDropped_keeps ?_
                exact ka13
              · refine State.setLen_keeps ?_
                exact ka13
            extract_lets +onlyGivenNames a15
            have ka15 : Keeps s0 a15 := by
              unfold a15
              split
              · refine State.decRef_keeps ?_
                refine State.unpinPage_keeps ?_
                exact ka14
              · exact ka14
            refine State.finish_keeps ?_
            exact ka15
    · exact h

theorem execPageCopy_keeps {s0 : State} {x0 : CmdRef} {x1 : State} (h : Keeps s0 x1) :
    KeepsO s0 (execPageCopy x0 x1) := by
  unfold execPageCopy
  refine Keeps.next ?_
  refine State.runUnit_keeps ?_ ?_
  · exact h
  · intro b1
    refine State.withSeq_keeps ?_ ?_
    · exact h
    · intro b2 b3 b4
      refine State.withSeq_keeps ?_ ?_
      · exact b4
      · intro b5 b6 b7
        split
        · refine State.finish_keeps ?_
          exact b7
        · extract_lets +onlyGivenNames a1
          split
          · refine State.finish_keeps ?_
            exact b7
          · split
            · refine State.finish_keeps ?_
              exact b7
            · split
              · refine State.finish_keeps ?_
                exact b7
              · split
                · refine State.finish_keeps ?_
                  exact b7
                · extract_lets +onlyGivenNames a2
                  have ka2 : Keeps s0 a2 := by
                    unfold a2
                    refine Keeps.foldl ?_ ?_
                    · intro b8 b9 b10
                      refine State.modPage_keeps ?_
                      refine State.setEntry_keeps ?_
                      exact b10
                    · exact b7
                  refine State.finish_keeps ?_
                  refine State.wrote_keeps ?_
                  refine State.setLen_keeps ?_
                  exact ka2

theorem execPageFree_keeps {s0 : State} {x0 : CmdRef} {x1 : State} (h : Keeps s0 x1) :
    KeepsO s0 (execPageFree x0 x1) := by
  unfold execPageFree
  refine Keeps.next ?_
  refine State.runUnit_keeps ?_ ?_
  · exact h
  · intro b1
    extract_lets +onlyGivenNames a1
    refine State.withSeq_keeps ?_ ?_
    · exact h
    · intro b2 b3 b4
      split
      · refine State.finish_keeps ?_
        exact b4
      · extract_lets +onlyGivenNames a2
        extract_lets +onlyGivenNames a3
        split
        · extract_lets +onlyGivenNames a4
          have ka4 : Keeps s0 a4 := by
            unfold a4
            refine Keeps.foldl ?_ ?_
            · intro b5 b6 b7
              refine State.decRef_keeps ?_
              refine State.modPage_keeps ?_
              exact b7
            · exact b4
          extract_lets +onlyGivenNames a5
          have ka5 : Keeps s0 a5 := by
            unfold a5
            refine State.setLen_keeps ?_
            exact ka4
          extract_lets +onlyGivenNames a6
          have ka6 : Keeps s0 a6 := by
            unfold a6
            split
            · refine State.setDropped_keeps ?_
              exact ka5
            · exact ka5
          refine State.finish_keeps ?_
          refine State.wrote_keeps ?_
          exact ka6
        · extract_lets +onlyGivenNames a4
          have ka4 : Keeps s0 a4 := by
            unfold a4
            refine Keeps.foldl ?_ ?_
            · intro b5 b6 b7
              refine State.modPage_keeps ?_
              exact b7
            · exact b4
          refine State.finish_keeps ?_
          refine State.wrote_keeps ?_
          exact ka4

theorem State.attnPin_keeps {s0 : State} {x0 : State} {x1 : Nat} {x2 : Cmd} {x3 : State → State} (h : Keeps s0 x0) (k3 : ∀ {y0}, Keeps s0 y0 → Keeps s0 (x3 y0)) :
    Keeps s0 (State.attnPin x0 x1 x2 x3) := by
  unfold State.attnPin
  extract_lets +onlyGivenNames a2
  extract_lets +onlyGivenNames a3
  refine State.readingThen_keeps ?_ ?_
  · exact h
  · intro b1 b2
    refine State.withSeqs_keeps ?_ ?_
    · exact b2
    · intro b3 b4 b5
      split
      · refine State.finish_keeps ?_
        exact b5
      · split
        · refine State.finish_keeps ?_
          exact b5
        · split
          · refine State.finish_keeps ?_
            exact b5
          · split
            · refine State.finish_keeps ?_
              exact b5
            · split
              · refine State.finish_keeps ?_
                exact b5
              · split
                · refine State.finish_keeps ?_
                  exact b5
                · extract_lets +onlyGivenNames a4
                  extract_lets +onlyGivenNames a5
                  have ka5 : Keeps s0 a5 := by
                    unfold a5
                    refine Keeps.foldl ?_ ?_
                    · intro b6 b7 b8
                      refine State.pinPage_keeps ?_
                      exact b8
                    · exact b5
                  refine k3 ?_
                  refine State.modCmd_keeps ?_
                  exact ka5

theorem State.attnUnpin_keeps {s0 : State} {x0 : State} {x1 : CmdRef} (h : Keeps s0 x0) :
    Keeps s0 (State.attnUnpin x0 x1) := by
  unfold State.attnUnpin
  split
  · split
    · refine State.modCmd_keeps ?_
      refine Keeps.foldl ?_ ?_
      · intro b1 b2 b3
        refine State.unpinPage_keeps ?_
        exact b3
      · exact h
    · exact h
  · exact h

theorem State.countPages_keeps {s0 : State} {x0 : State} {x1 : CmdRef} {x2 : Cmd} {x3 : Pool} (h : Keeps s0 x0) :
    Keeps s0 (State.countPages x0 x1 x2 x3) := by
  unfold State.countPages
  refine Keeps.foldl ?_ ?_
  · intro b1 b2 b3
    refine Keeps.foldl ?_ ?_
    · intro b4 b5 b6
      refine Keeps.foldl ?_ ?_
      · intro b7 b8 b9
        refine State.modCmd_keeps ?_
        exact b9
      · exact b6
    · exact b3
  · exact h

theorem State.attnRun_keeps {s0 : State} {x0 : State} {x1 : CmdRef} {x2 : Cmd} {x3 : Option Pool} (h : Keeps s0 x0) :
    Keeps s0 (State.attnRun x0 x1 x2 x3) := by
  unfold State.attnRun
  extract_lets +onlyGivenNames a2
  extract_lets +onlyGivenNames a3
  extract_lets +onlyGivenNames a4
  extract_lets +onlyGivenNames a5
  extract_lets +onlyGivenNames a6
  extract_lets +onlyGivenNames a7
  extract_lets +onlyGivenNames a8
  extract_lets +onlyGivenNames a9
  extract_lets +onlyGivenNames a10
  have ka10 : Keeps s0 a10 := by
    unfold a10
    exact h
  extract_lets +onlyGivenNames a11
  have ka11 : Keeps s0 a11 := by
    unfold a11
    refine State.countOperand_keeps ?_
    exact h
  extract_lets +onlyGivenNames a12
  have ka12 : Keeps s0 a12 := by
    unfold a12
    split
    · refine State.countPages_keeps ?_
      exact ka11
    · refine State.countOperand_keeps ?_
      refine State.countOperand_keeps ?_
      exact ka11
  split
  refine State.finish_keeps ?_
  refine State.account_keeps ?_
  refine State.orFlags_keeps ?_
  refine Keeps.of1 ‹_› ?_
  refine Keeps.foldl1 ?_ ?_
  · intro b1 b2 b3 b4
    split
    extract_lets +onlyGivenNames a13
    extract_lets +onlyGivenNames a14
    extract_lets +onlyGivenNames a15
    split
    split
    split
    refine Keeps.fst ?_
    refine Keeps.of1 ‹_› ?_
    refine State.writeRow_keeps ?_
    refine Keeps.of1 ‹_› ?_
    refine State.writeRow_keeps ?_
    with_reducible assumption
  · with_reducible assumption

theorem State.attnGo_keeps {s0 : State} {x0 : State} {x1 : CmdRef} {x2 : BufEvents} {x3 : Cmd} (h : Keeps s0 x0) :
    Keeps s0 (State.attnGo x0 x1 x2 x3) := by
  unfold State.attnGo
  extract_lets +onlyGivenNames a2
  extract_lets +onlyGivenNames a3
  extract_lets +onlyGivenNames a4
  extract_lets +onlyGivenNames a5
  refine State.readingThen_keeps ?_ ?_
  · exact h
  · intro b1 b2
    refine State.withBuf_keeps ?_ ?_ ?_
    · exact b2
    · intro b3 b4 b5
      refine State.attCorr_keeps ?_
      exact b5
    · intro b3 b4
      refine State.attnRun_keeps ?_
      exact b4

theorem execAttnFwd_keeps {s0 : State} {x0 : CmdRef} {x1 : BufEvents} {x2 : State} (h : Keeps s0 x2) :
    KeepsO s0 (execAttnFwd x0 x1 x2) := by
  unfold execAttnFwd
  refine Keeps.next ?_
  refine State.runUnit_keeps ?_ ?_
  · exact h
  · intro b1
    extract_lets +onlyGivenNames a1
    have ka1 : Keeps s0 a1 := by
      unfold a1
      split
      · refine State.attnPin_keeps ?_ ?_
        · exact h
        · intro b2 b3
          split
          · refine State.attnGo_keeps ?_
            exact b3
          · exact b3
      · refine State.attnGo_keeps ?_
        exact h
    refine State.attnUnpin_keeps ?_
    exact ka1

theorem execAttnBwd_keeps {s0 : State} {x0 : CmdRef} {x1 : BufEvents} {x2 : State} (h : Keeps s0 x2) :
    KeepsO s0 (execAttnBwd x0 x1 x2) := by
  unfold execAttnBwd
  refine Keeps.next ?_
  refine State.runUnit_keeps ?_ ?_
  · exact h
  · intro b1
    extract_lets +onlyGivenNames a1
    extract_lets +onlyGivenNames a2
    extract_lets +onlyGivenNames a3
    extract_lets +onlyGivenNames a4
    extract_lets +onlyGivenNames a5
    extract_lets +onlyGivenNames a6
    extract_lets +onlyGivenNames a7
    extract_lets +onlyGivenNames a8
    extract_lets +onlyGivenNames a9
    extract_lets +onlyGivenNames a10
    refine State.readingThen_keeps ?_ ?_
    · exact h
    · intro b2 b3
      refine State.withBuf_keeps ?_ ?_ ?_
      · exact b3
      · intro b4 b5 b6
        refine State.attCorr_keeps ?_
        exact b6
      · intro b4 b5
        extract_lets +onlyGivenNames a11
        have ka11 : Keeps s0 a11 := by
          unfold a11
          exact b5
        extract_lets +onlyGivenNames a12
        have ka12 : Keeps s0 a12 := by
          unfold a12
          refine Keeps.foldl ?_ ?_
          · intro b6 b7 b8
            refine State.countOperand_keeps ?_
            exact b8
          · exact b5
        split
        refine State.finish_keeps ?_
        refine State.account_keeps ?_
        refine State.orFlags_keeps ?_
        refine Keeps.of1 ‹_› ?_
        refine Keeps.foldl1 ?_ ?_
        · intro b6 b7 b8 b9
          refine Keeps.foldl1 ?_ ?_
          · intro b10 b11 b12 b13
            extract_lets +onlyGivenNames a13
            extract_lets +onlyGivenNames a14
            extract_lets +onlyGivenNames a15
            have ka15 : Keeps s0 a15.fst := by
              unfold a15
              refine Keeps.foldl1 ?_ ?_
              · intro b14 b15 b16 b17
                refine Keeps.foldl1 ?_ ?_
                · intro b18 b19 b20 b21
                  split
                  split
                  refine Keeps.fst ?_
                  refine Keeps.of1 ‹_› ?_
                  refine State.writeRow_keeps ?_
                  with_reducible assumption
                · with_reducible assumption
              · with_reducible assumption
            refine Keeps.foldl1 ?_ ?_
            · intro b14 b15 b16 b17
              split
              split
              split
              split
              refine Keeps.fst ?_
              refine Keeps.of1 ‹_› ?_
              refine State.writeRow_keeps ?_
              refine Keeps.of1 ‹_› ?_
              refine State.writeRow_keeps ?_
              with_reducible assumption
            · exact ka15
          · with_reducible assumption
        · with_reducible assumption

theorem State.sendJLine_keeps {s0 : State} {x0 : State} {x1 : Nat} (h : Keeps s0 x0) :
    Keeps s0 (State.sendJLine x0 x1) := by
  unfold State.sendJLine
  refine Keeps.upd ?_
  exact h

theorem State.setJState_keeps {s0 : State} {x0 : State} {x1 : Nat} {x2 : Nat} {x3 : Nat} (h : Keeps s0 x0) :
    Keeps s0 (State.setJState x0 x1 x2 x3) := by
  unfold State.setJState
  extract_lets +onlyGivenNames a1
  extract_lets +onlyGivenNames a2
  extract_lets +onlyGivenNames a3
  refine State.sendJLine_keeps ?_
  refine State.writeMem_keeps ?_
  exact h

theorem State.jMark_keeps {s0 : State} {x0 : State} {x1 : Nat} {x2 : Nat} {x3 : Bool} (h : Keeps s0 x0) :
    Keeps s0 (State.jMark x0 x1 x2 x3) := by
  unfold State.jMark
  extract_lets +onlyGivenNames a1
  extract_lets +onlyGivenNames a2
  extract_lets +onlyGivenNames a3
  extract_lets +onlyGivenNames a4
  refine State.writeMem_keeps ?_
  exact h

theorem State.jNew_keeps {s0 : State} {x0 : State} {x1 : Nat} {x2 : Nat} {x3 : Cmd} (h : Keeps s0 x0) :
    Keeps s0 (State.jNew x0 x1 x2 x3) := by
  unfold State.jNew
  extract_lets +onlyGivenNames a1
  refine State.sendJLine_keeps ?_
  refine State.writeMem_keeps ?_
  exact h

theorem execAccWrite_keeps {s0 : State} {x0 : CmdRef} {x1 : State} (h : Keeps s0 x1) :
    KeepsO s0 (execAccWrite x0 x1) := by
  unfold execAccWrite
  refine Keeps.next ?_
  refine State.runUnit_keeps ?_ ?_
  · exact h
  · intro b1
    extract_lets +onlyGivenNames a1
    extract_lets +onlyGivenNames a2
    split
    · refine State.finish_keeps ?_
      exact h
    · refine State.readingThen_keeps ?_ ?_
      · exact h
      · intro b2 b3
        refine State.withHints_keeps ?_ ?_
        · exact b3
        · intro b4 b5
          extract_lets +onlyGivenNames a3
          have ka3 : Keeps s0 a3 := by
            unfold a3
            exact b5
          extract_lets +onlyGivenNames a4
          extract_lets +onlyGivenNames a5
          have ka5 : Keeps s0 a5 := by
            unfold a5
            refine Keeps.foldl ?_ ?_
            · intro b6 b7 b8
              refine State.modCmd_keeps ?_
              exact b8
            · exact b5
          split
          extract_lets +onlyGivenNames a6
          have ka6 : Keeps s0 a6 := by
            unfold a6
            refine State.prof_keeps ?_
            refine State.account_keeps ?_
            refine Keeps.of1 ‹_› ?_
            refine State.pushLines_keeps ?_
            exact ka5
          refine State.modCmd_keeps ?_
          refine State.prof_keeps ?_
          exact ka6

theorem State.lineAdded_keeps {s0 : State} {x0 : State} {x1 : CmdRef} (h : Keeps s0 x0) :
    Keeps s0 (State.lineAdded x0 x1) := by
  unfold State.lineAdded
  extract_lets +onlyGivenNames a1
  have ka1 : Keeps s0 a1 := by
    unfold a1
    refine State.modCmd_keeps ?_
    exact h
  split
  · split
    · refine State.finish_keeps ?_
      exact ka1
    · refine State.settleMat_keeps ?_
      exact ka1
    · exact ka1
  · exact ka1

theorem execAccWriteLine_keeps {s0 : State} {x0 : Fin 32} {x1 : State} (h : Keeps s0 x1) :
    KeepsO s0 (execAccWriteLine x0 x1) := by
  unfold execAccWriteLine
  extract_lets +onlyGivenNames a1
  split
  · refine Keeps.next ?_
    exact h
  · split
    · refine Keeps.next ?_
      exact h
    · split
      · refine Keeps.next ?_
        refine State.noteCmd_keeps ?_
        exact h
      · extract_lets +onlyGivenNames a2
        extract_lets +onlyGivenNames a3
        have ka3 : Keeps s0 a3 := by
          unfold a3
          refine State.setUpd_keeps ?_
          exact h
        extract_lets +onlyGivenNames a4
        extract_lets +onlyGivenNames a5
        have ka5 : Keeps s0 a5 := by
          unfold a5
          refine State.readBursts_keeps ?_
          refine State.scrubFirst_keeps ?_
          exact ka3
        extract_lets +onlyGivenNames a6
        have ka6 : Keeps s0 a6 := by
          unfold a6
          split
          · refine State.mergeNote_keeps ?_
            exact ka5
          · split
            refine State.orFlags_keeps ?_
            refine Keeps.of1 ‹_› ?_
            refine Keeps.foldl1 ?_ ?_
            · intro b1 b2 b3 b4
              split
              refine Keeps.fst ?_
              refine State.putMem_keeps ?_
              with_reducible assumption
            · with_reducible assumption
        refine Keeps.next ?_
        refine State.settleQuars_keeps ?_
        refine State.lineAdded_keeps ?_
        refine State.prof_keeps ?_
        exact ka6

theorem execGradClear_keeps {s0 : State} {x0 : CmdRef} {x1 : State} (h : Keeps s0 x1) :
    KeepsO s0 (execGradClear x0 x1) := by
  unfold execGradClear
  refine Keeps.next ?_
  refine State.runUnit_keeps ?_ ?_
  · exact h
  · intro b1
    extract_lets +onlyGivenNames a1
    split
    · refine State.finish_keeps ?_
      exact h
    · refine State.finish_keeps ?_
      refine State.wrote_keeps ?_
      refine State.writeMem_keeps ?_
      exact h

theorem State.putMoment_keeps {s0 : State} {x0 : State} {x1 : Nat} {x2 : Td} {x3 : Nat} {x4 : List Val} (h : Keeps s0 x0) :
    Keeps s0 (State.putMoment x0 x1 x2 x3 x4).1 := by
  unfold State.putMoment
  split
  · refine Keeps.fst ?_
    refine State.writeMem_keeps ?_
    exact h
  · extract_lets +onlyGivenNames a1
    refine Keeps.fst ?_
    refine State.writeMem_keeps ?_
    exact h

theorem State.putCopy_keeps {s0 : State} {x0 : State} {x1 : Cmd} {x2 : List Val} (h : Keeps s0 x0) :
    Keeps s0 (State.putCopy x0 x1 x2).1 := by
  unfold State.putCopy
  split
  · refine State.writePart_keeps ?_
    exact h
  · with_reducible assumption

theorem State.addW64_keeps {s0 : State} {x0 : State} {x1 : Nat} {x2 : Val} (h : Keeps s0 x0) :
    Keeps s0 (State.addW64 x0 x1 x2).1 := by
  unfold State.addW64
  split
  refine Keeps.fst ?_
  refine State.writeMem_keeps ?_
  exact h

theorem State.addPartial_keeps {s0 : State} {x0 : State} {x1 : Ntel} {x2 : Nat} {x3 : Nat} {x4 : Val × NumFlags} {x5 : Val × NumFlags} (h : Keeps s0 x0) :
    Keeps s0 (State.addPartial x0 x1 x2 x3 x4 x5).1 := by
  unfold State.addPartial
  split
  · with_reducible assumption
  · extract_lets +onlyGivenNames a2
    split
    split
    refine Keeps.fst ?_
    refine Keeps.of1 ‹_› ?_
    refine State.addW64_keeps ?_
    refine Keeps.of1 ‹_› ?_
    refine State.addW64_keeps ?_
    exact h

theorem State.slice_keeps {s0 : State} {x0 : State} {x1 : Cmd} {x2 : Nat} {x3 : List Nat} {x4 : Nat} (h : Keeps s0 x0) :
    Keeps s0 (State.slice x0 x1 x2 x3 x4).1 := by
  unfold State.slice
  extract_lets +onlyGivenNames a1
  extract_lets +onlyGivenNames a2
  extract_lets +onlyGivenNames a3
  extract_lets +onlyGivenNames a4
  extract_lets +onlyGivenNames a5
  extract_lets +onlyGivenNames a6
  extract_lets +onlyGivenNames a7
  extract_lets +onlyGivenNames a8
  extract_lets +onlyGivenNames a9
  extract_lets +onlyGivenNames a10
  split
  extract_lets +onlyGivenNames a11
  extract_lets +onlyGivenNames a12
  extract_lets +onlyGivenNames a13
  extract_lets +onlyGivenNames a14
  extract_lets +onlyGivenNames a15
  extract_lets +onlyGivenNames a16
  have ka16 : Keeps s0 a16 := by
    unfold a16
    refine State.writeMem_keeps ?_
    exact h
  split
  split
  split
  extract_lets +onlyGivenNames a17
  extract_lets +onlyGivenNames a18
  extract_lets +onlyGivenNames a19
  extract_lets +onlyGivenNames a20
  split
  extract_lets +onlyGivenNames a21
  have ka21 : Keeps s0 a21 := by
    unfold a21
    refine State.orFlags_keeps ?_
    refine Keeps.of1 ‹_› ?_
    refine State.addPartial_keeps ?_
    refine Keeps.of1 ‹_› ?_
    refine State.putCopy_keeps ?_
    refine Keeps.of1 ‹_› ?_
    split
    · refine State.putMoment_keeps ?_
      refine Keeps.of1 ‹_› ?_
      refine State.putMoment_keeps ?_
      exact ka16
    · refine Keeps.fst ?_
      refine Keeps.of1 ‹_› ?_
      refine State.putMoment_keeps ?_
      exact ka16
  extract_lets +onlyGivenNames a22
  have ka22 : Keeps s0 a22 := by
    unfold a22
    refine State.prof_keeps ?_
    exact ka21
  with_reducible assumption

theorem State.updIssue_keeps {s0 : State} {x0 : State} {x1 : Cmd} (h : Keeps s0 x0) :
    Keeps s0 (State.updIssue x0 x1) := by
  unfold State.updIssue
  extract_lets +onlyGivenNames a1
  extract_lets +onlyGivenNames a2
  split
  · refine State.finish_keeps ?_
    exact h
  · split
    · refine State.finish_keeps ?_
      exact h
    · split
      · extract_lets +onlyGivenNames a3
        split
        · refine State.finish_keeps ?_
          exact h
        · refine State.finish_keeps ?_
          exact h
      · split
        · refine State.finish_keeps ?_
          exact h
        · extract_lets +onlyGivenNames a3
          extract_lets +onlyGivenNames a4
          extract_lets +onlyGivenNames a5
          split
          · refine State.finish_keeps ?_
            exact h
          · split
            extract_lets +onlyGivenNames a6
            have ka6 : Keeps s0 a6 := by
              unfold a6
              refine State.jNew_keeps ?_
              exact h
            extract_lets +onlyGivenNames a7
            have ka7 : Keeps s0 a7 := by
              unfold a7
              refine State.modCmd_keeps ?_
              exact ka6
            split
            · exact ka7
            · refine State.setUpd_keeps ?_
              exact ka7

theorem State.sliceDone_keeps {s0 : State} {x0 : State} {x1 : Nat} {x2 : CmdRef} (h : Keeps s0 x0) :
    Keeps s0 (State.sliceDone x0 x1 x2) := by
  unfold State.sliceDone
  refine State.settleQuars_keeps ?_
  refine State.setUpd_keeps ?_
  exact h

theorem State.sliceDamaged_keeps {s0 : State} {x0 : State} {x1 : Nat} {x2 : Nat} {x3 : CmdRef} {x4 : Nat} (h : Keeps s0 x0) :
    Keeps s0 (State.sliceDamaged x0 x1 x2 x3 x4) := by
  unfold State.sliceDamaged
  extract_lets +onlyGivenNames a1
  extract_lets +onlyGivenNames a2
  have ka2 : Keeps s0 a2 := by
    unfold a2
    refine State.report_keeps ?_
    exact h
  extract_lets +onlyGivenNames a3
  have ka3 : Keeps s0 a3 := by
    unfold a3
    refine State.report_keeps ?_
    exact ka2
  refine State.setJState_keeps ?_
  refine State.setFld_keeps ?_
  exact ka3

theorem runUpd_keeps {s0 : State} {x0 : CmdRef} {x1 : Nat} {x2 : BufEvents} {x3 : State} (h : Keeps s0 x3) :
    Keeps s0 (runUpd x0 x1 x2 x3) := by
  unfold runUpd
  refine State.runUnit_keeps ?_ ?_
  · exact h
  · intro b1
    split
    · extract_lets +onlyGivenNames a1
      split
      · exact h
      · extract_lets +onlyGivenNames a2
        extract_lets +onlyGivenNames a3
        have ka3 : Keeps s0 a3 := by
          unfold a3
          refine State.demand_keeps ?_
          exact h
        split
        · refine State.poisoned_keeps ?_
          refine State.sliceDone_keeps ?_
          refine State.setJState_keeps ?_
          exact ka3
        · extract_lets +onlyGivenNames a4
          have ka4 : Keeps s0 a4 := by
            unfold a4
            refine State.jMark_keeps ?_
            exact ka3
          extract_lets +onlyGivenNames a5
          have ka5 : Keeps s0 a5 := by
            unfold a5
            refine State.setJState_keeps ?_
            exact ka4
          split
          · refine State.finish_keeps ?_
            refine State.wrote_keeps ?_
            refine State.sliceDone_keeps ?_
            refine State.sliceDamaged_keeps ?_
            exact ka5
          · split
            extract_lets +onlyGivenNames a6
            have ka6 : Keeps s0 a6 := by
              unfold a6
              refine State.setJState_keeps ?_
              refine Keeps.of1 ‹_› ?_
              refine State.slice_keeps ?_
              exact ka5
            extract_lets +onlyGivenNames a7
            have ka7 : Keeps s0 a7 := by
              unfold a7
              split
              · refine State.noteCmd_keeps ?_
                exact ka6
              · exact ka6
            extract_lets +onlyGivenNames a8
            have ka8 : Keeps s0 a8 := by
              unfold a8
              refine State.modCmd_keeps ?_
              exact ka7
            refine State.finish_keeps ?_
            refine State.sliceDone_keeps ?_
            exact ka8
    · exact h

theorem execUpdAdamw_keeps {s0 : State} {x0 : CmdRef} {x1 : BufEvents} {x2 : State} (h : Keeps s0 x2) :
    KeepsO s0 (execUpdAdamw x0 x1 x2) := by
  unfold execUpdAdamw
  refine Keeps.next ?_
  refine runUpd_keeps ?_
  exact h

theorem execUpdSgdm_keeps {s0 : State} {x0 : CmdRef} {x1 : BufEvents} {x2 : State} (h : Keeps s0 x2) :
    KeepsO s0 (execUpdSgdm x0 x1 x2) := by
  unfold execUpdSgdm
  refine Keeps.next ?_
  refine runUpd_keeps ?_
  exact h

theorem execUpdSignm_keeps {s0 : State} {x0 : CmdRef} {x1 : BufEvents} {x2 : State} (h : Keeps s0 x2) :
    KeepsO s0 (execUpdSignm x0 x1 x2) := by
  unfold execUpdSignm
  refine Keeps.next ?_
  refine runUpd_keeps ?_
  exact h

theorem execCommitStep_keeps {s0 : State} {x0 : CmdRef} {x1 : State} (h : Keeps s0 x1) :
    KeepsO s0 (execCommitStep x0 x1) := by
  unfold execCommitStep
  refine Keeps.next ?_
  refine State.runUnit_keeps ?_ ?_
  · exact h
  · intro b1
    extract_lets +onlyGivenNames a1
    extract_lets +onlyGivenNames a2
    split
    · refine State.finish_keeps ?_
      exact h
    · extract_lets +onlyGivenNames a3
      have ka3 : Keeps s0 a3 := by
        unfold a3
        refine Keeps.foldl ?_ ?_
        · intro b2 b3 b4
          refine State.setJState_keeps ?_
          exact b4
        · exact h
      refine State.finish_keeps ?_
      refine State.wrote_keeps ?_
      refine Keeps.upd ?_
      exact ka3

theorem State.reconRecord_keeps {s0 : State} {x0 : State} {x1 : Cmd} {x2 : Nat} (h : Keeps s0 x0) :
    Keeps s0 (State.reconRecord x0 x1 x2) := by
  unfold State.reconRecord
  extract_lets +onlyGivenNames a1
  split
  · exact h
  · extract_lets +onlyGivenNames a2
    extract_lets +onlyGivenNames a3
    refine State.writeMem_keeps ?_
    exact h

theorem State.reconEnd_keeps {s0 : State} {x0 : State} {x1 : Cmd} {x2 : ReconWork} {x3 : Nat} {x4 : Nat} (h : Keeps s0 x0) :
    Keeps s0 (State.reconEnd x0 x1 x2 x3 x4) := by
  unfold State.reconEnd
  extract_lets +onlyGivenNames a1
  have ka1 : Keeps s0 a1 := by
    unfold a1
    refine State.reconRecord_keeps ?_
    exact h
  extract_lets +onlyGivenNames a2
  have ka2 : Keeps s0 a2 := by
    unfold a2
    split
    · refine State.wrote_keeps ?_
      exact ka1
    · exact ka1
  refine State.finish_keeps ?_
  exact ka2

/-- What a reconcile step answers keeps. -/
def KeepsR (s : State) : ReconStep → Prop
  | .done t _ => Keeps s t
  | .fail t _ _ => Keeps s t
  | .wait _ _ => True

theorem State.reconEntry_keeps {s0 x0 : State} {x1 : Cmd} {x2 x3 x4 : Nat} {x5 : BufEvents} (h : Keeps s0 x0) :
    KeepsR s0 (State.reconEntry x0 x1 x2 x3 x4 x5) := by
  unfold State.reconEntry
  extract_lets c e spans s u v w t
  have hs : Keeps s0 s := State.demand_keeps h
  have ht : Keeps s0 t := State.demand_keeps h
  split
  · split
    · exact State.setJState_keeps h
    · split
      · trivial
      · split
        · exact State.setJState_keeps hs
        · split
          have hu : Keeps s0 u := State.setJState_keeps (State.jMark_keeps hs)
          split
          · exact State.wrote_keeps (State.sliceDamaged_keeps hu)
          · have hv : Keeps s0 v := by
              unfold v
              split
              · exact State.noteCmd_keeps hu
              · exact hu
            split
            next e2 => exact State.addCensus_keeps (State.setJState_keeps (Keeps.of1 e2 (State.slice_keeps hv)))
  · split
    · exact ht
    · split
      next e2 =>
      have k := State.orFlags_keeps (x1 := .UPD_NUMFLAGS) (x2 := x3) (x3 := ‹NumFlags›) (Keeps.of1 e2 (State.putCopy_keeps ht))
      refine State.setJState_keeps ?_
      split
      · exact State.addCensus_keeps k
      · exact k

theorem State.recon_keeps {s0 : State} {x0 : State} {x1 : Cmd} {x2 : Nat} {x3 : Option (Nat × Nat)} {x4 : List BufEvents} {x5 : List (Nat × Nat)} (h : Keeps s0 x0) :
    Keeps s0 (State.recon x0 x1 x2 x3 x4 x5) := by
  induction x5 generalizing x0 x2 x3 x4 with
  | nil => exact State.reconEnd_keeps h
  | cons p l ih =>
    unfold State.recon
    have e0 := State.reconEntry_keeps (x1 := x1) (x2 := x1.f 0x1C 1) (x3 := p.1) (x4 := p.2) (x5 := x4.headD {}) h
    split
    · next t n e => rw [e] at e0; exact ih (State.account_keeps e0)
    · next t a b e => rw [e] at e0; exact ih e0
    · split
      · exact State.reconEnd_keeps h
      · exact State.modCmd_keeps h

theorem execStepReconcile_keeps {s0 : State} {x0 : CmdRef} {x1 : State} {x2 : List BufEvents} (h : Keeps s0 x1) :
    KeepsO s0 (execStepReconcile x0 x1 x2) := by
  unfold execStepReconcile
  refine Keeps.next ?_
  refine State.runUnit_keeps ?_ ?_
  · exact h
  · intro b1
    refine State.recon_keeps ?_
    exact h

theorem execEpochWaitEnd_keeps {s0 : State} {x0 : CmdRef} {x1 : State} {x2 : List BufEvents} (h : Keeps s0 x1) :
    KeepsO s0 (execEpochWaitEnd x0 x1 x2) := by
  unfold execEpochWaitEnd
  split
  · refine Keeps.next ?_
    exact h
  · split
    · refine Keeps.next ?_
      exact h
    · split
      · split
        · split
          · refine Keeps.next ?_
            exact h
          · extract_lets +onlyGivenNames a1
            have ka1 : Keeps s0 a1 := by
              unfold a1
              refine State.prof_keeps ?_
              exact h
            extract_lets +onlyGivenNames a2
            have ka2 : Keeps s0 a2 := by
              unfold a2
              refine State.modCmd_keeps ?_
              exact ka1
            refine Keeps.next ?_
            refine State.setUpd_keeps ?_
            exact ka2
        · refine Keeps.next ?_
          exact h
      · split
        · split
          · refine Keeps.next ?_
            exact h
          · refine Keeps.next ?_
            refine State.recon_keeps ?_
            exact h
        · refine Keeps.next ?_
          exact h
      · refine Keeps.next ?_
        exact h

theorem State.writeJrnl_keeps {s0 : State} {x0 : State} {x1 : Nat} {x2 : Nat} {x3 : Nat} (h : Keeps s0 x0) :
    Keeps s0 (State.writeJrnl x0 x1 x2 x3) := by
  unfold State.writeJrnl
  split
  · exact h
  · extract_lets +onlyGivenNames a1
    extract_lets +onlyGivenNames a2
    extract_lets +onlyGivenNames a3
    split
    · exact h
    · extract_lets +onlyGivenNames a4
      have ka4 : Keeps s0 a4 := by
        unfold a4
        refine State.putFields_keeps ?_
        exact h
      split
      · extract_lets +onlyGivenNames a5
        have ka5 : Keeps s0 a5 := by
          unfold a5
          refine Keeps.foldl ?_ ?_
          · intro b1 b2 b3
            refine State.writeMem_keeps ?_
            exact b3
          · exact ka4
        refine State.setUpd_keeps ?_
        exact ka5
      · exact ka4

theorem execUpdJrnlWrite_keeps {s0 : State} {x0 : Agent} {x1 : Fin 32} {x2 : Nat} {x3 : State} (h : Keeps s0 x3) :
    KeepsO s0 (execUpdJrnlWrite x0 x1 x2 x3) := by
  unfold execUpdJrnlWrite
  refine Keeps.next ?_
  split
  · refine State.writeJrnl_keeps ?_
    exact h
  · exact h

theorem State.flushScale_keeps {s0 : State} {x0 : State} {x1 : Nat} {x2 : Nat} {x3 : FlushSum} (h : Keeps s0 x0) :
    Keeps s0 (State.flushScale x0 x1 x2 x3).1 := by
  unfold State.flushScale
  extract_lets +onlyGivenNames a1
  extract_lets +onlyGivenNames a2
  extract_lets +onlyGivenNames a3
  split
  · extract_lets +onlyGivenNames a4
    extract_lets +onlyGivenNames a5
    split
    extract_lets +onlyGivenNames a6
    extract_lets +onlyGivenNames a7
    split
    · with_reducible assumption
    · with_reducible assumption
  · split
    · extract_lets +onlyGivenNames a4
      extract_lets +onlyGivenNames a5
      refine Keeps.foldl1 ?_ ?_
      · intro b1 b2 b3 b4
        extract_lets +onlyGivenNames a6
        split
        · with_reducible assumption
        · split
          · with_reducible assumption
          · refine Keeps.fst ?_
            refine State.writeMem_keeps ?_
            with_reducible assumption
      · with_reducible assumption
    · with_reducible assumption

theorem State.flushEntry_keeps {s0 : State} {x0 : State} {x1 : Cmd} {x2 : Nat} {x3 : Nat} {x4 : Nat} {x5 : FlushSum} (h : Keeps s0 x0) :
    Keeps s0 (State.flushEntry x0 x1 x2 x3 x4 x5).1 := by
  unfold State.flushEntry
  extract_lets +onlyGivenNames a1
  extract_lets +onlyGivenNames a2
  split
  · with_reducible assumption
  · extract_lets +onlyGivenNames a3
    extract_lets +onlyGivenNames a4
    split
    split
    extract_lets +onlyGivenNames a5
    have ka5 : Keeps s0 a5 := by
      unfold a5
      refine State.writeMem_keeps ?_
      refine State.writeMem_keeps ?_
      refine Keeps.of1 ‹_› ?_
      split
      · split
        split
        · refine Keeps.fst ?_
          refine State.traceAs_keeps ?_
          refine Keeps.of1 ‹_› ?_
          split
          · refine State.flushScale_keeps ?_
            exact h
          · with_reducible assumption
        · refine Keeps.fst ?_
          refine Keeps.of1 ‹_› ?_
          split
          · refine State.flushScale_keeps ?_
            exact h
          · with_reducible assumption
      · refine Keeps.fst ?_
        refine Keeps.of1 ‹_› ?_
        split
        · refine State.flushScale_keeps ?_
          exact h
        · with_reducible assumption
    refine Keeps.fst ?_
    split
    · refine State.writeMem_keeps ?_
      exact ka5
    · exact ka5

theorem State.flushUw_keeps {s0 : State} {x0 : State} {x1 : Cmd} {x2 : Nat} {x3 : Nat} {x4 : FlushSum} (h : Keeps s0 x0) :
    Keeps s0 (State.flushUw x0 x1 x2 x3 x4).1 := by
  unfold State.flushUw
  extract_lets +onlyGivenNames a1
  extract_lets +onlyGivenNames a2
  extract_lets +onlyGivenNames a3
  split
  split
  extract_lets +onlyGivenNames a4
  split
  extract_lets +onlyGivenNames a5
  extract_lets +onlyGivenNames a6
  extract_lets +onlyGivenNames a7
  extract_lets +onlyGivenNames a8
  have ka8 : Keeps s0 a8 := by
    unfold a8
    split
    · refine State.traceAs_keeps ?_
      exact h
    · exact h
  extract_lets +onlyGivenNames a9
  have ka9 : Keeps s0 a9 := by
    unfold a9
    refine State.writeMem_keeps ?_
    exact ka8
  with_reducible assumption

theorem State.flagSnap_keeps {s0 : State} {x0 : State} (h : Keeps s0 x0) :
    Keeps s0 (State.flagSnap x0).2 := by
  unfold State.flagSnap
  refine Keeps.foldl2 ?_ ?_
  · intro b1 b2 b3 b4
    extract_lets +onlyGivenNames a1
    refine Keeps.snd ?_
    refine State.setR_keeps ?_
    with_reducible assumption
  · with_reducible assumption

theorem execTelemetryFlush_keeps {s0 : State} {x0 : CmdRef} {x1 : State} (h : Keeps s0 x1) :
    KeepsO s0 (execTelemetryFlush x0 x1) := by
  unfold execTelemetryFlush
  refine Keeps.next ?_
  refine State.runUnit_keeps ?_ ?_
  · exact h
  · intro b1
    extract_lets +onlyGivenNames a1
    extract_lets +onlyGivenNames a2
    split
    · refine State.finish_keeps ?_
      exact h
    · extract_lets +onlyGivenNames a3
      extract_lets +onlyGivenNames a4
      refine State.readingThen_keeps ?_ ?_
      · exact h
      · intro b2 b3
        split
        split
        split
        extract_lets +onlyGivenNames a5
        have ka5 : Keeps s0 a5 := by
          unfold a5
          split
          · refine Keeps.foldl ?_ ?_
            · intro b4 b5 b6
              refine Keeps.foldl ?_ ?_
              · intro b7 b8 b9
                extract_lets +onlyGivenNames a6
                split
                · refine State.writeMem_keeps ?_
                  exact b9
                · exact b9
              · exact b6
            · refine Keeps.of1 ‹_› ?_
              refine Keeps.foldl1 ?_ ?_
              · intro b4 b5 b6 b7
                refine State.flushUw_keeps ?_
                with_reducible assumption
              · refine Keeps.fst ?_
                refine Keeps.of1 ‹_› ?_
                refine Keeps.foldl1 ?_ ?_
                · intro b4 b5 b6 b7
                  refine State.flushEntry_keeps ?_
                  with_reducible assumption
                · refine Keeps.fst ?_
                  refine Keeps.of2 ‹_› ?_
                  split
                  · refine State.flagSnap_keeps ?_
                    exact b3
                  · with_reducible assumption
          · refine Keeps.of1 ‹_› ?_
            refine Keeps.foldl1 ?_ ?_
            · intro b4 b5 b6 b7
              refine State.flushUw_keeps ?_
              with_reducible assumption
            · refine Keeps.fst ?_
              refine Keeps.of1 ‹_› ?_
              refine Keeps.foldl1 ?_ ?_
              · intro b4 b5 b6 b7
                refine State.flushEntry_keeps ?_
                with_reducible assumption
              · refine Keeps.fst ?_
                refine Keeps.of2 ‹_› ?_
                split
                · refine State.flagSnap_keeps ?_
                  exact b3
                · with_reducible assumption
        extract_lets +onlyGivenNames a6
        have ka6 : Keeps s0 a6 := by
          unfold a6
          refine State.orFlags_keeps ?_
          exact ka5
        extract_lets +onlyGivenNames a7
        extract_lets +onlyGivenNames a8
        have ka8 : Keeps s0 a8 := by
          unfold a8
          split
          · exact ka6
          · refine State.writeMem_keeps ?_
            exact ka6
        extract_lets +onlyGivenNames a9
        have ka9 : Keeps s0 a9 := by
          unfold a9
          refine State.incWrap_keeps ?_
          exact ka8
        extract_lets +onlyGivenNames a10
        extract_lets +onlyGivenNames a11
        have ka11 : Keeps s0 a11 := by
          unfold a11
          refine Keeps.upd ?_
          exact ka9
        extract_lets +onlyGivenNames a12
        have ka12 : Keeps s0 a12 := by
          unfold a12
          split
          · exact ka9
          · refine State.wire_keeps ?_
            exact ka11
        refine State.finish_keeps ?_
        refine State.wrote_keeps ?_
        exact ka12

end Sys2Proof.Machine
end

