-- ==== Sys2Proof/Laws/KeepsNet.lean ====
section
/-! SUPPORT. What the operations of Holds.lean, Collective.lean, Frames.lean, Network.lean, Roce.lean keep: one lemma each, by composition (Laws/Keeps.lean). -/
namespace Sys2Proof.Machine

theorem State.holdCmd_keeps {s0 : State} {x0 : State} {x1 : Cmd} (h : Keeps s0 x0) :
    Keeps s0 (State.holdCmd x0 x1) := by
  unfold State.holdCmd
  extract_lets +onlyGivenNames a1
  extract_lets +onlyGivenNames a2
  split
  · extract_lets +onlyGivenNames a3
    extract_lets +onlyGivenNames a4
    have ka4 : Keeps s0 a4 := by
      unfold a4
      refine Keeps.foldl ?_ ?_
      · intro b1 b2 b3
        extract_lets +onlyGivenNames a5
        extract_lets +onlyGivenNames a6
        extract_lets +onlyGivenNames a7
        refine State.setEngine_keeps ?_
        exact b3
      · exact h
    extract_lets +onlyGivenNames a5
    have ka5 : Keeps s0 a5 := by
      unfold a5
      refine State.releaseEngines_keeps ?_
      refine State.releaseFrames_keeps ?_
      exact ka4
    extract_lets +onlyGivenNames a6
    have ka6 : Keeps s0 a6 := by
      unfold a6
      refine State.freeSlots_keeps ?_
      exact ka5
    extract_lets +onlyGivenNames a7
    refine State.modCmd_keeps ?_
    exact ka6
  · refine State.modCmd_keeps ?_
    exact h

theorem State.applyHolds_keeps {s0 : State} {x0 : State} (h : Keeps s0 x0) :
    Keeps s0 (State.applyHolds x0) := by
  unfold State.applyHolds
  refine Keeps.foldl ?_ ?_
  · intro b1 b2 b3
    extract_lets +onlyGivenNames a2
    extract_lets +onlyGivenNames a3
    split
    · refine State.holdCmd_keeps ?_
      exact b3
    · exact b3
  · exact h

theorem State.placeHoldIn_keeps {s0 : State} {x0 : State} {x1 : Nat} {x2 : Nat} {x3 : Nat} (h : Keeps s0 x0) :
    Keeps s0 (State.placeHoldIn x0 x1 x2 x3) := by
  unfold State.placeHoldIn
  split
  · split
    · split
      · exact h
      · refine State.setHold_keeps ?_
        exact h
    · exact h
  · split
    · refine State.fatal_keeps ?_
      exact h
    · extract_lets +onlyGivenNames a1
      extract_lets +onlyGivenNames a2
      have ka2 : Keeps s0 a2 := by
        unfold a2
        exact h
      extract_lets +onlyGivenNames a3
      have ka3 : Keeps s0 a3 := by
        unfold a3
        refine State.aon_keeps ?_
        exact h
      extract_lets +onlyGivenNames a4
      have ka4 : Keeps s0 a4 := by
        unfold a4
        refine State.setHold_keeps ?_
        exact ka3
      extract_lets +onlyGivenNames a5
      have ka5 : Keeps s0 a5 := by
        unfold a5
        refine State.report_keeps ?_
        exact ka4
      extract_lets +onlyGivenNames a6
      have ka6 : Keeps s0 a6 := by
        unfold a6
        split
        · exact ka5
        · refine State.wire_keeps ?_
          refine State.report_keeps ?_
          exact ka5
      refine State.settleQuars_keeps ?_
      refine State.applyHolds_keeps ?_
      exact ka6

theorem State.placeHold_keeps {s0 : State} {x0 : State} {x1 : Nat} (h : Keeps s0 x0) :
    Keeps s0 (State.placeHold x0 x1) := by
  unfold State.placeHold
  extract_lets +onlyGivenNames a1
  split
  · exact h
  · refine State.placeHoldIn_keeps ?_
    exact h

theorem execPoisonHold_keeps {s0 : State} {x0 : Nat} {x1 : State} (h : Keeps s0 x1) :
    KeepsO s0 (execPoisonHold x0 x1) := by
  unfold execPoisonHold
  refine Keeps.next ?_
  split
  · refine State.placeHold_keeps ?_
    exact h
  · exact h

theorem State.unholdAll_keeps {s0 : State} {x0 : State} (h : Keeps s0 x0) :
    Keeps s0 (State.unholdAll x0) := by
  unfold State.unholdAll
  extract_lets +onlyGivenNames a1
  have ka1 : Keeps s0 a1 := by
    unfold a1
    refine Keeps.upd ?_
    exact h
  refine Keeps.foldl ?_ ?_
  · intro b1 b2 b3
    refine State.runHoist_keeps ?_
    exact b3
  · exact ka1

theorem State.freeHold_keeps {s0 : State} {x0 : State} {x1 : Nat} {x2 : Nat} (h : Keeps s0 x0) :
    Keeps s0 (State.freeHold x0 x1 x2) := by
  unfold State.freeHold
  refine State.unholdAll_keeps ?_
  refine State.setHold_keeps ?_
  exact h

theorem execRcHoldCtlRelease_keeps {s0 : State} {x0 : Fin 4} {x1 : Fin 16} {x2 : State} (h : Keeps s0 x2) :
    KeepsO s0 (execRcHoldCtlRelease x0 x1 x2) := by
  unfold execRcHoldCtlRelease
  refine Keeps.next ?_
  split
  · split
    · split
      · refine State.freeHold_keeps ?_
        exact h
      · exact h
    · exact h
  · exact h

theorem State.setGroup_keeps {s0 : State} {x0 : State} {x1 : Nat} {x2 : Option Group} (h : Keeps s0 x0) :
    Keeps s0 (State.setGroup x0 x1 x2) := by
  unfold State.setGroup
  refine Keeps.upd ?_
  exact h

theorem execGroupLoad_keeps {s0 : State} {x0 : CmdRef} {x1 : State} (h : Keeps s0 x1) :
    KeepsO s0 (execGroupLoad x0 x1) := by
  unfold execGroupLoad
  refine Keeps.next ?_
  refine State.run_keeps ?_ ?_
  · exact h
  · intro b1
    extract_lets +onlyGivenNames a1
    split
    · refine State.finish_keeps ?_
      exact h
    · split
      · refine State.finish_keeps ?_
        exact h
      · split
        · extract_lets +onlyGivenNames a2
          extract_lets +onlyGivenNames a3
          have ka3 : Keeps s0 a3 := by
            unfold a3
            refine State.setGroup_keeps ?_
            exact h
          refine State.finish_keeps ?_
          split
          · refine State.setFld_keeps ?_
            exact ka3
          · exact ka3
        · extract_lets +onlyGivenNames a2
          refine State.readingThen_keeps ?_ ?_
          · exact h
          · intro b2 b3
            extract_lets +onlyGivenNames a3
            extract_lets +onlyGivenNames a4
            extract_lets +onlyGivenNames a5
            extract_lets +onlyGivenNames a6
            refine State.readingThen_keeps ?_ ?_
            · exact b3
            · intro b4 b5
              extract_lets +onlyGivenNames a7
              split
              · refine State.finish_keeps ?_
                exact b5
              · extract_lets +onlyGivenNames a8
                extract_lets +onlyGivenNames a9
                extract_lets +onlyGivenNames a10
                extract_lets +onlyGivenNames a11
                have ka11 : Keeps s0 a11 := by
                  unfold a11
                  refine State.setGroup_keeps ?_
                  exact b5
                refine State.finish_keeps ?_
                split
                · exact ka11
                · refine State.setFld_keeps ?_
                  exact ka11

theorem execPhaseSelect_keeps {s0 : State} {x0 : CmdRef} {x1 : State} (h : Keeps s0 x1) :
    KeepsO s0 (execPhaseSelect x0 x1) := by
  unfold execPhaseSelect
  refine Keeps.next ?_
  refine State.run_keeps ?_ ?_
  · exact h
  · intro b1
    extract_lets +onlyGivenNames a1
    split
    · refine State.finish_keeps ?_
      exact h
    · split
      · refine State.finish_keeps ?_
        refine State.setFld_keeps ?_
        refine State.setFld_keeps ?_
        exact h
      · extract_lets +onlyGivenNames a2
        split
        · refine State.finish_keeps ?_
          exact h
        · refine State.finish_keeps ?_
          refine Keeps.upd ?_
          exact h

theorem State.modColl_keeps {s0 : State} {x0 : State} {x1 : CmdRef} {x2 : CollWork → CollWork} (h : Keeps s0 x0) :
    Keeps s0 (State.modColl x0 x1 x2) := by
  unfold State.modColl
  refine State.modCmd_keeps ?_
  exact h

theorem State.gangAck_keeps {s0 : State} {x0 : State} {x1 : Cmd} {x2 : Nat} (h : Keeps s0 x0) :
    Keeps s0 (State.gangAck x0 x1 x2) := by
  unfold State.gangAck
  split
  extract_lets +onlyGivenNames a1
  extract_lets +onlyGivenNames a2
  have ka2 : Keeps s0 a2 := by
    unfold a2
    refine State.modCmd_keeps ?_
    exact h
  split
  · refine State.finish_keeps ?_
    exact ka2
  · exact ka2

theorem State.gangFault_keeps {s0 : State} {x0 : State} {x1 : Cmd} {x2 : Nat} {x3 : Nat} (h : Keeps s0 x0) :
    Keeps s0 (State.gangFault x0 x1 x2 x3) := by
  unfold State.gangFault
  refine State.finish_keeps ?_
  refine State.incSat_keeps ?_
  exact h

theorem State.sendColl_keeps {s0 : State} {x0 : State} {x1 : List CFrame} (h : Keeps s0 x0) :
    Keeps s0 (State.sendColl x0 x1) := by
  unfold State.sendColl
  split
  · exact h
  · refine Keeps.foldl ?_ ?_
    · intro b1 b2 b3
      refine State.send_keeps ?_
      exact b3
    · exact h

theorem State.pumpColl_keeps {s0 : State} {x0 : State} {x1 : CmdRef} (h : Keeps s0 x0) :
    Keeps s0 (State.pumpColl x0 x1) := by
  unfold State.pumpColl
  extract_lets +onlyGivenNames a1
  extract_lets +onlyGivenNames a2
  extract_lets +onlyGivenNames a3
  refine State.sendColl_keeps ?_
  refine State.modColl_keeps ?_
  exact h

theorem State.pumpServed_keeps {s0 : State} {x0 : State} (h : Keeps s0 x0) :
    Keeps s0 (State.pumpServed x0) := by
  unfold State.pumpServed
  extract_lets +onlyGivenNames a1
  refine State.sendColl_keeps ?_
  refine Keeps.upd ?_
  exact h

theorem State.pumpAll_keeps {s0 : State} {x0 : State} (h : Keeps s0 x0) :
    Keeps s0 (State.pumpAll x0) := by
  unfold State.pumpAll
  refine State.pumpServed_keeps ?_
  refine Keeps.foldl ?_ ?_
  · intro b1 b2 b3
    split
    · refine State.pumpColl_keeps ?_
      exact b3
    · exact b3
  · exact h

theorem State.flowPut_keeps {s0 : State} {x0 : State} {x1 : CmdRef} {x2 : CFrame} (h : Keeps s0 x0) :
    Keeps s0 (State.flowPut x0 x1 x2) := by
  unfold State.flowPut
  extract_lets +onlyGivenNames a1
  have ka1 : Keeps s0 a1 := by
    unfold a1
    refine State.modColl_keeps ?_
    exact h
  refine State.account_keeps ?_
  exact ka1

theorem State.flowSend_keeps {s0 : State} {x0 : State} {x1 : CmdRef} {x2 : List CFrame} (h : Keeps s0 x0) :
    Keeps s0 (State.flowSend x0 x1 x2) := by
  unfold State.flowSend
  refine State.pumpColl_keeps ?_
  refine Keeps.foldl ?_ ?_
  · intro b1 b2 b3
    refine State.flowPut_keeps ?_
    exact b3
  · exact h

theorem State.sendAck_keeps {s0 : State} {x0 : State} {x1 : CollKey} {x2 : Nat} {x3 : Nat} {x4 : Nat} {x5 : Nat} {x6 : Nat} (h : Keeps s0 x0) :
    Keeps s0 (State.sendAck x0 x1 x2 x3 x4 x5 x6) := by
  unfold State.sendAck
  refine State.sendColl_keeps ?_
  exact h

theorem State.ackPeer_keeps {s0 : State} {x0 : State} {x1 : CmdRef} {x2 : Nat} {x3 : Nat} (h : Keeps s0 x0) :
    Keeps s0 (State.ackPeer x0 x1 x2 x3) := by
  unfold State.ackPeer
  split
  · exact h
  · extract_lets +onlyGivenNames a2
    extract_lets +onlyGivenNames a3
    extract_lets +onlyGivenNames a4
    have ka4 : Keeps s0 a4 := by
      unfold a4
      refine State.modColl_keeps ?_
      exact h
    refine State.sendAck_keeps ?_
    exact ka4

theorem State.regrant_keeps {s0 : State} {x0 : State} {x1 : CmdRef} (h : Keeps s0 x0) :
    Keeps s0 (State.regrant x0 x1) := by
  unfold State.regrant
  split
  · exact h
  · split
    · exact h
    · refine Keeps.foldl ?_ ?_
      · intro b1 b2 b3
        refine State.ackPeer_keeps ?_
        exact b3
      · exact h

theorem State.slog_keeps {s0 : State} {x0 : State} {x1 : Cmd} {x2 : Nat} {x3 : Nat} {x4 : Nat} (h : Keeps s0 x0) :
    Keeps s0 (State.slog x0 x1 x2 x3 x4) := by
  unfold State.slog
  extract_lets +onlyGivenNames a1
  extract_lets +onlyGivenNames a2
  split
  · exact h
  · extract_lets +onlyGivenNames a3
    split
    · refine State.incSat_keeps ?_
      exact h
    · extract_lets +onlyGivenNames a4
      refine State.wire_keeps ?_
      refine State.setFld_keeps ?_
      refine State.putMem_keeps ?_
      exact h

theorem State.collEnd_keeps {s0 : State} {x0 : State} {x1 : CmdRef} {x2 : Nat} {x3 : Nat} (h : Keeps s0 x0) :
    Keeps s0 (State.collEnd x0 x1 x2 x3) := by
  unfold State.collEnd
  split
  · refine State.finish_keeps ?_
    refine State.modColl_keeps ?_
    refine Keeps.upd ?_
    exact h
  · exact h

theorem State.groupFaultEnd_keeps {s0 : State} {x0 : State} {x1 : CmdRef} {x2 : Nat} {x3 : Nat} (h : Keeps s0 x0) :
    Keeps s0 (State.groupFaultEnd x0 x1 x2 x3) := by
  unfold State.groupFaultEnd
  split
  · refine State.collEnd_keeps ?_
    refine State.incSat_keeps ?_
    exact h
  · exact h

theorem State.sendAbort_keeps {s0 : State} {x0 : State} {x1 : Cmd} {x2 : List Nat} {x3 : Nat} {x4 : Nat} (h : Keeps s0 x0) :
    Keeps s0 (State.sendAbort x0 x1 x2 x3 x4) := by
  unfold State.sendAbort
  refine State.pumpServed_keeps ?_
  refine Keeps.upd ?_
  exact h

theorem State.abortDown_keeps {s0 : State} {x0 : State} {x1 : CmdRef} {x2 : Nat} {x3 : Nat} (h : Keeps s0 x0) :
    Keeps s0 (State.abortDown x0 x1 x2 x3) := by
  unfold State.abortDown
  split
  · refine State.groupFaultEnd_keeps ?_
    refine State.sendAbort_keeps ?_
    exact h
  · exact h

theorem State.collFault_keeps {s0 : State} {x0 : State} {x1 : CmdRef} {x2 : Nat} {x3 : Nat} {x4 : Bool} (h : Keeps s0 x0) :
    Keeps s0 (State.collFault x0 x1 x2 x3 x4) := by
  unfold State.collFault
  split
  · exact h
  · split
    · refine State.groupFaultEnd_keeps ?_
      exact h
    · split
      · refine State.abortDown_keeps ?_
        exact h
      · split
        · refine State.groupFaultEnd_keeps ?_
          refine State.sendAbort_keeps ?_
          exact h
        · split
          · exact h
          · refine State.pumpColl_keeps ?_
            refine State.modColl_keeps ?_
            exact h

theorem State.collReading_keeps {s0 : State} {x0 : State} {x1 : CmdRef} {x2 : List (Nat × Nat)} {x3 : State → State} (h : Keeps s0 x0) (k3 : ∀ {y0}, Keeps s0 y0 → Keeps s0 (x3 y0)) :
    Keeps s0 (State.collReading x0 x1 x2 x3) := by
  unfold State.collReading
  extract_lets +onlyGivenNames a1
  have ka1 : Keeps s0 a1 := by
    unfold a1
    refine State.fetchSpans_keeps ?_
    exact h
  split
  · refine State.collEnd_keeps ?_
    exact ka1
  · refine k3 ?_
    exact ka1

theorem State.holdWrite_keeps {s0 : State} {x0 : State} {x1 : CmdRef} {x2 : DWrite} (h : Keeps s0 x0) :
    Keeps s0 (State.holdWrite x0 x1 x2) := by
  unfold State.holdWrite
  refine State.modColl_keeps ?_
  exact h

theorem State.writeResult_keeps {s0 : State} {x0 : State} {x1 : CmdRef} {x2 : Cmd} {x3 : Nat} {x4 : Nat} {x5 : List Nat} (h : Keeps s0 x0) :
    Keeps s0 (State.writeResult x0 x1 x2 x3 x4 x5) := by
  unfold State.writeResult
  extract_lets +onlyGivenNames a1
  extract_lets +onlyGivenNames a2
  split
  refine State.modCmd_keeps ?_
  refine Keeps.of1 ‹_› ?_
  refine Keeps.foldl1 ?_ ?_
  · intro b1 b2 b3 b4
    extract_lets +onlyGivenNames a3
    extract_lets +onlyGivenNames a4
    refine Keeps.fst ?_
    refine State.hubWrites_keeps ?_
    with_reducible assumption
  · with_reducible assumption

theorem State.putResult_keeps {s0 : State} {x0 : State} {x1 : CmdRef} {x2 : Cmd} {x3 : Nat} {x4 : Nat} {x5 : List Nat} (h : Keeps s0 x0) :
    Keeps s0 (State.putResult x0 x1 x2 x3 x4 x5) := by
  unfold State.putResult
  extract_lets +onlyGivenNames a1
  split
  · refine State.holdWrite_keeps ?_
    exact h
  · refine State.writeResult_keeps ?_
    exact h

theorem State.settleBlock_keeps {s0 : State} {x0 : State} {x1 : CmdRef} {x2 : Nat} (h : Keeps s0 x0) :
    Keeps s0 (State.settleBlock x0 x1 x2) := by
  unfold State.settleBlock
  split
  · exact h
  · extract_lets +onlyGivenNames a1
    extract_lets +onlyGivenNames a2
    extract_lets +onlyGivenNames a3
    split
    extract_lets +onlyGivenNames a4
    have ka4 : ∀ (s : State), Keeps s0 s → Keeps s0 (a4 s) := by
      intro b1 b2
      unfold a4
      refine State.modColl_keeps ?_
      exact b2
    split
    · refine ka4 ?_ ?_
      exact h
    · extract_lets +onlyGivenNames a5
      extract_lets +onlyGivenNames a6
      extract_lets +onlyGivenNames a7
      extract_lets +onlyGivenNames a8
      extract_lets +onlyGivenNames a9
      have ka9 : Keeps s0 a9 := by
        unfold a9
        refine State.modColl_keeps ?_
        exact h
      extract_lets +onlyGivenNames a10
      split
      · refine State.flowSend_keeps ?_
        refine ka4 ?_ ?_
        exact ka9
      · extract_lets +onlyGivenNames a11
        have ka11 : Keeps s0 a11 := by
          unfold a11
          refine ka4 ?_ ?_
          exact ka9
        extract_lets +onlyGivenNames a12
        have ka12 : Keeps s0 a12 := by
          unfold a12
          refine State.putResult_keeps ?_
          exact ka11
        split
        · extract_lets +onlyGivenNames a13
          have ka13 : Keeps s0 a13 := by
            unfold a13
            refine State.modColl_keeps ?_
            exact ka12
          refine State.flowSend_keeps ?_
          exact ka13
        · exact ka12

theorem State.sideApply_keeps {s0 : State} {x0 : State} {x1 : CmdRef} {x2 : Cmd} {x3 : List Nat} (h : Keeps s0 x0) :
    Keeps s0 (State.sideApply x0 x1 x2 x3) := by
  unfold State.sideApply
  extract_lets +onlyGivenNames a1
  have ka1 : Keeps s0 a1 := by
    unfold a1
    refine State.modColl_keeps ?_
    exact h
  split
  · exact ka1
  · extract_lets +onlyGivenNames a2
    extract_lets +onlyGivenNames a3
    extract_lets +onlyGivenNames a4
    extract_lets +onlyGivenNames a5
    have ka5 : Keeps s0 a5 := by
      unfold a5
      refine Keeps.foldl ?_ ?_
      · intro b1 b2 b3
        refine State.hubWrites_keeps ?_
        exact b3
      · exact ka1
    refine Keeps.foldl ?_ ?_
    · intro b1 b2 b3
      refine State.hubWrites_keeps ?_
      exact b3
    · exact ka5

theorem State.sideStep_keeps {s0 : State} {x0 : State} {x1 : CmdRef} (h : Keeps s0 x0) :
    Keeps s0 (State.sideStep x0 x1) := by
  unfold State.sideStep
  split
  · exact h
  · extract_lets +onlyGivenNames a1
    extract_lets +onlyGivenNames a2
    extract_lets +onlyGivenNames a3
    extract_lets +onlyGivenNames a4
    extract_lets +onlyGivenNames a5
    split
    · exact h
    · refine State.collReading_keeps ?_ ?_
      · exact h
      · intro b1 b2
        extract_lets +onlyGivenNames a6
        extract_lets +onlyGivenNames a7
        split
        extract_lets +onlyGivenNames a8
        have ka8 : Keeps s0 a8 := by
          unfold a8
          refine State.modColl_keeps ?_
          exact b2
        split
        · refine State.flowSend_keeps ?_
          exact ka8
        · refine State.flowSend_keeps ?_
          refine State.sideApply_keeps ?_
          exact ka8

theorem State.resultRecord_keeps {s0 : State} {x0 : State} {x1 : Cmd} {x2 : Bool} (h : Keeps s0 x0) :
    Keeps s0 (State.resultRecord x0 x1 x2) := by
  unfold State.resultRecord
  extract_lets +onlyGivenNames a1
  extract_lets +onlyGivenNames a2
  extract_lets +onlyGivenNames a3
  extract_lets +onlyGivenNames a4
  extract_lets +onlyGivenNames a5
  extract_lets +onlyGivenNames a6
  split
  · exact h
  · refine State.hubWrites_keeps ?_
    exact h

theorem State.endReduction_keeps {s0 : State} {x0 : State} {x1 : CmdRef} (h : Keeps s0 x0) :
    Keeps s0 (State.endReduction x0 x1) := by
  unfold State.endReduction
  split
  · exact h
  · extract_lets +onlyGivenNames a1
    extract_lets +onlyGivenNames a2
    extract_lets +onlyGivenNames a3
    extract_lets +onlyGivenNames a4
    extract_lets +onlyGivenNames a5
    extract_lets +onlyGivenNames a6
    extract_lets +onlyGivenNames a7
    extract_lets +onlyGivenNames a8
    have ka8 : Keeps s0 a8 := by
      unfold a8
      refine State.hubWrites_keeps ?_
      exact h
    extract_lets +onlyGivenNames a9
    have ka9 : Keeps s0 a9 := by
      unfold a9
      split
      · refine State.slog_keeps ?_
        exact ka8
      · split
        · refine State.slog_keeps ?_
          exact h
        · split
          · refine State.hubWrites_keeps ?_
            exact h
          · exact h
    extract_lets +onlyGivenNames a10
    have ka10 : Keeps s0 a10 := by
      unfold a10
      refine State.resultRecord_keeps ?_
      exact ka9
    extract_lets +onlyGivenNames a11
    extract_lets +onlyGivenNames a12
    split
    · refine State.collEnd_keeps ?_
      exact ka10
    · split
      · refine State.collEnd_keeps ?_
        exact ka10
      · refine State.collEnd_keeps ?_
        exact ka10

theorem State.redStep_keeps {s0 : State} {x0 : State} {x1 : CmdRef} (h : Keeps s0 x0) :
    Keeps s0 (State.redStep x0 x1) := by
  unfold State.redStep
  extract_lets +onlyGivenNames a1
  have ka1 : Keeps s0 a1 := by
    unfold a1
    refine State.sideStep_keeps ?_
    exact h
  split
  · exact ka1
  · extract_lets +onlyGivenNames a2
    extract_lets +onlyGivenNames a3
    extract_lets +onlyGivenNames a4
    split
    · refine State.endReduction_keeps ?_
      exact ka1
    · exact ka1

theorem State.settleBlocks_keeps {s0 : State} {x0 : State} {x1 : CmdRef} (h : Keeps s0 x0) :
    Keeps s0 (State.settleBlocks x0 x1) := by
  unfold State.settleBlocks
  extract_lets +onlyGivenNames a1
  refine State.redStep_keeps ?_
  refine Keeps.foldl ?_ ?_
  · intro b1 b2 b3
    split
    · split
      · exact b3
      · refine State.settleBlock_keeps ?_
        exact b3
    · exact b3
  · exact h

theorem State.readLocal_keeps {s0 : State} {x0 : State} {x1 : CmdRef} {x2 : Cmd} {x3 : List Nat → State → State} (h : Keeps s0 x0) (k3 : ∀ {y0 y1}, Keeps s0 y1 → Keeps s0 (x3 y0 y1)) :
    Keeps s0 (State.readLocal x0 x1 x2 x3) := by
  unfold State.readLocal
  split
  · refine State.modColl_keeps ?_
    exact h
  · refine State.collReading_keeps ?_ ?_
    · exact h
    · intro b1 b2
      extract_lets +onlyGivenNames a1
      extract_lets +onlyGivenNames a2
      refine k3 ?_
      refine State.modColl_keeps ?_
      refine State.modCmd_keeps ?_
      exact b2

theorem State.keepLocal_keeps {s0 : State} {x0 : State} {x1 : CmdRef} {x2 : State → State} (h : Keeps s0 x0) (k2 : ∀ {y0}, Keeps s0 y0 → Keeps s0 (x2 y0)) :
    Keeps s0 (State.keepLocal x0 x1 x2) := by
  unfold State.keepLocal
  split
  · exact h
  · split
    · refine State.readLocal_keeps ?_ ?_
      · exact h
      · intro b1 b2 b3
        refine k2 ?_
        refine State.modColl_keeps ?_
        exact b3
    · refine k2 ?_
      exact h

theorem State.takeLeaf_keeps {s0 : State} {x0 : State} {x1 : CmdRef} (h : Keeps s0 x0) :
    Keeps s0 (State.takeLeaf x0 x1) := by
  unfold State.takeLeaf
  split
  · exact h
  · extract_lets +onlyGivenNames a1
    split
    · refine State.readLocal_keeps ?_ ?_
      · exact h
      · intro b1 b2 b3
        extract_lets +onlyGivenNames a2
        extract_lets +onlyGivenNames a3
        have ka3 : Keeps s0 a3 := by
          unfold a3
          refine State.modColl_keeps ?_
          exact b3
        refine State.settleBlocks_keeps ?_
        split
        · refine State.slog_keeps ?_
          exact ka3
        · exact ka3
    · refine State.keepLocal_keeps ?_ ?_
      · exact h
      · intro b1 b2
        refine State.settleBlocks_keeps ?_
        exact b2

theorem State.beginData_keeps {s0 : State} {x0 : State} {x1 : CmdRef} {x2 : Nat} {x3 : Nat} (h : Keeps s0 x0) :
    Keeps s0 (State.beginData x0 x1 x2 x3) := by
  unfold State.beginData
  refine State.takeLeaf_keeps ?_
  refine State.modColl_keeps ?_
  exact h

theorem State.fixMask_keeps {s0 : State} {x0 : State} {x1 : CmdRef} (h : Keeps s0 x0) :
    Keeps s0 (State.fixMask x0 x1) := by
  unfold State.fixMask
  split
  · exact h
  · extract_lets +onlyGivenNames a1
    extract_lets +onlyGivenNames a2
    split
    · exact h
    · extract_lets +onlyGivenNames a3
      extract_lets +onlyGivenNames a4
      split
      · refine State.collFault_keeps ?_
        exact h
      · extract_lets +onlyGivenNames a5
        have ka5 : Keeps s0 a5 := by
          unfold a5
          refine Keeps.foldl ?_ ?_
          · intro b1 b2 b3
            refine State.slog_keeps ?_
            exact b3
          · exact h
        extract_lets +onlyGivenNames a6
        extract_lets +onlyGivenNames a7
        have ka7 : Keeps s0 a7 := by
          unfold a7
          refine State.flowSend_keeps ?_
          exact ka5
        refine State.beginData_keeps ?_
        exact ka7

theorem State.tryMask_keeps {s0 : State} {x0 : State} {x1 : CmdRef} (h : Keeps s0 x0) :
    Keeps s0 (State.tryMask x0 x1) := by
  unfold State.tryMask
  extract_lets +onlyGivenNames a1
  split
  · refine State.fixMask_keeps ?_
    exact h
  · exact h

theorem State.arriveNow_keeps {s0 : State} {x0 : State} {x1 : CmdRef} (h : Keeps s0 x0) :
    Keeps s0 (State.arriveNow x0 x1) := by
  unfold State.arriveNow
  split
  · exact h
  · extract_lets +onlyGivenNames a2
    extract_lets +onlyGivenNames a3
    have ka3 : Keeps s0 a3 := by
      unfold a3
      refine State.modColl_keeps ?_
      exact h
    extract_lets +onlyGivenNames a4
    have ka4 : Keeps s0 a4 := by
      unfold a4
      split
      · refine State.keepLocal_keeps ?_ ?_
        · exact ka3
        · intro b1 b2
          refine State.redStep_keeps ?_
          exact b2
      · exact ka3
    split
    · exact ka4
    · split
      · split
        · exact ka4
        · refine State.tryMask_keeps ?_
          refine State.modColl_keeps ?_
          exact ka4
      · split
        · refine State.flowSend_keeps ?_
          exact ka4
        · exact ka4

theorem State.lateNow_keeps {s0 : State} {x0 : State} {x1 : CmdRef} (h : Keeps s0 x0) :
    Keeps s0 (State.lateNow x0 x1) := by
  unfold State.lateNow
  split
  · exact h
  · extract_lets +onlyGivenNames a1
    extract_lets +onlyGivenNames a2
    have ka2 : Keeps s0 a2 := by
      unfold a2
      refine State.slog_keeps ?_
      refine State.modColl_keeps ?_
      exact h
    split
    · refine State.tryMask_keeps ?_
      refine State.modColl_keeps ?_
      exact ka2
    · refine State.flowSend_keeps ?_
      exact ka2

theorem State.readyPoll_keeps {s0 : State} {x0 : State} {x1 : CmdRef} (h : Keeps s0 x0) :
    Keeps s0 (State.readyPoll x0 x1) := by
  unfold State.readyPoll
  split
  · exact h
  · split
    · refine State.arriveNow_keeps ?_
      exact h
    · split
      · exact h
      · refine State.collReading_keeps ?_ ?_
        · exact h
        · intro b1 b2
          split
          · refine State.arriveNow_keeps ?_
            exact b2
          · exact b2

theorem State.scatterSegs_keeps {s0 : State} {x0 : State} {x1 : List (Nat × Nat)} {x2 : Nat} (h : Keeps s0 x0) :
    Keeps s0 (State.scatterSegs x0 x1 x2) := by
  unfold State.scatterSegs
  refine Keeps.foldl1 ?_ ?_
  · intro b1 b2 b3 b4
    refine Keeps.fst ?_
    refine State.hubWrites_keeps ?_
    with_reducible assumption
  · with_reducible assumption

theorem State.putUnit_keeps {s0 : State} {x0 : State} {x1 : CmdRef} {x2 : Cmd} {x3 : Nat} {x4 : Nat} (h : Keeps s0 x0) :
    Keeps s0 (State.putUnit x0 x1 x2 x3 x4) := by
  unfold State.putUnit
  split
  · refine State.holdWrite_keeps ?_
    exact h
  · refine State.modColl_keeps ?_
    refine State.wrote_keeps ?_
    refine State.scatterSegs_keeps ?_
    exact h

theorem State.padRows_keeps {s0 : State} {x0 : State} {x1 : Td} (h : Keeps s0 x0) :
    Keeps s0 (State.padRows x0 x1) := by
  unfold State.padRows
  split
  · exact h
  · refine Keeps.foldl ?_ ?_
    · intro b1 b2 b3
      refine State.hubWrites_keeps ?_
      exact b3
    · exact h

theorem State.dataStep_keeps {s0 : State} {x0 : State} {x1 : CmdRef} (h : Keeps s0 x0) :
    Keeps s0 (State.dataStep x0 x1) := by
  unfold State.dataStep
  split
  · exact h
  · extract_lets +onlyGivenNames a1
    split
    · split
      · exact h
      · extract_lets +onlyGivenNames a2
        extract_lets +onlyGivenNames a3
        have ka3 : Keeps s0 a3 := by
          unfold a3
          refine State.padRows_keeps ?_
          exact h
        extract_lets +onlyGivenNames a4
        extract_lets +onlyGivenNames a5
        extract_lets +onlyGivenNames a6
        extract_lets +onlyGivenNames a7
        have ka7 : Keeps s0 a7 := by
          unfold a7
          split
          · refine State.sendHint_keeps ?_
            exact ka3
          · exact ka3
        refine State.collEnd_keeps ?_
        refine State.resultRecord_keeps ?_
        exact ka7
    · split
      · exact h
      · extract_lets +onlyGivenNames a2
        extract_lets +onlyGivenNames a3
        have ka3 : Keeps s0 a3 := by
          unfold a3
          refine State.padRows_keeps ?_
          exact h
        extract_lets +onlyGivenNames a4
        extract_lets +onlyGivenNames a5
        extract_lets +onlyGivenNames a6
        extract_lets +onlyGivenNames a7
        have ka7 : Keeps s0 a7 := by
          unfold a7
          split
          · refine State.sendHint_keeps ?_
            exact ka3
          · exact ka3
        refine State.collEnd_keeps ?_
        refine State.resultRecord_keeps ?_
        exact ka7

theorem State.permuteStep_keeps {s0 : State} {x0 : State} {x1 : CmdRef} (h : Keeps s0 x0) :
    Keeps s0 (State.permuteStep x0 x1) := by
  unfold State.permuteStep
  split
  · exact h
  · extract_lets +onlyGivenNames a1
    extract_lets +onlyGivenNames a2
    extract_lets +onlyGivenNames a3
    extract_lets +onlyGivenNames a4
    have ka4 : Keeps s0 a4 := by
      unfold a4
      refine State.modColl_keeps ?_
      exact h
    refine State.dataStep_keeps ?_
    refine Keeps.foldl ?_ ?_
    · intro b1 b2 b3
      refine State.putUnit_keeps ?_
      exact b3
    · exact ka4

theorem State.startData_keeps {s0 : State} {x0 : State} {x1 : CmdRef} (h : Keeps s0 x0) :
    Keeps s0 (State.startData x0 x1) := by
  unfold State.startData
  split
  · exact h
  · extract_lets +onlyGivenNames a1
    extract_lets +onlyGivenNames a2
    extract_lets +onlyGivenNames a3
    extract_lets +onlyGivenNames a4
    split
    · refine State.dataStep_keeps ?_
      exact h
    · split
      · refine State.modColl_keeps ?_
        exact h
      · refine State.collReading_keeps ?_ ?_
        · exact h
        · intro b1 b2
          extract_lets +onlyGivenNames a5
          have ka5 : Keeps s0 a5 := by
            unfold a5
            refine State.modColl_keeps ?_
            exact b2
          extract_lets +onlyGivenNames a6
          extract_lets +onlyGivenNames a7
          split
          · refine State.flowSend_keeps ?_
            exact ka5
          · extract_lets +onlyGivenNames a8
            have ka8 : Keeps s0 a8 := by
              unfold a8
              refine Keeps.foldl ?_ ?_
              · intro b3 b4 b5
                refine State.putUnit_keeps ?_
                exact b5
              · exact ka5
            extract_lets +onlyGivenNames a9
            refine State.dataStep_keeps ?_
            refine State.flowSend_keeps ?_
            exact ka8

theorem startColl_keeps {s0 : State} {x0 : CmdRef} {x1 : Nat} {x2 : State} (h : Keeps s0 x2) :
    Keeps s0 (startColl x0 x1 x2) := by
  unfold startColl
  refine State.run_keeps ?_ ?_
  · exact h
  · intro b1
    extract_lets +onlyGivenNames a1
    extract_lets +onlyGivenNames a2
    extract_lets +onlyGivenNames a3
    extract_lets +onlyGivenNames a4
    extract_lets +onlyGivenNames a5
    extract_lets +onlyGivenNames a6
    have ka6 : Keeps s0 a6 := by
      unfold a6
      refine Keeps.upd ?_
      exact h
    extract_lets +onlyGivenNames a7
    have ka7 : Keeps s0 a7 := by
      unfold a7
      refine State.phaseCmd_keeps ?_
      refine State.modColl_keeps ?_
      exact ka6
    extract_lets +onlyGivenNames a8
    have ka8 : Keeps s0 a8 := by
      unfold a8
      refine Keeps.foldl ?_ ?_
      · intro b2 b3 b4
        refine State.ackPeer_keeps ?_
        exact b4
      · refine State.pumpColl_keeps ?_
        exact ka7
    split
    · extract_lets +onlyGivenNames a9
      have ka9 : Keeps s0 a9 := by
        unfold a9
        refine State.tryMask_keeps ?_
        refine State.readyPoll_keeps ?_
        exact ka8
      split
      · refine State.fixMask_keeps ?_
        exact ka9
      · exact ka9
    · refine State.startData_keeps ?_
      exact ka8

theorem execAllreduce_keeps {s0 : State} {x0 : CmdRef} {x1 : State} (h : Keeps s0 x1) :
    KeepsO s0 (execAllreduce x0 x1) := by
  unfold execAllreduce
  refine Keeps.next ?_
  refine startColl_keeps ?_
  exact h

theorem execReduceScatter_keeps {s0 : State} {x0 : CmdRef} {x1 : State} (h : Keeps s0 x1) :
    KeepsO s0 (execReduceScatter x0 x1) := by
  unfold execReduceScatter
  refine Keeps.next ?_
  refine startColl_keeps ?_
  exact h

theorem execAllgather_keeps {s0 : State} {x0 : CmdRef} {x1 : State} (h : Keeps s0 x1) :
    KeepsO s0 (execAllgather x0 x1) := by
  unfold execAllgather
  refine Keeps.next ?_
  refine startColl_keeps ?_
  exact h

theorem execBroadcast_keeps {s0 : State} {x0 : CmdRef} {x1 : State} (h : Keeps s0 x1) :
    KeepsO s0 (execBroadcast x0 x1) := by
  unfold execBroadcast
  refine Keeps.next ?_
  refine startColl_keeps ?_
  exact h

theorem execPermute_keeps {s0 : State} {x0 : CmdRef} {x1 : State} (h : Keeps s0 x1) :
    KeepsO s0 (execPermute x0 x1) := by
  unfold execPermute
  refine Keeps.next ?_
  refine startColl_keeps ?_
  exact h

theorem State.withColl_keeps {s0 : State} {x0 : State} {x1 : CmdRef} {x2 : Cmd → State} (h : Keeps s0 x0) (k2 : ∀ {y0}, Keeps s0 (x2 y0)) :
    Keeps s0 (State.withColl x0 x1 x2) := by
  unfold State.withColl
  split
  · split
    · refine k2 
    · exact h
  · exact h

theorem execReadyWordPoll_keeps {s0 : State} {x0 : CmdRef} {x1 : State} (h : Keeps s0 x1) :
    KeepsO s0 (execReadyWordPoll x0 x1) := by
  unfold execReadyWordPoll
  refine Keeps.next ?_
  refine State.withColl_keeps ?_ ?_
  · exact h
  · intro b1
    split
    · refine State.readyPoll_keeps ?_
      exact h
    · exact h

theorem execAutoLate_keeps {s0 : State} {x0 : CmdRef} {x1 : State} (h : Keeps s0 x1) :
    KeepsO s0 (execAutoLate x0 x1) := by
  unfold execAutoLate
  refine Keeps.next ?_
  refine State.withColl_keeps ?_ ?_
  · exact h
  · intro b1
    extract_lets +onlyGivenNames a1
    split
    · refine State.lateNow_keeps ?_
      exact h
    · exact h

theorem execMaskDeadline_keeps {s0 : State} {x0 : CmdRef} {x1 : State} (h : Keeps s0 x1) :
    KeepsO s0 (execMaskDeadline x0 x1) := by
  unfold execMaskDeadline
  refine Keeps.next ?_
  refine State.withColl_keeps ?_ ?_
  · exact h
  · intro b1
    split
    · refine State.fixMask_keeps ?_
      exact h
    · exact h

theorem execLate_keeps {s0 : State} {x0 : CmdRef} {x1 : State} (h : Keeps s0 x1) :
    KeepsO s0 (execLate x0 x1) := by
  unfold execLate
  refine Keeps.next ?_
  refine State.run_keeps ?_ ?_
  · exact h
  · intro b1
    split
    · refine State.finish_keeps ?_
      exact h
    · extract_lets +onlyGivenNames a1
      split
      · refine State.finish_keeps ?_
        refine State.lateNow_keeps ?_
        exact h
      · refine State.finish_keeps ?_
        exact h

theorem State.withGang_keeps {s0 : State} {x0 : State} {x1 : CmdRef} {x2 : Cmd → Group → State} (h : Keeps s0 x0) (k2 : ∀ {y0 y1}, Keeps s0 (x2 y0 y1)) :
    Keeps s0 (State.withGang x0 x1 x2) := by
  unfold State.withGang
  split
  · split
    · refine k2 
    · exact h
  · exact h

theorem State.gangRetry_keeps {s0 : State} {x0 : State} {x1 : Cmd} {x2 : Group} {x3 : Nat} (h : Keeps s0 x0) :
    Keeps s0 (State.gangRetry x0 x1 x2 x3) := by
  unfold State.gangRetry
  split
  split
  · exact h
  · split
    · refine State.gangFault_keeps ?_
      exact h
    · extract_lets +onlyGivenNames a1
      have ka1 : Keeps s0 a1 := by
        unfold a1
        refine State.modCmd_keeps ?_
        exact h
      refine State.sendColl_keeps ?_
      refine State.incSat_keeps ?_
      exact ka1

theorem execProgressTimeout_keeps {s0 : State} {x0 : CmdRef} {x1 : State} (h : Keeps s0 x1) :
    KeepsO s0 (execProgressTimeout x0 x1) := by
  unfold execProgressTimeout
  refine Keeps.next ?_
  refine State.withGang_keeps ?_ ?_
  · refine State.withColl_keeps ?_ ?_
    · exact h
    · intro b1
      split
      · exact h
      · split
        · refine State.collFault_keeps ?_
          exact h
        · exact h
  · intro b1 b2
    split
    · refine State.gangFault_keeps ?_
      exact h
    · exact h

theorem State.retryServed_keeps {s0 : State} {x0 : State} {x1 : Nat} (h : Keeps s0 x0) :
    Keeps s0 (State.retryServed x0 x1) := by
  unfold State.retryServed
  split
  · exact h
  · split
    · exact h
    · split
      · refine Keeps.upd ?_
        exact h
      · extract_lets +onlyGivenNames a1
        have ka1 : Keeps s0 a1 := by
          unfold a1
          refine State.incSat_keeps ?_
          exact h
        refine State.sendColl_keeps ?_
        refine Keeps.upd ?_
        exact ka1

theorem execCollectiveRetransmit_keeps {s0 : State} {x0 : CmdRef} {x1 : Nat} {x2 : State} (h : Keeps s0 x2) :
    KeepsO s0 (execCollectiveRetransmit x0 x1 x2) := by
  unfold execCollectiveRetransmit
  refine Keeps.next ?_
  split
  · split
    · refine State.retryServed_keeps ?_
      exact h
    · exact h
  · refine State.withColl_keeps ?_ ?_
    · refine State.withGang_keeps ?_ ?_
      · exact h
      · intro b1 b2
        refine State.gangRetry_keeps ?_
        exact h
    · intro b1
      extract_lets +onlyGivenNames a1
      split
      · exact h
      · split
        · refine State.collFault_keeps ?_
          exact h
        · refine State.sendColl_keeps ?_
          refine State.modColl_keeps ?_
          refine State.incSat_keeps ?_
          exact h

theorem execNoPortUpTimeout_keeps {s0 : State} {x0 : CmdRef} {x1 : State} (h : Keeps s0 x1) :
    KeepsO s0 (execNoPortUpTimeout x0 x1) := by
  unfold execNoPortUpTimeout
  refine Keeps.next ?_
  refine State.withGang_keeps ?_ ?_
  · refine State.withColl_keeps ?_ ?_
    · exact h
    · intro b1
      split
      · exact h
      · refine State.collFault_keeps ?_
        exact h
  · intro b1 b2
    split
    · exact h
    · refine State.gangFault_keeps ?_
      exact h

theorem State.startFetch_keeps {s0 : State} {x0 : State} {x1 : CmdRef} (h : Keeps s0 x0) :
    Keeps s0 (State.startFetch x0 x1) := by
  unfold State.startFetch
  split
  · exact h
  · extract_lets +onlyGivenNames a1
    extract_lets +onlyGivenNames a2
    extract_lets +onlyGivenNames a3
    extract_lets +onlyGivenNames a4
    extract_lets +onlyGivenNames a5
    have ka5 : Keeps s0 a5 := by
      unfold a5
      refine State.phaseCmd_keeps ?_
      refine State.modColl_keeps ?_
      exact h
    refine State.sendColl_keeps ?_
    refine State.account_keeps ?_
    exact ka5

theorem execSliceFetch_keeps {s0 : State} {x0 : CmdRef} {x1 : State} (h : Keeps s0 x1) :
    KeepsO s0 (execSliceFetch x0 x1) := by
  unfold execSliceFetch
  refine Keeps.next ?_
  refine State.run_keeps ?_ ?_
  · exact h
  · intro b1
    refine State.startFetch_keeps ?_
    exact h

theorem State.discard_keeps {s0 : State} {x0 : State} (h : Keeps s0 x0) :
    Keeps s0 (State.discard x0) := by
  unfold State.discard
  refine State.incSat_keeps ?_
  exact h

theorem State.withFrame_keeps {s0 : State} {x0 : State} {x1 : Fin 4} {x2 : CFrame} {x3 : Nat} {x4 : State → State} (h : Keeps s0 x0) (k4 : ∀ {y0}, Keeps s0 y0 → Keeps s0 (x4 y0)) :
    Keeps s0 (State.withFrame x0 x1 x2 x3 x4) := by
  unfold State.withFrame
  split
  · exact h
  · refine State.rxUdp_keeps ?_ ?_
    · exact h
    · intro b1 b2
      split
      · refine State.discard_keeps ?_
        exact b2
      · split
        · exact b2
        · refine k4 ?_
          exact b2

theorem State.ackFrame_keeps {s0 : State} {x0 : State} {x1 : CmdRef} {x2 : CFrame} {x3 : Nat} (h : Keeps s0 x0) :
    Keeps s0 (State.ackFrame x0 x1 x2 x3) := by
  unfold State.ackFrame
  split
  · extract_lets +onlyGivenNames a2
    split
    · refine State.sendAck_keeps ?_
      exact h
    · split
      · exact h
      · refine State.ackPeer_keeps ?_
        refine State.modColl_keeps ?_
        exact h
  · refine State.sendAck_keeps ?_
    exact h

theorem State.accept_keeps {s0 : State} {x0 : State} {x1 : Fin 4} {x2 : CFrame} {x3 : Nat} {x4 : Cmd → State → State} (h : Keeps s0 x0) (k4 : ∀ {y0 y1}, Keeps s0 y1 → Keeps s0 (x4 y0 y1)) :
    Keeps s0 (State.accept x0 x1 x2 x3 x4) := by
  unfold State.accept
  refine State.withFrame_keeps ?_ ?_
  · exact h
  · intro b1 b2
    split
    · extract_lets +onlyGivenNames a2
      split
      · extract_lets +onlyGivenNames a3
        extract_lets +onlyGivenNames a4
        have ka4 : Keeps s0 a4 := by
          unfold a4
          refine State.modColl_keeps ?_
          exact b2
        refine State.ackFrame_keeps ?_
        refine k4 ?_
        exact ka4
      · split
        · refine State.ackPeer_keeps ?_
          exact b2
        · exact b2
    · split
      · refine State.sendAck_keeps ?_
        exact b2
      · split
        · exact b2
        · refine State.discard_keeps ?_
          exact b2

theorem execArrive_keeps {s0 : State} {x0 : Fin 4} {x1 : CFrame} {x2 : State} (h : Keeps s0 x2) :
    KeepsO s0 (execArrive x0 x1 x2) := by
  unfold execArrive
  refine Keeps.next ?_
  refine State.accept_keeps ?_ ?_
  · exact h
  · intro b1 b2 b3
    extract_lets +onlyGivenNames a1
    split
    · exact b3
    · split
      · refine State.collFault_keeps ?_
        exact b3
      · split
        · refine State.slog_keeps ?_
          exact b3
        · refine State.tryMask_keeps ?_
          refine State.modColl_keeps ?_
          exact b3

theorem execLateFrame_keeps {s0 : State} {x0 : Fin 4} {x1 : CFrame} {x2 : State} (h : Keeps s0 x2) :
    KeepsO s0 (execLateFrame x0 x1 x2) := by
  unfold execLateFrame
  refine Keeps.next ?_
  refine State.accept_keeps ?_ ?_
  · exact h
  · intro b1 b2 b3
    extract_lets +onlyGivenNames a1
    split
    · exact b3
    · split
      · refine State.slog_keeps ?_
        exact b3
      · refine State.tryMask_keeps ?_
        refine State.modColl_keeps ?_
        exact b3

theorem execGo_keeps {s0 : State} {x0 : Fin 4} {x1 : CFrame} {x2 : State} (h : Keeps s0 x2) :
    KeepsO s0 (execGo x0 x1 x2) := by
  unfold execGo
  refine Keeps.next ?_
  refine State.accept_keeps ?_ ?_
  · exact h
  · intro b1 b2 b3
    extract_lets +onlyGivenNames a1
    split
    · exact b3
    · split
      extract_lets +onlyGivenNames a2
      have ka2 : Keeps s0 a2 := by
        unfold a2
        refine State.flowSend_keeps ?_
        refine Keeps.of2 ‹_› ?_
        refine State.draw_keeps ?_
        exact b3
      refine State.beginData_keeps ?_
      exact ka2

theorem execUp_keeps {s0 : State} {x0 : Fin 4} {x1 : CFrame} {x2 : State} (h : Keeps s0 x2) :
    KeepsO s0 (execUp x0 x1 x2) := by
  unfold execUp
  refine Keeps.next ?_
  refine State.accept_keeps ?_ ?_
  · exact h
  · intro b1 b2 b3
    extract_lets +onlyGivenNames a1
    split
    · exact b3
    · extract_lets +onlyGivenNames a2
      extract_lets +onlyGivenNames a3
      extract_lets +onlyGivenNames a4
      extract_lets +onlyGivenNames a5
      have ka5 : Keeps s0 a5 := by
        unfold a5
        refine State.modColl_keeps ?_
        exact b3
      split
      · refine State.settleBlocks_keeps ?_
        exact ka5
      · exact ka5

theorem execDown_keeps {s0 : State} {x0 : Fin 4} {x1 : CFrame} {x2 : State} (h : Keeps s0 x2) :
    KeepsO s0 (execDown x0 x1 x2) := by
  unfold execDown
  refine Keeps.next ?_
  refine State.accept_keeps ?_ ?_
  · exact h
  · intro b1 b2 b3
    extract_lets +onlyGivenNames a1
    split
    · exact b3
    · extract_lets +onlyGivenNames a2
      extract_lets +onlyGivenNames a3
      extract_lets +onlyGivenNames a4
      extract_lets +onlyGivenNames a5
      have ka5 : Keeps s0 a5 := by
        unfold a5
        refine State.putResult_keeps ?_
        exact b3
      extract_lets +onlyGivenNames a6
      have ka6 : Keeps s0 a6 := by
        unfold a6
        refine State.modColl_keeps ?_
        exact ka5
      refine State.redStep_keeps ?_
      refine State.flowSend_keeps ?_
      exact ka6

theorem execSideUp_keeps {s0 : State} {x0 : Fin 4} {x1 : CFrame} {x2 : State} (h : Keeps s0 x2) :
    KeepsO s0 (execSideUp x0 x1 x2) := by
  unfold execSideUp
  refine Keeps.next ?_
  refine State.accept_keeps ?_ ?_
  · exact h
  · intro b1 b2 b3
    split
    · exact b3
    · refine State.redStep_keeps ?_
      refine State.modColl_keeps ?_
      exact b3

theorem execSideDown_keeps {s0 : State} {x0 : Fin 4} {x1 : CFrame} {x2 : State} (h : Keeps s0 x2) :
    KeepsO s0 (execSideDown x0 x1 x2) := by
  unfold execSideDown
  refine Keeps.next ?_
  refine State.accept_keeps ?_ ?_
  · exact h
  · intro b1 b2 b3
    split
    · exact b3
    · extract_lets +onlyGivenNames a1
      extract_lets +onlyGivenNames a2
      have ka2 : Keeps s0 a2 := by
        unfold a2
        refine State.modColl_keeps ?_
        exact b3
      split
      · exact ka2
      · refine State.collReading_keeps ?_ ?_
        · exact ka2
        · intro b4 b5
          extract_lets +onlyGivenNames a3
          have ka3 : Keeps s0 a3 := by
            unfold a3
            refine State.sideApply_keeps ?_
            exact b5
          refine State.redStep_keeps ?_
          refine State.flowSend_keeps ?_
          exact ka3

theorem execXfer_keeps {s0 : State} {x0 : Fin 4} {x1 : CFrame} {x2 : State} (h : Keeps s0 x2) :
    KeepsO s0 (execXfer x0 x1 x2) := by
  unfold execXfer
  refine Keeps.next ?_
  refine State.accept_keeps ?_ ?_
  · exact h
  · intro b1 b2 b3
    split
    · refine State.permuteStep_keeps ?_
      refine State.modColl_keeps ?_
      exact b3
    · split
      · extract_lets +onlyGivenNames a1
        have ka1 : Keeps s0 a1 := by
          unfold a1
          refine State.putUnit_keeps ?_
          exact b3
        refine State.dataStep_keeps ?_
        refine State.flowSend_keeps ?_
        exact ka1
      · exact b3

theorem State.putFetch_keeps {s0 : State} {x0 : State} {x1 : CmdRef} {x2 : Cmd} {x3 : Nat} {x4 : Nat} {x5 : Nat} (h : Keeps s0 x0) :
    Keeps s0 (State.putFetch x0 x1 x2 x3 x4 x5) := by
  unfold State.putFetch
  extract_lets +onlyGivenNames a1
  split
  · refine State.holdWrite_keeps ?_
    exact h
  · extract_lets +onlyGivenNames a2
    have ka2 : Keeps s0 a2 := by
      unfold a2
      refine State.modColl_keeps ?_
      refine State.wrote_keeps ?_
      refine State.hubWrites_keeps ?_
      exact h
    split
    · refine State.collEnd_keeps ?_
      exact ka2
    · exact ka2

theorem State.collStep_keeps {s0 : State} {x0 : State} {x1 : CmdRef} (h : Keeps s0 x0) :
    Keeps s0 (State.collStep x0 x1) := by
  unfold State.collStep
  split
  · extract_lets +onlyGivenNames a1
    have ka1 : Keeps s0 a1 := by
      unfold a1
      split
      · refine State.redStep_keeps ?_
        exact h
      · split
        · refine State.permuteStep_keeps ?_
          exact h
        · split
          · exact h
          · refine State.dataStep_keeps ?_
            exact h
    refine State.regrant_keeps ?_
    exact ka1
  · exact h

theorem State.drainD_keeps {s0 : State} {x0 : State} {x1 : CmdRef} (h : Keeps s0 x0) :
    Keeps s0 (State.drainD x0 x1) := by
  unfold State.drainD
  split
  · exact h
  · extract_lets +onlyGivenNames a1
    have ka1 : Keeps s0 a1 := by
      unfold a1
      refine Keeps.foldl ?_ ?_
      · intro b1 b2 b3
        split
        · refine State.putResult_keeps ?_
          exact b3
        · refine State.putUnit_keeps ?_
          exact b3
        · refine State.putFetch_keeps ?_
          exact b3
      · refine State.modColl_keeps ?_
        exact h
    extract_lets +onlyGivenNames a2
    split
    · exact ka1
    · refine Keeps.foldl ?_ ?_
      · intro b1 b2 b3
        refine State.ackPeer_keeps ?_
        refine State.modColl_keeps ?_
        exact b3
      · exact ka1

theorem State.wakeColl_keeps {s0 : State} {x0 : State} {x1 : CmdRef} (h : Keeps s0 x0) :
    Keeps s0 (State.wakeColl x0 x1) := by
  unfold State.wakeColl
  split
  · split
    · extract_lets +onlyGivenNames a1
      have ka1 : Keeps s0 a1 := by
        unfold a1
        split
        · exact h
        · split
          · refine State.takeLeaf_keeps ?_
            exact h
          · refine State.startData_keeps ?_
            exact h
      refine State.collStep_keeps ?_
      refine State.drainD_keeps ?_
      exact ka1
    · exact h
  · exact h

theorem execCollectiveAck_keeps {s0 : State} {x0 : Fin 4} {x1 : CFrame} {x2 : State} (h : Keeps s0 x2) :
    KeepsO s0 (execCollectiveAck x0 x1 x2) := by
  unfold execCollectiveAck
  refine Keeps.next ?_
  refine State.withFrame_keeps ?_ ?_
  · exact h
  · intro b1 b2
    split
    · split
      · refine State.gangAck_keeps ?_
        exact b2
      · exact b2
    · extract_lets +onlyGivenNames a1
      extract_lets +onlyGivenNames a2
      extract_lets +onlyGivenNames a3
      split
      · extract_lets +onlyGivenNames a4
        extract_lets +onlyGivenNames a5
        have ka5 : Keeps s0 a5 := by
          unfold a5
          refine State.modColl_keeps ?_
          exact b2
        refine State.collStep_keeps ?_
        refine State.pumpColl_keeps ?_
        exact ka5
      · split
        · extract_lets +onlyGivenNames a4
          extract_lets +onlyGivenNames a5
          extract_lets +onlyGivenNames a6
          refine State.sendColl_keeps ?_
          refine Keeps.upd ?_
          exact b2
        · split
          · exact b2
          · split
            · refine Keeps.upd ?_
              exact b2
            · refine State.discard_keeps ?_
              exact b2

theorem execFetchReq_keeps {s0 : State} {x0 : Fin 4} {x1 : CFrame} {x2 : State} (h : Keeps s0 x2) :
    KeepsO s0 (execFetchReq x0 x1 x2) := by
  unfold execFetchReq
  refine Keeps.next (State.withFrame_keeps h ?_)
  intro y k
  split
  · exact State.discard_keeps k
  · extract_lets key vc remote len win serve nak
    have ks : ∀ {t : State} {fs : List CFrame}, Keeps s0 t → Keeps s0 (serve t fs) := by
      intro t fs k
      unfold serve
      extract_lets u fl y
      exact State.sendColl_keeps (Keeps.like (State.sendAck_keeps k) rfl rfl rfl rfl)
    have kn : ∀ {t : State} {c : Nat}, Keeps s0 t → Keeps s0 (nak t c) := fun k => ks k
    split
    · exact State.sendAck_keeps k
    split
    · exact kn k
    split
    · exact k
    · have ku : Keeps s0 (y.hubReads [(remote, len)]) := State.hubReads_keeps k
      dsimp only
      split
      · exact State.placeHold_keeps (State.report_keeps (kn ku))
      · exact ks ku

theorem execFetchData_keeps {s0 : State} {x0 : Fin 4} {x1 : CFrame} {x2 : State} (h : Keeps s0 x2) :
    KeepsO s0 (execFetchData x0 x1 x2) := by
  unfold execFetchData
  refine Keeps.next ?_
  refine State.accept_keeps ?_ ?_
  · exact h
  · intro b1 b2 b3
    split
    · exact b3
    · refine State.putFetch_keeps ?_
      exact b3

theorem execFetchNak_keeps {s0 : State} {x0 : Fin 4} {x1 : CFrame} {x2 : State} (h : Keeps s0 x2) :
    KeepsO s0 (execFetchNak x0 x1 x2) := by
  unfold execFetchNak
  refine Keeps.next ?_
  refine State.accept_keeps ?_ ?_
  · exact h
  · intro b1 b2 b3
    split
    · refine State.collFault_keeps ?_
      exact b3
    · exact b3

theorem execAbort_keeps {s0 : State} {x0 : Fin 4} {x1 : CFrame} {x2 : State} (h : Keeps s0 x2) :
    KeepsO s0 (execAbort x0 x1 x2) := by
  unfold execAbort
  refine Keeps.next ?_
  refine State.accept_keeps ?_ ?_
  · exact h
  · intro b1 b2 b3
    refine State.abortDown_keeps ?_
    exact b3

theorem State.setQp_keeps {s0 : State} {x0 : State} {x1 : Nat} {x2 : Nat} {x3 : Qp} (h : Keeps s0 x0) :
    Keeps s0 (State.setQp x0 x1 x2 x3) := by
  unfold State.setQp
  refine State.setNet_keeps ?_
  exact h

theorem State.resend_keeps {s0 : State} {x0 : State} {x1 : Nat} {x2 : Nat} (h : Keeps s0 x0) :
    Keeps s0 (State.resend x0 x1 x2) := by
  unfold State.resend
  extract_lets +onlyGivenNames a1
  split
  · refine State.setQp_keeps ?_
    exact h
  · split
    · exact h
    · extract_lets +onlyGivenNames a2
      refine Keeps.foldl ?_ ?_
      · intro b1 b2 b3
        refine State.emit_keeps ?_
        exact b3
      · refine State.setQp_keeps ?_
        exact h

theorem State.moveQps_keeps {s0 : State} {x0 : State} {x1 : Nat} (h : Keeps s0 x0) :
    Keeps s0 (State.moveQps x0 x1) := by
  unfold State.moveQps
  refine Keeps.foldl ?_ ?_
  · intro b1 b2 b3
    extract_lets +onlyGivenNames a1
    split
    · exact b3
    · extract_lets +onlyGivenNames a2
      split
      · refine State.resend_keeps ?_
        refine State.setQp_keeps ?_
        exact b3
      · exact b3
  · exact h

theorem State.portState_keeps {s0 : State} {x0 : State} {x1 : Nat} {x2 : Nat} {x3 : Nat} (h : Keeps s0 x0) :
    Keeps s0 (State.portState x0 x1 x2 x3) := by
  unfold State.portState
  extract_lets +onlyGivenNames a1
  extract_lets +onlyGivenNames a2
  have ka2 : Keeps s0 a2 := by
    unfold a2
    refine State.setPort_keeps ?_
    exact h
  extract_lets +onlyGivenNames a3
  have ka3 : Keeps s0 a3 := by
    unfold a3
    refine State.incSat_keeps ?_
    refine State.setFld_keeps ?_
    refine State.setFld_keeps ?_
    exact ka2
  refine State.trace_keeps ?_
  refine State.aplicRaise_keeps ?_
  exact ka3

theorem State.portLeaves_keeps {s0 : State} {x0 : State} {x1 : Nat} {x2 : Nat} {x3 : Nat} (h : Keeps s0 x0) :
    Keeps s0 (State.portLeaves x0 x1 x2 x3) := by
  unfold State.portLeaves
  extract_lets +onlyGivenNames a1
  extract_lets +onlyGivenNames a2
  have ka2 : Keeps s0 a2 := by
    unfold a2
    refine State.portState_keeps ?_
    exact h
  extract_lets +onlyGivenNames a3
  have ka3 : Keeps s0 a3 := by
    unfold a3
    split
    · refine State.report_keeps ?_
      exact ka2
    · exact ka2
  split
  · exact ka3
  · extract_lets +onlyGivenNames a4
    extract_lets +onlyGivenNames a5
    have ka5 : Keeps s0 a5 := by
      unfold a5
      refine State.moveQps_keeps ?_
      exact ka3
    split
    · exact ka5
    · extract_lets +onlyGivenNames a6
      extract_lets +onlyGivenNames a7
      split
      · exact ka5
      · refine State.send_keeps ?_
        exact ka5

theorem State.portComesUp_keeps {s0 : State} {x0 : State} {x1 : Nat} (h : Keeps s0 x0) :
    Keeps s0 (State.portComesUp x0 x1) := by
  unfold State.portComesUp
  extract_lets +onlyGivenNames a1
  have ka1 : Keeps s0 a1 := by
    unfold a1
    refine State.portState_keeps ?_
    exact h
  refine State.pumpAll_keeps ?_
  refine State.moveQps_keeps ?_
  exact ka1

theorem execPortTrainingDone_keeps {s0 : State} {x0 : Fin 8} {x1 : State} (h : Keeps s0 x1) :
    KeepsO s0 (execPortTrainingDone x0 x1) := by
  unfold execPortTrainingDone
  refine Keeps.next ?_
  split
  · refine Keeps.upd ?_
    exact h
  · split
    · refine State.portComesUp_keeps ?_
      exact h
    · exact h

theorem execModeMismatch_keeps {s0 : State} {x0 : Fin 8} {x1 : State} (h : Keeps s0 x1) :
    KeepsO s0 (execModeMismatch x0 x1) := by
  unfold execModeMismatch
  refine Keeps.next ?_
  split
  · refine State.setFld_keeps ?_
    exact h
  · exact h

theorem execPortLinkFault_keeps {s0 : State} {x0 : Fin 8} {x1 : State} (h : Keeps s0 x1) :
    KeepsO s0 (execPortLinkFault x0 x1) := by
  unfold execPortLinkFault
  refine Keeps.next ?_
  split
  · refine State.portLeaves_keeps ?_
    exact h
  · exact h

theorem execPortFecFault_keeps {s0 : State} {x0 : Fin 8} {x1 : Nat} {x2 : State} (h : Keeps s0 x2) :
    KeepsO s0 (execPortFecFault x0 x1 x2) := by
  unfold execPortFecFault
  extract_lets +onlyGivenNames a1
  have ka1 : Keeps s0 a1 := by
    unfold a1
    refine State.incSat_keeps ?_
    exact h
  extract_lets +onlyGivenNames a2
  refine Keeps.next ?_
  split
  · exact h
  · split
    · refine State.portLeaves_keeps ?_
      exact ka1
    · exact ka1

theorem execPortAutoUpRetry_keeps {s0 : State} {x0 : Fin 8} {x1 : State} (h : Keeps s0 x1) :
    KeepsO s0 (execPortAutoUpRetry x0 x1) := by
  unfold execPortAutoUpRetry
  refine Keeps.next ?_
  split
  · refine State.portState_keeps ?_
    exact h
  · exact h

theorem execSerdesAdaptWindow_keeps {s0 : State} {x0 : Fin 8} {x1 : Nat} {x2 : State} {x3 : Fin 2} (h : Keeps s0 x2) :
    KeepsO s0 (execSerdesAdaptWindow x0 x1 x2 x3) := by
  unfold execSerdesAdaptWindow
  extract_lets +onlyGivenNames a1
  extract_lets +onlyGivenNames a2
  split
  extract_lets +onlyGivenNames a3
  have ka3 : Keeps s0 a3 := by
    unfold a3
    refine State.setPort_keeps ?_
    refine Keeps.of2 ‹_› ?_
    refine State.draw_keeps ?_
    exact h
  refine Keeps.next ?_
  split
  · refine State.incWrap_keeps ?_
    exact ka3
  · exact h

theorem execArpRequest_keeps {s0 : State} {x0 : Fin 8} {x1 : Nat} {x2 : Nat} {x3 : Nat} {x4 : State} {x5 : RxHdr} (h : Keeps s0 x4) :
    KeepsO s0 (execArpRequest x0 x1 x2 x3 x4 x5) := by
  unfold execArpRequest
  extract_lets +onlyGivenNames a1
  refine Keeps.next ?_
  split
  · refine State.rxFrame_keeps ?_ ?_
    · exact h
    · intro b1 b2
      split
      · refine State.send_keeps ?_
        exact b2
      · exact b2
  · exact h

theorem execNeighborSolicitation_keeps {s0 : State} {x0 : Fin 8} {x1 : Nat} {x2 : Nat} {x3 : Nat} {x4 : State} {x5 : RxHdr} (h : Keeps s0 x4) :
    KeepsO s0 (execNeighborSolicitation x0 x1 x2 x3 x4 x5) := by
  unfold execNeighborSolicitation
  extract_lets +onlyGivenNames a1
  refine Keeps.next ?_
  split
  · refine State.rxFrame_keeps ?_ ?_
    · exact h
    · intro b1 b2
      split
      · refine State.send_keeps ?_
        exact b2
      · exact b2
  · exact h

theorem execIcmpEchoRequest_keeps {s0 : State} {x0 : Fin 8} {x1 : EchoReq} {x2 : State} (h : Keeps s0 x2) :
    KeepsO s0 (execIcmpEchoRequest x0 x1 x2) := by
  unfold execIcmpEchoRequest
  extract_lets +onlyGivenNames a1
  extract_lets +onlyGivenNames a2
  extract_lets +onlyGivenNames a3
  extract_lets +onlyGivenNames a4
  extract_lets +onlyGivenNames a5
  refine Keeps.next ?_
  split
  · refine State.rxFrame_keeps ?_ ?_
    · exact h
    · intro b1 b2
      split
      · exact b2
      · refine State.send_keeps ?_
        refine State.setNet_keeps ?_
        exact b2
  · exact h

theorem execUnsupportedProtocolFrame_keeps {s0 : State} {x0 : Fin 8} {x1 : RxHdr} {x2 : Nat} {x3 : State} (h : Keeps s0 x3) :
    KeepsO s0 (execUnsupportedProtocolFrame x0 x1 x2 x3) := by
  unfold execUnsupportedProtocolFrame
  refine Keeps.next ?_
  split
  · refine State.rxFrame_keeps ?_ ?_
    · exact h
    · intro b1 b2
      refine State.incSat_keeps ?_
      exact b2
  · exact h

theorem State.pausePrio_keeps {s0 : State} {x0 : State} {x1 : Nat} {x2 : Nat} {x3 : Nat} (h : Keeps s0 x0) :
    Keeps s0 (State.pausePrio x0 x1 x2 x3) := by
  unfold State.pausePrio
  refine State.setPort_keeps ?_
  exact h

theorem execPfcXoffRepeat_keeps {s0 : State} {x0 : Fin 8} {x1 : Fin 8} {x2 : Nat} {x3 : State} (h : Keeps s0 x3) :
    KeepsO s0 (execPfcXoffRepeat x0 x1 x2 x3) := by
  unfold execPfcXoffRepeat
  extract_lets +onlyGivenNames a1
  extract_lets +onlyGivenNames a2
  extract_lets +onlyGivenNames a3
  extract_lets +onlyGivenNames a4
  extract_lets +onlyGivenNames a5
  extract_lets +onlyGivenNames a6
  have ka6 : Keeps s0 a6 := by
    unfold a6
    refine State.setPort_keeps ?_
    exact h
  refine Keeps.next ?_
  split
  · exact h
  · split
    · refine State.setPort_keeps ?_
      exact h
    · split
      · refine State.send_keeps ?_
        exact ka6
      · split
        · refine State.send_keeps ?_
          exact ka6
        · exact ka6

theorem execPtpEventMessage_keeps {s0 : State} {x0 : Fin 8} {x1 : Nat} {x2 : State} {x3 : Bool} {x4 : RxHdr} (h : Keeps s0 x2) :
    KeepsO s0 (execPtpEventMessage x0 x1 x2 x3 x4) := by
  unfold execPtpEventMessage
  extract_lets +onlyGivenNames a1
  extract_lets +onlyGivenNames a2
  extract_lets +onlyGivenNames a3
  have ka3 : ∀ (s : State), Keeps s0 s → Keeps s0 (a3 s) := by
    intro b1 b2
    unfold a3
    refine State.setPort_keeps ?_
    exact b2
  refine Keeps.next ?_
  split
  · exact h
  · split
    · refine State.send_keeps ?_
      refine ka3 ?_ ?_
      exact h
    · refine State.rxFrame_keeps ?_ ?_
      · exact h
      · intro b1 b2
        refine ka3 ?_ ?_
        exact b2

theorem execPpsInEdge_keeps {s0 : State} {x0 : State} (h : Keeps s0 x0) :
    KeepsO s0 (execPpsInEdge x0) := by
  unfold execPpsInEdge
  refine Keeps.next ?_
  split
  · refine State.setFld_keeps ?_
    exact h
  · exact h

theorem execPpsOutPulse_keeps {s0 : State} {x0 : State} (h : Keeps s0 x0) :
    KeepsO s0 (execPpsOutPulse x0) := by
  unfold execPpsOutPulse
  extract_lets +onlyGivenNames a1
  refine Keeps.next ?_
  refine Keeps.upd ?_
  exact h

theorem State.timeStep_keeps {s0 : State} {x0 : State} {x1 : Nat} (h : Keeps s0 x0) :
    Keeps s0 (State.timeStep x0 x1) := by
  unfold State.timeStep
  split
  · refine State.traceFree_keeps ?_
    refine State.setFld_keeps ?_
    exact h
  · refine State.incSat_keeps ?_
    refine Keeps.upd ?_
    exact h

theorem execNetTimeStepWrite_keeps {s0 : State} {x0 : Agent} {x1 : Nat} {x2 : State} (h : Keeps s0 x2) :
    KeepsO s0 (execNetTimeStepWrite x0 x1 x2) := by
  unfold execNetTimeStepWrite
  refine Keeps.next ?_
  split
  · exact h
  · split
    · refine State.timeStep_keeps ?_
      exact h
    · refine State.mmioRefuse_keeps ?_
      exact h

theorem execTimeReplicaResync_keeps {s0 : State} {x0 : Fin 37} {x1 : State} (h : Keeps s0 x1) :
    KeepsO s0 (execTimeReplicaResync x0 x1) := by
  unfold execTimeReplicaResync
  split
  refine Keeps.next ?_
  refine Keeps.upd ?_
  refine Keeps.of2 ‹_› ?_
  refine State.draw_keeps ?_
  exact h

theorem State.netWrite_keeps {s0 : State} {x0 : State} {x1 : Nat} {x2 : Nat} {x3 : Nat} (h : Keeps s0 x0) :
    Keeps s0 (State.netWrite x0 x1 x2 x3) := by
  unfold State.netWrite
  split
  · exact h
  · split
    · refine State.doorbellWrite_keeps ?_
      exact h
    · refine State.hubWrites_keeps ?_
      exact h

theorem State.complete32_keeps {s0 : State} {x0 : State} {x1 : Nat} {x2 : Nat} {x3 : Nat} {x4 : Nat} {x5 : Nat} {x6 : Nat} {x7 : Nat} (h : Keeps s0 x0) :
    Keeps s0 (State.complete32 x0 x1 x2 x3 x4 x5 x6 x7) := by
  unfold State.complete32
  extract_lets +onlyGivenNames a1
  extract_lets +onlyGivenNames a2
  extract_lets +onlyGivenNames a3
  extract_lets +onlyGivenNames a4
  have ka4 : Keeps s0 a4 := by
    unfold a4
    refine State.hubWrites_keeps ?_
    exact h
  extract_lets +onlyGivenNames a5
  have ka5 : Keeps s0 a5 := by
    unfold a5
    refine State.setQp_keeps ?_
    exact ka4
  extract_lets +onlyGivenNames a6
  extract_lets +onlyGivenNames a7
  split
  · exact ka5
  · refine State.msi_keeps ?_
    exact ka5

theorem State.qpState_keeps {s0 : State} {x0 : State} {x1 : Nat} {x2 : Nat} {x3 : Nat} (h : Keeps s0 x0) :
    Keeps s0 (State.qpState x0 x1 x2 x3) := by
  unfold State.qpState
  refine State.hubWrites_keeps ?_
  refine State.setQp_keeps ?_
  exact h

theorem State.flushQp_keeps {s0 : State} {x0 : State} {x1 : Nat} {x2 : Nat} (h : Keeps s0 x0) :
    Keeps s0 (State.flushQp x0 x1 x2) := by
  unfold State.flushQp
  extract_lets +onlyGivenNames a1
  extract_lets +onlyGivenNames a2
  have ka2 : Keeps s0 a2 := by
    unfold a2
    refine State.hubReads_keeps ?_
    exact h
  extract_lets +onlyGivenNames a3
  have ka3 : Keeps s0 a3 := by
    unfold a3
    refine Keeps.foldl ?_ ?_
    · intro b1 b2 b3
      refine State.complete32_keeps ?_
      exact b3
    · exact ka2
  extract_lets +onlyGivenNames a4
  have ka4 : Keeps s0 a4 := by
    unfold a4
    refine Keeps.foldl ?_ ?_
    · intro b1 b2 b3
      refine State.complete32_keeps ?_
      exact b3
    · exact ka3
  extract_lets +onlyGivenNames a5
  have ka5 : Keeps s0 a5 := by
    unfold a5
    split
    · split
      · refine State.complete32_keeps ?_
        exact ka4
      · exact ka4
    · exact ka4
  extract_lets +onlyGivenNames a6
  have ka6 : Keeps s0 a6 := by
    unfold a6
    refine Keeps.foldl ?_ ?_
    · intro b1 b2 b3
      refine State.complete32_keeps ?_
      exact b3
    · exact ka5
  refine State.setQp_keeps ?_
  exact ka6

theorem State.netCommands_keeps {s0 : State} {x0 : State} (h : Keeps s0 x0) :
    Keeps s0 (State.netCommands x0) := by
  unfold State.netCommands
  extract_lets +onlyGivenNames a1
  refine Keeps.foldl ?_ ?_
  · intro b1 b2 b3
    split
    · refine State.finish_keeps ?_
      exact b3
    · exact b3
  · exact h

theorem State.qpError_keeps {s0 : State} {x0 : State} {x1 : Nat} {x2 : Nat} (h : Keeps s0 x0) :
    Keeps s0 (State.qpError x0 x1 x2) := by
  unfold State.qpError
  refine State.netCommands_keeps ?_
  refine State.flushQp_keeps ?_
  refine State.qpState_keeps ?_
  exact h

theorem State.boundary_keeps {s0 : State} {x0 : State} {x1 : Nat} {x2 : Nat} (h : Keeps s0 x0) :
    Keeps s0 (State.boundary x0 x1 x2) := by
  unfold State.boundary
  extract_lets +onlyGivenNames a1
  split
  · exact h
  · extract_lets +onlyGivenNames a2
    refine State.netCommands_keeps ?_
    refine State.setQp_keeps ?_
    exact h

theorem State.rejectSend_keeps {s0 : State} {x0 : State} {x1 : Nat} {x2 : Nat} {x3 : SendWr} (h : Keeps s0 x0) :
    Keeps s0 (State.rejectSend x0 x1 x2 x3) := by
  unfold State.rejectSend
  extract_lets +onlyGivenNames a1
  extract_lets +onlyGivenNames a2
  have ka2 : Keeps s0 a2 := by
    unfold a2
    refine State.setQp_keeps ?_
    exact h
  split
  · refine State.qpError_keeps ?_
    refine State.complete32_keeps ?_
    exact ka2
  · refine State.setQp_keeps ?_
    exact ka2

theorem State.startWr_keeps {s0 : State} {x0 : State} {x1 : Nat} {x2 : Nat} {x3 : SendWr} (h : Keeps s0 x0) :
    Keeps s0 (State.startWr x0 x1 x2 x3) := by
  unfold State.startWr
  extract_lets +onlyGivenNames a1
  extract_lets +onlyGivenNames a2
  extract_lets +onlyGivenNames a3
  have ka3 : Keeps s0 a3 := by
    unfold a3
    refine State.setQp_keeps ?_
    exact h
  split
  · refine Keeps.foldl ?_ ?_
    · intro b1 b2 b3
      refine State.emit_keeps ?_
      exact b3
    · exact ka3
  · exact ka3

theorem State.sendNext_keeps {s0 : State} {x0 : State} {x1 : Nat} {x2 : Nat} (h : Keeps s0 x0) :
    Keeps s0 (State.sendNext x0 x1 x2).1 := by
  unfold State.sendNext
  extract_lets +onlyGivenNames a1
  split
  · with_reducible assumption
  · extract_lets +onlyGivenNames a2
    extract_lets +onlyGivenNames a3
    extract_lets +onlyGivenNames a4
    extract_lets +onlyGivenNames a5
    split
    · with_reducible assumption
    · extract_lets +onlyGivenNames a6
      have ka6 : Keeps s0 a6 := by
        unfold a6
        refine State.hubReads_keeps ?_
        exact h
      extract_lets +onlyGivenNames a7
      extract_lets +onlyGivenNames a8
      have ka8 : Keeps s0 a8 := by
        unfold a8
        split
        · exact ka6
        · refine State.hubReads_keeps ?_
          exact ka6
      split
      · refine Keeps.fst ?_
        refine State.rejectSend_keeps ?_
        exact ka8
      · refine Keeps.fst ?_
        refine State.startWr_keeps ?_
        exact ka8

theorem State.startSends_keeps {s0 : State} {x0 : State} {x1 : Nat} {x2 : Nat} {x3 : Nat} (h : Keeps s0 x0) :
    Keeps s0 (State.startSends x0 x1 x2 x3) := by
  induction x3 generalizing x0 with
  | zero =>
    unfold State.startSends
    exact h
  | succ n ih =>
    unfold State.startSends
    extract_lets +onlyGivenNames a1
    have ka1 : Keeps s0 a1.fst := by
      unfold a1
      refine State.sendNext_keeps ?_
      exact h
    split
    · refine ih ?_
      exact ka1
    · exact ka1

theorem State.pumpQp_keeps {s0 : State} {x0 : State} {x1 : Nat} {x2 : Nat} (h : Keeps s0 x0) :
    Keeps s0 (State.pumpQp x0 x1 x2) := by
  unfold State.pumpQp
  extract_lets +onlyGivenNames a1
  extract_lets +onlyGivenNames a2
  have ka2 : Keeps s0 a2 := by
    unfold a2
    split
    · refine State.resend_keeps ?_
      exact h
    · exact h
  refine State.startSends_keeps ?_
  exact ka2

theorem State.pumpRoce_keeps {s0 : State} {x0 : State} (h : Keeps s0 x0) :
    Keeps s0 (State.pumpRoce x0) := by
  unfold State.pumpRoce
  refine Keeps.foldl ?_ ?_
  · intro b1 b2 b3
    refine Keeps.foldl ?_ ?_
    · intro b4 b5 b6
      refine State.pumpQp_keeps ?_
      exact b6
    · exact b3
  · exact h

theorem execPfcPauseExpiry_keeps {s0 : State} {x0 : Fin 8} {x1 : Fin 8} {x2 : State} (h : Keeps s0 x2) :
    KeepsO s0 (execPfcPauseExpiry x0 x1 x2) := by
  unfold execPfcPauseExpiry
  extract_lets +onlyGivenNames a1
  extract_lets +onlyGivenNames a2
  refine Keeps.next ?_
  split
  · exact h
  · refine State.pumpRoce_keeps ?_
    refine State.pumpAll_keeps ?_
    refine State.unpause_keeps ?_
    refine State.setPort_keeps ?_
    exact h

theorem execPfcFrame_keeps {s0 : State} {x0 : Fin 8} {x1 : Nat} {x2 : List Nat} {x3 : State} {x4 : RxHdr} (h : Keeps s0 x3) :
    KeepsO s0 (execPfcFrame x0 x1 x2 x3 x4) := by
  unfold execPfcFrame
  extract_lets +onlyGivenNames a1
  refine Keeps.next ?_
  split
  · exact h
  · refine State.rxFrame_keeps ?_ ?_
    · exact h
    · intro b1 b2
      split
      · refine State.incSat_keeps ?_
        exact b2
      · extract_lets +onlyGivenNames a2
        extract_lets +onlyGivenNames a3
        extract_lets +onlyGivenNames a4
        have ka4 : Keeps s0 a4 := by
          unfold a4
          refine Keeps.foldl ?_ ?_
          · intro b3 b4 b5
            refine State.pausePrio_keeps ?_
            exact b5
          · exact b2
        extract_lets +onlyGivenNames a5
        have ka5 : Keeps s0 a5 := by
          unfold a5
          split
          · refine State.incSat_keeps ?_
            exact ka4
          · exact ka4
        refine State.pumpRoce_keeps ?_
        refine State.pumpAll_keeps ?_
        refine State.unpause_keeps ?_
        exact ka5

theorem State.ackOldest_keeps {s0 : State} {x0 : State} {x1 : Nat} {x2 : Nat} {x3 : Nat} {x4 : SendWr} {x5 : List SendWr} (h : Keeps s0 x0) :
    Keeps s0 (State.ackOldest x0 x1 x2 x3 x4 x5).1 := by
  unfold State.ackOldest
  extract_lets +onlyGivenNames a2
  split
  · refine Keeps.fst ?_
    refine State.qpError_keeps ?_
    refine State.complete32_keeps ?_
    refine State.setQp_keeps ?_
    exact h
  · split
    · refine Keeps.fst ?_
      split
      · refine State.setQp_keeps ?_
        exact h
      · exact h
    · split
      · refine Keeps.fst ?_
        refine State.complete32_keeps ?_
        refine State.setQp_keeps ?_
        exact h
      · split
        · refine Keeps.fst ?_
          refine State.setQp_keeps ?_
          exact h
        · with_reducible assumption

theorem State.ackTo_keeps {s0 : State} {x0 : State} {x1 : Nat} {x2 : Nat} {x3 : Nat} {x4 : Nat} (h : Keeps s0 x0) :
    Keeps s0 (State.ackTo x0 x1 x2 x3 x4) := by
  induction x4 generalizing x0 with
  | zero =>
    unfold State.ackTo
    exact h
  | succ n ih =>
    unfold State.ackTo
    split
    · exact h
    · extract_lets +onlyGivenNames a2
      have ka2 : Keeps s0 a2.fst := by
        unfold a2
        refine State.ackOldest_keeps ?_
        exact h
      split
      · refine ih ?_
        exact ka2
      · exact ka2

theorem State.failSend_keeps {s0 : State} {x0 : State} {x1 : Nat} {x2 : Nat} {x3 : Nat} (h : Keeps s0 x0) :
    Keeps s0 (State.failSend x0 x1 x2 x3) := by
  unfold State.failSend
  extract_lets +onlyGivenNames a1
  split
  · exact h
  · refine State.qpError_keeps ?_
    refine State.complete32_keeps ?_
    refine State.setQp_keeps ?_
    exact h

theorem State.roceIn_keeps {s0 : State} {x0 : State} {x1 : Nat} {x2 : Nat} {x3 : RxHdr} {x4 : Nat → State → State} (h : Keeps s0 x0) (k4 : ∀ {y0 y1}, Keeps s0 y1 → Keeps s0 (x4 y0 y1)) :
    Keeps s0 (State.roceIn x0 x1 x2 x3 x4) := by
  unfold State.roceIn
  extract_lets +onlyGivenNames a1
  split
  · exact h
  · refine State.rxUdp_keeps ?_ ?_
    · exact h
    · intro b1 b2
      split
      · exact b2
      · split
        · refine State.incSat_keeps ?_
          exact b2
        · split
          · exact b2
          · refine k4 ?_
            exact b2

theorem execRoceAck_keeps {s0 : State} {x0 : Fin 8} {x1 : Nat} {x2 : Nat} {x3 : State} {x4 : RxHdr} (h : Keeps s0 x3) :
    KeepsO s0 (execRoceAck x0 x1 x2 x3 x4) := by
  unfold execRoceAck
  refine Keeps.next ?_
  refine State.roceIn_keeps ?_ ?_
  · exact h
  · intro b1 b2 b3
    refine State.pumpQp_keeps ?_
    refine State.ackTo_keeps ?_
    exact b3

theorem State.retry_keeps {s0 : State} {x0 : State} {x1 : Nat} {x2 : Nat} (h : Keeps s0 x0) :
    Keeps s0 (State.retry x0 x1 x2) := by
  unfold State.retry
  extract_lets +onlyGivenNames a1
  split
  · refine State.resend_keeps ?_
    refine State.setQp_keeps ?_
    exact h
  · refine State.failSend_keeps ?_
    exact h

theorem execRoceNak_keeps {s0 : State} {x0 : Fin 8} {x1 : Nat} {x2 : Nat} {x3 : NakKind} {x4 : State} {x5 : RxHdr} (h : Keeps s0 x4) :
    KeepsO s0 (execRoceNak x0 x1 x2 x3 x4 x5) := by
  unfold execRoceNak
  refine Keeps.next ?_
  refine State.roceIn_keeps ?_ ?_
  · exact h
  · intro b1 b2 b3
    extract_lets +onlyGivenNames a1
    have ka1 : Keeps s0 a1 := by
      unfold a1
      refine State.ackTo_keeps ?_
      exact b3
    extract_lets +onlyGivenNames a2
    split
    · exact ka1
    · split
      · refine State.retry_keeps ?_
        exact ka1
      · split
        · refine State.resend_keeps ?_
          refine State.setQp_keeps ?_
          exact ka1
        · refine State.failSend_keeps ?_
          exact ka1
      · refine State.failSend_keeps ?_
        exact ka1
      · refine State.failSend_keeps ?_
        exact ka1
      · refine State.failSend_keeps ?_
        exact ka1

theorem execReadResponse_keeps {s0 : State} {x0 : Fin 8} {x1 : RocePkt} {x2 : State} (h : Keeps s0 x2) :
    KeepsO s0 (execReadResponse x0 x1 x2) := by
  unfold execReadResponse
  refine Keeps.next ?_
  refine State.roceIn_keeps ?_ ?_
  · exact h
  · intro b1 b2 b3
    extract_lets +onlyGivenNames a1
    have ka1 : Keeps s0 a1 := by
      unfold a1
      refine State.ackTo_keeps ?_
      exact b3
    extract_lets +onlyGivenNames a2
    split
    · split
      · exact b3
      · split
        · exact ka1
        · extract_lets +onlyGivenNames a3
          extract_lets +onlyGivenNames a4
          have ka4 : Keeps s0 a4 := by
            unfold a4
            refine State.netWrite_keeps ?_
            exact ka1
          extract_lets +onlyGivenNames a5
          split
          · extract_lets +onlyGivenNames a6
            have ka6 : Keeps s0 a6 := by
              unfold a6
              refine State.complete32_keeps ?_
              refine State.setQp_keeps ?_
              exact ka4
            refine State.pumpQp_keeps ?_
            refine State.ackTo_keeps ?_
            exact ka6
          · refine State.setQp_keeps ?_
            exact ka4
    · exact ka1

theorem execRoceAckTimeout_keeps {s0 : State} {x0 : Fin 2} {x1 : Nat} {x2 : State} (h : Keeps s0 x2) :
    KeepsO s0 (execRoceAckTimeout x0 x1 x2) := by
  unfold execRoceAckTimeout
  extract_lets +onlyGivenNames a1
  refine Keeps.next ?_
  split
  · exact h
  · refine State.retry_keeps ?_
    exact h

theorem execCnpReceived_keeps {s0 : State} {x0 : Fin 8} {x1 : Nat} {x2 : State} {x3 : RxHdr} (h : Keeps s0 x2) :
    KeepsO s0 (execCnpReceived x0 x1 x2 x3) := by
  unfold execCnpReceived
  extract_lets +onlyGivenNames a1
  refine Keeps.next ?_
  split
  · refine State.rxUdp_keeps ?_ ?_
    · exact h
    · intro b1 b2
      refine State.incSat_keeps ?_
      exact b2
  · exact h

theorem State.netDb_keeps {s0 : State} {x0 : State} {x1 : Nat} {x2 : Nat} {x3 : Bool} (h : Keeps s0 x0) :
    Keeps s0 (State.netDb x0 x1 x2 x3) := by
  unfold State.netDb
  extract_lets +onlyGivenNames a1
  extract_lets +onlyGivenNames a2
  split
  · exact h
  · split
    · refine State.setQp_keeps ?_
      exact h
    · refine State.pumpQp_keeps ?_
      refine State.setQp_keeps ?_
      exact h

theorem execNetDbSend_keeps {s0 : State} {x0 : Fin 2} {x1 : Nat} {x2 : State} (h : Keeps s0 x2) :
    KeepsO s0 (execNetDbSend x0 x1 x2) := by
  unfold execNetDbSend
  refine Keeps.next ?_
  refine State.netDb_keeps ?_
  exact h

theorem execNetDbReceive_keeps {s0 : State} {x0 : Fin 2} {x1 : Nat} {x2 : State} (h : Keeps s0 x2) :
    KeepsO s0 (execNetDbReceive x0 x1 x2) := by
  unfold execNetDbReceive
  refine Keeps.next ?_
  refine State.netDb_keeps ?_
  exact h

theorem State.nak_keeps {s0 : State} {x0 : State} {x1 : Nat} {x2 : Nat} {x3 : Nat} (h : Keeps s0 x0) :
    Keeps s0 (State.nak x0 x1 x2 x3) := by
  unfold State.nak
  extract_lets +onlyGivenNames a1
  refine State.emit_keeps ?_
  exact h

theorem State.ackNow_keeps {s0 : State} {x0 : State} {x1 : Nat} {x2 : Nat} (h : Keeps s0 x0) :
    Keeps s0 (State.ackNow x0 x1 x2) := by
  unfold State.ackNow
  extract_lets +onlyGivenNames a2
  refine State.emit_keeps ?_
  exact h

theorem State.request_keeps {s0 : State} {x0 : State} {x1 : Nat} {x2 : RocePkt} {x3 : Nat → State → List (Nat × Nat)} {x4 : Nat → State → State} {x5 : Nat → State → State} (h : Keeps s0 x0) (k4 : ∀ {y0 y1}, Keeps s0 y1 → Keeps s0 (x4 y0 y1)) (k5 : ∀ {y0 y1}, Keeps s0 y1 → Keeps s0 (x5 y0 y1)) :
    Keeps s0 (State.request x0 x1 x2 x3 x4 x5) := by
  unfold State.request
  refine State.roceIn_keeps ?_ ?_
  · exact h
  · intro b1 b2 b3
    extract_lets +onlyGivenNames a1
    split
    · refine State.nak_keeps ?_
      exact b3
    · split
      · exact b3
      · split
        · refine k5 ?_
          refine State.setQp_keeps ?_
          exact b3
        · split
          · refine k4 ?_
            exact b3
          · split
            · exact b3
            · refine State.nak_keeps ?_
              refine State.setQp_keeps ?_
              exact b3

theorem State.expect_keeps {s0 : State} {x0 : State} {x1 : Nat} {x2 : Nat} {x3 : Nat} (h : Keeps s0 x0) :
    Keeps s0 (State.expect x0 x1 x2 x3) := by
  unfold State.expect
  extract_lets +onlyGivenNames a1
  refine State.setQp_keeps ?_
  exact h

theorem State.packetDone_keeps {s0 : State} {x0 : State} {x1 : Nat} {x2 : RocePkt} (h : Keeps s0 x0) :
    Keeps s0 (State.packetDone x0 x1 x2) := by
  unfold State.packetDone
  extract_lets +onlyGivenNames a1
  have ka1 : Keeps s0 a1 := by
    unfold a1
    refine State.expect_keeps ?_
    exact h
  extract_lets +onlyGivenNames a2
  have ka2 : Keeps s0 a2 := by
    unfold a2
    split
    · refine State.ackNow_keeps ?_
      exact ka1
    · exact ka1
  split
  · refine State.boundary_keeps ?_
    exact ka2
  · exact ka2

theorem State.takeRecv_keeps {s0 : State} {x0 : State} {x1 : Nat} {x2 : Nat} {x3 : Nat → Nat → Nat → State → State} (h : Keeps s0 x0) (k3 : ∀ {y0 y1 y2 y3}, Keeps s0 y3 → Keeps s0 (x3 y0 y1 y2 y3)) :
    Keeps s0 (State.takeRecv x0 x1 x2 x3) := by
  unfold State.takeRecv
  extract_lets +onlyGivenNames a1
  split
  · refine State.nak_keeps ?_
    exact h
  · extract_lets +onlyGivenNames a2
    extract_lets +onlyGivenNames a3
    have ka3 : Keeps s0 a3 := by
      unfold a3
      refine State.hubReads_keeps ?_
      exact h
    extract_lets +onlyGivenNames a4
    extract_lets +onlyGivenNames a5
    extract_lets +onlyGivenNames a6
    extract_lets +onlyGivenNames a7
    have ka7 : Keeps s0 a7 := by
      unfold a7
      refine State.setQp_keeps ?_
      exact ka3
    split
    · refine State.qpError_keeps ?_
      refine State.nak_keeps ?_
      refine State.complete32_keeps ?_
      exact ka7
    · refine k3 ?_
      exact ka7

theorem execRoceSend_keeps {s0 : State} {x0 : Fin 8} {x1 : RocePkt} {x2 : State} (h : Keeps s0 x2) :
    KeepsO s0 (execRoceSend x0 x1 x2) := by
  unfold execRoceSend
  extract_lets +onlyGivenNames a1
  extract_lets +onlyGivenNames a2
  have ka2 : ∀ (n : Nat) (m : RecvMsg) (s : State), Keeps s0 s → Keeps s0 (a2 n m s) := by
    intro b1 b2 b3 b4
    unfold a2
    split
    · extract_lets +onlyGivenNames a3
      have ka3 : Keeps s0 a3 := by
        unfold a3
        refine State.nak_keeps ?_
        refine State.complete32_keeps ?_
        exact b4
      refine State.boundary_keeps ?_
      refine State.expect_keeps ?_
      refine State.setQp_keeps ?_
      exact ka3
    · extract_lets +onlyGivenNames a3
      have ka3 : Keeps s0 a3 := by
        unfold a3
        refine State.netWrite_keeps ?_
        exact b4
      extract_lets +onlyGivenNames a4
      extract_lets +onlyGivenNames a5
      extract_lets +onlyGivenNames a6
      have ka6 : Keeps s0 a6 := by
        unfold a6
        refine State.setQp_keeps ?_
        exact ka3
      refine State.packetDone_keeps ?_
      split
      · refine State.complete32_keeps ?_
        exact ka6
      · exact ka6
  refine Keeps.next ?_
  refine State.request_keeps ?_ ?_ ?_
  · exact h
  · intro b1 b2 b3
    refine State.ackNow_keeps ?_
    exact b3
  · intro b1 b2 b3
    split
    · split
      · refine State.nak_keeps ?_
        exact b3
      · refine ka2 ?_ ?_ ?_ ?_
        exact b3
    · split
      · refine State.nak_keeps ?_
        exact b3
      · refine State.takeRecv_keeps ?_ ?_
        · exact b3
        · intro b4 b5 b6 b7 b8
          refine ka2 ?_ ?_ ?_ ?_
          exact b8

theorem State.landBytes_keeps {s0 : State} {x0 : State} {x1 : Nat} {x2 : Nat} {x3 : RocePkt} {x4 : RecvMsg} (h : Keeps s0 x0) :
    Keeps s0 (State.landBytes x0 x1 x2 x3 x4) := by
  unfold State.landBytes
  extract_lets +onlyGivenNames a1
  have ka1 : Keeps s0 a1 := by
    unfold a1
    refine State.netWrite_keeps ?_
    exact h
  refine State.setQp_keeps ?_
  exact ka1

theorem State.landWrite_keeps {s0 : State} {x0 : State} {x1 : Nat} {x2 : Nat} {x3 : RocePkt} {x4 : Bool} {x5 : RecvMsg} (h : Keeps s0 x0) :
    Keeps s0 (State.landWrite x0 x1 x2 x3 x4 x5) := by
  unfold State.landWrite
  split
  · refine State.takeRecv_keeps ?_ ?_
    · exact h
    · intro b1 b2 b3 b4 b5
      refine State.packetDone_keeps ?_
      refine State.complete32_keeps ?_
      refine State.landBytes_keeps ?_
      exact b5
  · refine State.packetDone_keeps ?_
    refine State.landBytes_keeps ?_
    exact h

theorem State.placeWrite_keeps {s0 : State} {x0 : State} {x1 : Nat} {x2 : Nat} {x3 : RocePkt} {x4 : Bool} {x5 : RecvMsg} (h : Keeps s0 x0) :
    Keeps s0 (State.placeWrite x0 x1 x2 x3 x4 x5) := by
  unfold State.placeWrite
  split
  · refine State.boundary_keeps ?_
    refine State.setQp_keeps ?_
    refine State.nak_keeps ?_
    exact h
  · refine State.landWrite_keeps ?_
    exact h

theorem State.writeInTurn_keeps {s0 : State} {x0 : State} {x1 : Nat} {x2 : Nat} {x3 : RocePkt} {x4 : Bool} (h : Keeps s0 x0) :
    Keeps s0 (State.writeInTurn x0 x1 x2 x3 x4) := by
  unfold State.writeInTurn
  split
  · split
    · refine State.nak_keeps ?_
      exact h
    · refine State.placeWrite_keeps ?_
      exact h
  · extract_lets +onlyGivenNames a1
    have ka1 : Keeps s0 a1 := by
      unfold a1
      refine State.hubReads_keeps ?_
      exact h
    split
    · refine State.nak_keeps ?_
      exact ka1
    · split
      · refine State.nak_keeps ?_
        refine State.incSat_keeps ?_
        exact ka1
      · refine State.placeWrite_keeps ?_
        exact ka1

theorem State.writeRequest_keeps {s0 : State} {x0 : State} {x1 : Nat} {x2 : RocePkt} {x3 : Bool} (h : Keeps s0 x0) :
    Keeps s0 (State.writeRequest x0 x1 x2 x3) := by
  unfold State.writeRequest
  refine State.request_keeps ?_ ?_ ?_
  · exact h
  · intro b1 b2 b3
    refine State.ackNow_keeps ?_
    exact b3
  · intro b1 b2 b3
    refine State.writeInTurn_keeps ?_
    exact b3

theorem execRdmaWrite_keeps {s0 : State} {x0 : Fin 8} {x1 : RocePkt} {x2 : State} (h : Keeps s0 x2) :
    KeepsO s0 (execRdmaWrite x0 x1 x2) := by
  unfold execRdmaWrite
  refine Keeps.next ?_
  refine State.writeRequest_keeps ?_
  exact h

theorem execRdmaWriteImmediate_keeps {s0 : State} {x0 : Fin 8} {x1 : RocePkt} {x2 : State} (h : Keeps s0 x2) :
    KeepsO s0 (execRdmaWriteImmediate x0 x1 x2) := by
  unfold execRdmaWriteImmediate
  refine Keeps.next ?_
  refine State.writeRequest_keeps ?_
  exact h

theorem State.readReply_keeps {s0 : State} {x0 : State} {x1 : Nat} {x2 : Nat} {x3 : Nat} {x4 : Nat} {x5 : Nat} (h : Keeps s0 x0) :
    Keeps s0 (State.readReply x0 x1 x2 x3 x4 x5) := by
  unfold State.readReply
  extract_lets +onlyGivenNames a1
  extract_lets +onlyGivenNames a2
  refine Keeps.foldl ?_ ?_
  · intro b1 b2 b3
    extract_lets +onlyGivenNames a3
    refine State.emit_keeps ?_
    exact b3
  · exact h

theorem State.readServed_keeps {s0 : State} {x0 : State} {x1 : Nat} {x2 : Nat} {x3 : RocePkt} {x4 : Bool} {x5 : List (Nat × Nat)} (h : Keeps s0 x0) :
    Keeps s0 (State.readServed x0 x1 x2 x3 x4 x5) := by
  unfold State.readServed
  extract_lets +onlyGivenNames q u
  have ku : Keeps s0 u := State.hubReads_keeps h
  refine Keeps.elim ?_ (fun pa => ?_)
  · extract_lets +onlyGivenNames w
    have kw : Keeps s0 w := State.readReply_keeps ku
    split
    · exact State.expect_keeps kw
    · exact kw
  · extract_lets +onlyGivenNames w
    have kw : Keeps s0 w := State.report_keeps (State.nak_keeps ku)
    exact State.placeHold_keeps kw

theorem execRdmaRead_keeps {s0 : State} {x0 : Fin 8} {x1 : RocePkt} {x2 : State} (h : Keeps s0 x2) :
    KeepsO s0 (execRdmaRead x0 x1 x2) := by
  unfold execRdmaRead
  extract_lets q serve
  have ks : ∀ {fresh : Bool} {n : Nat} {t : State}, Keeps s0 t → Keeps s0 (serve fresh n t) := by
    intro fresh n t k
    unfold serve
    extract_lets u
    have ku : Keeps s0 u := State.hubReads_keeps k
    split
    · exact State.nak_keeps ku
    split
    · exact State.nak_keeps (State.incSat_keeps ku)
    · exact State.readServed_keeps ku
  exact Keeps.next (State.request_keeps h (fun k => ks k) (fun k => ks k))

theorem execPortCtl_keeps {s0 : State} {x0 : CmdRef} {x1 : State} (h : Keeps s0 x1) :
    KeepsO s0 (execPortCtl x0 x1) := by
  unfold execPortCtl
  refine Keeps.next ?_
  refine State.run_keeps ?_ ?_
  · exact h
  · intro b1
    extract_lets +onlyGivenNames a1
    extract_lets +onlyGivenNames a2
    extract_lets +onlyGivenNames a3
    extract_lets +onlyGivenNames a4
    split
    · extract_lets +onlyGivenNames a5
      split
      · refine State.finish_keeps ?_
        exact h
      · refine State.finish_keeps ?_
        split
        · refine State.portState_keeps ?_
          exact h
        · exact h
    · split
      · extract_lets +onlyGivenNames a5
        refine State.finish_keeps ?_
        split
        · refine State.portLeaves_keeps ?_
          exact h
        · exact h
      · split
        · split
          · refine State.finish_keeps ?_
            exact h
          · refine State.readingThen_keeps ?_ ?_
            · exact h
            · intro b2 b3
              extract_lets +onlyGivenNames a5
              split
              · refine State.finish_keeps ?_
                exact b3
              · extract_lets +onlyGivenNames a6
                refine State.finish_keeps ?_
                refine State.moveQps_keeps ?_
                refine State.qpState_keeps ?_
                refine State.setQp_keeps ?_
                exact b3
        · split
          · split
            · refine State.finish_keeps ?_
              exact h
            · split
              · refine State.finish_keeps ?_
                exact h
              · extract_lets +onlyGivenNames a5
                have ka5 : Keeps s0 a5 := by
                  unfold a5
                  refine State.qpState_keeps ?_
                  refine State.flushQp_keeps ?_
                  exact h
                refine State.finish_keeps ?_
                refine State.netCommands_keeps ?_
                refine State.setQp_keeps ?_
                exact ka5
          · extract_lets +onlyGivenNames a5
            extract_lets +onlyGivenNames a6
            have ka6 : Keeps s0 a6 := by
              unfold a6
              refine Keeps.upd ?_
              exact h
            refine State.netCommands_keeps ?_
            refine State.phaseCmd_keeps ?_
            exact ka6

theorem execStackThermalSample_keeps {s0 : State} {x0 : Fin 32} {x1 : List Int} {x2 : State} (h : Keeps s0 x2) :
    KeepsO s0 (execStackThermalSample x0 x1 x2) := by
  unfold execStackThermalSample
  extract_lets +onlyGivenNames a1
  have ka1 : Keeps s0 a1 := by
    unfold a1
    refine State.stackSample_keeps ?_
    exact h
  extract_lets +onlyGivenNames a2
  have ka2 : Keeps s0 a2 := by
    unfold a2
    split
    · refine Keeps.foldl ?_ ?_
      · intro b1 b2 b3
        refine State.wakeColl_keeps ?_
        exact b3
      · exact ka1
    · exact ka1
  refine Keeps.next ?_
  split
  · refine State.pumpRoce_keeps ?_
    exact ka2
  · exact ka2

end Sys2Proof.Machine
end

