-- ==== Sys2Proof/Laws/KeepsInput.lean ====
section
/-! SUPPORT. What the operations of Tensorizer.lean, Input.lean keep: one lemma each, by composition (Laws/Keeps.lean). -/
namespace Sys2Proof.Machine

theorem State.modAsm_keeps {s0 : State} {x0 : State} {x1 : CmdRef} {x2 : AsmWork → AsmWork} (h : Keeps s0 x0) :
    Keeps s0 (State.modAsm x0 x1 x2) := by
  unfold State.modAsm
  refine State.modCmd_keeps ?_
  exact h

theorem State.damageRecord_keeps {s0 : State} {x0 : State} {x1 : Nat} {x2 : Nat} {x3 : Nat} {x4 : Nat} {x5 : Nat} {x6 : Nat} {x7 : Nat} (h : Keeps s0 x0) :
    Keeps s0 (State.damageRecord x0 x1 x2 x3 x4 x5 x6 x7) := by
  unfold State.damageRecord
  extract_lets +onlyGivenNames a1
  split
  · exact h
  · extract_lets +onlyGivenNames a2
    split
    · refine State.incSat_keeps ?_
      exact h
    · extract_lets +onlyGivenNames a3
      refine State.setFld_keeps ?_
      refine State.hubWrites_keeps ?_
      exact h

theorem State.clipRecords_keeps {s0 : State} {x0 : State} {x1 : Nat} {x2 : Clip} (h : Keeps s0 x0) :
    Keeps s0 (State.clipRecords x0 x1 x2) := by
  unfold State.clipRecords
  extract_lets +onlyGivenNames a1
  split
  · refine State.damageRecord_keeps ?_
    exact h
  · extract_lets +onlyGivenNames a2
    extract_lets +onlyGivenNames a3
    extract_lets +onlyGivenNames a4
    have ka4 : Keeps s0 a4 := by
      unfold a4
      refine Keeps.foldl ?_ ?_
      · intro b1 b2 b3
        extract_lets +onlyGivenNames a5
        have ka5 : Keeps s0 a5 := by
          unfold a5
          split
          · refine State.damageRecord_keeps ?_
            exact b3
          · with_reducible assumption
        split
        · exact ka5
        · refine Keeps.foldl ?_ ?_
          · intro b4 b5 b6
            refine Keeps.foldl ?_ ?_
            · intro b7 b8 b9
              refine State.damageRecord_keeps ?_
              exact b9
            · exact b6
          · exact ka5
      · exact h
    split
    · refine State.damageRecord_keeps ?_
      exact ka4
    · exact ka4

theorem State.deadSample_keeps {s0 : State} {x0 : State} {x1 : Cmd} {x2 : Nat} {x3 : Nat} (h : Keeps s0 x0) :
    Keeps s0 (State.deadSample x0 x1 x2 x3) := by
  unfold State.deadSample
  refine State.traceAs_keeps ?_
  exact h

theorem State.writeBatch_keeps {s0 : State} {x0 : State} {x1 : CmdRef} {x2 : Cmd} {x3 : Nat} {x4 : Nat} {x5 : List Piece} (h : Keeps s0 x0) :
    Keeps s0 (State.writeBatch x0 x1 x2 x3 x4 x5) := by
  unfold State.writeBatch
  extract_lets +onlyGivenNames a1
  extract_lets +onlyGivenNames a2
  extract_lets +onlyGivenNames a3
  extract_lets +onlyGivenNames a4
  extract_lets +onlyGivenNames a5
  extract_lets +onlyGivenNames a6
  extract_lets +onlyGivenNames a7
  extract_lets +onlyGivenNames a8
  extract_lets +onlyGivenNames a9
  extract_lets +onlyGivenNames a10
  extract_lets +onlyGivenNames a11
  extract_lets +onlyGivenNames a12
  have ka12 : Keeps s0 a12 := by
    unfold a12
    refine State.hubWrites_keeps ?_
    exact h
  extract_lets +onlyGivenNames a13
  have ka13 : Keeps s0 a13 := by
    unfold a13
    refine State.hubWrites_keeps ?_
    exact ka12
  extract_lets +onlyGivenNames a14
  have ka14 : Keeps s0 a14 := by
    unfold a14
    refine State.hubWrites_keeps ?_
    exact ka13
  extract_lets +onlyGivenNames a15
  have ka15 : Keeps s0 a15 := by
    unfold a15
    refine State.hubWrites_keeps ?_
    exact ka14
  extract_lets +onlyGivenNames a16
  have ka16 : Keeps s0 a16 := by
    unfold a16
    refine Keeps.foldl ?_ ?_
    · intro b1 b2 b3
      extract_lets +onlyGivenNames a17
      refine State.hubWrites_keeps ?_
      exact b3
    · exact ka15
  extract_lets +onlyGivenNames a17
  refine State.modAsm_keeps ?_
  refine State.modCmd_keeps ?_
  exact ka16

theorem State.setHopSlot_keeps {s0 : State} {x0 : State} {x1 : Nat} {x2 : HopSlot} (h : Keeps s0 x0) :
    Keeps s0 (State.setHopSlot x0 x1 x2) := by
  unfold State.setHopSlot
  refine Keeps.upd ?_
  exact h

theorem State.starve_keeps {s0 : State} {x0 : State} (h : Keeps s0 x0) :
    Keeps s0 (State.starve x0) := by
  unfold State.starve
  split
  · refine Keeps.upd ?_
    exact h
  · extract_lets +onlyGivenNames a1
    have ka1 : Keeps s0 a1 := by
      unfold a1
      refine State.incWrap_keeps ?_
      exact h
    refine Keeps.upd ?_
    exact ka1
  · exact h

theorem State.hopLow_keeps {s0 : State} {x0 : State} {x1 : State} {x2 : Nat} {x3 : Nat} (h : Keeps s0 x0) :
    Keeps s0 (State.hopLow x0 x1 x2 x3) := by
  unfold State.hopLow
  extract_lets +onlyGivenNames a1
  split
  · refine State.wire_keeps ?_
    refine State.trace_keeps ?_
    refine State.setFld_keeps ?_
    exact h
  · exact h

theorem State.hopTake_keeps {s0 : State} {x0 : State} {x1 : Cmd} {x2 : Nat} (h : Keeps s0 x0) :
    Keeps s0 (State.hopTake x0 x1 x2) := by
  unfold State.hopTake
  extract_lets +onlyGivenNames a1
  extract_lets +onlyGivenNames a2
  have ka2 : Keeps s0 a2 := by
    unfold a2
    refine State.setFld_keeps ?_
    refine State.setHopSlot_keeps ?_
    exact h
  extract_lets +onlyGivenNames a3
  have ka3 : Keeps s0 a3 := by
    unfold a3
    refine State.hubWrites_keeps ?_
    exact ka2
  refine State.starve_keeps ?_
  refine State.hopLow_keeps ?_
  refine State.finish_keeps ?_
  refine State.wrote_keeps ?_
  refine State.served_keeps ?_
  exact ka3

theorem State.hopTakes_keeps {s0 : State} {x0 : State} {x1 : Nat} (h : Keeps s0 x0) :
    Keeps s0 (State.hopTakes x0 x1) := by
  induction x1 generalizing x0 with
  | zero =>
    unfold State.hopTakes
    exact h
  | succ n ih =>
    unfold State.hopTakes
    split
    · exact h
    · extract_lets +onlyGivenNames a1
      split
      · exact h
      · refine ih ?_
        refine State.hopTake_keeps ?_
        exact h

theorem State.runTakes_keeps {s0 : State} {x0 : State} (h : Keeps s0 x0) :
    Keeps s0 (State.runTakes x0) := by
  unfold State.runTakes
  refine State.hopTakes_keeps ?_
  refine State.starve_keeps ?_
  exact h

theorem State.hopReady_keeps {s0 : State} {x0 : State} {x1 : Nat} {x2 : Nat} (h : Keeps s0 x0) :
    Keeps s0 (State.hopReady x0 x1 x2) := by
  induction x1 generalizing x0 x2 with
  | zero =>
    unfold State.hopReady
    exact h
  | succ n ih =>
    unfold State.hopReady
    extract_lets +onlyGivenNames a1
    extract_lets +onlyGivenNames a2
    split
    · split
      · refine ih ?_
        refine State.setHopSlot_keeps ?_
        exact h
      · exact h
    · refine ih ?_
      exact h
    · exact h

theorem State.setLane_keeps {s0 : State} {x0 : State} {x1 : Bool} {x2 : Nat} {x3 : Option LaneJob} (h : Keeps s0 x0) :
    Keeps s0 (State.setLane x0 x1 x2 x3) := by
  unfold State.setLane
  refine Keeps.upd ?_
  exact h

theorem State.laneless_keeps {s0 : State} {x0 : State} {x1 : CmdRef} {x2 : Bool} (h : Keeps s0 x0) :
    Keeps s0 (State.laneless x0 x1 x2) := by
  unfold State.laneless
  extract_lets +onlyGivenNames a1
  extract_lets +onlyGivenNames a2
  have ka2 : Keeps s0 a2 := by
    unfold a2
    refine State.setFld_keeps ?_
    exact h
  extract_lets +onlyGivenNames a3
  extract_lets +onlyGivenNames a4
  have ka4 : Keeps s0 a4 := by
    unfold a4
    refine Keeps.upd ?_
    exact ka2
  extract_lets +onlyGivenNames a5
  extract_lets +onlyGivenNames a6
  have ka6 : Keeps s0 a6 := by
    unfold a6
    refine Keeps.upd ?_
    exact ka4
  refine State.finish_keeps ?_
  exact ka6

theorem State.dispatch_keeps {s0 : State} {x0 : State} {x1 : CmdRef} {x2 : Bool} {x3 : Nat} (h : Keeps s0 x0) :
    Keeps s0 (State.dispatch x0 x1 x2 x3) := by
  induction x3 generalizing x0 with
  | zero =>
    unfold State.dispatch
    exact h
  | succ n ih =>
    unfold State.dispatch
    split
    · exact h
    · extract_lets +onlyGivenNames a1
      extract_lets +onlyGivenNames a2
      extract_lets +onlyGivenNames a3
      split
      · exact h
      · split
        · refine ih ?_
          refine State.setLane_keeps ?_
          exact h
        · split
          · exact h
          · refine State.laneless_keeps ?_
            exact h
        · exact h

theorem State.takeSlots_keeps {s0 : State} {x0 : State} {x1 : CmdRef} {x2 : Nat} (h : Keeps s0 x0) :
    Keeps s0 (State.takeSlots x0 x1 x2) := by
  induction x2 generalizing x0 with
  | zero =>
    unfold State.takeSlots
    exact h
  | succ n ih =>
    unfold State.takeSlots
    split
    · exact h
    · extract_lets +onlyGivenNames a1
      extract_lets +onlyGivenNames a2
      split
      · exact h
      · extract_lets +onlyGivenNames a3
        have ka3 : Keeps s0 a3 := by
          unfold a3
          refine State.setFld_keeps ?_
          refine State.setHopSlot_keeps ?_
          exact h
        refine ih ?_
        refine State.modAsm_keeps ?_
        exact ka3

theorem State.writeBatches_keeps {s0 : State} {x0 : State} {x1 : CmdRef} (h : Keeps s0 x0) :
    Keeps s0 (State.writeBatches x0 x1) := by
  unfold State.writeBatches
  split
  · exact h
  · extract_lets +onlyGivenNames a1
    extract_lets +onlyGivenNames a2
    extract_lets +onlyGivenNames a3
    refine Keeps.foldl ?_ ?_
    · intro b1 b2 b3
      extract_lets +onlyGivenNames a4
      split
      · exact b3
      · extract_lets +onlyGivenNames a5
        extract_lets +onlyGivenNames a6
        have ka6 : Keeps s0 a6 := by
          unfold a6
          refine State.writeBatch_keeps ?_
          exact b3
        refine State.setHopSlot_keeps ?_
        exact ka6
    · exact h

theorem State.asmStep_keeps {s0 : State} {x0 : State} {x1 : CmdRef} (h : Keeps s0 x0) :
    Keeps s0 (State.asmStep x0 x1) := by
  unfold State.asmStep
  extract_lets +onlyGivenNames a2
  have ka2 : Keeps s0 a2 := by
    unfold a2
    refine State.takeSlots_keeps ?_
    exact h
  extract_lets +onlyGivenNames a3
  have ka3 : Keeps s0 a3 := by
    unfold a3
    refine State.dispatch_keeps ?_
    refine State.dispatch_keeps ?_
    exact ka2
  extract_lets +onlyGivenNames a4
  have ka4 : Keeps s0 a4 := by
    unfold a4
    refine State.writeBatches_keeps ?_
    exact ka3
  extract_lets +onlyGivenNames a5
  have ka5 : Keeps s0 a5 := by
    unfold a5
    refine State.runTakes_keeps ?_
    refine State.hopReady_keeps ?_
    exact ka4
  split
  · exact ka5
  · extract_lets +onlyGivenNames a6
    split
    · refine State.finish_keeps ?_
      exact ka5
    · exact ka5

theorem State.startAsm_keeps {s0 : State} {x0 : State} {x1 : CmdRef} (h : Keeps s0 x0) :
    Keeps s0 (State.startAsm x0 x1) := by
  unfold State.startAsm
  split
  · exact h
  · extract_lets +onlyGivenNames a1
    extract_lets +onlyGivenNames a2
    refine State.readingThen_keeps ?_ ?_
    · exact h
    · intro b1 b2
      extract_lets +onlyGivenNames a3
      extract_lets +onlyGivenNames a4
      extract_lets +onlyGivenNames a5
      refine State.readingThen_keeps ?_ ?_
      · exact b2
      · intro b3 b4
        extract_lets +onlyGivenNames a6
        extract_lets +onlyGivenNames a7
        have ka7 : Keeps s0 a7 := by
          unfold a7
          refine State.modCmd_keeps ?_
          exact b4
        refine Keeps.foldl ?_ ?_
        · intro b5 b6 b7
          split
          · refine State.deadSample_keeps ?_
            refine State.damageRecord_keeps ?_
            exact b7
          · exact b7
        · exact ka7

theorem State.asmGo_keeps {s0 : State} {x0 : State} {x1 : Nat} (h : Keeps s0 x0) :
    Keeps s0 (State.asmGo x0 x1) := by
  induction x1 generalizing x0 with
  | zero =>
    unfold State.asmGo
    exact h
  | succ n ih =>
    unfold State.asmGo
    split
    · extract_lets +onlyGivenNames a2
      have ka2 : Keeps s0 a2 := by
        unfold a2
        refine State.asmStep_keeps ?_
        exact h
      extract_lets +onlyGivenNames a3
      split
      · refine ih ?_
        refine Keeps.upd ?_
        exact ka2
      · exact ka2
    · split
      · exact h
      · split
        · exact h
        · refine ih ?_
          refine State.startAsm_keeps ?_
          refine Keeps.upd ?_
          exact h
        · refine ih ?_
          refine Keeps.upd ?_
          exact h

theorem State.soloGo_keeps {s0 : State} {x0 : State} {x1 : Bool} {x2 : Nat} (h : Keeps s0 x0) :
    Keeps s0 (State.soloGo x0 x1 x2) := by
  induction x2 generalizing x0 with
  | zero =>
    unfold State.soloGo
    exact h
  | succ n ih =>
    unfold State.soloGo
    extract_lets +onlyGivenNames a1
    extract_lets +onlyGivenNames a2
    split
    · exact h
    · extract_lets +onlyGivenNames a3
      extract_lets +onlyGivenNames a4
      have ka4 : ∀ (s : State), Keeps s0 s → Keeps s0 (a4 s) := by
        intro b1 b2
        unfold a4
        refine Keeps.upd ?_
        exact b2
      split
      · exact h
      · split
        · refine ih ?_
          refine State.setLane_keeps ?_
          refine State.served_keeps ?_
          refine ka4 ?_ ?_
          exact h
        · split
          · exact h
          · refine ih ?_
            refine State.laneless_keeps ?_
            refine ka4 ?_ ?_
            exact h

theorem State.runInput_keeps {s0 : State} {x0 : State} (h : Keeps s0 x0) :
    Keeps s0 (State.runInput x0) := by
  unfold State.runInput
  extract_lets +onlyGivenNames a1
  have ka1 : Keeps s0 a1 := by
    unfold a1
    refine State.soloGo_keeps ?_
    refine State.soloGo_keeps ?_
    exact h
  refine State.runTakes_keeps ?_
  refine State.asmGo_keeps ?_
  exact ka1

theorem State.laneDone_keeps {s0 : State} {x0 : State} {x1 : Bool} {x2 : Nat} {x3 : BufEvents} {x4 : Cmd → LaneJob → State → State} (h : Keeps s0 x0) (k4 : ∀ {y0 y1 y2}, Keeps s0 y2 → Keeps s0 (x4 y0 y1 y2)) :
    Keeps s0 (State.laneDone x0 x1 x2 x3 x4) := by
  unfold State.laneDone
  split
  · exact h
  · split
    · exact h
    · split
      · refine State.setLane_keeps ?_
        exact h
      · split
        · refine State.runInput_keeps ?_
          refine State.settleQuars_keeps ?_
          refine State.setLane_keeps ?_
          exact h
        · split
          · refine State.stall_keeps ?_
            exact h
          · split
            · refine State.runInput_keeps ?_
              refine State.settleQuars_keeps ?_
              refine k4 ?_
              refine State.setLane_keeps ?_
              exact h
            · extract_lets +onlyGivenNames a1
              have ka1 : Keeps s0 a1 := by
                unfold a1
                refine State.report_keeps ?_
                exact h
              split
              · refine State.setLane_keeps ?_
                exact ka1
              · extract_lets +onlyGivenNames a2
                have ka2 : Keeps s0 a2 := by
                  unfold a2
                  refine State.setLane_keeps ?_
                  exact ka1
                extract_lets +onlyGivenNames a3
                have ka3 : Keeps s0 a3 := by
                  unfold a3
                  split
                  · refine State.setFld_keeps ?_
                    exact ka2
                  · refine State.setFld_keeps ?_
                    exact ka2
                extract_lets +onlyGivenNames a4
                extract_lets +onlyGivenNames a5
                have ka5 : Keeps s0 a5 := by
                  unfold a5
                  split
                  · exact ka3
                  · refine Keeps.upd ?_
                    exact ka3
                refine State.runInput_keeps ?_
                refine State.settleQuars_keeps ?_
                exact ka5

theorem execDecode_keeps {s0 : State} {x0 : CmdRef} {x1 : State} (h : Keeps s0 x1) :
    KeepsO s0 (execDecode x0 x1) := by
  unfold execDecode
  refine Keeps.next ?_
  refine State.runUnit_keeps ?_ ?_
  · exact h
  · intro b1
    extract_lets +onlyGivenNames a1
    refine State.readingThen_keeps ?_ ?_
    · exact h
    · intro b2 b3
      extract_lets +onlyGivenNames a2
      split
      · refine State.finish_keeps ?_
        exact b3
      · split
        · refine State.finish_keeps ?_
          exact b3
        · extract_lets +onlyGivenNames a3
          have ka3 : Keeps s0 a3 := by
            unfold a3
            refine State.phaseCmd_keeps ?_
            refine State.modCmd_keeps ?_
            exact b3
          refine State.runInput_keeps ?_
          refine Keeps.upd ?_
          exact ka3

theorem State.decodeDone_keeps {s0 : State} {x0 : State} {x1 : Cmd} (h : Keeps s0 x0) :
    Keeps s0 (State.decodeDone x0 x1) := by
  unfold State.decodeDone
  extract_lets +onlyGivenNames a1
  extract_lets +onlyGivenNames a2
  extract_lets +onlyGivenNames a3
  refine State.readingThen_keeps ?_ ?_
  · exact h
  · intro b1 b2
    extract_lets +onlyGivenNames a4
    extract_lets +onlyGivenNames a5
    have ka5 : Keeps s0 a5 := by
      unfold a5
      refine State.clipRecords_keeps ?_
      exact b2
    extract_lets +onlyGivenNames a6
    extract_lets +onlyGivenNames a7
    extract_lets +onlyGivenNames a8
    extract_lets +onlyGivenNames a9
    extract_lets +onlyGivenNames a10
    have ka10 : Keeps s0 a10 := by
      unfold a10
      split
      · refine State.deadSample_keeps ?_
        exact ka5
      · exact ka5
    extract_lets +onlyGivenNames a11
    have ka11 : Keeps s0 a11 := by
      unfold a11
      refine Keeps.foldl ?_ ?_
      · intro b3 b4 b5
        split
        · refine State.hubWrites_keeps ?_
          exact b5
        · refine State.writeRow_keeps ?_
          exact b5
      · exact ka10
    extract_lets +onlyGivenNames a12
    have ka12 : Keeps s0 a12 := by
      unfold a12
      refine State.wrote_keeps ?_
      exact ka11
    extract_lets +onlyGivenNames a13
    refine State.finish_keeps ?_
    refine State.hubWrites_keeps ?_
    exact ka12

theorem execSampleDone_keeps {s0 : State} {x0 : Fin 24} {x1 : BufEvents} {x2 : State} (h : Keeps s0 x2) :
    KeepsO s0 (execSampleDone x0 x1 x2) := by
  unfold execSampleDone
  refine Keeps.next ?_
  refine State.laneDone_keeps ?_ ?_
  · exact h
  · intro b1 b2 b3 b4
    split
    · refine State.decodeDone_keeps ?_
      exact b4
    · extract_lets +onlyGivenNames a1
      refine State.readingThen_keeps ?_ ?_
      · exact b4
      · intro b5 b6
        extract_lets +onlyGivenNames a2
        extract_lets +onlyGivenNames a3
        have ka3 : Keeps s0 a3 := by
          unfold a3
          refine State.clipRecords_keeps ?_
          exact b6
        extract_lets +onlyGivenNames a4
        have ka4 : Keeps s0 a4 := by
          unfold a4
          split
          · refine State.deadSample_keeps ?_
            exact ka3
          · exact ka3
        refine State.modAsm_keeps ?_
        exact ka4

theorem execTokenize_keeps {s0 : State} {x0 : CmdRef} {x1 : State} (h : Keeps s0 x1) :
    KeepsO s0 (execTokenize x0 x1) := by
  unfold execTokenize
  refine Keeps.next ?_
  refine State.runUnit_keeps ?_ ?_
  · exact h
  · intro b1
    extract_lets +onlyGivenNames a1
    have ka1 : Keeps s0 a1 := by
      unfold a1
      refine State.phaseCmd_keeps ?_
      exact h
    refine State.runInput_keeps ?_
    refine Keeps.upd ?_
    exact ka1

theorem State.textRecords_keeps {s0 : State} {x0 : State} {x1 : Nat} {x2 : Nat} {x3 : Nat} (h : Keeps s0 x0) :
    Keeps s0 (State.textRecords x0 x1 x2 x3) := by
  unfold State.textRecords
  refine Keeps.foldl ?_ ?_
  · intro b1 b2 b3
    refine State.damageRecord_keeps ?_
    exact b3
  · exact h

theorem State.tokenizeDone_keeps {s0 : State} {x0 : State} {x1 : Cmd} (h : Keeps s0 x0) :
    Keeps s0 (State.tokenizeDone x0 x1) := by
  unfold State.tokenizeDone
  extract_lets +onlyGivenNames a1
  extract_lets +onlyGivenNames a2
  extract_lets +onlyGivenNames a3
  refine State.readingThen_keeps ?_ ?_
  · exact h
  · intro b1 b2
    extract_lets +onlyGivenNames a4
    extract_lets +onlyGivenNames a5
    have ka5 : Keeps s0 a5 := by
      unfold a5
      refine State.textRecords_keeps ?_
      exact b2
    extract_lets +onlyGivenNames a6
    extract_lets +onlyGivenNames a7
    extract_lets +onlyGivenNames a8
    extract_lets +onlyGivenNames a9
    have ka9 : Keeps s0 a9 := by
      unfold a9
      refine State.wrote_keeps ?_
      refine State.hubWrites_keeps ?_
      exact ka5
    extract_lets +onlyGivenNames a10
    refine State.finish_keeps ?_
    split
    · exact ka9
    · refine State.hubWrites_keeps ?_
      exact ka9

theorem execTextDone_keeps {s0 : State} {x0 : Fin 4} {x1 : BufEvents} {x2 : State} (h : Keeps s0 x2) :
    KeepsO s0 (execTextDone x0 x1 x2) := by
  unfold execTextDone
  refine Keeps.next ?_
  refine State.laneDone_keeps ?_ ?_
  · exact h
  · intro b1 b2 b3 b4
    split
    · refine State.tokenizeDone_keeps ?_
      exact b4
    · extract_lets +onlyGivenNames a1
      refine State.readingThen_keeps ?_ ?_
      · exact b4
      · intro b5 b6
        refine State.modAsm_keeps ?_
        refine State.textRecords_keeps ?_
        exact b6

theorem execDictLoad_keeps {s0 : State} {x0 : CmdRef} {x1 : State} (h : Keeps s0 x1) :
    KeepsO s0 (execDictLoad x0 x1) := by
  unfold execDictLoad
  refine Keeps.next ?_
  refine State.runUnit_keeps ?_ ?_
  · exact h
  · intro b1
    extract_lets +onlyGivenNames a1
    extract_lets +onlyGivenNames a2
    refine State.readingThen_keeps ?_ ?_
    · exact h
    · intro b2 b3
      extract_lets +onlyGivenNames a3
      split
      · refine State.finish_keeps ?_
        exact b3
      · extract_lets +onlyGivenNames a4
        split
        · refine State.finish_keeps ?_
          exact b3
        · refine State.readingThen_keeps ?_ ?_
          · exact b3
          · intro b4 b5
            extract_lets +onlyGivenNames a5
            split
            · refine State.finish_keeps ?_
              exact b5
            · extract_lets +onlyGivenNames a6
              extract_lets +onlyGivenNames a7
              have ka7 : Keeps s0 a7 := by
                unfold a7
                refine Keeps.upd ?_
                exact b5
              extract_lets +onlyGivenNames a8
              have ka8 : Keeps s0 a8 := by
                unfold a8
                refine State.setFld_keeps ?_
                exact ka7
              refine State.finish_keeps ?_
              split
              · refine State.setFld_keeps ?_
                exact ka8
              · refine State.setFld_keeps ?_
                exact ka8

theorem execAssemble_keeps {s0 : State} {x0 : CmdRef} {x1 : State} (h : Keeps s0 x1) :
    KeepsO s0 (execAssemble x0 x1) := by
  unfold execAssemble
  refine Keeps.next ?_
  refine State.runUnit_keeps ?_ ?_
  · exact h
  · intro b1
    split
    · refine State.finish_keeps ?_
      exact h
    · extract_lets +onlyGivenNames a1
      have ka1 : Keeps s0 a1 := by
        unfold a1
        refine State.phaseCmd_keeps ?_
        exact h
      refine State.runInput_keeps ?_
      refine Keeps.upd ?_
      exact ka1

theorem execHopperTake_keeps {s0 : State} {x0 : CmdRef} {x1 : State} (h : Keeps s0 x1) :
    KeepsO s0 (execHopperTake x0 x1) := by
  unfold execHopperTake
  refine Keeps.next ?_
  refine State.runUnit_keeps ?_ ?_
  · exact h
  · intro b1
    split
    · refine State.finish_keeps ?_
      exact h
    · split
      · refine State.runTakes_keeps ?_
        refine State.phaseCmd_keeps ?_
        exact h
      · extract_lets +onlyGivenNames a1
        split
        · refine State.finish_keeps ?_
          exact h
        · refine State.runInput_keeps ?_
          refine State.finish_keeps ?_
          refine State.setHopSlot_keeps ?_
          exact h

theorem State.hopEnable_keeps {s0 : State} {x0 : State} (h : Keeps s0 x0) :
    Keeps s0 (State.hopEnable x0) := by
  unfold State.hopEnable
  split
  · exact h
  · extract_lets +onlyGivenNames a1
    have ka1 : Keeps s0 a1 := by
      unfold a1
      refine State.setFld_keeps ?_
      refine State.setFld_keeps ?_
      refine State.setFld_keeps ?_
      exact h
    refine Keeps.upd ?_
    exact ka1

theorem State.hopDisable_keeps {s0 : State} {x0 : State} (h : Keeps s0 x0) :
    Keeps s0 (State.hopDisable x0) := by
  unfold State.hopDisable
  extract_lets +onlyGivenNames a1
  split
  · exact h
  · extract_lets +onlyGivenNames a2
    have ka2 : Keeps s0 a2 := by
      unfold a2
      refine State.setFld_keeps ?_
      exact h
    refine State.starve_keeps ?_
    refine Keeps.foldl ?_ ?_
    · intro b1 b2 b3
      split
      · refine State.finish_keeps ?_
        exact b3
      · exact b3
    · exact ka2

theorem execHopCtlEnable_keeps {s0 : State} {x0 : State} (h : Keeps s0 x0) :
    KeepsO s0 (execHopCtlEnable x0) := by
  unfold execHopCtlEnable
  refine Keeps.next ?_
  split
  · refine State.hopEnable_keeps ?_
    exact h
  · exact h

theorem execHopCtlDisable_keeps {s0 : State} {x0 : State} (h : Keeps s0 x0) :
    KeepsO s0 (execHopCtlDisable x0) := by
  unfold execHopCtlDisable
  refine Keeps.next ?_
  split
  · refine State.hopDisable_keeps ?_
    exact h
  · exact h

end Sys2Proof.Machine
end

