-- ==== Sys2Proof/Laws/KeepsCore.lean ====
section
/-! SUPPORT. What the operations of Coherence.lean, Domains.lean, Cores.lean, Repair.lean keep: one lemma each, by composition (Laws/Keeps.lean). -/
namespace Sys2Proof.Machine

theorem execTransactionAck_keeps {s0 : State} {x0 : Nat} {x1 : State} (h : Keeps s0 x1) :
    KeepsO s0 (execTransactionAck x0 x1) := by
  unfold execTransactionAck
  extract_lets +onlyGivenNames a1
  refine Keeps.next ?_
  split
  · exact h
  · split
    · split
      · refine State.takeNext_keeps ?_
        exact h
      · refine State.coherenceFatal_keeps ?_
        exact h
    · refine State.coherenceFatal_keeps ?_
      exact h

theorem State.makeWay_keeps {s0 : State} {x0 : State} {x1 : Nat} {x2 : Nat} (h : Keeps s0 x0) :
    Keeps s0 (State.makeWay x0 x1 x2) := by
  unfold State.makeWay
  extract_lets +onlyGivenNames a1
  split
  · exact h
  · split
    extract_lets +onlyGivenNames a2
    split
    · refine State.setCopy_keeps ?_
      refine Keeps.of2 ‹_› ?_
      refine State.draw_keeps ?_
      exact h
    · split
      · refine State.request1_keeps ?_
        refine Keeps.of2 ‹_› ?_
        refine State.draw_keeps ?_
        exact h
      · refine State.request1_keeps ?_
        refine Keeps.of2 ‹_› ?_
        refine State.draw_keeps ?_
        exact h

theorem State.missAt_keeps {s0 : State} {x0 : State} {x1 : Nat} {x2 : Nat} (h : Keeps s0 x0) :
    Keeps s0 (State.missAt x0 x1 x2) := by
  unfold State.missAt
  refine State.makeWay_keeps ?_
  refine State.clusterEvents_keeps ?_
  exact h

theorem execReadShared_keeps {s0 : State} {x0 : Fin 13} {x1 : Nat} {x2 : State} {x3 : DirEcc} (h : Keeps s0 x2) :
    KeepsO s0 (execReadShared x0 x1 x2 x3) := by
  unfold execReadShared
  refine Keeps.next ?_
  split
  · exact h
  · extract_lets +onlyGivenNames a1
    split
    · refine Keeps.upd ?_
      exact h
    · refine State.request1_keeps ?_
      refine State.missAt_keeps ?_
      exact h

theorem State.store_keeps {s0 : State} {x0 : State} {x1 : Nat} {x2 : Nat} {x3 : Nat} {x4 : Nat} {x5 : Bool} {x6 : DirEcc} {x7 : HReq} (h : Keeps s0 x0) :
    Keeps s0 (State.store x0 x1 x2 x3 x4 x5 x6 x7) := by
  unfold State.store
  split
  · exact h
  · extract_lets +onlyGivenNames a1
    split
    · refine State.setCopy_keeps ?_
      exact h
    · refine State.request1_keeps ?_
      split
      · refine State.missAt_keeps ?_
        exact h
      · exact h

theorem execReadUnique_keeps {s0 : State} {x0 : Fin 13} {x1 : Nat} {x2 : Nat} {x3 : Nat} {x4 : State} {x5 : Bool} {x6 : DirEcc} (h : Keeps s0 x4) :
    KeepsO s0 (execReadUnique x0 x1 x2 x3 x4 x5 x6) := by
  unfold execReadUnique
  refine Keeps.next ?_
  split
  · refine State.coherenceFatal_keeps ?_
    exact h
  · refine State.store_keeps ?_
    exact h

theorem execUpgrade_keeps {s0 : State} {x0 : Fin 13} {x1 : Nat} {x2 : Nat} {x3 : Nat} {x4 : State} {x5 : Bool} {x6 : DirEcc} (h : Keeps s0 x4) :
    KeepsO s0 (execUpgrade x0 x1 x2 x3 x4 x5 x6) := by
  unfold execUpgrade
  refine Keeps.next ?_
  refine State.store_keeps ?_
  exact h

theorem execEvict_keeps {s0 : State} {x0 : Fin 13} {x1 : Nat} {x2 : State} (h : Keeps s0 x2) :
    KeepsO s0 (execEvict x0 x1 x2) := by
  unfold execEvict
  refine Keeps.next ?_
  split
  · refine State.coherenceFatal_keeps ?_
    exact h
  · split
    · split
      · refine State.evictLine_keeps ?_
        exact h
      · exact h
    · refine State.request1_keeps ?_
      exact h

theorem execWriteBack_keeps {s0 : State} {x0 : Fin 13} {x1 : Nat} {x2 : State} {x3 : Bool} {x4 : Nat} (h : Keeps s0 x2) :
    KeepsO s0 (execWriteBack x0 x1 x2 x3 x4) := by
  unfold execWriteBack
  refine Keeps.next ?_
  refine State.request1_keeps ?_
  exact h

theorem execReadOnce_keeps {s0 : State} {x0 : Nat} {x1 : State} {x2 : DirEcc} {x3 : TClass} (h : Keeps s0 x1) :
    KeepsO s0 (execReadOnce x0 x1 x2 x3) := by
  unfold execReadOnce
  refine Keeps.next ?_
  refine State.request1_keeps ?_
  exact h

theorem execInvWrite_keeps {s0 : State} {x0 : Nat} {x1 : Nat} {x2 : Bool} {x3 : State} {x4 : DirEcc} {x5 : TClass} (h : Keeps s0 x3) :
    KeepsO s0 (execInvWrite x0 x1 x2 x3 x4 x5) := by
  unfold execInvWrite
  refine Keeps.next ?_
  refine State.request1_keeps ?_
  exact h

theorem execMergeWrite_keeps {s0 : State} {x0 : Nat} {x1 : Nat} {x2 : Nat} {x3 : State} {x4 : DirEcc} {x5 : TClass} (h : Keeps s0 x3) :
    KeepsO s0 (execMergeWrite x0 x1 x2 x3 x4 x5) := by
  unfold execMergeWrite
  refine Keeps.next ?_
  refine State.request1_keeps ?_
  exact h

theorem execHomeAtomic_keeps {s0 : State} {x0 : Nat} {x1 : AtomicOp} {x2 : State} {x3 : DirEcc} {x4 : TClass} (h : Keeps s0 x2) :
    KeepsO s0 (execHomeAtomic x0 x1 x2 x3 x4) := by
  unfold execHomeAtomic
  refine Keeps.next ?_
  refine State.request1_keeps ?_
  exact h

theorem State.answered_keeps {s0 : State} {x0 : State} {x1 : Nat} {x2 : Nat} {x3 : Snoop} {x4 : Txn} (h : Keeps s0 x0) :
    Keeps s0 (State.answered x0 x1 x2 x3 x4) := by
  unfold State.answered
  extract_lets +onlyGivenNames a2
  extract_lets +onlyGivenNames a3
  extract_lets +onlyGivenNames a4
  extract_lets +onlyGivenNames a5
  extract_lets +onlyGivenNames a6
  extract_lets +onlyGivenNames a7
  extract_lets +onlyGivenNames a8
  have ka8 : Keeps s0 a8 := by
    unfold a8
    split
    · refine State.travel_keeps ?_
      exact h
    · exact h
  extract_lets +onlyGivenNames a9
  have ka9 : Keeps s0 a9 := by
    unfold a9
    refine State.setCopy_keeps ?_
    exact ka8
  refine State.tryServe_keeps ?_
  refine State.setHome_keeps ?_
  exact ka9

theorem State.answer_keeps {s0 : State} {x0 : State} {x1 : Nat} {x2 : Nat} {x3 : Snoop} (h : Keeps s0 x0) :
    Keeps s0 (State.answer x0 x1 x2 x3) := by
  unfold State.answer
  split
  · exact h
  · split
    · refine State.coherenceFatal_keeps ?_
      exact h
    · split
      · refine State.answered_keeps ?_
        refine State.clusterEvents_keeps ?_
        exact h
      · refine State.coherenceFatal_keeps ?_
        exact h

theorem execSnpShared_keeps {s0 : State} {x0 : Fin 13} {x1 : Nat} {x2 : State} (h : Keeps s0 x2) :
    KeepsO s0 (execSnpShared x0 x1 x2) := by
  unfold execSnpShared
  refine Keeps.next ?_
  refine State.answer_keeps ?_
  exact h

theorem execSnpUnique_keeps {s0 : State} {x0 : Fin 13} {x1 : Nat} {x2 : State} (h : Keeps s0 x2) :
    KeepsO s0 (execSnpUnique x0 x1 x2) := by
  unfold execSnpUnique
  refine Keeps.next ?_
  refine State.answer_keeps ?_
  exact h

theorem execSnpOnce_keeps {s0 : State} {x0 : Fin 13} {x1 : Nat} {x2 : State} (h : Keeps s0 x2) :
    KeepsO s0 (execSnpOnce x0 x1 x2) := by
  unfold execSnpOnce
  refine Keeps.next ?_
  refine State.answer_keeps ?_
  exact h

theorem execSnpInv_keeps {s0 : State} {x0 : Fin 13} {x1 : Nat} {x2 : State} (h : Keeps s0 x2) :
    KeepsO s0 (execSnpInv x0 x1 x2) := by
  unfold execSnpInv
  refine Keeps.next ?_
  refine State.answer_keeps ?_
  exact h

theorem execSnoopTimeout_keeps {s0 : State} {x0 : Fin 13} {x1 : Nat} {x2 : State} (h : Keeps s0 x2) :
    KeepsO s0 (execSnoopTimeout x0 x1 x2) := by
  unfold execSnoopTimeout
  refine Keeps.next ?_
  split
  · split
    · refine State.coherenceFatal_keeps ?_
      exact h
    · exact h
  · exact h

theorem State.writeAgents_keeps {s0 : State} {x0 : State} {x1 : Nat} {x2 : Nat} (h : Keeps s0 x0) :
    Keeps s0 (State.writeAgents x0 x1 x2) := by
  unfold State.writeAgents
  extract_lets +onlyGivenNames a1
  extract_lets +onlyGivenNames a2
  extract_lets +onlyGivenNames a3
  extract_lets +onlyGivenNames a4
  refine State.setFld_keeps ?_
  refine State.setFld_keeps ?_
  exact h

theorem execAgentAttach_keeps {s0 : State} {x0 : Agent} {x1 : Fin 13} {x2 : State} (h : Keeps s0 x2) :
    KeepsO s0 (execAgentAttach x0 x1 x2) := by
  unfold execAgentAttach
  refine Keeps.next ?_
  split
  · exact h
  · split
    · refine State.writeAgents_keeps ?_
      exact h
    · refine State.mmioRefuse_keeps ?_
      exact h

theorem execAgentDetach_keeps {s0 : State} {x0 : Agent} {x1 : Fin 13} {x2 : State} (h : Keeps s0 x2) :
    KeepsO s0 (execAgentDetach x0 x1 x2) := by
  unfold execAgentDetach
  refine Keeps.next ?_
  split
  · exact h
  · split
    · refine State.writeAgents_keeps ?_
      exact h
    · refine State.mmioRefuse_keeps ?_
      exact h

theorem State.snoopOut_keeps {s0 : State} {x0 : State} {x1 : Nat} (h : Keeps s0 x0) :
    Keeps s0 (State.snoopOut x0 x1) := by
  unfold State.snoopOut
  extract_lets +onlyGivenNames a1
  refine Keeps.foldl ?_ ?_
  · intro b1 b2 b3
    extract_lets +onlyGivenNames a2
    extract_lets +onlyGivenNames a3
    have ka3 : Keeps s0 a3 := by
      unfold a3
      refine State.setCopy_keeps ?_
      exact b3
    extract_lets +onlyGivenNames a4
    have ka4 : Keeps s0 a4 := by
      unfold a4
      split
      · refine State.storeLine_keeps ?_
        exact ka3
      · exact ka3
    split
    · split
      · refine State.forget_keeps ?_
        exact ka4
      · extract_lets +onlyGivenNames a5
        split
        · refine State.setDir_keeps ?_
          exact ka4
        · refine State.setDir_keeps ?_
          exact ka4
    · exact ka4
  · exact h

theorem State.answerAll_keeps {s0 : State} {x0 : State} {x1 : Nat} (h : Keeps s0 x0) :
    Keeps s0 (State.answerAll x0 x1) := by
  unfold State.answerAll
  refine Keeps.foldl ?_ ?_
  · intro b1 b2 b3
    split
    · refine Keeps.foldl ?_ ?_
      · intro b4 b5 b6
        split
        · refine State.answered_keeps ?_
          exact b6
        · exact b6
      · exact b3
    · exact b3
  · exact h

theorem execDetachComplete_keeps {s0 : State} {x0 : Fin 13} {x1 : State} (h : Keeps s0 x1) :
    KeepsO s0 (execDetachComplete x0 x1) := by
  unfold execDetachComplete
  extract_lets +onlyGivenNames a1
  extract_lets +onlyGivenNames a2
  refine Keeps.next ?_
  split
  · refine State.setFld_keeps ?_
    refine State.snoopOut_keeps ?_
    refine State.answerAll_keeps ?_
    exact h
  · exact h

theorem State.setDom_keeps {s0 : State} {x0 : State} {x1 : Nat} {x2 : Bool} (h : Keeps s0 x0) :
    Keeps s0 (State.setDom x0 x1 x2) := by
  unfold State.setDom
  split
  · refine State.setFld_keeps ?_
    exact h
  · split
    · refine State.setFld_keeps ?_
      exact h
    · exact h

theorem State.domRequest_keeps {s0 : State} {x0 : State} {x1 : Nat} {x2 : Bool} (h : Keeps s0 x0) :
    Keeps s0 (State.domRequest x0 x1 x2) := by
  unfold State.domRequest
  split
  · extract_lets +onlyGivenNames a1
    have ka1 : Keeps s0 a1 := by
      unfold a1
      refine State.setFld_keeps ?_
      exact h
    refine State.wire_keeps ?_
    exact ka1
  · split
    · exact h
    · refine Keeps.upd ?_
      exact h

theorem State.loseStack_keeps {s0 : State} {x0 : State} {x1 : Nat} (h : Keeps s0 x0) :
    Keeps s0 (State.loseStack x0 x1) := by
  exact Keeps.trans h ⟨rfl, fun w => Tab.wf_filter _ w, id, Nat.le_refl _⟩

theorem State.hartsReset_keeps {s0 : State} {x0 : State} {x1 : Nat} (h : Keeps s0 x0) :
    Keeps s0 (State.hartsReset x0 x1) := by
  unfold State.hartsReset
  refine Keeps.foldl ?_ ?_
  · intro b1 b2 b3
    refine State.setHart_keeps ?_
    refine State.setFld_keeps ?_
    exact b3
  · exact h

theorem State.softLost_keeps {s0 : State} {x0 : State} {x1 : Nat} (h : Keeps s0 x0) :
    Keeps s0 (State.softLost x0 x1) := by
  unfold State.softLost
  extract_lets +onlyGivenNames a1
  refine State.setStack_keeps ?_
  exact h

theorem State.domGone_keeps {s0 : State} {x0 : State} {x1 : Nat} (h : Keeps s0 x0) :
    Keeps s0 (State.domGone x0 x1) := by
  unfold State.domGone
  split
  · refine State.hartsReset_keeps ?_
    refine State.setFld_keeps ?_
    exact h
  · split
    · refine Keeps.foldl ?_ ?_
      · intro b1 b2 b3
        extract_lets +onlyGivenNames a1
        split
        · exact b3
        · refine State.portLeaves_keeps ?_
          exact b3
      · exact h
    · split
      · refine State.softLost_keeps ?_
        refine State.loseStack_keeps ?_
        exact h
      · exact h

theorem execDomainSwitchDone_keeps {s0 : State} {x0 : Fin 72} {x1 : State} (h : Keeps s0 x1) :
    KeepsO s0 (execDomainSwitchDone x0 x1) := by
  unfold execDomainSwitchDone
  refine Keeps.next ?_
  split
  · exact h
  · split
    · exact h
    · extract_lets +onlyGivenNames a1
      extract_lets +onlyGivenNames a2
      have ka2 : Keeps s0 a2 := by
        unfold a2
        refine Keeps.upd ?_
        exact h
      extract_lets +onlyGivenNames a3
      have ka3 : Keeps s0 a3 := by
        unfold a3
        refine State.setDom_keeps ?_
        exact ka2
      extract_lets +onlyGivenNames a4
      have ka4 : Keeps s0 a4 := by
        unfold a4
        refine Keeps.foldl ?_ ?_
        · intro b1 b2 b3
          split
          · refine State.clockResume_keeps ?_
            exact b3
          · refine State.clockStop_keeps ?_
            exact b3
        · exact ka3
      split
      · refine State.domGone_keeps ?_
        exact ka4
      · split
        · refine State.setFld_keeps ?_
          refine State.writeAgents_keeps ?_
          refine State.hartsReset_keeps ?_
          exact ka4
        · exact ka4

theorem execGovDomOn_keeps {s0 : State} {x0 : Agent} {x1 : Fin 72} {x2 : State} (h : Keeps s0 x2) :
    KeepsO s0 (execGovDomOn x0 x1 x2) := by
  unfold execGovDomOn
  refine Keeps.next ?_
  split
  · exact h
  · split
    · refine State.domRequest_keeps ?_
      exact h
    · refine State.mmioRefuse_keeps ?_
      exact h

theorem execGovDomOff_keeps {s0 : State} {x0 : Agent} {x1 : Fin 72} {x2 : State} (h : Keeps s0 x2) :
    KeepsO s0 (execGovDomOff x0 x1 x2) := by
  unfold execGovDomOff
  refine Keeps.next ?_
  split
  · exact h
  · split
    · refine State.domRequest_keeps ?_
      exact h
    · refine State.mmioRefuse_keeps ?_
      exact h

theorem State.coreFault_keeps {s0 : State} {x0 : State} {x1 : Nat} {x2 : Nat} {x3 : Nat} (h : Keeps s0 x0) :
    Keeps s0 (State.coreFault x0 x1 x2 x3) := by
  unfold State.coreFault
  extract_lets +onlyGivenNames a1
  extract_lets +onlyGivenNames a2
  have ka2 : Keeps s0 a2 := by
    unfold a2
    refine State.setHart_keeps ?_
    exact h
  refine Keeps.upd ?_
  exact ka2

theorem State.corePoison_keeps {s0 : State} {x0 : State} {x1 : Nat} {x2 : Nat} {x3 : Nat} (h : Keeps s0 x0) :
    Keeps s0 (State.corePoison x0 x1 x2 x3) := by
  unfold State.corePoison
  refine State.placeHold_keeps ?_
  refine State.report_keeps ?_
  refine State.coreFault_keeps ?_
  exact h

theorem execCorePoisonedAccess_keeps {s0 : State} {x0 : Fin 64} {x1 : CoreAccess} {x2 : Nat} {x3 : State} (h : Keeps s0 x3) :
    KeepsO s0 (execCorePoisonedAccess x0 x1 x2 x3) := by
  unfold execCorePoisonedAccess
  refine Keeps.next ?_
  split
  · exact h
  · split
    · split
      · refine State.coreFault_keeps ?_
        exact h
      · refine State.store_keeps ?_
        exact h
    · split
      · refine State.coreFault_keeps ?_
        exact h
      · refine State.corePoison_keeps ?_
        exact h

theorem execCboInval_keeps {s0 : State} {x0 : Fin 64} {x1 : Nat} {x2 : State} (h : Keeps s0 x2) :
    KeepsO s0 (execCboInval x0 x1 x2) := by
  unfold execCboInval
  refine Keeps.next ?_
  split
  · exact h
  · split
    · refine State.coreFault_keeps ?_
      exact h
    · refine State.request1_keeps ?_
      exact h

theorem State.chargeCycles_keeps {s0 : State} {x0 : State} {x1 : Nat} {x2 : Nat} (h : Keeps s0 x0) :
    Keeps s0 (State.chargeCycles x0 x1 x2) := by
  unfold State.chargeCycles
  extract_lets +onlyGivenNames a1
  extract_lets +onlyGivenNames a2
  have ka2 : Keeps s0 a2 := by
    unfold a2
    refine State.setHart_keeps ?_
    exact h
  split
  · exact ka2
  · split
    · split
      · refine State.add64_keeps ?_
        exact ka2
      · exact ka2
    · exact ka2

theorem execUvtopidWrite_keeps {s0 : State} {x0 : Fin 64} {x1 : Nat} {x2 : Nat} {x3 : State} (h : Keeps s0 x3) :
    KeepsO s0 (execUvtopidWrite x0 x1 x2 x3) := by
  unfold execUvtopidWrite
  refine Keeps.next ?_
  split
  · exact h
  · refine State.putFields_keeps ?_
    refine State.chargeCycles_keeps ?_
    exact h

theorem execCoreCycleCharge_keeps {s0 : State} {x0 : Fin 64} {x1 : Nat} {x2 : State} (h : Keeps s0 x2) :
    KeepsO s0 (execCoreCycleCharge x0 x1 x2) := by
  unfold execCoreCycleCharge
  refine Keeps.next ?_
  split
  · exact h
  · refine State.chargeCycles_keeps ?_
    exact h

theorem State.timerLevel_keeps {s0 : State} {x0 : State} {x1 : Nat} (h : Keeps s0 x0) :
    Keeps s0 (State.timerLevel x0 x1) := by
  unfold State.timerLevel
  refine State.setHart_keeps ?_
  exact h

theorem execTimerCompare_keeps {s0 : State} {x0 : Fin 64} {x1 : State} (h : Keeps s0 x1) :
    KeepsO s0 (execTimerCompare x0 x1) := by
  unfold execTimerCompare
  refine Keeps.next ?_
  split
  · refine State.timerLevel_keeps ?_
    exact h
  · exact h

theorem State.hartStart_keeps {s0 : State} {x0 : State} {x1 : Nat} {x2 : Nat} (h : Keeps s0 x0) :
    Keeps s0 (State.hartStart x0 x1 x2) := by
  unfold State.hartStart
  extract_lets +onlyGivenNames a1
  have ka1 : Keeps s0 a1 := by
    unfold a1
    refine State.setFld_keeps ?_
    exact h
  split
  · exact ka1
  · refine State.setHart_keeps ?_
    refine State.setFld_keeps ?_
    exact ka1

theorem execClHartStart_keeps {s0 : State} {x0 : Agent} {x1 : Fin 64} {x2 : Nat} {x3 : State} (h : Keeps s0 x3) :
    KeepsO s0 (execClHartStart x0 x1 x2 x3) := by
  unfold execClHartStart
  refine Keeps.next ?_
  split
  · exact h
  · split
    · refine State.hartStart_keeps ?_
      exact h
    · refine State.mmioRefuse_keeps ?_
      exact h

theorem State.hartStop_keeps {s0 : State} {x0 : State} {x1 : Agent} {x2 : Nat} (h : Keeps s0 x0) :
    Keeps s0 (State.hartStop x0 x1 x2) := by
  unfold State.hartStop
  split
  · split
    · refine State.setHart_keeps ?_
      exact h
    · exact h
  · exact h

theorem execClHartStop_keeps {s0 : State} {x0 : Agent} {x1 : Fin 64} {x2 : State} (h : Keeps s0 x2) :
    KeepsO s0 (execClHartStop x0 x1 x2) := by
  unfold execClHartStop
  refine Keeps.next ?_
  split
  · refine State.hartStop_keeps ?_
    exact h
  · exact h

theorem execHartStopAtWfi_keeps {s0 : State} {x0 : Fin 64} {x1 : State} (h : Keeps s0 x1) :
    KeepsO s0 (execHartStopAtWfi x0 x1) := by
  unfold execHartStopAtWfi
  extract_lets +onlyGivenNames a1
  refine Keeps.next ?_
  split
  · refine State.setHart_keeps ?_
    refine State.setFld_keeps ?_
    exact h
  · exact h

theorem State.clusterOff_keeps {s0 : State} {x0 : State} {x1 : Nat} (h : Keeps s0 x0) :
    Keeps s0 (State.clusterOff x0 x1) := by
  unfold State.clusterOff
  split
  · exact h
  · refine State.domRequest_keeps ?_
    refine State.writeAgents_keeps ?_
    exact h

theorem State.clusterOn_keeps {s0 : State} {x0 : State} {x1 : Nat} (h : Keeps s0 x0) :
    Keeps s0 (State.clusterOn x0 x1) := by
  unfold State.clusterOn
  split
  · exact h
  · refine State.domRequest_keeps ?_
    exact h

theorem execClCtlOffReq_keeps {s0 : State} {x0 : Fin 8} {x1 : State} (h : Keeps s0 x1) :
    KeepsO s0 (execClCtlOffReq x0 x1) := by
  unfold execClCtlOffReq
  refine Keeps.next ?_
  split
  · refine State.clusterOff_keeps ?_
    exact h
  · exact h

theorem execClCtlOnReq_keeps {s0 : State} {x0 : Fin 8} {x1 : State} (h : Keeps s0 x1) :
    KeepsO s0 (execClCtlOnReq x0 x1) := by
  unfold execClCtlOnReq
  refine Keeps.next ?_
  split
  · refine State.clusterOn_keeps ?_
    exact h
  · exact h

theorem execClDvfsReq_keeps {s0 : State} {x0 : Fin 8} {x1 : Nat} {x2 : State} (h : Keeps s0 x2) :
    KeepsO s0 (execClDvfsReq x0 x1 x2) := by
  unfold execClDvfsReq
  refine Keeps.next ?_
  split
  · refine State.putFields_keeps ?_
    exact h
  · exact h

theorem execDvfsChangeDone_keeps {s0 : State} {x0 : Fin 8} {x1 : State} (h : Keeps s0 x1) :
    KeepsO s0 (execDvfsChangeDone x0 x1) := by
  unfold execDvfsChangeDone
  refine Keeps.next ?_
  split
  · refine State.setFld_keeps ?_
    exact h
  · exact h

theorem State.reapRun_keeps {s0 : State} {x0 : State} {x1 : Nat} {x2 : Nat} {x3 : Hold} {x4 : CmdRef} (h : Keeps s0 x0) :
    Keeps s0 (State.reapRun x0 x1 x2 x3 x4).1 := by
  unfold State.reapRun
  split
  · with_reducible assumption
  · split
    · extract_lets +onlyGivenNames a1
      have ka1 : Keeps s0 a1 := by
        unfold a1
        refine Keeps.upd ?_
        exact h
      refine Keeps.fst ?_
      refine State.setHold_keeps ?_
      exact ka1
    · with_reducible assumption

theorem State.startRun_keeps {s0 : State} {x0 : State} {x1 : Nat} {x2 : Nat} {x3 : Hold} {x4 : Nat} {x5 : Nat} (h : Keeps s0 x0) :
    Keeps s0 (State.startRun x0 x1 x2 x3 x4 x5) := by
  unfold State.startRun
  extract_lets +onlyGivenNames a1
  extract_lets +onlyGivenNames a2
  extract_lets +onlyGivenNames a3
  have ka3 : Keeps s0 a3 := by
    unfold a3
    refine Keeps.upd ?_
    exact h
  extract_lets +onlyGivenNames a4
  have ka4 : Keeps s0 a4 := by
    unfold a4
    refine State.setHold_keeps ?_
    exact ka3
  extract_lets +onlyGivenNames a5
  extract_lets +onlyGivenNames a6
  have ka6 : Keeps s0 a6 := by
    unfold a6
    split
    · refine State.fetchSpans_keeps ?_
      exact ka4
    · exact ka4
  split
  · refine State.finish_keeps ?_
    exact ka6
  · split
    · split
      · refine State.finish_keeps ?_
        exact ka6
      · refine State.convertCmd_keeps ?_
        refine State.modCmd_keeps ?_
        exact ka6
    · split
      · refine State.finish_keeps ?_
        exact ka6
      · refine State.startFetch_keeps ?_
        refine State.modCmd_keeps ?_
        exact ka6

theorem State.repairRow_keeps {s0 : State} {x0 : State} {x1 : Nat} {x2 : Nat} {x3 : Nat} (h : Keeps s0 x0) :
    Keeps s0 (State.repairRow x0 x1 x2 x3) := by
  unfold State.repairRow
  split
  · extract_lets +onlyGivenNames a1
    extract_lets +onlyGivenNames a2
    split
    · exact h
    · refine State.setHold_keeps ?_
      refine State.softRowOp_keeps ?_
      exact h
  · exact h

theorem State.repairRows_keeps {s0 : State} {x0 : State} {x1 : Nat} {x2 : Nat} {x3 : List Nat} (h : Keeps s0 x0) :
    Keeps s0 (State.repairRows x0 x1 x2 x3) := by
  unfold State.repairRows
  refine Keeps.foldl ?_ ?_
  · intro b1 b2 b3
    split
    · split
      · exact b3
      · extract_lets +onlyGivenNames a1
        have ka1 : Keeps s0 a1 := by
          unfold a1
          refine State.repairRow_keeps ?_
          exact b3
        split
        · refine State.setHold_keeps ?_
          exact ka1
        · exact ka1
    · exact b3
  · exact h

theorem State.repairGo_keeps {s0 : State} {x0 : State} {x1 : Nat} {x2 : Nat} {x3 : Nat} (h : Keeps s0 x0) :
    Keeps s0 (State.repairGo x0 x1 x2 x3) := by
  induction x3 generalizing x0 with
  | zero =>
    unfold State.repairGo
    exact h
  | succ n ih =>
    unfold State.repairGo
    split
    · exact h
    · split
      · extract_lets +onlyGivenNames a1
        have ka1 : Keeps s0 a1 := by
          unfold a1
          split
          · split
            · refine State.convertCmd_keeps ?_
              exact h
            · exact h
          · exact h
        split
        split
        · refine ih ?_
          refine Keeps.of1 ‹_› ?_
          refine State.reapRun_keeps ?_
          exact ka1
        · refine Keeps.of1 ‹_› ?_
          refine State.reapRun_keeps ?_
          exact ka1
      · split
        · exact h
        · extract_lets +onlyGivenNames a1
          split
          · refine ih ?_
            refine State.setHold_keeps ?_
            exact h
          · extract_lets +onlyGivenNames a2
            refine ih ?_
            refine State.startRun_keeps ?_
            exact h

theorem State.holdSoftware_keeps {s0 : State} {x0 : State} {x1 : Nat} {x2 : Nat} {x3 : Hold} (h : Keeps s0 x0) :
    Keeps s0 (State.holdSoftware x0 x1 x2 x3) := by
  unfold State.holdSoftware
  extract_lets +onlyGivenNames a1
  have ka1 : Keeps s0 a1 := by
    unfold a1
    exact h
  extract_lets +onlyGivenNames a2
  have ka2 : Keeps s0 a2 := by
    unfold a2
    refine State.setHold_keeps ?_
    exact h
  extract_lets +onlyGivenNames a3
  have ka3 : Keeps s0 a3 := by
    unfold a3
    refine State.report_keeps ?_
    exact ka2
  refine State.wire_keeps ?_
  refine State.trace_keeps ?_
  exact ka3

theorem State.repairCheck_keeps {s0 : State} {x0 : State} {x1 : Nat} {x2 : Nat} {x3 : Hold} (h : Keeps s0 x0) :
    Keeps s0 (State.repairCheck x0 x1 x2 x3) := by
  unfold State.repairCheck
  extract_lets +onlyGivenNames a1
  have ka1 : Keeps s0 a1 := by
    unfold a1
    refine Keeps.foldl ?_ ?_
    · intro b1 b2 b3
      refine State.demand_keeps ?_
      exact b3
    · exact h
  split
  · refine State.holdSoftware_keeps ?_
    exact ka1
  · extract_lets +onlyGivenNames a2
    have ka2 : Keeps s0 a2 := by
      unfold a2
      refine State.freeHold_keeps ?_
      exact ka1
    refine Keeps.foldl ?_ ?_
    · intro b1 b2 b3
      extract_lets +onlyGivenNames a3
      extract_lets +onlyGivenNames a4
      have ka4 : Keeps s0 a4 := by
        unfold a4
        refine State.setStack_keeps ?_
        exact b3
      refine State.nextHard_keeps ?_
      exact ka4
    · exact ka2

theorem execHoldRepairCheck_keeps {s0 : State} {x0 : Fin 4} {x1 : Fin 16} {x2 : State} (h : Keeps s0 x2) :
    KeepsO s0 (execHoldRepairCheck x0 x1 x2) := by
  unfold execHoldRepairCheck
  refine Keeps.next ?_
  split
  · exact h
  · split
    · exact h
    · extract_lets +onlyGivenNames a1
      extract_lets +onlyGivenNames a2
      have ka2 : Keeps s0 a2 := by
        unfold a2
        refine State.repairRows_keeps ?_
        exact h
      extract_lets +onlyGivenNames a3
      split
      · exact ka2
      · extract_lets +onlyGivenNames a4
        have ka4 : Keeps s0 a4 := by
          unfold a4
          refine State.repairGo_keeps ?_
          exact ka2
        split
        · exact ka4
        · split
          · refine State.repairCheck_keeps ?_
            exact ka4
          · exact ka4

end Sys2Proof.Machine
end

