-- ==== Sys2Proof/Laws/KeepsCtl.lean ====
section
/-! SUPPORT. What the operations of Observe.lean, Errors.lean, Reset.lean, Power.lean keep: one lemma each, by composition (Laws/Keeps.lean). -/
namespace Sys2Proof.Machine

theorem State.profValue_keeps {s0 : State} {x0 : State} {x1 : Nat} (h : Keeps s0 x0) :
    Keeps s0 (State.profValue x0 x1).2 := by
  unfold State.profValue
  extract_lets +onlyGivenNames a1
  split
  · split
    extract_lets +onlyGivenNames a2
    have ka2 : Keeps s0 a2 := by
      unfold a2
      refine State.profAdd_keeps ?_
      refine Keeps.of2 ‹_› ?_
      refine State.draw_keeps ?_
      exact h
    with_reducible assumption
  · with_reducible assumption

theorem State.regionCycles_keeps {s0 : State} {x0 : State} {x1 : Nat} (h : Keeps s0 x0) :
    Keeps s0 (State.regionCycles x0 x1).2 := by
  unfold State.regionCycles
  extract_lets +onlyGivenNames a1
  split
  · with_reducible assumption
  · split
    refine Keeps.snd ?_
    refine State.setR_keeps ?_
    refine Keeps.of2 ‹_› ?_
    refine State.draw_keeps ?_
    exact h

theorem State.vecBusy_keeps {s0 : State} {x0 : State} {x1 : Nat} (h : Keeps s0 x0) :
    Keeps s0 (State.vecBusy x0 x1).2 := by
  unfold State.vecBusy
  split
  · with_reducible assumption
  · split
    extract_lets +onlyGivenNames a1
    have ka1 : Keeps s0 a1 := by
      unfold a1
      refine State.aon_keeps ?_
      refine Keeps.of2 ‹_› ?_
      refine State.draw_keeps ?_
      exact h
    with_reducible assumption

theorem State.engCount_keeps {s0 : State} {x0 : State} {x1 : Reg} {x2 : Nat} (h : Keeps s0 x0) :
    Keeps s0 (State.engCount x0 x1 x2).2 := by
  unfold State.engCount
  extract_lets +onlyGivenNames a1
  extract_lets +onlyGivenNames a2
  extract_lets +onlyGivenNames a3
  split
  · with_reducible assumption
  · extract_lets +onlyGivenNames a4
    have ka4 : Keeps s0 a4 := by
      unfold a4
      split
      · refine State.setEngine_keeps ?_
        exact h
      · exact h
    split
    refine Keeps.snd ?_
    refine State.setR_keeps ?_
    refine Keeps.of2 ‹_› ?_
    refine State.draw_keeps ?_
    exact ka4

theorem State.aonValue_keeps {s0 : State} {x0 : State} {x1 : Nat} (h : Keeps s0 x0) :
    Keeps s0 (State.aonValue x0 x1).2 := by
  unfold State.aonValue
  split
  · refine State.engCount_keeps ?_
    exact h
  · split
    · refine State.engCount_keeps ?_
      exact h
    · split
      · refine State.vecBusy_keeps ?_
        exact h
      · split
        · refine State.regionCycles_keeps ?_
          exact h
        · split
          · with_reducible assumption
          · with_reducible assumption

theorem State.compatValue_keeps {s0 : State} {x0 : State} {x1 : Nat} (h : Keeps s0 x0) :
    Keeps s0 (State.compatValue x0 x1).2 := by
  unfold State.compatValue
  split
  refine Keeps.snd ?_
  refine Keeps.of2 ‹_› ?_
  refine State.draw_keeps ?_
  exact h

theorem State.putValues_keeps {s0 : State} {x0 : State} {x1 : Nat} {x2 : Nat} {x3 : State → Nat → Nat × State} (h : Keeps s0 x0) (k3 : ∀ {y0 y1}, Keeps s0 y0 → Keeps s0 (x3 y0 y1).2) :
    Keeps s0 (State.putValues x0 x1 x2 x3) := by
  unfold State.putValues
  refine Keeps.foldl ?_ ?_
  · intro b1 b2 b3
    split
    refine State.hubWrites_keeps ?_
    refine Keeps.of2 ‹_› ?_
    refine k3 ?_
    exact b3
  · exact h

theorem State.brakePfc_keeps {s0 : State} {x0 : State} {x1 : Nat} (h : Keeps s0 x0) :
    Keeps s0 (State.brakePfc x0 x1) := by
  unfold State.brakePfc
  extract_lets +onlyGivenNames a1
  refine Keeps.foldl ?_ ?_
  · intro b2 b3 b4
    split
    · exact b4
    · refine Keeps.foldl ?_ ?_
      · intro b5 b6 b7
        split
        · refine State.send_keeps ?_
          exact b7
        · exact b7
      · exact b4
  · exact h

theorem State.freezeQueue_keeps {s0 : State} {x0 : State} {x1 : Nat} (h : Keeps s0 x0) :
    Keeps s0 (State.freezeQueue x0 x1) := by
  unfold State.freezeQueue
  extract_lets +onlyGivenNames a1
  split
  · refine State.setQState_keeps ?_
    refine State.setQueue_keeps ?_
    exact h
  · exact h

theorem State.startBrake_keeps {s0 : State} {x0 : State} (h : Keeps s0 x0) :
    Keeps s0 (State.startBrake x0) := by
  unfold State.startBrake
  extract_lets +onlyGivenNames a1
  extract_lets +onlyGivenNames a2
  extract_lets +onlyGivenNames a3
  extract_lets +onlyGivenNames a4
  have ka4 : Keeps s0 a4 := by
    unfold a4
    refine State.setFld_keeps ?_
    exact h
  extract_lets +onlyGivenNames a5
  extract_lets +onlyGivenNames a6
  have ka6 : Keeps s0 a6 := by
    unfold a6
    refine Keeps.upd ?_
    exact ka4
  refine State.brakePfc_keeps ?_
  refine Keeps.foldl ?_ ?_
  · intro b1 b2 b3
    refine State.freezeQueue_keeps ?_
    exact b3
  · exact ka6

theorem State.scheduleBrake_keeps {s0 : State} {x0 : State} {x1 : Nat} {x2 : Nat} {x3 : Bool} (h : Keeps s0 x0) :
    Keeps s0 (State.scheduleBrake x0 x1 x2 x3) := by
  unfold State.scheduleBrake
  extract_lets +onlyGivenNames a1
  have ka1 : Keeps s0 a1 := by
    unfold a1
    refine State.setFld_keeps ?_
    refine State.setFld_keeps ?_
    refine State.setFld_keeps ?_
    exact h
  refine State.trace_keeps ?_
  refine Keeps.upd ?_
  exact ka1

theorem State.brakeIdle_keeps {s0 : State} {x0 : State} (h : Keeps s0 x0) :
    Keeps s0 (State.brakeIdle x0) := by
  unfold State.brakeIdle
  extract_lets +onlyGivenNames a1
  have ka1 : Keeps s0 a1 := by
    unfold a1
    refine State.setFld_keeps ?_
    refine State.setFld_keeps ?_
    refine State.setFld_keeps ?_
    refine State.setFld_keeps ?_
    exact h
  refine Keeps.upd ?_
  exact ka1

theorem State.resumeTimers_keeps {s0 : State} {x0 : State} (h : Keeps s0 x0) :
    Keeps s0 (State.resumeTimers x0) := by
  unfold State.resumeTimers
  extract_lets +onlyGivenNames a1
  extract_lets +onlyGivenNames a2
  have ka2 : Keeps s0 a2 := by
    unfold a2
    refine Keeps.upd ?_
    exact h
  refine Keeps.foldl ?_ ?_
  · intro b1 b2 b3
    refine State.setPort_keeps ?_
    exact b3
  · exact ka2

theorem State.resumeAll_keeps {s0 : State} {x0 : State} (h : Keeps s0 x0) :
    Keeps s0 (State.resumeAll x0) := by
  unfold State.resumeAll
  extract_lets +onlyGivenNames a1
  have ka1 : Keeps s0 a1 := by
    unfold a1
    refine State.pumpRoce_keeps ?_
    refine State.pumpAll_keeps ?_
    exact h
  extract_lets +onlyGivenNames a2
  have ka2 : Keeps s0 a2 := by
    unfold a2
    refine Keeps.foldl ?_ ?_
    · intro b1 b2 b3
      split
      · split
        · split
          · refine State.fixMask_keeps ?_
            exact b3
          · refine State.tryMask_keeps ?_
            exact b3
        · exact b3
      · exact b3
    · exact ka1
  refine State.settleQueues_keeps ?_
  refine State.runInput_keeps ?_
  exact ka2

theorem State.releaseBrake_keeps {s0 : State} {x0 : State} (h : Keeps s0 x0) :
    Keeps s0 (State.releaseBrake x0) := by
  unfold State.releaseBrake
  split
  · exact h
  · extract_lets +onlyGivenNames a1
    have ka1 : Keeps s0 a1 := by
      unfold a1
      refine Keeps.foldl ?_ ?_
      · intro b1 b2 b3
        split
        · refine State.setQState_keeps ?_
          exact b3
        · exact b3
      · exact h
    refine State.resumeAll_keeps ?_
    refine State.brakePfc_keeps ?_
    refine State.traceFree_keeps ?_
    refine State.brakeIdle_keeps ?_
    refine State.resumeTimers_keeps ?_
    exact ka1

theorem State.cancelBrake_keeps {s0 : State} {x0 : State} (h : Keeps s0 x0) :
    Keeps s0 (State.cancelBrake x0) := by
  unfold State.cancelBrake
  split
  · refine State.brakeIdle_keeps ?_
    exact h
  · exact h

theorem State.gangSend_keeps {s0 : State} {x0 : State} {x1 : Cmd} {x2 : Nat} (h : Keeps s0 x0) :
    Keeps s0 (State.gangSend x0 x1 x2) := by
  unfold State.gangSend
  split
  · refine State.finish_keeps ?_
    exact h
  · extract_lets +onlyGivenNames a1
    split
    · refine State.finish_keeps ?_
      exact h
    · extract_lets +onlyGivenNames a2
      have ka2 : Keeps s0 a2 := by
        unfold a2
        refine State.modCmd_keeps ?_
        exact h
      refine State.sendColl_keeps ?_
      exact ka2

theorem execBrake_keeps {s0 : State} {x0 : CmdRef} {x1 : State} (h : Keeps s0 x1) :
    KeepsO s0 (execBrake x0 x1) := by
  unfold execBrake
  refine Keeps.next ?_
  refine State.run_keeps ?_ ?_
  · exact h
  · intro b1
    extract_lets +onlyGivenNames a1
    extract_lets +onlyGivenNames a2
    extract_lets +onlyGivenNames a3
    extract_lets +onlyGivenNames a4
    split
    · refine State.finish_keeps ?_
      exact h
    · split
      · refine State.finish_keeps ?_
        exact h
      · split
        · refine State.finish_keeps ?_
          exact h
        · split
          · extract_lets +onlyGivenNames a5
            have ka5 : Keeps s0 a5 := by
              unfold a5
              refine State.scheduleBrake_keeps ?_
              exact h
            split
            · refine State.gangSend_keeps ?_
              exact ka5
            · refine State.finish_keeps ?_
              exact ka5
          · split
            · refine State.finish_keeps ?_
              refine State.cancelBrake_keeps ?_
              exact h
            · split
              · refine State.gangSend_keeps ?_
                refine State.releaseBrake_keeps ?_
                exact h
              · refine State.finish_keeps ?_
                refine State.releaseBrake_keeps ?_
                exact h

theorem execBrakeTimeReached_keeps {s0 : State} {x0 : State} (h : Keeps s0 x0) :
    KeepsO s0 (execBrakeTimeReached x0) := by
  unfold execBrakeTimeReached
  refine Keeps.next ?_
  split
  · refine State.startBrake_keeps ?_
    exact h
  · exact h

theorem execBrakeCut_keeps {s0 : State} {x0 : State} (h : Keeps s0 x0) :
    KeepsO s0 (execBrakeCut x0) := by
  unfold execBrakeCut
  refine Keeps.next ?_
  split
  · exact h
  · extract_lets +onlyGivenNames a1
    extract_lets +onlyGivenNames a2
    have ka2 : Keeps s0 a2 := by
      unfold a2
      split
      · exact h
      · refine State.hubWrites_keeps ?_
        exact h
    extract_lets +onlyGivenNames a3
    have ka3 : Keeps s0 a3 := by
      unfold a3
      refine State.setFld_keeps ?_
      exact ka2
    refine State.wire_keeps ?_
    refine State.trace_keeps ?_
    exact ka3

theorem execBrakePfcRepeat_keeps {s0 : State} {x0 : State} (h : Keeps s0 x0) :
    KeepsO s0 (execBrakePfcRepeat x0) := by
  unfold execBrakePfcRepeat
  refine Keeps.next ?_
  split
  · refine State.brakePfc_keeps ?_
    exact h
  · exact h

theorem execObsBrakeRelease_keeps {s0 : State} {x0 : State} (h : Keeps s0 x0) :
    KeepsO s0 (execObsBrakeRelease x0) := by
  unfold execObsBrakeRelease
  refine Keeps.next ?_
  split
  · refine State.releaseBrake_keeps ?_
    exact h
  · exact h

theorem execObsBrakeCancel_keeps {s0 : State} {x0 : State} (h : Keeps s0 x0) :
    KeepsO s0 (execObsBrakeCancel x0) := by
  unfold execObsBrakeCancel
  refine Keeps.next ?_
  split
  · refine State.cancelBrake_keeps ?_
    exact h
  · exact h

theorem State.memberBrake_keeps {s0 : State} {x0 : State} {x1 : Nat} (h : Keeps s0 x0) :
    Keeps s0 (State.memberBrake x0 x1) := by
  unfold State.memberBrake
  split
  · refine State.releaseBrake_keeps ?_
    exact h
  · split
    · exact h
    · split
      · refine State.scheduleBrake_keeps ?_
        exact h
      · extract_lets +onlyGivenNames a1
        have ka1 : Keeps s0 a1 := by
          unfold a1
          refine State.setFld_keeps ?_
          refine State.setFld_keeps ?_
          refine State.setFld_keeps ?_
          exact h
        refine State.startBrake_keeps ?_
        refine Keeps.upd ?_
        exact ka1

theorem execBrakeFrame_keeps {s0 : State} {x0 : Fin 4} {x1 : CFrame} {x2 : State} (h : Keeps s0 x2) :
    KeepsO s0 (execBrakeFrame x0 x1 x2) := by
  unfold execBrakeFrame
  refine Keeps.next ?_
  refine State.withFrame_keeps ?_ ?_
  · exact h
  · intro b1 b2
    split
    · refine State.discard_keeps ?_
      exact b2
    · split
      · refine State.discard_keeps ?_
        exact b2
      · extract_lets +onlyGivenNames a1
        extract_lets +onlyGivenNames a2
        have ka2 : Keeps s0 a2 := by
          unfold a2
          refine State.sendAck_keeps ?_
          exact b2
        split
        · exact ka2
        · refine State.memberBrake_keeps ?_
          refine Keeps.upd ?_
          exact ka2

theorem State.startFreeze_keeps {s0 : State} {x0 : State} (h : Keeps s0 x0) :
    Keeps s0 (State.startFreeze x0) := by
  unfold State.startFreeze
  extract_lets +onlyGivenNames a1
  extract_lets +onlyGivenNames a2
  have ka2 : Keeps s0 a2 := by
    unfold a2
    refine State.traceFree_keeps ?_
    refine State.setFld_keeps ?_
    exact h
  extract_lets +onlyGivenNames a3
  have ka3 : Keeps s0 a3 := by
    unfold a3
    refine Keeps.foldl ?_ ?_
    · intro b1 b2 b3
      refine State.clockStop_keeps ?_
      exact b3
    · exact ka2
  refine Keeps.upd ?_
  exact ka3

theorem State.releaseFreeze_keeps {s0 : State} {x0 : State} (h : Keeps s0 x0) :
    Keeps s0 (State.releaseFreeze x0) := by
  unfold State.releaseFreeze
  extract_lets +onlyGivenNames a1
  extract_lets +onlyGivenNames a2
  have ka2 : Keeps s0 a2 := by
    unfold a2
    refine State.traceFree_keeps ?_
    refine State.setFld_keeps ?_
    exact h
  extract_lets +onlyGivenNames a3
  have ka3 : Keeps s0 a3 := by
    unfold a3
    refine Keeps.foldl ?_ ?_
    · intro b1 b2 b3
      refine State.clockResume_keeps ?_
      exact b3
    · exact ka2
  extract_lets +onlyGivenNames a4
  extract_lets +onlyGivenNames a5
  have ka5 : Keeps s0 a5 := by
    unfold a5
    refine Keeps.foldl ?_ ?_
    · intro b1 b2 b3
      refine State.emit_keeps ?_
      exact b3
    · refine Keeps.upd ?_
      exact ka3
  refine State.resumeAll_keeps ?_
  exact ka5

theorem execFreeze_keeps {s0 : State} {x0 : CmdRef} {x1 : State} (h : Keeps s0 x1) :
    KeepsO s0 (execFreeze x0 x1) := by
  unfold execFreeze
  refine Keeps.next ?_
  refine State.run_keeps ?_ ?_
  · exact h
  · intro b1
    extract_lets +onlyGivenNames a1
    split
    · refine State.finish_keeps ?_
      exact h
    · split
      · refine State.finish_keeps ?_
        refine State.startFreeze_keeps ?_
        exact h
      · refine State.finish_keeps ?_
        refine State.releaseFreeze_keeps ?_
        exact h

theorem execObsFrzFreeze_keeps {s0 : State} {x0 : State} (h : Keeps s0 x0) :
    KeepsO s0 (execObsFrzFreeze x0) := by
  unfold execObsFrzFreeze
  refine Keeps.next ?_
  split
  · refine State.startFreeze_keeps ?_
    exact h
  · exact h

theorem execObsFrzRelease_keeps {s0 : State} {x0 : State} (h : Keeps s0 x0) :
    KeepsO s0 (execObsFrzRelease x0) := by
  unfold execObsFrzRelease
  refine Keeps.next ?_
  split
  · refine State.releaseFreeze_keeps ?_
    exact h
  · exact h

theorem State.captureState_keeps {s0 : State} {x0 : State} {x1 : Nat} (h : Keeps s0 x0) :
    Keeps s0 (State.captureState x0 x1).2 := by
  unfold State.captureState
  extract_lets +onlyGivenNames a1
  extract_lets +onlyGivenNames a2
  split
  extract_lets +onlyGivenNames a3
  split
  · with_reducible assumption
  · split
    · extract_lets +onlyGivenNames a4
      split
      · refine Keeps.snd ?_
        refine Keeps.of2 ‹_› ?_
        refine State.draw_keeps ?_
        exact h
      · with_reducible assumption
    · split
      · refine Keeps.snd ?_
        refine Keeps.of2 ‹_› ?_
        refine State.draw_keeps ?_
        exact h
      · split
        · extract_lets +onlyGivenNames a4
          refine Keeps.snd ?_
          refine Keeps.of2 ‹_› ?_
          refine State.draw_keeps ?_
          exact h
        · split
          · with_reducible assumption
          · with_reducible assumption

theorem State.captureRecord_keeps {s0 : State} {x0 : State} {x1 : Nat} (h : Keeps s0 x0) :
    Keeps s0 (State.captureRecord x0 x1).2 := by
  unfold State.captureRecord
  split
  split
  split
  split
  extract_lets +onlyGivenNames a1
  refine Keeps.snd ?_
  refine Keeps.of2 ‹_› ?_
  refine State.captureState_keeps ?_
  refine Keeps.of2 ‹_› ?_
  refine State.draw_keeps ?_
  refine Keeps.of2 ‹_› ?_
  refine State.draw_keeps ?_
  exact h

theorem execFreezeCapture_keeps {s0 : State} {x0 : State} (h : Keeps s0 x0) :
    KeepsO s0 (execFreezeCapture x0) := by
  unfold execFreezeCapture
  refine Keeps.next ?_
  split
  · exact h
  · extract_lets +onlyGivenNames a1
    extract_lets +onlyGivenNames a2
    have ka2 : Keeps s0 a2 := by
      unfold a2
      split
      · exact h
      · refine Keeps.foldl ?_ ?_
        · intro b1 b2 b3
          split
          refine State.hubWrites_keeps ?_
          refine Keeps.of2 ‹_› ?_
          split
          · refine State.captureRecord_keeps ?_
            exact b3
          · with_reducible assumption
        · exact h
    refine State.setFld_keeps ?_
    exact ka2

theorem execTraceCfg_keeps {s0 : State} {x0 : CmdRef} {x1 : State} (h : Keeps s0 x1) :
    KeepsO s0 (execTraceCfg x0 x1) := by
  unfold execTraceCfg
  refine Keeps.next ?_
  refine State.run_keeps ?_ ?_
  · exact h
  · intro b1
    extract_lets +onlyGivenNames a1
    refine State.finish_keeps ?_
    refine Keeps.foldl ?_ ?_
    · intro b2 b3 b4
      extract_lets +onlyGivenNames a2
      have ka2 : Keeps s0 a2 := by
        unfold a2
        exact b4
      extract_lets +onlyGivenNames a3
      have ka3 : Keeps s0 a3 := by
        unfold a3
        refine State.setR_keeps ?_
        refine State.setFld_keeps ?_
        refine State.setFld_keeps ?_
        refine State.setFld_keeps ?_
        exact b4
      extract_lets +onlyGivenNames a4
      have ka4 : Keeps s0 a4 := by
        unfold a4
        refine State.setFld_keeps ?_
        refine State.setFld_keeps ?_
        refine State.setFld_keeps ?_
        exact ka3
      refine State.wire_keeps ?_
      exact ka4
    · exact h

theorem State.ringHalf_keeps {s0 : State} {x0 : State} {x1 : Nat} (h : Keeps s0 x0) :
    Keeps s0 (State.ringHalf x0 x1) := by
  unfold State.ringHalf
  extract_lets +onlyGivenNames a1
  split
  · exact h
  · extract_lets +onlyGivenNames a2
    extract_lets +onlyGivenNames a3
    extract_lets +onlyGivenNames a4
    have ka4 : Keeps s0 a4 := by
      unfold a4
      refine State.carry_keeps ?_
      refine State.writeMem_keeps ?_
      exact h
    extract_lets +onlyGivenNames a5
    have ka5 : Keeps s0 a5 := by
      unfold a5
      refine State.setFld_keeps ?_
      exact ka4
    refine Keeps.upd ?_
    exact ka5

theorem State.ringOut_keeps {s0 : State} {x0 : State} {x1 : Nat} (h : Keeps s0 x0) :
    Keeps s0 (State.ringOut x0 x1) := by
  unfold State.ringOut
  extract_lets +onlyGivenNames a1
  have ka1 : Keeps s0 a1 := by
    unfold a1
    split
    · refine State.ringHalf_keeps ?_
      exact h
    · exact h
  refine State.wire_keeps ?_
  refine State.ringHalf_keeps ?_
  refine State.flushRing_keeps ?_
  exact ka1

theorem execTraceLineFlush_keeps {s0 : State} {x0 : Fin 5} {x1 : State} (h : Keeps s0 x1) :
    KeepsO s0 (execTraceLineFlush x0 x1) := by
  unfold execTraceLineFlush
  refine Keeps.next ?_
  split
  · refine State.ringOut_keeps ?_
    exact h
  · exact h

theorem execTraceMark_keeps {s0 : State} {x0 : CmdRef} {x1 : State} (h : Keeps s0 x1) :
    KeepsO s0 (execTraceMark x0 x1) := by
  unfold execTraceMark
  refine Keeps.next ?_
  refine State.run_keeps ?_ ?_
  · exact h
  · intro b1
    refine State.finish_keeps ?_
    refine State.traceAs_keeps ?_
    exact h

theorem State.obsMark_keeps {s0 : State} {x0 : State} {x1 : Agent} {x2 : Nat} (h : Keeps s0 x0) :
    Keeps s0 (State.obsMark x0 x1 x2) := by
  unfold State.obsMark
  extract_lets +onlyGivenNames a1
  refine State.traceAs_keeps ?_
  exact h

theorem execObsMarkWrite_keeps {s0 : State} {x0 : Agent} {x1 : Nat} {x2 : State} (h : Keeps s0 x2) :
    KeepsO s0 (execObsMarkWrite x0 x1 x2) := by
  unfold execObsMarkWrite
  refine Keeps.next ?_
  split
  · refine State.obsMark_keeps ?_
    exact h
  · exact h

theorem State.profSel_keeps {s0 : State} {x0 : State} {x1 : Nat} {x2 : Nat} {x3 : Nat} (h : Keeps s0 x0) :
    Keeps s0 (State.profSel x0 x1 x2 x3) := by
  unfold State.profSel
  extract_lets +onlyGivenNames a1
  extract_lets +onlyGivenNames a2
  extract_lets +onlyGivenNames a3
  extract_lets +onlyGivenNames a4
  split
  · refine State.setFld_keeps ?_
    refine State.putFields_keeps ?_
    exact h
  · exact h

theorem execObsProfSelWrite_keeps {s0 : State} {x0 : Fin 80} {x1 : Nat} {x2 : State} (h : Keeps s0 x2) :
    KeepsO s0 (execObsProfSelWrite x0 x1 x2) := by
  unfold execObsProfSelWrite
  refine Keeps.next ?_
  split
  · refine State.profSel_keeps ?_
    exact h
  · exact h

theorem execCounterSnap_keeps {s0 : State} {x0 : CmdRef} {x1 : State} (h : Keeps s0 x1) :
    KeepsO s0 (execCounterSnap x0 x1) := by
  unfold execCounterSnap
  refine Keeps.next ?_
  refine State.run_keeps ?_ ?_
  · exact h
  · intro b1
    extract_lets +onlyGivenNames a1
    refine State.modCmd_keeps ?_
    exact h

theorem execCounterSnapLatch_keeps {s0 : State} {x0 : CmdRef} {x1 : State} (h : Keeps s0 x1) :
    KeepsO s0 (execCounterSnapLatch x0 x1) := by
  unfold execCounterSnapLatch
  refine Keeps.next ?_
  split
  · exact h
  · split
    · split
      · exact h
      · extract_lets +onlyGivenNames a1
        extract_lets +onlyGivenNames a2
        extract_lets +onlyGivenNames a3
        have ka3 : Keeps s0 a3 := by
          unfold a3
          refine State.hubWrites_keeps ?_
          exact h
        extract_lets +onlyGivenNames a4
        have ka4 : Keeps s0 a4 := by
          unfold a4
          split
          · refine State.putValues_keeps ?_ ?_
            · exact ka3
            · intro b1 b2 b3
              refine State.aonValue_keeps ?_
              exact b3
          · exact ka3
        extract_lets +onlyGivenNames a5
        extract_lets +onlyGivenNames a6
        have ka6 : Keeps s0 a6 := by
          unfold a6
          split
          · refine State.putValues_keeps ?_ ?_
            · exact ka4
            · intro b1 b2 b3
              split
              refine Keeps.snd ?_
              refine Keeps.of2 ‹_› ?_
              refine State.profValue_keeps ?_
              exact b3
          · exact ka4
        extract_lets +onlyGivenNames a7
        extract_lets +onlyGivenNames a8
        have ka8 : Keeps s0 a8 := by
          unfold a8
          split
          · refine State.putValues_keeps ?_ ?_
            · exact ka6
            · intro b1 b2 b3
              refine State.compatValue_keeps ?_
              exact b3
          · exact ka6
        refine State.finish_keeps ?_
        refine State.wrote_keeps ?_
        exact ka8
    · exact h

theorem State.laneQuar_keeps {s0 : State} {x0 : State} {x1 : Bool} {x2 : Nat} {x3 : Bool} (h : Keeps s0 x0) :
    Keeps s0 (State.laneQuar x0 x1 x2 x3) := by
  unfold State.laneQuar
  split
  · refine State.setFld_keeps ?_
    exact h
  · refine State.setFld_keeps ?_
    exact h

theorem State.takeOut_keeps {s0 : State} {x0 : State} {x1 : CmdRef} {x2 : Nat} {x3 : QuarPart} (h : Keeps s0 x0) :
    Keeps s0 (State.takeOut x0 x1 x2 x3) := by
  unfold State.takeOut
  split
  · split
    · exact h
    · refine State.settleLost_keeps ?_
      refine State.quarantineEngine_keeps ?_
      exact h
  · refine State.runInput_keeps ?_
    refine State.laneQuar_keeps ?_
    exact h
  · split
    · exact h
    · refine State.portLeaves_keeps ?_
      exact h
  · refine State.setFld_keeps ?_
    exact h

theorem execQuarantine_keeps {s0 : State} {x0 : CmdRef} {x1 : State} (h : Keeps s0 x1) :
    KeepsO s0 (execQuarantine x0 x1) := by
  unfold execQuarantine
  refine Keeps.next ?_
  refine State.run_keeps ?_ ?_
  · exact h
  · intro b1
    extract_lets +onlyGivenNames a1
    extract_lets +onlyGivenNames a2
    split
    · refine State.finish_keeps ?_
      exact h
    · split
      · refine State.settleQuars_keeps ?_
        refine State.phaseCmd_keeps ?_
        refine State.takeOut_keeps ?_
        exact h
      · split
        · split
          · refine State.finish_keeps ?_
            exact h
          · split
            · refine State.finish_keeps ?_
              exact h
            · refine State.finish_keeps ?_
              refine State.setEngMap_keeps ?_
              exact h
        · refine State.finish_keeps ?_
          refine State.runInput_keeps ?_
          refine State.laneQuar_keeps ?_
          exact h
        · refine State.finish_keeps ?_
          split
          · refine State.portState_keeps ?_
            exact h
          · exact h
        · split
          · refine State.finish_keeps ?_
            exact h
          · refine State.settleQuars_keeps ?_
            refine State.phaseCmd_keeps ?_
            exact h

theorem execErrorRingCfg_keeps {s0 : State} {x0 : CmdRef} {x1 : State} (h : Keeps s0 x1) :
    KeepsO s0 (execErrorRingCfg x0 x1) := by
  unfold execErrorRingCfg
  refine Keeps.next ?_
  refine State.run_keeps ?_ ?_
  · exact h
  · intro b1
    extract_lets +onlyGivenNames a1
    extract_lets +onlyGivenNames a2
    extract_lets +onlyGivenNames a3
    have ka3 : Keeps s0 a3 := by
      unfold a3
      refine State.setR_keeps ?_
      refine State.setR_keeps ?_
      exact h
    refine State.finish_keeps ?_
    refine Keeps.upd ?_
    exact ka3

theorem execKatRun_keeps {s0 : State} {x0 : CmdRef} {x1 : List KatFault} {x2 : State} (h : Keeps s0 x2) :
    KeepsO s0 (execKatRun x0 x1 x2) := by
  unfold execKatRun
  refine Keeps.next ?_
  refine State.runUnit_keeps ?_ ?_
  · exact h
  · intro b1
    extract_lets +onlyGivenNames a1
    extract_lets +onlyGivenNames a2
    extract_lets +onlyGivenNames a3
    extract_lets +onlyGivenNames a4
    extract_lets +onlyGivenNames a5
    split
    · refine State.finish_keeps ?_
      exact h
    · split
      · refine State.finish_keeps ?_
        exact h
      · extract_lets +onlyGivenNames a6
        extract_lets +onlyGivenNames a7
        extract_lets +onlyGivenNames a8
        extract_lets +onlyGivenNames a9
        extract_lets +onlyGivenNames a10
        have ka10 : Keeps s0 a10 := by
          unfold a10
          refine Keeps.foldl ?_ ?_
          · intro b2 b3 b4
            refine State.respare_keeps ?_
            exact b4
          · exact h
        extract_lets +onlyGivenNames a11
        have ka11 : Keeps s0 a11 := by
          unfold a11
          refine Keeps.foldl ?_ ?_
          · intro b2 b3 b4
            refine State.report_keeps ?_
            exact b4
          · exact ka10
        extract_lets +onlyGivenNames a12
        extract_lets +onlyGivenNames a13
        extract_lets +onlyGivenNames a14
        have ka14 : Keeps s0 a14 := by
          unfold a14
          refine Keeps.upd ?_
          exact ka11
        refine State.finish_keeps ?_
        refine State.wrote_keeps ?_
        refine State.hubWrites_keeps ?_
        exact ka14

theorem State.chState_keeps {s0 : State} {x0 : State} {x1 : Nat} {x2 : Nat} (h : Keeps s0 x0) :
    Keeps s0 (State.chState x0 x1 x2) := by
  unfold State.chState
  extract_lets +onlyGivenNames a1
  extract_lets +onlyGivenNames a2
  split
  · exact h
  · refine State.setFld_keeps ?_
    exact h

theorem execChStateWrite_keeps {s0 : State} {x0 : Agent} {x1 : Fin 512} {x2 : Nat} {x3 : State} (h : Keeps s0 x3) :
    KeepsO s0 (execChStateWrite x0 x1 x2 x3) := by
  unfold execChStateWrite
  refine Keeps.next ?_
  split
  · exact h
  · split
    · refine State.chState_keeps ?_
      exact h
    · refine State.mmioRefuse_keeps ?_
      exact h

theorem State.loseChan_keeps {s0 : State} {x0 : State} {x1 : Nat} (h : Keeps s0 x0) :
    Keeps s0 (State.loseChan x0 x1) := by
  exact Keeps.trans h ⟨rfl, fun w => Tab.wf_filter _ w, id, Nat.le_refl _⟩

theorem State.mbistWrite_keeps {s0 : State} {x0 : State} {x1 : Nat} {x2 : Nat} (h : Keeps s0 x0) :
    Keeps s0 (State.mbistWrite x0 x1 x2) := by
  unfold State.mbistWrite
  extract_lets +onlyGivenNames a1
  have ka1 : Keeps s0 a1 := by
    unfold a1
    refine State.putFields_keeps ?_
    exact h
  split
  · exact ka1
  · extract_lets +onlyGivenNames a2
    split
    · refine State.setFld_keeps ?_
      exact ka1
    · extract_lets +onlyGivenNames a3
      extract_lets +onlyGivenNames a4
      have ka4 : Keeps s0 a4 := by
        unfold a4
        refine Keeps.upd ?_
        exact ka1
      refine State.setFld_keeps ?_
      exact ka4

theorem execMbistStart_keeps {s0 : State} {x0 : Agent} {x1 : Nat} {x2 : State} (h : Keeps s0 x2) :
    KeepsO s0 (execMbistStart x0 x1 x2) := by
  unfold execMbistStart
  refine Keeps.next ?_
  split
  · exact h
  · split
    · refine State.mbistWrite_keeps ?_
      exact h
    · refine State.mmioRefuse_keeps ?_
      exact h

theorem execMbistDone_keeps {s0 : State} {x0 : List MbistRow} {x1 : Nat} {x2 : State} (h : Keeps s0 x2) :
    KeepsO s0 (execMbistDone x0 x1 x2) := by
  unfold execMbistDone
  refine Keeps.next ?_
  split
  · exact h
  · split
    · exact h
    · extract_lets +onlyGivenNames a1
      extract_lets +onlyGivenNames a2
      extract_lets +onlyGivenNames a3
      extract_lets +onlyGivenNames a4
      extract_lets +onlyGivenNames a5
      have ka5 : Keeps s0 a5 := by
        unfold a5
        refine State.loseChan_keeps ?_
        exact h
      extract_lets +onlyGivenNames a6
      have ka6 : Keeps s0 a6 := by
        unfold a6
        refine Keeps.foldl ?_ ?_
        · intro b1 b2 b3
          refine State.hubWrites_keeps ?_
          exact b3
        · exact ka5
      extract_lets +onlyGivenNames a7
      have ka7 : Keeps s0 a7 := by
        unfold a7
        split
        · refine State.setFld_keeps ?_
          exact ka6
        · exact ka6
      extract_lets +onlyGivenNames a8
      have ka8 : Keeps s0 a8 := by
        unfold a8
        refine State.setFld_keeps ?_
        refine State.setFld_keeps ?_
        exact ka7
      extract_lets +onlyGivenNames a9
      have ka9 : Keeps s0 a9 := by
        unfold a9
        refine State.setFld_keeps ?_
        exact ka8
      refine Keeps.upd ?_
      exact ka9

theorem State.fatalNow_keeps {s0 : State} {x0 : State} {x1 : Nat} {x2 : Nat} {x3 : Nat} {x4 : Nat} (h : Keeps s0 x0) :
    Keeps s0 (State.fatalNow x0 x1 x2 x3 x4) := by
  unfold State.fatalNow
  split
  · refine State.fatal_keeps ?_
    exact h
  · exact h

theorem execD2dLaneSubstitution_keeps {s0 : State} {x0 : Fin 8} {x1 : Nat} {x2 : State} (h : Keeps s0 x2) :
    KeepsO s0 (execD2dLaneSubstitution x0 x1 x2) := by
  unfold execD2dLaneSubstitution
  extract_lets +onlyGivenNames a1
  refine Keeps.next ?_
  split
  · refine Keeps.upd ?_
    exact h
  · exact h

theorem execLinkWidthLoss_keeps {s0 : State} {x0 : Fin 8} {x1 : State} (h : Keeps s0 x1) :
    KeepsO s0 (execLinkWidthLoss x0 x1) := by
  unfold execLinkWidthLoss
  extract_lets +onlyGivenNames a1
  refine Keeps.next ?_
  split
  · refine State.fatal_keeps ?_
    refine Keeps.upd ?_
    exact h
  · exact h

theorem State.loseHomes_keeps {s0 : State} {x0 : State} {x1 : Nat} (h : Keeps s0 x0) :
    Keeps s0 (State.loseHomes x0 x1) := by
  unfold State.loseHomes
  refine Keeps.upd ?_
  exact h

theorem State.losePart_keeps {s0 : State} {x0 : State} {x1 : Part} (h : Keeps s0 x0) :
    Keeps s0 (State.losePart x0 x1) := by
  unfold State.losePart
  extract_lets +onlyGivenNames a1
  have ka1 : Keeps s0 a1 := by
    unfold a1
    refine Keeps.foldl ?_ ?_
    · intro b1 b2 b3
      refine State.setR_keeps ?_
      refine State.loseStack_keeps ?_
      exact b3
    · exact h
  split
  · exact ka1
  · exact ka1
  · refine State.setR_keeps ?_
    refine State.loseHomes_keeps ?_
    exact ka1

theorem State.failedPart_keeps {s0 : State} {x0 : State} {x1 : List Nat} (h : Keeps s0 x0) :
    Keeps s0 (State.failedPart x0 x1) := by
  unfold State.failedPart
  refine Keeps.upd ?_
  exact h

theorem State.partLost_keeps {s0 : State} {x0 : State} {x1 : Part} (h : Keeps s0 x0) :
    Keeps s0 (State.partLost x0 x1) := by
  unfold State.partLost
  split
  refine State.fatal_keeps ?_
  refine State.failedPart_keeps ?_
  refine State.losePart_keeps ?_
  exact h

theorem execPartLost_keeps {s0 : State} {x0 : Part} {x1 : State} (h : Keeps s0 x1) :
    KeepsO s0 (execPartLost x0 x1) := by
  unfold execPartLost
  refine Keeps.next ?_
  split
  · refine State.partLost_keeps ?_
    exact h
  · exact h

theorem execControllerFault_keeps {s0 : State} {x0 : Region} {x1 : State} (h : Keeps s0 x1) :
    KeepsO s0 (execControllerFault x0 x1) := by
  unfold execControllerFault
  extract_lets +onlyGivenNames a1
  refine Keeps.next ?_
  split
  · refine State.fatal_keeps ?_
    refine State.failedPart_keeps ?_
    exact h
  · exact h

theorem execFatalDeviceError_keeps {s0 : State} {x0 : FatalFault} {x1 : State} (h : Keeps s0 x1) :
    KeepsO s0 (execFatalDeviceError x0 x1) := by
  unfold execFatalDeviceError
  refine Keeps.next ?_
  split
  · exact h
  split
  · exact State.coherenceFatal_keeps h
  split
  · cases partOf x0.arg with
    | none => exact h
    | some q => exact State.partLost_keeps h
  split
  · exact State.fatalNow_keeps h
  · exact h

theorem State.bare_keeps {s0 : State} {x0 : State} {x1 : ResetKind} (h : Keeps s0 x0) :
    Keeps s0 (State.bare x0 x1) := by
  exact Keeps.trans h ⟨rfl, fun _ => rfl, id, Nat.le_refl _⟩

theorem State.requar_keeps {s0 : State} {x0 : State} {x1 : State} (h : Keeps s0 x0) :
    Keeps s0 (State.requar x0 x1) := by
  unfold State.requar
  extract_lets +onlyGivenNames a1
  have ka1 : Keeps s0 a1 := by
    unfold a1
    refine State.setFld_keeps ?_
    refine State.setFld_keeps ?_
    exact h
  extract_lets +onlyGivenNames a2
  have ka2 : Keeps s0 a2 := by
    unfold a2
    refine Keeps.foldl ?_ ?_
    · intro b1 b2 b3
      split
      · refine State.setFld_keeps ?_
        exact b3
      · exact b3
    · exact ka1
  refine Keeps.foldl ?_ ?_
  · intro b1 b2 b3
    split
    · refine State.setFld_keeps ?_
      refine State.setFld_keeps ?_
      exact b3
    · exact b3
  · exact ka2

theorem State.domsOff_keeps {s0 : State} {x0 : State} (h : Keeps s0 x0) :
    Keeps s0 (State.domsOff x0) := by
  unfold State.domsOff
  refine State.setR_keeps ?_
  refine State.setR_keeps ?_
  exact h

theorem State.noDrops_keeps {s0 : State} {x0 : State} (h : Keeps s0 x0) :
    Keeps s0 (State.noDrops x0) := by
  unfold State.noDrops
  refine State.setFld_keeps ?_
  exact h

theorem State.lossReset_keeps {s0 : State} {x0 : State} (h : Keeps s0 x0) :
    Keeps s0 (State.lossReset x0) := by
  unfold State.lossReset
  extract_lets +onlyGivenNames a1
  have ka1 : Keeps s0 a1 := by
    unfold a1
    refine State.bare_keeps ?_
    exact h
  refine Keeps.upd ?_
  exact ka1

theorem State.heldReset_keeps {s0 : State} {x0 : State} (h : Keeps s0 x0) :
    Keeps s0 (State.heldReset x0) := by
  unfold State.heldReset
  extract_lets +onlyGivenNames a1
  have ka1 : Keeps s0 a1 := by
    unfold a1
    refine State.requar_keeps ?_
    refine State.noDrops_keeps ?_
    refine State.bare_keeps ?_
    exact h
  refine Keeps.upd ?_
  exact ka1

theorem State.restartReset_keeps {s0 : State} {x0 : State} (h : Keeps s0 x0) :
    Keeps s0 (State.restartReset x0) := by
  unfold State.restartReset
  extract_lets +onlyGivenNames a1
  have ka1 : Keeps s0 a1 := by
    unfold a1
    refine State.domsOff_keeps ?_
    refine State.requar_keeps ?_
    refine State.noDrops_keeps ?_
    refine State.bare_keeps ?_
    exact h
  refine Keeps.upd ?_
  exact ka1

theorem State.fatalRegs_keeps {s0 : State} {x0 : State} (h : Keeps s0 x0) :
    Keeps s0 (State.fatalRegs x0) := by
  unfold State.fatalRegs
  extract_lets +onlyGivenNames a1
  have ka1 : Keeps s0 a1 := by
    unfold a1
    refine State.requar_keeps ?_
    refine State.noDrops_keeps ?_
    refine State.bare_keeps ?_
    exact h
  extract_lets +onlyGivenNames a2
  refine State.incSat_keeps ?_
  refine State.setFld_keeps ?_
  refine State.setFld_keeps ?_
  refine State.setFld_keeps ?_
  exact ka1

theorem State.fatalMems_keeps {s0 x0 x1 : State} (k : Keeps s0 x0) (h : Keeps s0 x1) : Keeps s0 (State.fatalMems x0 x1) := by
  unfold State.fatalMems
  extract_lets
  exact ⟨k.pending, h.mem, k.flash, k.draws⟩

theorem State.fatalResetNow_keeps {s0 : State} {x0 : State} (h : Keeps s0 x0) :
    Keeps s0 (State.fatalResetNow x0) := by
  exact State.fatalMems_keeps (State.fatalRegs_keeps h) h

theorem execFatalReset_keeps {s0 : State} {x0 : State} (h : Keeps s0 x0) :
    KeepsO s0 (execFatalReset x0) := by
  unfold execFatalReset
  refine Keeps.next ?_
  split
  · refine State.fatalResetNow_keeps ?_
    exact h
  · exact h

theorem execSecBootCtlRestart_keeps {s0 : State} {x0 : Agent} {x1 : State} (h : Keeps s0 x1) :
    KeepsO s0 (execSecBootCtlRestart x0 x1) := by
  unfold execSecBootCtlRestart
  refine Keeps.next ?_
  split
  · refine State.restartReset_keeps ?_
    exact h
  · exact h

theorem State.govEvt_keeps {s0 : State} {x0 : State} {x1 : Fld} (h : Keeps s0 x0) :
    Keeps s0 (State.govEvt x0 x1) := by
  unfold State.govEvt
  refine State.wire_keeps ?_
  refine State.setFld_keeps ?_
  exact h

theorem State.statInput_keeps {s0 : State} {x0 : State} {x1 : Nat} (h : Keeps s0 x0) :
    Keeps s0 (State.statInput x0 x1) := by
  unfold State.statInput
  refine Keeps.upd ?_
  exact h

theorem State.statTemp_keeps {s0 : State} {x0 : State} {x1 : Nat} (h : Keeps s0 x0) :
    Keeps s0 (State.statTemp x0 x1) := by
  unfold State.statTemp
  refine Keeps.upd ?_
  exact h

theorem State.holdUp_keeps {s0 : State} {x0 : State} {x1 : Nat} (h : Keeps s0 x0) :
    Keeps s0 (State.holdUp x0 x1) := by
  unfold State.holdUp
  split
  · exact h
  · extract_lets +onlyGivenNames a1
    have ka1 : Keeps s0 a1 := by
      unfold a1
      refine State.requar_keeps ?_
      refine State.noDrops_keeps ?_
      refine State.bare_keeps ?_
      exact h
    extract_lets +onlyGivenNames a2
    extract_lets +onlyGivenNames a3
    have ka3 : Keeps s0 a3 := by
      unfold a3
      refine Keeps.foldl ?_ ?_
      · intro b1 b2 b3
        refine Keeps.upd ?_
        exact b3
      · exact ka1
    refine Keeps.upd ?_
    exact ka3

theorem State.program_keeps {s0 : State} {x0 : State} {x1 : Nat} {x2 : Nat} {x3 : Nat} (h : Keeps s0 x0) :
    Keeps s0 (State.program x0 x1 x2 x3) := by
  induction x3 generalizing x0 x1 x2 with
  | zero => exact h
  | succ n ih => exact ih (Keeps.trans h ⟨rfl, id, fun w => Tab.wf_set _ _ w, Nat.le_refl _⟩)

theorem State.erase_keeps {s0 : State} {x0 : State} {x1 : Nat} {x2 : Nat} (h : Keeps s0 x0) :
    Keeps s0 (State.erase x0 x1 x2) := by
  exact Keeps.trans h ⟨rfl, id, fun w => Tab.wf_filter _ w, Nat.le_refl _⟩

theorem State.writeGasp_keeps {s0 : State} {x0 : State} {x1 : Nat} (h : Keeps s0 x0) :
    Keeps s0 (State.writeGasp x0 x1) := by
  unfold State.writeGasp
  split
  · exact h
  · split
    refine State.program_keeps ?_
    refine Keeps.of2 ‹_› ?_
    refine State.draw_keeps ?_
    exact h

theorem State.gaspDone_keeps {s0 : State} {x0 : State} (h : Keeps s0 x0) :
    Keeps s0 (State.gaspDone x0).2 := by
  unfold State.gaspDone
  split
  · with_reducible assumption
  · split
    refine Keeps.snd ?_
    refine Keeps.of2 ‹_› ?_
    refine State.draw_keeps ?_
    exact h

theorem execHoldupEnd_keeps {s0 : State} {x0 : State} (h : Keeps s0 x0) :
    KeepsO s0 (execHoldupEnd x0) := by
  unfold execHoldupEnd
  refine Keeps.next ?_
  split
  · refine State.heldReset_keeps ?_
    refine State.writeGasp_keeps ?_
    refine State.gaspDone_keeps ?_
    exact h
  · exact h

theorem State.inputAt_keeps {s0 : State} {x0 : State} {x1 : Nat} (h : Keeps s0 x0) :
    Keeps s0 (State.inputAt x0 x1) := by
  unfold State.inputAt
  refine Keeps.upd ?_
  exact h

theorem execVinLow_keeps {s0 : State} {x0 : Nat} {x1 : State} (h : Keeps s0 x1) :
    KeepsO s0 (execVinLow x0 x1) := by
  unfold execVinLow
  refine Keeps.next ?_
  split
  · exact h
  · split
    · refine State.statInput_keeps ?_
      refine State.govEvt_keeps ?_
      refine State.inputAt_keeps ?_
      exact h
    · refine State.inputAt_keeps ?_
      exact h

theorem State.sag_keeps {s0 : State} {x0 : State} {x1 : Nat} (h : Keeps s0 x0) :
    Keeps s0 (State.sag x0 x1) := by
  unfold State.sag
  split
  · refine State.holdUp_keeps ?_
    refine State.statInput_keeps ?_
    refine State.inputAt_keeps ?_
    exact h
  · refine State.inputAt_keeps ?_
    exact h

theorem execInputSag_keeps {s0 : State} {x0 : Nat} {x1 : State} (h : Keeps s0 x1) :
    KeepsO s0 (execInputSag x0 x1) := by
  unfold execInputSag
  refine Keeps.next ?_
  split
  · exact h
  · refine State.sag_keeps ?_
    exact h

theorem execPowerLoss_keeps {s0 : State} {x0 : Nat} {x1 : State} (h : Keeps s0 x1) :
    KeepsO s0 (execPowerLoss x0 x1) := by
  unfold execPowerLoss
  extract_lets +onlyGivenNames a1
  have ka1 : Keeps s0 a1 := by
    unfold a1
    split
    · refine State.inputAt_keeps ?_
      exact h
    · refine State.sag_keeps ?_
      exact h
  refine Keeps.next ?_
  split
  · exact h
  · split
    · exact ka1
    · split
      · split
        refine State.lossReset_keeps ?_
        refine State.writeGasp_keeps ?_
        refine Keeps.of2 ‹_› ?_
        refine State.draw_keeps ?_
        exact ka1
      · refine State.lossReset_keeps ?_
        exact ka1

theorem execOverVoltage_keeps {s0 : State} {x0 : Nat} {x1 : State} (h : Keeps s0 x1) :
    KeepsO s0 (execOverVoltage x0 x1) := by
  unfold execOverVoltage
  split
  · refine Keeps.next ?_
    exact h
  · split
    · exact Keeps.fault _
    · extract_lets +onlyGivenNames a1
      have ka1 : Keeps s0 a1 := by
        unfold a1
        refine State.inputAt_keeps ?_
        exact h
      refine Keeps.next ?_
      split
      · refine State.holdUp_keeps ?_
        refine State.statInput_keeps ?_
        exact ka1
      · exact ka1

theorem execPwrGoodLost_keeps {s0 : State} {x0 : State} (h : Keeps s0 x0) :
    KeepsO s0 (execPwrGoodLost x0) := by
  unfold execPwrGoodLost
  extract_lets +onlyGivenNames a1
  extract_lets +onlyGivenNames a2
  have ka2 : Keeps s0 a2 := by
    unfold a2
    refine Keeps.upd ?_
    exact h
  refine Keeps.next ?_
  refine State.holdUp_keeps ?_
  exact ka2

theorem execResetNAssert_keeps {s0 : State} {x0 : State} (h : Keeps s0 x0) :
    KeepsO s0 (execResetNAssert x0) := by
  unfold execResetNAssert
  extract_lets +onlyGivenNames a1
  extract_lets +onlyGivenNames a2
  have ka2 : Keeps s0 a2 := by
    unfold a2
    refine Keeps.upd ?_
    exact h
  refine Keeps.next ?_
  split
  · exact ka2
  · exact ka2
  · refine State.heldReset_keeps ?_
    exact ka2

theorem execResetNDeassert_keeps {s0 : State} {x0 : State} (h : Keeps s0 x0) :
    KeepsO s0 (execResetNDeassert x0) := by
  unfold execResetNDeassert
  refine Keeps.next ?_
  refine Keeps.upd ?_
  exact h

theorem execRefclkLoss_keeps {s0 : State} {x0 : State} (h : Keeps s0 x0) :
    KeepsO s0 (execRefclkLoss x0) := by
  unfold execRefclkLoss
  extract_lets +onlyGivenNames a1
  extract_lets +onlyGivenNames a2
  have ka2 : Keeps s0 a2 := by
    unfold a2
    refine Keeps.upd ?_
    exact h
  refine Keeps.next ?_
  split
  · refine State.fatal_keeps ?_
    exact ka2
  · with_reducible assumption

theorem execRefclkReturn_keeps {s0 : State} {x0 : State} (h : Keeps s0 x0) :
    KeepsO s0 (execRefclkReturn x0) := by
  unfold execRefclkReturn
  refine Keeps.next ?_
  split
  · exact h
  · extract_lets +onlyGivenNames a1
    extract_lets +onlyGivenNames a2
    have ka2 : Keeps s0 a2 := by
      unfold a2
      refine Keeps.upd ?_
      exact h
    split
    · refine State.trace_keeps ?_
      exact ka2
    · with_reducible assumption

theorem State.throttle_keeps {s0 : State} {x0 : State} (h : Keeps s0 x0) :
    Keeps s0 (State.throttle x0) := by
  unfold State.throttle
  extract_lets +onlyGivenNames a1
  extract_lets +onlyGivenNames a2
  have ka2 : Keeps s0 a2 := by
    unfold a2
    refine State.setFld_keeps ?_
    refine State.setFld_keeps ?_
    exact h
  refine State.setFld_keeps ?_
  exact ka2

theorem execCapEvaluation_keeps {s0 : State} {x0 : Nat} {x1 : State} (h : Keeps s0 x1) :
    KeepsO s0 (execCapEvaluation x0 x1) := by
  unfold execCapEvaluation
  extract_lets +onlyGivenNames a1
  extract_lets +onlyGivenNames a2
  extract_lets +onlyGivenNames a3
  extract_lets +onlyGivenNames a4
  extract_lets +onlyGivenNames a5
  refine Keeps.next ?_
  split
  · exact h
  · extract_lets +onlyGivenNames a6
    have ka6 : Keeps s0 a6 := by
      unfold a6
      split
      · refine State.govEvt_keeps ?_
        exact h
      · exact h
    extract_lets +onlyGivenNames a7
    have ka7 : Keeps s0 a7 := by
      unfold a7
      refine State.setFld_keeps ?_
      exact ka6
    extract_lets +onlyGivenNames a8
    have ka8 : Keeps s0 a8 := by
      unfold a8
      split
      · exact ka7
      · refine State.statInput_keeps ?_
        exact ka7
    refine State.throttle_keeps ?_
    refine Keeps.upd ?_
    exact ka8

theorem execJunctionSample_keeps {s0 : State} {x0 : Int} {x1 : State} (h : Keeps s0 x1) :
    KeepsO s0 (execJunctionSample x0 x1) := by
  unfold execJunctionSample
  extract_lets +onlyGivenNames a1
  refine Keeps.next ?_
  split
  · exact h
  · extract_lets +onlyGivenNames a2
    have ka2 : Keeps s0 a2 := by
      unfold a2
      refine State.setFld_keeps ?_
      exact h
    extract_lets +onlyGivenNames a3
    extract_lets +onlyGivenNames a4
    have ka4 : Keeps s0 a4 := by
      unfold a4
      split
      · refine State.statTemp_keeps ?_
        refine State.govEvt_keeps ?_
        refine State.setFld_keeps ?_
        exact ka2
      · exact ka2
    split
    · refine State.holdUp_keeps ?_
      refine State.statTemp_keeps ?_
      exact ka4
    · extract_lets +onlyGivenNames a5
      extract_lets +onlyGivenNames a6
      have ka6 : Keeps s0 a6 := by
        unfold a6
        split
        · refine State.setFld_keeps ?_
          exact ka4
        · exact ka4
      refine State.throttle_keeps ?_
      refine Keeps.upd ?_
      exact ka6

theorem execDroopStretch_keeps {s0 : State} {x0 : Fin 72} {x1 : State} (h : Keeps s0 x1) :
    KeepsO s0 (execDroopStretch x0 x1) := by
  unfold execDroopStretch
  refine Keeps.next ?_
  split
  · exact h
  · extract_lets +onlyGivenNames a1
    extract_lets +onlyGivenNames a2
    have ka2 : Keeps s0 a2 := by
      unfold a2
      refine Keeps.upd ?_
      exact h
    refine State.govEvt_keeps ?_
    refine State.setFld_keeps ?_
    refine State.incSat_keeps ?_
    exact ka2

theorem execDroopRecover_keeps {s0 : State} {x0 : Fin 72} {x1 : State} (h : Keeps s0 x1) :
    KeepsO s0 (execDroopRecover x0 x1) := by
  unfold execDroopRecover
  refine Keeps.next ?_
  refine Keeps.upd ?_
  exact h

theorem execDroopFatal_keeps {s0 : State} {x0 : Fin 72} {x1 : State} (h : Keeps s0 x1) :
    KeepsO s0 (execDroopFatal x0 x1) := by
  unfold execDroopFatal
  refine Keeps.next ?_
  split
  · exact h
  · refine State.fatal_keeps ?_
    refine State.setFld_keeps ?_
    exact h

theorem State.effCap_keeps {s0 : State} {x0 : State} (h : Keeps s0 x0) :
    Keeps s0 (State.effCap x0) := by
  unfold State.effCap
  refine State.setFld_keeps ?_
  exact h

theorem execPowerCap_keeps {s0 : State} {x0 : CmdRef} {x1 : State} (h : Keeps s0 x1) :
    KeepsO s0 (execPowerCap x0 x1) := by
  unfold execPowerCap
  refine Keeps.next ?_
  refine State.run_keeps ?_ ?_
  · exact h
  · intro b1
    refine State.finish_keeps ?_
    refine State.effCap_keeps ?_
    refine State.setFld_keeps ?_
    refine State.setFld_keeps ?_
    exact h

theorem execPmbusClearFaults_keeps {s0 : State} {x0 : State} (h : Keeps s0 x0) :
    KeepsO s0 (execPmbusClearFaults x0) := by
  unfold execPmbusClearFaults
  extract_lets +onlyGivenNames a1
  extract_lets +onlyGivenNames a2
  extract_lets +onlyGivenNames a3
  extract_lets +onlyGivenNames a4
  extract_lets +onlyGivenNames a5
  refine Keeps.next ?_
  split
  · refine Keeps.upd ?_
    exact h
  · exact h

theorem execPmbusMfrPowerCap_keeps {s0 : State} {x0 : Nat} {x1 : State} (h : Keeps s0 x1) :
    KeepsO s0 (execPmbusMfrPowerCap x0 x1) := by
  unfold execPmbusMfrPowerCap
  refine Keeps.next ?_
  split
  · exact h
  · split
    · refine State.effCap_keeps ?_
      refine Keeps.upd ?_
      exact h
    · refine Keeps.upd ?_
      exact h

theorem State.pmbusRead_keeps {s0 x0 : State} {x1 : Nat} (h : Keeps s0 x0) : ∀ v t, State.pmbusRead x0 x1 = some (v, t) → Keeps s0 t := by
  intro v t e
  unfold State.pmbusRead at e
  split at e <;> cases e
  all_goals first
    | exact h
    | exact State.draw_keeps (x1 := 15) h

theorem execPmbusUnsupported_keeps {s0 : State} {x0 : Nat} {x1 : State} (h : Keeps s0 x1) :
    KeepsO s0 (execPmbusUnsupported x0 x1) := by
  unfold execPmbusUnsupported
  refine Keeps.next ?_
  split
  · exact h
  split
  · next v t e => exact (State.pmbusRead_keeps h _ _ e).upd
  split
  · exact h
  · exact h.upd

end Sys2Proof.Machine
end

