-- ==== Sys2Proof/Machine/Csr.lean ====
section
/-! DEFINITION. The control and status registers of a core that the spec names: R300, R301, R302, R303, R306, R307, R313, R315. No row of the
table carries a core's CSR access; these operations say what one does. Numbers of the standard registers are those of the RISC-V
specifications (log 53). -/
namespace Sys2Proof.Machine

/-- misa (R300): MXL 2 for 64 bits, and the letters A, C, D, F, I, M, S, U and V. H is 0. -/
def misaWord : Nat := 2 <<< 62 + [0, 2, 3, 5, 8, 12, 18, 20, 21].foldl (fun m k => m + 2 ^ k) 0

/-- mvendorid, marchid and mimpid (R303). -/
def mvendorid : Nat := 0
def marchid : Nat := 0x8000000000005608
def mimpid : Nat := 0x10000

/-- Whether a CSR number belongs to the hypervisor extension, which is not implemented (R300). -/
def csrHyper (n : Nat) : Bool := decide (bits n 9 8 = 2)

/-- The interrupt file of a hart: machine or supervisor level. -/
def fileOf (h : Nat) (super : Bool) : Nat := if super then 64 + h else h

/-- The lowest pending and enabled identity of an interrupt file: the interrupt that mtopei or stopei shows (R313). -/
def Imsic.top (f : Imsic) : Nat :=
  ((List.range 2048).find? (fun k => f.pend.testBit k && f.enable.testBit k && decide (f.threshold = 0 ∨ k < f.threshold))).getD 0

/-- A claim through mtopei or stopei clears the pending bit of the interrupt it shows; an MSI that arrives later sets it again (R313). -/
def State.claim (s : State) (h : Nat) (super : Bool) : State :=
  let f := Tab.get ({} : Imsic) s.imsics (fileOf h super)
  { s with imsics := Tab.set {} s.imsics (fileOf h super) { f with pend := f.pend &&& ((2 ^ 2048 - 1) ^^^ 2 ^ f.top) } }

/-- What the indirect registers of an interrupt file show: eidelivery 0x70, eithreshold 0x72, and 64 identities at each of 0x80 to 0xBF
(pending) and 0xC0 to 0xFF (enabled). -/
def Imsic.show (f : Imsic) (sel : Nat) : Nat :=
  if sel = 0x70 then b2n f.deliver
  else if sel = 0x72 then f.threshold
  else if 0x80 ≤ sel ∧ sel < 0xC0 then bits f.pend (32 * (sel - 0x80) + 63) (32 * (sel - 0x80))
  else if 0xC0 ≤ sel ∧ sel < 0x100 then bits f.enable (32 * (sel - 0xC0) + 63) (32 * (sel - 0xC0))
  else 0

/-- A write of one of them; identity 0 does not exist. -/
def Imsic.put (f : Imsic) (sel v : Nat) : Imsic :=
  if sel = 0x70 then { f with deliver := bit v 0 }
  else if sel = 0x72 then { f with threshold := v % 2048 }
  else if 0x80 ≤ sel ∧ sel < 0xC0 then { f with pend := setBits f.pend (32 * (sel - 0x80) + 63) (32 * (sel - 0x80)) v / 2 * 2 }
  else if 0xC0 ≤ sel ∧ sel < 0x100 then { f with enable := setBits f.enable (32 * (sel - 0xC0) + 63) (32 * (sel - 0xC0)) v / 2 * 2 }
  else f

/-- The value of a counter CSR by its place, 0 to 31 (R306): cycle, time, instret, and the eight that count events; the others read 0.
instret counts what no row carries: a free value (log 6). -/
def State.counterCsr (s : State) (h k : Nat) : Nat × State :=
  if k = 0 then ((s.hart h).cycles, s)
  else if k = 1 then (s.now 4 % 2 ^ 64, s)
  else if k = 2 then let (v, t) := s.draw 20; (v % 2 ^ 64, t)
  else if k < 11 then (Tab.get 0 (s.hart h).hpmCount k, s)
  else (0, s)

/-! ## The standard registers (R300) -/

/-- The stored bits of a CSR (log 53). -/
def Hart.csr (x : Hart) (n : Nat) : Nat := Tab.get 0 x.csrs n
def Hart.setCsr (x : Hart) (n v : Nat) : Hart := { x with csrs := Tab.set 0 x.csrs n v }

/-- A mask of bits. -/
def bitSet (bs : List Nat) : Nat := bs.foldl (fun m k => m + 2 ^ k) 0

/-- The bits that a write of a CSR stores, for the registers that hold what is written (log 53). -/
def csrMask (n : Nat) : Option Nat :=
  match n with
  | 0x300 => some (bitSet [1, 3, 5, 7, 8, 9, 10, 11, 12, 13, 14, 17, 18, 19, 20, 21, 22])   -- mstatus
  | 0x302 => some 0xB3FF                                   -- medeleg
  | 0x303 => some 0x222                                    -- mideleg
  | 0x304 => some 0xAAA                                    -- mie
  | 0x305 | 0x105 => some (2 ^ 64 - 3)                     -- mtvec, stvec: direct or vectored
  | 0x306 | 0x106 => some (2 ^ 32 - 1)                     -- mcounteren, scounteren
  | 0x30A | 0x10A => some 0xF1                             -- menvcfg, senvcfg
  | 0x340 | 0x140 | 0x342 | 0x142 | 0x343 | 0x143 => some (2 ^ 64 - 1)   -- scratch, cause, tval
  | 0x341 | 0x141 => some (2 ^ 64 - 2)                     -- mepc, sepc
  | 0x003 => some 0xFF                                     -- fcsr
  | 0x008 => some 0x1FF                                    -- vstart
  | 0x00F => some 7                                        -- vcsr
  | _ => none

/-- The bits of mstatus that sstatus shows, beside UXL and SD. -/
def sstatusMask : Nat := bitSet [1, 5, 8, 9, 10, 13, 14, 18, 19]

/-- mstatus: the stored bits, UXL and SXL for 64 bits, and SD. -/
def Hart.mstatus (x : Hart) : Nat :=
  let v := x.csr 0x300
  v + 2 <<< 32 + 2 <<< 34 + b2n (decide (bits v 14 13 = 3 ∨ bits v 10 9 = 3)) <<< 63

/-- A write of the bits of `mask` of mstatus: MPP takes no value but U, S and M. -/
def Hart.writeStatus (x : Hart) (mask v : Nat) : Hart :=
  let old := x.csr 0x300
  let m := (csrMask 0x300).getD 0 &&& mask
  let new := (old &&& (2 ^ 64 - 1 - m)) ||| (v &&& m)
  x.setCsr 0x300 (if bits new 12 11 = 2 then setBits new 12 11 (bits old 12 11) else new)

/-- mip (R307, R312, R313): the interrupt files raise MEIP and SEIP. -/
def State.mip (s : State) (h : Nat) : Nat :=
  let x := s.hart h
  let ext (super : Bool) : Bool := let f := Tab.get ({} : Imsic) s.imsics (fileOf h super); f.deliver && decide (f.top ≠ 0)
  bits (x.csr 0x344) 1 1 <<< 1 + b2n x.stip <<< 5 + b2n x.mtip <<< 7 + b2n (ext true) <<< 9 + b2n (ext false) <<< 11

/-- Whether a CSR belongs to the floating-point unit or the vector unit, whose state mstatus.FS and mstatus.VS can switch off. -/
def csrFp (n : Nat) : Bool := decide (1 ≤ n ∧ n ≤ 3)
def csrVec (n : Nat) : Bool := decide ((8 ≤ n ∧ n ≤ 10) ∨ n = 0xF ∨ (0xC20 ≤ n ∧ n ≤ 0xC22))

/-- Whether a hart may access a CSR: its mode is at least the one in bits [9:8] of the number, the register is none of the hypervisor
extension's, a counter is enabled for the mode, satp is not trapped, and the unit of the register is not off. -/
def State.csrAllowed (s : State) (h n : Nat) : Bool :=
  let x := s.hart h
  let st := x.csr 0x300
  let counter : Bool := decide (0xC00 ≤ n ∧ n < 0xC20)
  ! csrHyper n && decide (bits n 9 8 ≤ x.mode)
    && (! counter || (decide (x.mode = 3) || (x.csr 0x306).testBit (n - 0xC00)) && (decide (x.mode ≠ 0) || (x.csr 0x106).testBit (n - 0xC00)))
    && ! (decide (n = 0x180 ∧ x.mode = 1) && st.testBit 20)
    && ! (csrFp n && decide (bits st 14 13 = 0)) && ! (csrVec n && decide (bits st 10 9 = 0))

/-- The value of a standard register of a hart, but for those that the device gives a meaning of their own. -/
def State.csrStd (s : State) (h n : Nat) : Option Nat :=
  let x := s.hart h
  match n with
  | 0x001 => some (bits (x.csr 0x003) 4 0)
  | 0x002 => some (bits (x.csr 0x003) 7 5)
  | 0x009 => some (bits (x.csr 0x00F) 0 0)
  | 0x00A => some (bits (x.csr 0x00F) 2 1)
  | 0xC20 => some (x.csr 0xC20)
  | 0xC21 => some (2 ^ 63 ^^^ x.csr 0xC21)      -- vtype, held as its difference from vill, the value at reset
  | 0xC22 => some 64                            -- vlenb: VLEN 512 (R301)
  | 0xF15 => some 0                             -- mconfigptr
  | 0x320 => some 0                             -- mcountinhibit: no counter can be stopped
  | 0x300 => some x.mstatus
  | 0x100 => some ((x.mstatus &&& sstatusMask) + 2 <<< 32 + bits x.mstatus 63 63 <<< 63)
  | 0x344 => some (s.mip h)
  | 0x144 => some (s.mip h &&& x.csr 0x303)
  | 0x104 => some (x.csr 0x304 &&& x.csr 0x303)
  | _ => (csrMask n).map (fun _ => x.csr n)

/-- A core reads a CSR; none where the read raises an illegal-instruction exception. -/
def State.csrValue (s : State) (h n : Nat) : Option (Nat × State) :=
  let x := s.hart h
  let reg (v : Nat) : Option (Nat × State) := some (v, s)
  if ¬ s.csrAllowed h n then none
  else match n with
    | 0x301 => reg misaWord
    | 0xF11 => reg mvendorid
    | 0xF12 => reg marchid
    | 0xF13 => reg mimpid
    | 0xF14 => reg h
    | 0x180 => reg x.satp
    | 0x350 => reg x.mSelect
    | 0x150 => reg x.sSelect
    | 0x351 => reg ((Tab.get ({} : Imsic) s.imsics (fileOf h false)).show x.mSelect)
    | 0x151 => reg ((Tab.get ({} : Imsic) s.imsics (fileOf h true)).show x.sSelect)
    | 0x35C => let t := (Tab.get ({} : Imsic) s.imsics (fileOf h false)).top; reg (t <<< 16 + t)
    | 0x15C => let t := (Tab.get ({} : Imsic) s.imsics (fileOf h true)).top; reg (t <<< 16 + t)
    | 0x7C0 => reg (s.getR .mvtcfg h).toNat
    | 0x800 => reg (s.getR .uvtopid h).toNat
    | _ =>
      if 0xC00 ≤ n ∧ n < 0xC20 then some (s.counterCsr h (n - 0xC00))
      else if 0xB00 ≤ n ∧ n < 0xB20 ∧ n ≠ 0xB01 then some (s.counterCsr h (n - 0xB00))
      else if 0x323 ≤ n ∧ n < 0x340 then reg (if n - 0x320 < 11 then Tab.get 0 x.hpmEvent (n - 0x320) else 0)
      else if n = 0x3A0 ∨ n = 0x3A2 then
        reg ((List.range 8).foldl (fun m k => m + Tab.get 0 x.pmpCfg (4 * (n - 0x3A0) + k) <<< (8 * k)) 0)
      else if 0x3B0 ≤ n ∧ n < 0x3C0 then reg (x.pmpShow (n - 0x3B0))
      else (s.csrStd h n).bind reg

/-- A core reads a CSR: its value is answered, or an illegal-instruction exception is raised (R300, R315). -/
def State.csrRead (s : State) (h n : Nat) : State :=
  match s.csrValue h n with
  | some (v, t) => { t with resp := .data v }
  | none => s.coreFault h 2 0

/-- satp (R302): MODE is Bare (0) or Sv48 (9); a write of any other mode leaves the register unchanged. -/
def Hart.writeSatp (x : Hart) (v : Nat) : Hart := if bits v 63 60 = 0 ∨ bits v 63 60 = 9 then { x with satp := v % 2 ^ 64 } else x

/-- mhpmevent (R306): a value above 8 is not stored, and the registers of counters 11 to 31 ignore writes. -/
def Hart.writeEvent (x : Hart) (k v : Nat) : Hart :=
  if 3 ≤ k ∧ k < 11 ∧ v ≤ 8 then { x with hpmEvent := Tab.set 0 x.hpmEvent k v } else x

/-- The configuration bytes of eight PMP entries: a locked one keeps its byte, and NA4, a region of four bytes, cannot be selected at a
granularity of 4 KiB (R302). -/
def Hart.writePmpCfg (x : Hart) (first v : Nat) : Hart :=
  { x with pmpCfg := (List.range 8).foldl (fun (t : Tab Nat) k =>
      let old := Tab.get 0 t (first + k)
      let b := le v k 1 &&& 0x9F
      if old.testBit 7 then t else Tab.set 0 t (first + k) (if bits b 4 3 = 2 then setBits b 4 3 (bits old 4 3) else b)) x.pmpCfg }

/-- A PMP address register is written unless its entry is locked, or the next one is locked and takes it as its base. -/
def Hart.writePmpAddr (x : Hart) (k v : Nat) : Hart :=
  let next := Tab.get 0 x.pmpCfg (k + 1)
  if (Tab.get 0 x.pmpCfg k).testBit 7 ∨ (next.testBit 7 ∧ bits next 4 3 = 1) then x else { x with pmpAddr := Tab.set 0 x.pmpAddr k (v % 2 ^ 54) }

/-- The bits of `mask` of a register that holds what is written. -/
def Hart.putCsr (x : Hart) (n mask v : Nat) : Hart :=
  let m := (csrMask n).getD 0 &&& mask
  x.setCsr n ((x.csr n &&& (2 ^ 64 - 1 - m)) ||| (v &&& m))

/-- A hart with the state of its floating-point or vector unit dirty after a write of a register of it. -/
def Hart.dirtied (x : Hart) (n : Nat) : Hart :=
  let v := x.csr 0x300
  if csrFp n then x.setCsr 0x300 (setBits v 14 13 3) else if csrVec n then x.setCsr 0x300 (setBits v 10 9 3) else x

/-- A write of a standard register of a hart, but for those that the device gives a meaning of their own. -/
def Hart.writeStd (x : Hart) (n v : Nat) : Option Hart :=
  match n with
  | 0x001 => some (x.putCsr 0x003 0x1F v)
  | 0x002 => some (x.putCsr 0x003 0xE0 (v <<< 5))
  | 0x009 => some (x.putCsr 0x00F 1 v)
  | 0x00A => some (x.putCsr 0x00F 6 (v <<< 1))
  | 0x300 => some (x.writeStatus (2 ^ 64 - 1) v)
  | 0x320 => some x
  | 0x100 => some (x.writeStatus sstatusMask v)
  | 0x344 => some { x.setCsr 0x344 (v &&& 2) with stip := bit v 5 }
  | 0x144 => some (if (x.csr 0x303).testBit 1 then x.setCsr 0x344 (v &&& 2) else x)
  | 0x104 => some (x.putCsr 0x304 (x.csr 0x303) v)
  | _ => (csrMask n).map (fun m => x.putCsr n m v)

/-- The effect of a core's CSR write on the state; none where it raises an illegal-instruction exception. -/
def State.csrStore (s : State) (h n v : Nat) : Option State :=
  let x := s.hart h
  let hart (y : Hart) : Option State := some (s.setHart h y)
  let imsic (super : Bool) (sel : Nat) : Option State :=
    let f := Tab.get ({} : Imsic) s.imsics (fileOf h super)
    some { s with imsics := Tab.set {} s.imsics (fileOf h super) (f.put sel v) }
  if ¬ s.csrAllowed h n ∨ bits n 11 10 = 3 then none
  else match n with
    | 0x301 => some s
    | 0x180 => hart (x.writeSatp v)
    | 0x350 => hart { x with mSelect := v % 2 ^ 64 }
    | 0x150 => hart { x with sSelect := v % 2 ^ 64 }
    | 0x351 => imsic false x.mSelect
    | 0x151 => imsic true x.sSelect
    | 0x35C => some (s.claim h false)
    | 0x15C => some (s.claim h true)
    | 0x7C0 => some (s.putFields .mvtcfg h (2 ^ 64 - 1) v)
    | 0x800 => some (s.putFields .uvtopid h (2 ^ 64 - 1) v)
    | 0xB00 => hart { x with cycles := v % 2 ^ 64 }
    | 0xB02 => some s
    | _ =>
      if 0xB03 ≤ n ∧ n < 0xB20 then (if n < 0xB0B then hart { x with hpmCount := Tab.set 0 x.hpmCount (n - 0xB00) (v % 2 ^ 64) } else some s)
      else if 0x323 ≤ n ∧ n < 0x340 then hart (x.writeEvent (n - 0x320) v)
      else if n = 0x3A0 ∨ n = 0x3A2 then hart (x.writePmpCfg (4 * (n - 0x3A0)) v)
      else if 0x3B0 ≤ n ∧ n < 0x3C0 then hart (x.writePmpAddr (n - 0x3B0) v)
      else (x.writeStd n (v % 2 ^ 64)).bind (fun y => hart (y.dirtied n))

/-- A core writes a CSR, or an illegal-instruction exception is raised (R300, R315). -/
def State.csrWrite (s : State) (h n v : Nat) : State := (s.csrStore h n v).getD (s.coreFault h 2 0)

end Sys2Proof.Machine
end

