-- ==== Sys2Proof/Laws/KeepsRegs.lean ====
section
/-! SUPPORT. What the operations of RegRead.lean, RegAccess.lean, Csr.lean keep: one lemma each, by composition (Laws/Keeps.lean). -/
namespace Sys2Proof.Machine

theorem State.readReg_keeps {s0 : State} {x0 : State} {x1 : Reg} {x2 : Nat} (h : Keeps s0 x0) :
    Keeps s0 (State.readReg x0 x1 x2).2 := by
  unfold State.readReg
  extract_lets +onlyGivenNames a1
  split
  · with_reducible assumption
  · with_reducible assumption
  · refine State.engCount_keeps ?_
    exact h
  · refine State.engCount_keeps ?_
    exact h
  · with_reducible assumption
  · refine State.regionCycles_keeps ?_
    exact h
  · with_reducible assumption
  · with_reducible assumption
  · with_reducible assumption
  · with_reducible assumption
  · with_reducible assumption
  · with_reducible assumption
  · with_reducible assumption
  · with_reducible assumption
  · with_reducible assumption
  · with_reducible assumption
  · with_reducible assumption
  · with_reducible assumption
  · with_reducible assumption
  · with_reducible assumption
  · with_reducible assumption
  · with_reducible assumption
  · with_reducible assumption
  · with_reducible assumption
  · with_reducible assumption
  · with_reducible assumption
  · with_reducible assumption
  · with_reducible assumption
  · with_reducible assumption
  · with_reducible assumption
  · with_reducible assumption
  · split
    split
    refine Keeps.snd ?_
    refine Keeps.of2 ‹_› ?_
    refine State.draw_keeps ?_
    refine Keeps.of2 ‹_› ?_
    refine State.draw_keeps ?_
    exact h
  · with_reducible assumption
  · with_reducible assumption
  · with_reducible assumption
  · refine State.aonValue_keeps ?_
    exact h
  · refine State.compatValue_keeps ?_
    exact h
  · refine State.profValue_keeps ?_
    exact h
  · with_reducible assumption
  · with_reducible assumption

theorem State.readWord_keeps {s0 : State} {x0 : State} {x1 : Reg} {x2 : Nat} {x3 : Bool} (h : Keeps s0 x0) :
    Keeps s0 (State.readWord x0 x1 x2 x3) := by
  unfold State.readWord
  split
  · refine Keeps.upd ?_
    exact h
  · split
    extract_lets +onlyGivenNames a1
    have ka1 : Keeps s0 a1 := by
      unfold a1
      split
      · refine Keeps.upd ?_
        refine Keeps.of2 ‹_› ?_
        refine State.readReg_keeps ?_
        exact h
      · refine Keeps.of2 ‹_› ?_
        refine State.readReg_keeps ?_
        exact h
    refine Keeps.upd ?_
    exact ka1

theorem State.accessFault_keeps {s0 : State} {x0 : State} {x1 : Agent} {x2 : Nat} {x3 : Nat} (h : Keeps s0 x0) :
    Keeps s0 (State.accessFault x0 x1 x2 x3) := by
  unfold State.accessFault
  split
  · refine State.coreFault_keeps ?_
    exact h
  · refine Keeps.upd ?_
    exact h

theorem execSnapLowRead_keeps {s0 : State} {x0 : Agent} {x1 : Nat} {x2 : State} (h : Keeps s0 x2) :
    KeepsO s0 (execSnapLowRead x0 x1 x2) := by
  unfold execSnapLowRead
  refine Keeps.next ?_
  split
  · exact h
  · split
    · refine State.accessFault_keeps ?_
      exact h
    · split
      · split
        · refine State.readWord_keeps ?_
          exact h
        · exact h
      · exact h

theorem State.storeFault_keeps {s0 : State} {x0 : State} {x1 : Agent} {x2 : Nat} (h : Keeps s0 x0) :
    Keeps s0 (State.storeFault x0 x1 x2) := by
  unfold State.storeFault
  split
  · refine State.coreFault_keeps ?_
    exact h
  · exact h

theorem execMmioReadFault_keeps {s0 : State} {x0 : Agent} {x1 : Nat} {x2 : Nat} {x3 : State} (h : Keeps s0 x3) :
    KeepsO s0 (execMmioReadFault x0 x1 x2 x3) := by
  unfold execMmioReadFault
  refine Keeps.next ?_
  split
  · exact h
  · split
    · refine State.accessFault_keeps ?_
      exact h
    · split
      · refine State.accessFault_keeps ?_
        refine State.mmioRefuse_keeps ?_
        exact h
      · exact h

theorem State.accessUnpopulated_keeps {s0 : State} {x0 : State} {x1 : Agent} {x2 : AccKind} {x3 : Nat} (h : Keeps s0 x0) :
    Keeps s0 (State.accessUnpopulated x0 x1 x2 x3) := by
  unfold State.accessUnpopulated
  extract_lets +onlyGivenNames a2
  have ka2 : Keeps s0 a2 := by
    unfold a2
    refine State.unpopulated_keeps ?_
    exact h
  split
  · refine State.coreFault_keeps ?_
    exact ka2
  · exact ka2
  · exact ka2
  · refine Keeps.upd ?_
    exact ka2

theorem State.amoFault_keeps {s0 : State} {x0 : State} {x1 : Agent} {x2 : Nat} (h : Keeps s0 x0) :
    Keeps s0 (State.amoFault x0 x1 x2) := by
  unfold State.amoFault
  split
  · exact h
  · exact h
  · refine State.coreFault_keeps ?_
    exact h
  · exact h

theorem execUnpopulatedAccess_keeps {s0 : State} {x0 : Agent} {x1 : Nat} {x2 : Nat} {x3 : AccKind} {x4 : State} (h : Keeps s0 x4) :
    KeepsO s0 (execUnpopulatedAccess x0 x1 x2 x3 x4) := by
  unfold execUnpopulatedAccess
  refine Keeps.next ?_
  split
  · exact h
  · split
    · refine State.accessFault_keeps ?_
      exact h
    · split
      · refine State.accessUnpopulated_keeps ?_
        exact h
      · split
        · refine State.amoFault_keeps ?_
          exact h
        · exact h

theorem State.aplicDeliver_keeps {s0 : State} {x0 : State} {x1 : Nat} (h : Keeps s0 x0) :
    Keeps s0 (State.aplicDeliver x0 x1) := by
  unfold State.aplicDeliver
  extract_lets +onlyGivenNames a2
  split
  · refine State.msi_keeps ?_
    refine Keeps.upd ?_
    exact h
  · exact h

theorem State.aplicSet_keeps {s0 : State} {x0 : State} {x1 : Nat} {x2 : AplicSrc} (h : Keeps s0 x0) :
    Keeps s0 (State.aplicSet x0 x1 x2) := by
  unfold State.aplicSet
  refine State.aplicDeliver_keeps ?_
  refine Keeps.upd ?_
  exact h

theorem State.sourceCfg_keeps {s0 : State} {x0 : State} {x1 : Nat} {x2 : Nat} {x3 : Nat} (h : Keeps s0 x0) :
    Keeps s0 (State.sourceCfg x0 x1 x2 x3) := by
  unfold State.sourceCfg
  extract_lets +onlyGivenNames a1
  extract_lets +onlyGivenNames a2
  split
  · exact h
  · extract_lets +onlyGivenNames a3
    extract_lets +onlyGivenNames a4
    extract_lets +onlyGivenNames a5
    refine State.aplicSet_keeps ?_
    exact h

theorem State.aplicEach_keeps {s0 : State} {x0 : State} {x1 : Nat} {x2 : List Nat} {x3 : State → AplicSrc → Nat → AplicSrc} (h : Keeps s0 x0) :
    Keeps s0 (State.aplicEach x0 x1 x2 x3) := by
  unfold State.aplicEach
  refine Keeps.foldl ?_ ?_
  · intro b1 b2 b3
    extract_lets +onlyGivenNames a2
    split
    · refine State.aplicSet_keeps ?_
      exact b3
    · exact b3
  · exact h

theorem State.aplicBits_keeps {s0 : State} {x0 : State} {x1 : Nat} {x2 : Nat} {x3 : Nat} (h : Keeps s0 x0) :
    Keeps s0 (State.aplicBits x0 x1 x2 x3) := by
  unfold State.aplicBits
  extract_lets +onlyGivenNames a2
  split
  · refine State.aplicEach_keeps ?_
    exact h
  · split
    · refine State.aplicEach_keeps ?_
      exact h
    · split
      · refine State.aplicEach_keeps ?_
        exact h
      · split
        · refine State.aplicEach_keeps ?_
          exact h
        · exact h

theorem State.aplicDomain_keeps {s0 : State} {x0 : State} {x1 : Nat} {x2 : Nat} (h : Keeps s0 x0) :
    Keeps s0 (State.aplicDomain x0 x1 x2) := by
  unfold State.aplicDomain
  refine Keeps.foldl ?_ ?_
  · intro b1 b2 b3
    refine State.aplicDeliver_keeps ?_
    exact b3
  · refine Keeps.upd ?_
    exact h

theorem State.aplicWrite_keeps {s0 : State} {x0 : State} {x1 : Nat} {x2 : Nat} {x3 : Nat} (h : Keeps s0 x0) :
    Keeps s0 (State.aplicWrite x0 x1 x2 x3) := by
  unfold State.aplicWrite
  split
  · refine State.aplicDomain_keeps ?_
    exact h
  · split
    · refine State.sourceCfg_keeps ?_
      exact h
    · split
      · refine State.aplicBits_keeps ?_
        exact h
      · split
        · refine State.msi_keeps ?_
          exact h
        · split
          · refine State.aplicEach_keeps ?_
            exact h
          · exact h

theorem State.repWrite_keeps {s0 : State} {x0 : State} {x1 : Agent} {x2 : Nat} {x3 : Nat} (h : Keeps s0 x0) :
    Keeps s0 (State.repWrite x0 x1 x2 x3) := by
  unfold State.repWrite
  refine repCmd_keeps ?_ ?_
  · exact h
  · intro b1 b2
    extract_lets +onlyGivenNames a1
    extract_lets +onlyGivenNames a2
    extract_lets +onlyGivenNames a3
    extract_lets +onlyGivenNames a4
    split
    · refine State.softRowOp_keeps ?_
      exact b2
    · refine State.hardRowOp_keeps ?_
      exact b2
    · refine State.undoSoftOp_keeps ?_
      exact b2
    · refine State.laneCommitOp_keeps ?_
      exact b2
    · refine State.repResult_keeps ?_
      exact b2

theorem State.acctWrite_keeps {s0 : State} {x0 : State} {x1 : Nat} {x2 : Nat} (h : Keeps s0 x0) :
    Keeps s0 (State.acctWrite x0 x1 x2) := by
  unfold State.acctWrite
  extract_lets +onlyGivenNames a2
  extract_lets +onlyGivenNames a3
  extract_lets +onlyGivenNames a4
  split
  · refine State.putFields_keeps ?_
    exact h
  · refine State.putFields_keeps ?_
    exact h

theorem State.pfcWrite_keeps {s0 : State} {x0 : State} {x1 : Nat} {x2 : Nat} {x3 : Nat} (h : Keeps s0 x0) :
    Keeps s0 (State.pfcWrite x0 x1 x2 x3) := by
  unfold State.pfcWrite
  extract_lets +onlyGivenNames a1
  have ka1 : Keeps s0 a1 := by
    unfold a1
    refine State.putFields_keeps ?_
    exact h
  split
  · exact h
  · exact ka1

theorem State.arbWrite_keeps {s0 : State} {x0 : State} {x1 : Nat} {x2 : Nat} {x3 : Nat} (h : Keeps s0 x0) :
    Keeps s0 (State.arbWrite x0 x1 x2 x3) := by
  unfold State.arbWrite
  extract_lets +onlyGivenNames a2
  have ka2 : Keeps s0 a2 := by
    unfold a2
    refine State.putFields_keeps ?_
    exact h
  split
  · exact ka2
  · exact h

theorem State.qCtl_keeps {s0 : State} {x0 : State} {x1 : Nat} {x2 : Nat} (h : Keeps s0 x0) :
    Keeps s0 (State.qCtl x0 x1 x2) := by
  unfold State.qCtl
  split
  · refine State.qEnable_keeps ?_
    exact h
  · split
    · refine State.qDisable_keeps ?_
      exact h
    · split
      · refine State.qRestart_keeps ?_
        exact h
      · exact h

theorem State.hartCtl_keeps {s0 : State} {x0 : State} {x1 : Agent} {x2 : Nat} {x3 : Nat} {x4 : Nat} (h : Keeps s0 x0) :
    Keeps s0 (State.hartCtl x0 x1 x2 x3 x4) := by
  unfold State.hartCtl
  extract_lets +onlyGivenNames a1
  split
  · exact h
  · extract_lets +onlyGivenNames a2
    have ka2 : Keeps s0 a2 := by
      unfold a2
      refine State.putFields_keeps ?_
      exact h
    extract_lets +onlyGivenNames a3
    have ka3 : Keeps s0 a3 := by
      unfold a3
      split
      · refine State.hartStart_keeps ?_
        exact ka2
      · exact ka2
    split
    · refine State.hartStop_keeps ?_
      exact ka3
    · exact ka3

theorem State.holdCtl_keeps {s0 : State} {x0 : State} {x1 : Nat} {x2 : Nat} (h : Keeps s0 x0) :
    Keeps s0 (State.holdCtl x0 x1 x2) := by
  unfold State.holdCtl
  split
  · split
    · split
      · refine State.freeHold_keeps ?_
        exact h
      · exact h
    · exact h
  · exact h

theorem State.domCtl_keeps {s0 : State} {x0 : State} {x1 : Nat} (h : Keeps s0 x0) :
    Keeps s0 (State.domCtl x0 x1) := by
  unfold State.domCtl
  extract_lets +onlyGivenNames a1
  split
  · exact h
  · split
    · refine State.domRequest_keeps ?_
      exact h
    · split
      · refine State.domRequest_keeps ?_
        exact h
      · exact h

theorem State.brakeCtl_keeps {s0 : State} {x0 : State} {x1 : Nat} (h : Keeps s0 x0) :
    Keeps s0 (State.brakeCtl x0 x1) := by
  unfold State.brakeCtl
  split
  · exact h
  · split
    · refine State.cancelBrake_keeps ?_
      exact h
    · split
      · refine State.releaseBrake_keeps ?_
        exact h
      · exact h

theorem State.frzCtl_keeps {s0 : State} {x0 : State} {x1 : Nat} {x2 : Nat} {x3 : Nat} (h : Keeps s0 x0) :
    Keeps s0 (State.frzCtl x0 x1 x2 x3) := by
  unfold State.frzCtl
  split
  · exact h
  · extract_lets +onlyGivenNames a1
    have ka1 : Keeps s0 a1 := by
      unfold a1
      split
      · exact h
      · refine State.putFields_keeps ?_
        exact h
    split
    · split
      · exact ka1
      · refine State.startFreeze_keeps ?_
        exact ka1
    · split
      · split
        · refine State.releaseFreeze_keeps ?_
          exact ka1
        · exact ka1
      · exact ka1

theorem State.oneOf_keeps {s0 : State} {x0 : State} {x1 : Nat} {x2 : State → State} {x3 : State → State} (h : Keeps s0 x0) (k2 : ∀ {y0}, Keeps s0 y0 → Keeps s0 (x2 y0)) (k3 : ∀ {y0}, Keeps s0 y0 → Keeps s0 (x3 y0)) :
    Keeps s0 (State.oneOf x0 x1 x2 x3) := by
  unfold State.oneOf
  split
  · refine k2 ?_
    exact h
  · split
    · refine k3 ?_
      exact h
    · exact h

theorem State.storedIf_keeps {s0 x0 x2 : State} {x1 : Bool} (h : Keeps s0 x0) (k : Keeps s0 x2) : Keeps s0 (State.storedIf x0 x1 x2) := by
  unfold State.storedIf
  split
  · exact k
  · exact h

theorem State.queueWrite_keeps {s0 : State} {x0 : State} {x1 : Reg} {x2 : Nat} {x3 : Nat} {x4 : Nat} (h : Keeps s0 x0) :
    Keeps s0 (State.queueWrite x0 x1 x2 x3 x4) := by
  unfold State.queueWrite
  split
  · refine State.qCtl_keeps ?_
    exact h
  · refine State.storedIf_keeps ?_ ?_
    · exact h
    · refine State.putFields_keeps ?_
      exact h
  · refine State.storedIf_keeps ?_ ?_
    · exact h
    · refine State.putFields_keeps ?_
      exact h

theorem State.regionWrite_keeps {s0 : State} {x0 : State} {x1 : Agent} {x2 : Reg} {x3 : Nat} {x4 : Nat} {x5 : Nat} (h : Keeps s0 x0) :
    Keeps s0 (State.regionWrite x0 x1 x2 x3 x4 x5) := by
  unfold State.regionWrite
  split
  · refine State.writeJrnl_keeps ?_
    exact h
  · refine State.storedIf_keeps ?_ ?_
    · exact h
    · refine State.putFields_keeps ?_
      exact h
  · refine State.arbWrite_keeps ?_
    exact h
  · refine State.storedIf_keeps ?_ ?_
    · exact h
    · refine State.chState_keeps ?_
      exact h
  · refine State.laneMapWrite_keeps ?_
    exact h
  · refine State.repWrite_keeps ?_
    exact h
  · refine State.holdCtl_keeps ?_
    refine State.putFields_keeps ?_
    exact h
  · refine State.writeAgents_keeps ?_
    exact h
  · refine State.putFields_keeps ?_
    exact h

theorem State.hubWrite_keeps {s0 : State} {x0 : State} {x1 : Agent} {x2 : Reg} {x3 : Nat} {x4 : Nat} {x5 : Nat} (h : Keeps s0 x0) :
    Keeps s0 (State.hubWrite x0 x1 x2 x3 x4 x5) := by
  unfold State.hubWrite
  split
  · refine State.oneOf_keeps ?_ ?_ ?_
    · exact h
    · intro b1 b2
      refine State.clusterOff_keeps ?_
      exact b2
    · intro b1 b2
      refine State.clusterOn_keeps ?_
      exact b2
  · refine State.hartCtl_keeps ?_
    exact h
  · refine State.timerLevel_keeps ?_
    refine State.putFields_keeps ?_
    exact h
  · refine State.runInput_keeps ?_
    refine State.putFields_keeps ?_
    exact h
  · refine State.runInput_keeps ?_
    refine State.putFields_keeps ?_
    exact h
  · refine State.setFld_keeps ?_
    refine State.putFields_keeps ?_
    exact h
  · refine State.setFld_keeps ?_
    refine State.putFields_keeps ?_
    exact h
  · refine State.storedIf_keeps ?_ ?_
    · exact h
    · refine State.putFields_keeps ?_
      exact h
  · refine State.storedIf_keeps ?_ ?_
    · exact h
    · refine State.putFields_keeps ?_
      exact h
  · refine State.oneOf_keeps ?_ ?_ ?_
    · exact h
    · intro b1 b2
      refine State.hopEnable_keeps ?_
      exact b2
    · intro b1 b2
      refine State.hopDisable_keeps ?_
      exact b2
  · refine State.pfcWrite_keeps ?_
    exact h
  · refine State.storedIf_keeps ?_ ?_
    · exact h
    · refine State.putFields_keeps ?_
      exact h
  · refine State.storedIf_keeps ?_ ?_
    · exact h
    · refine State.putFields_keeps ?_
      exact h
  · refine State.storedIf_keeps ?_ ?_
    · exact h
    · refine State.putFields_keeps ?_
      exact h
  · refine State.netDb_keeps ?_
    exact h
  · refine State.timeStep_keeps ?_
    exact h
  · refine State.putFields_keeps ?_
    exact h

theorem State.ctlWrite_keeps {s0 : State} {x0 : State} {x1 : Agent} {x2 : Reg} {x3 : Nat} {x4 : Nat} {x5 : Nat} (h : Keeps s0 x0) :
    Keeps s0 (State.ctlWrite x0 x1 x2 x3 x4 x5) := by
  unfold State.ctlWrite
  split
  · extract_lets +onlyGivenNames a1
    have ka1 : Keeps s0 a1 := by
      unfold a1
      refine State.putFields_keeps ?_
      exact h
    split
    · refine State.setFld_keeps ?_
      exact ka1
    · exact ka1
  · refine State.effCap_keeps ?_
    refine State.putFields_keeps ?_
    exact h
  · refine State.domCtl_keeps ?_
    exact h
  · extract_lets +onlyGivenNames a1
    have ka1 : Keeps s0 a1 := by
      unfold a1
      refine State.putFields_keeps ?_
      exact h
    split
    · refine State.restartReset_keeps ?_
      exact ka1
    · exact ka1
  · refine State.obsMark_keeps ?_
    exact h
  · refine State.brakeCtl_keeps ?_
    exact h
  · refine State.frzCtl_keeps ?_
    exact h
  · refine State.acctWrite_keeps ?_
    exact h
  · refine State.profSel_keeps ?_
    exact h
  · refine State.mbistWrite_keeps ?_
    exact h
  · refine State.putFields_keeps ?_
    exact h

theorem State.regWrite_keeps {s0 : State} {x0 : State} {x1 : Agent} {x2 : Reg} {x3 : Nat} {x4 : Nat} {x5 : Nat} (h : Keeps s0 x0) :
    Keeps s0 (State.regWrite x0 x1 x2 x3 x4 x5) := by
  unfold State.regWrite
  split
  · refine State.queueWrite_keeps ?_
    exact h
  · split
    · refine State.regionWrite_keeps ?_
      exact h
    · split
      · refine State.hubWrite_keeps ?_
        exact h
      · refine State.ctlWrite_keeps ?_
        exact h

theorem State.slotWrite_keeps {s0 : State} {x0 : State} {x1 : Agent} {x2 : Slotted} {x3 : Nat} {x4 : Nat} {x5 : Nat} (h : Keeps s0 x0) :
    Keeps s0 (State.slotWrite x0 x1 x2 x3 x4 x5) := by
  unfold State.slotWrite
  extract_lets +onlyGivenNames a1
  have ka1 : Keeps s0 a1 := by
    unfold a1
    refine State.mmioRefuse_keeps ?_
    exact h
  extract_lets +onlyGivenNames a2
  have ka2 : Keeps s0 a2 := by
    unfold a2
    refine State.storeFault_keeps ?_
    exact ka1
  extract_lets +onlyGivenNames a3
  split
  · refine State.accessUnpopulated_keeps ?_
    exact h
  · exact ka2
  · split
    · exact h
    · exact ka2
  · split
    · exact ka2
    · split
      · exact ka1
      · split
        · exact ka1
        · extract_lets +onlyGivenNames a4
          refine State.regWrite_keeps ?_
          exact h
  · split
    · exact ka2
    · split
      · refine State.msi_keeps ?_
        exact h
      · exact h
  · split
    · exact ka2
    · split
      · refine State.aplicWrite_keeps ?_
        exact h
      · exact h

theorem State.windowWrite_keeps {s0 : State} {x0 : State} {x1 : Agent} {x2 : Nat} {x3 : Nat} {x4 : Nat} (h : Keeps s0 x0) :
    Keeps s0 (State.windowWrite x0 x1 x2 x3 x4) := by
  unfold State.windowWrite
  refine State.slotWrite_keeps ?_
  exact h

theorem State.rangeWrite_keeps {s0 : State} {x0 : State} {x1 : Agent} {x2 : Range} {x3 : Nat} {x4 : Nat} {x5 : Nat} (h : Keeps s0 x0) :
    Keeps s0 (State.rangeWrite x0 x1 x2 x3 x4 x5) := by
  unfold State.rangeWrite
  split
  · split
    · refine State.windowWrite_keeps ?_
      exact h
    · refine State.accessUnpopulated_keeps ?_
      exact h
  · split
    · refine State.windowWrite_keeps ?_
      exact h
    · refine State.accessUnpopulated_keeps ?_
      exact h
  · split
    · split
      · refine State.doorbellWrite_keeps ?_
        exact h
      · refine State.doorbellWrite_keeps ?_
        exact h
    · refine State.accessUnpopulated_keeps ?_
      exact h
  · split
    · refine State.accessUnpopulated_keeps ?_
      exact h
    · split
      · refine State.writeMem_keeps ?_
        exact h
      · exact h
  · split
    · refine State.accessUnpopulated_keeps ?_
      exact h
    · split
      · refine State.writeMem_keeps ?_
        exact h
      · exact h
  · split
    · exact h
    · refine State.accessUnpopulated_keeps ?_
      exact h
  · refine State.accessUnpopulated_keeps ?_
    exact h
  · exact h

theorem State.directWrite_keeps {s0 : State} {x0 : State} {x1 : Agent} {x2 : Nat} {x3 : Nat} {x4 : Nat} (h : Keeps s0 x0) :
    Keeps s0 (State.directWrite x0 x1 x2 x3 x4) := by
  unfold State.directWrite
  split
  · refine State.storeFault_keeps ?_
    exact h
  · split
    · refine State.accessUnpopulated_keeps ?_
      exact h
    · refine State.rangeWrite_keeps ?_
      exact h

theorem execRegisterWrite_keeps {s0 : State} {x0 : Agent} {x1 : Nat} {x2 : Nat} {x3 : Nat} {x4 : State} (h : Keeps s0 x4) :
    KeepsO s0 (execRegisterWrite x0 x1 x2 x3 x4) := by
  unfold execRegisterWrite
  refine Keeps.next ?_
  split
  · refine State.directWrite_keeps ?_
    exact h
  · exact h

end Sys2Proof.Machine
end

