-- ==== Sys2Proof/Laws/KeepsEdge.lean ====
section
/-! SUPPORT. What the operations of Boot.lean, Security.lean, Jtag.lean, CommandProc.lean keep: one lemma each, by composition (Laws/Keeps.lean). -/
namespace Sys2Proof.Machine

theorem State.setJword_keeps {s0 : State} {x0 : State} {x1 : Nat} {x2 : Nat} (h : Keeps s0 x0) :
    Keeps s0 (State.setJword x0 x1 x2) := by
  unfold State.setJword
  refine Keeps.upd ?_
  exact h

theorem State.setJbits_keeps {s0 : State} {x0 : State} {x1 : Nat} {x2 : Nat} {x3 : Nat} {x4 : Nat} (h : Keeps s0 x0) :
    Keeps s0 (State.setJbits x0 x1 x2 x3 x4) := by
  unfold State.setJbits
  refine State.setJword_keeps ?_
  exact h

theorem State.newJournal_keeps {s0 : State} {x0 : State} {x1 : Nat} (h : Keeps s0 x0) :
    Keeps s0 (State.newJournal x0 x1) := by
  unfold State.newJournal
  extract_lets +onlyGivenNames a1
  refine Keeps.upd ?_
  exact h

theorem State.jEntry_keeps {s0 : State} {x0 : State} {x1 : Nat} {x2 : Nat} {x3 : Nat} (h : Keeps s0 x0) :
    Keeps s0 (State.jEntry x0 x1 x2 x3) := by
  unfold State.jEntry
  extract_lets +onlyGivenNames a1
  split
  · exact h
  · extract_lets +onlyGivenNames a2
    refine State.setJbits_keeps ?_
    refine State.setJword_keeps ?_
    exact h

theorem State.jNote_keeps {s0 : State} {x0 : State} {x1 : Nat} {x2 : Nat} {x3 : Nat} (h : Keeps s0 x0) :
    Keeps s0 (State.jNote x0 x1 x2 x3) := by
  unfold State.jNote
  refine State.jEntry_keeps ?_
  exact h

theorem State.logBit_keeps {s0 : State} {x0 : State} {x1 : Nat} {x2 : Nat} (h : Keeps s0 x0) :
    Keeps s0 (State.logBit x0 x1 x2) := by
  unfold State.logBit
  split
  · refine State.program_keeps ?_
    exact h
  · exact h

theorem State.stepBegins_keeps {s0 : State} {x0 : State} {x1 : Nat} (h : Keeps s0 x0) :
    Keeps s0 (State.stepBegins x0 x1) := by
  unfold State.stepBegins
  refine State.logBit_keeps ?_
  refine State.jEntry_keeps ?_
  exact h

theorem State.stepDone_keeps {s0 : State} {x0 : State} {x1 : Nat} (h : Keeps s0 x0) :
    Keeps s0 (State.stepDone x0 x1) := by
  unfold State.stepDone
  refine State.logBit_keeps ?_
  refine State.jEntry_keeps ?_
  exact h

theorem State.stepFails_keeps {s0 : State} {x0 : State} {x1 : Nat} (h : Keeps s0 x0) :
    Keeps s0 (State.stepFails x0 x1) := by
  unfold State.stepFails
  refine State.jEntry_keeps ?_
  exact h

theorem State.stepSkipped_keeps {s0 : State} {x0 : State} {x1 : Nat} (h : Keeps s0 x0) :
    Keeps s0 (State.stepSkipped x0 x1) := by
  unfold State.stepSkipped
  refine State.setJbits_keeps ?_
  refine State.jEntry_keeps ?_
  exact h

theorem State.stepAlt_keeps {s0 : State} {x0 : State} {x1 : Nat} (h : Keeps s0 x0) :
    Keeps s0 (State.stepAlt x0 x1) := by
  unfold State.stepAlt
  refine State.setJbits_keeps ?_
  exact h

theorem State.bootFails_keeps {s0 : State} {x0 : State} {x1 : Nat} (h : Keeps s0 x0) :
    Keeps s0 (State.bootFails x0 x1) := by
  unfold State.bootFails
  extract_lets +onlyGivenNames a1
  have ka1 : Keeps s0 a1 := by
    unfold a1
    refine State.stepFails_keeps ?_
    exact h
  split
  · extract_lets +onlyGivenNames a2
    have ka2 : Keeps s0 a2 := by
      unfold a2
      refine State.heldReset_keeps ?_
      refine State.setJbits_keeps ?_
      refine State.setJbits_keeps ?_
      exact ka1
    refine Keeps.upd ?_
    exact ka2
  · refine State.heldReset_keeps ?_
    exact ka1

theorem State.extend_keeps {s0 : State} {x0 : State} {x1 : Nat} {x2 : Nat} (h : Keeps s0 x0) :
    Keeps s0 (State.extend x0 x1 x2) := by
  unfold State.extend
  extract_lets +onlyGivenNames a1
  refine Keeps.upd ?_
  exact h

theorem State.identityStep_keeps {s0 : State} {x0 : State} (h : Keeps s0 x0) :
    Keeps s0 (State.identityStep x0).1 := by
  unfold State.identityStep
  split
  · with_reducible assumption
  · extract_lets +onlyGivenNames a1
    extract_lets +onlyGivenNames a2
    extract_lets +onlyGivenNames a3
    have ka3 : Keeps s0 a3 := by
      unfold a3
      refine Keeps.upd ?_
      exact h
    extract_lets +onlyGivenNames a4
    have ka4 : Keeps s0 a4 := by
      unfold a4
      refine State.setFld_keeps ?_
      exact ka3
    extract_lets +onlyGivenNames a5
    refine Keeps.fst ?_
    refine State.setFld_keeps ?_
    exact ka4

theorem State.domsOn_keeps {s0 : State} {x0 : State} {x1 : List Nat} (h : Keeps s0 x0) :
    Keeps s0 (State.domsOn x0 x1) := by
  unfold State.domsOn
  refine Keeps.foldl ?_ ?_
  · intro b1 b2 b3
    refine State.setDom_keeps ?_
    exact b3
  · exact h

theorem State.leaveRefresh_keeps {s0 : State} {x0 : State} {x1 : List Nat} (h : Keeps s0 x0) :
    Keeps s0 (State.leaveRefresh x0 x1) := by
  unfold State.leaveRefresh
  extract_lets +onlyGivenNames a1
  have ka1 : Keeps s0 a1 := by
    unfold a1
    refine Keeps.foldl ?_ ?_
    · intro b1 b2 b3
      refine State.setStack_keeps ?_
      exact b3
    · exact h
  refine Keeps.foldl ?_ ?_
  · intro b1 b2 b3
    refine Keeps.foldl ?_ ?_
    · intro b4 b5 b6
      refine State.window_keeps ?_
      refine State.window_keeps ?_
      exact b6
    · exact b3
  · exact ka1

theorem State.trainMemory_keeps {s0 : State} {x0 : State} {x1 : Bool} (h : Keeps s0 x0) :
    Keeps s0 (State.trainMemory x0 x1) := by
  unfold State.trainMemory
  extract_lets +onlyGivenNames a1
  have ka1 : Keeps s0 a1 := by
    unfold a1
    refine State.domsOn_keeps ?_
    exact h
  split
  · extract_lets +onlyGivenNames a2
    refine Keeps.foldl ?_ ?_
    · intro b1 b2 b3
      extract_lets +onlyGivenNames a3
      have ka3 : Keeps s0 a3 := by
        unfold a3
        refine State.setR_keeps ?_
        refine State.loseStack_keeps ?_
        exact b3
      extract_lets +onlyGivenNames a4
      extract_lets +onlyGivenNames a5
      have ka5 : Keeps s0 a5 := by
        unfold a5
        refine State.setUpd_keeps ?_
        exact ka3
      split
      · exact ka5
      · refine State.jNote_keeps ?_
        exact ka5
    · refine State.leaveRefresh_keeps ?_
      exact ka1
  · refine Keeps.foldl ?_ ?_
    · intro b1 b2 b3
      refine State.setR_keeps ?_
      exact b3
    · exact ka1

theorem State.testEngines_keeps {s0 : State} {x0 : State} (h : Keeps s0 x0) :
    Keeps s0 (State.testEngines x0).1 := by
  unfold State.testEngines
  extract_lets +onlyGivenNames a1
  have ka1 : Keeps s0 a1 := by
    unfold a1
    refine State.domsOn_keeps ?_
    exact h
  extract_lets +onlyGivenNames a2
  split
  · with_reducible assumption
  · extract_lets +onlyGivenNames a3
    have ka3 : Keeps s0 a3 := by
      unfold a3
      refine State.stepAlt_keeps ?_
      exact ka1
    extract_lets +onlyGivenNames a4
    extract_lets +onlyGivenNames a5
    have ka5 : Keeps s0 a5 := by
      unfold a5
      refine Keeps.foldl ?_ ?_
      · intro b1 b2 b3
        split
        · exact b3
        · refine State.quarantineEngine_keeps ?_
          exact b3
      · exact ka3
    with_reducible assumption

theorem State.configSlot_keeps {s0 : State} {x0 : State} {x1 : Slotted} {x2 : Nat} {x3 : Nat} (h : Keeps s0 x0) :
    Keeps s0 (State.configSlot x0 x1 x2 x3).1 := by
  unfold State.configSlot
  split
  · with_reducible assumption
  · refine Keeps.fst ?_
    refine State.setFld_keeps ?_
    refine State.windowWrite_keeps ?_
    exact h
  · refine Keeps.fst ?_
    refine State.windowWrite_keeps ?_
    split
    · refine State.writeAgents_keeps ?_
      refine State.setFld_keeps ?_
      refine State.setDom_keeps ?_
      exact h
    · exact h
  · refine Keeps.fst ?_
    refine State.windowWrite_keeps ?_
    exact h
  · refine Keeps.fst ?_
    refine State.windowWrite_keeps ?_
    exact h

theorem State.configReg_keeps {s0 : State} {x0 : State} {x1 : Nat} {x2 : Nat} (h : Keeps s0 x0) :
    Keeps s0 (State.configReg x0 x1 x2).1 := by
  unfold State.configReg
  refine State.configSlot_keeps ?_
  exact h

theorem State.configQueue_keeps {s0 : State} {x0 : State} {x1 : Nat} (h : Keeps s0 x0) :
    Keeps s0 (State.configQueue x0 x1).1 := by
  unfold State.configQueue
  extract_lets +onlyGivenNames a1
  extract_lets +onlyGivenNames a2
  split
  · with_reducible assumption
  · extract_lets +onlyGivenNames a3
    have ka3 : Keeps s0 a3 := by
      unfold a3
      refine State.putMem_keeps ?_
      exact h
    split
    · with_reducible assumption
    · extract_lets +onlyGivenNames a4
      have ka4 : Keeps s0 a4 := by
        unfold a4
        refine State.loadQueue_keeps ?_
        exact ka3
      refine Keeps.fst ?_
      split
      · refine State.enableQueue_keeps ?_
        exact ka4
      · exact ka4

theorem State.applyConfig_keeps {s0 : State} {x0 : State} (h : Keeps s0 x0) :
    Keeps s0 (State.applyConfig x0).1 := by
  unfold State.applyConfig
  extract_lets +onlyGivenNames a2
  split
  split
  · refine Keeps.fst ?_
    refine Keeps.of1 ‹_› ?_
    refine Keeps.foldl1 ?_ ?_
    · intro b1 b2 b3 b4
      split
      · refine State.configReg_keeps ?_
        with_reducible assumption
      · with_reducible assumption
    · with_reducible assumption
  · refine Keeps.fst ?_
    refine Keeps.of1 ‹_› ?_
    refine Keeps.foldl1 ?_ ?_
    · intro b1 b2 b3 b4
      split
      · refine State.configReg_keeps ?_
        with_reducible assumption
      · with_reducible assumption
    · with_reducible assumption
  · split
    split
    · refine Keeps.fst ?_
      refine Keeps.of1 ‹_› ?_
      refine Keeps.foldl1 ?_ ?_
      · intro b1 b2 b3 b4
        split
        · refine State.configQueue_keeps ?_
          with_reducible assumption
        · with_reducible assumption
      · refine Keeps.fst ?_
        refine Keeps.of1 ‹_› ?_
        refine Keeps.foldl1 ?_ ?_
        · intro b1 b2 b3 b4
          split
          · refine State.configReg_keeps ?_
            with_reducible assumption
          · with_reducible assumption
        · with_reducible assumption
    · refine Keeps.fst ?_
      refine Keeps.foldl ?_ ?_
      · intro b1 b2 b3
        split
        · refine State.hartStart_keeps ?_
          exact b3
        · exact b3
      · refine Keeps.of1 ‹_› ?_
        refine Keeps.foldl1 ?_ ?_
        · intro b1 b2 b3 b4
          split
          · refine State.configQueue_keeps ?_
            with_reducible assumption
          · with_reducible assumption
        · refine Keeps.fst ?_
          refine Keeps.of1 ‹_› ?_
          refine Keeps.foldl1 ?_ ?_
          · intro b1 b2 b3 b4
            split
            · refine State.configReg_keeps ?_
              with_reducible assumption
            · with_reducible assumption
          · with_reducible assumption

theorem State.clearDirectories_keeps {s0 : State} {x0 : State} (h : Keeps s0 x0) :
    Keeps s0 (State.clearDirectories x0) := by
  unfold State.clearDirectories
  extract_lets +onlyGivenNames a1
  extract_lets +onlyGivenNames a2
  have ka2 : Keeps s0 a2 := by
    unfold a2
    refine Keeps.foldl ?_ ?_
    · intro b1 b2 b3
      refine State.storeLine_keeps ?_
      exact b3
    · exact h
  refine Keeps.upd ?_
  exact ka2

theorem State.damageApplying_keeps {s0 : State} {x0 : State} (h : Keeps s0 x0) :
    Keeps s0 (State.damageApplying x0) := by
  unfold State.damageApplying
  refine Keeps.foldl ?_ ?_
  · intro b1 b2 b3
    refine Keeps.foldl ?_ ?_
    · intro b4 b5 b6
      refine State.setJState_keeps ?_
      exact b6
    · exact b3
  · exact h

theorem State.ringHead_keeps {s0 : State} {x0 : State} (h : Keeps s0 x0) :
    Keeps s0 (State.ringHead x0) := by
  unfold State.ringHead
  extract_lets +onlyGivenNames a1
  refine Keeps.foldl ?_ ?_
  · intro b1 b2 b3
    refine State.ringWrite_keeps ?_
    exact b3
  · exact h

theorem State.armGasp_keeps {s0 : State} {x0 : State} (h : Keeps s0 x0) :
    Keeps s0 (State.armGasp x0) := by
  unfold State.armGasp
  extract_lets +onlyGivenNames a2
  extract_lets +onlyGivenNames a3
  extract_lets +onlyGivenNames a4
  extract_lets +onlyGivenNames a5
  have ka5 : Keeps s0 a5 := by
    unfold a5
    refine Keeps.foldl ?_ ?_
    · intro b1 b2 b3
      refine State.erase_keeps ?_
      exact b3
    · exact h
  refine State.setFld_keeps ?_
  refine State.setFld_keeps ?_
  refine State.setFld_keeps ?_
  exact ka5

theorem State.showBoot_keeps {s0 : State} {x0 : State} (h : Keeps s0 x0) :
    Keeps s0 (State.showBoot x0) := by
  unfold State.showBoot
  refine State.setFld_keeps ?_
  refine State.setFld_keeps ?_
  refine State.setFld_keeps ?_
  refine State.setFld_keeps ?_
  exact h

theorem State.serviceMode_keeps {s0 : State} {x0 : State} (h : Keeps s0 x0) :
    Keeps s0 (State.serviceMode x0) := by
  unfold State.serviceMode
  refine Keeps.foldl ?_ ?_
  · intro b1 b2 b3
    refine State.setFld_keeps ?_
    exact b3
  · exact h

theorem State.grantAccess_keeps {s0 : State} {x0 : State} (h : Keeps s0 x0) :
    Keeps s0 (State.grantAccess x0) := by
  unfold State.grantAccess
  extract_lets +onlyGivenNames a1
  have ka1 : Keeps s0 a1 := by
    unfold a1
    split
    · refine State.clearDirectories_keeps ?_
      refine State.damageApplying_keeps ?_
      exact h
    · exact h
  extract_lets +onlyGivenNames a2
  have ka2 : Keeps s0 a2 := by
    unfold a2
    refine State.ringHead_keeps ?_
    exact ka1
  extract_lets +onlyGivenNames a3
  have ka3 : Keeps s0 a3 := by
    unfold a3
    refine State.extend_keeps ?_
    exact ka2
  extract_lets +onlyGivenNames a4
  have ka4 : Keeps s0 a4 := by
    unfold a4
    refine State.serviceMode_keeps ?_
    refine State.armGasp_keeps ?_
    refine State.stepDone_keeps ?_
    exact ka3
  extract_lets +onlyGivenNames a5
  have ka5 : Keeps s0 a5 := by
    unfold a5
    split
    · refine State.erase_keeps ?_
      exact ka4
    · exact ka4
  extract_lets +onlyGivenNames a6
  have ka6 : Keeps s0 a6 := by
    unfold a6
    refine State.setFld_keeps ?_
    refine State.showBoot_keeps ?_
    refine State.setJbits_keeps ?_
    exact ka5
  refine Keeps.upd ?_
  exact ka6

theorem State.mandatory_keeps {s0 : State} {x0 : State} {x1 : Nat} {x2 : Bool} {x3 : State → State × Bool} {x4 : State → State} (h : Keeps s0 x0) (k3 : ∀ {y0}, Keeps s0 y0 → Keeps s0 (x3 y0).1) (k4 : ∀ {y0}, Keeps s0 y0 → Keeps s0 (x4 y0)) :
    Keeps s0 (State.mandatory x0 x1 x2 x3 x4) := by
  unfold State.mandatory
  extract_lets +onlyGivenNames a1
  have ka1 : Keeps s0 a1 := by
    unfold a1
    refine State.stepBegins_keeps ?_
    exact h
  extract_lets +onlyGivenNames a2
  have ka2 : Keeps s0 a2 := by
    unfold a2
    split
    · refine State.stepAlt_keeps ?_
      exact ka1
    · exact ka1
  split
  split
  · refine k4 ?_
    refine State.stepDone_keeps ?_
    refine Keeps.of1 ‹_› ?_
    refine k3 ?_
    exact ka2
  · refine State.bootFails_keeps ?_
    refine Keeps.of1 ‹_› ?_
    refine k3 ?_
    exact ka2

theorem State.optional_keeps {s0 : State} {x0 : State} {x1 : Nat} {x2 : State → State × Bool} (h : Keeps s0 x0) (k2 : ∀ {y0}, Keeps s0 y0 → Keeps s0 (x2 y0).1) :
    Keeps s0 (State.optional x0 x1 x2) := by
  unfold State.optional
  split
  · refine State.stepSkipped_keeps ?_
    exact h
  · extract_lets +onlyGivenNames a1
    have ka1 : Keeps s0 a1 := by
      unfold a1
      refine State.stepBegins_keeps ?_
      exact h
    split
    split
    · refine State.stepDone_keeps ?_
      refine Keeps.of1 ‹_› ?_
      refine k2 ?_
      exact ka1
    · refine State.stepFails_keeps ?_
      exact ka1

theorem State.copySegments_keeps {s0 : State} {x0 : State} (h : Keeps s0 x0) :
    Keeps s0 (State.copySegments x0).1 := by
  unfold State.copySegments
  extract_lets +onlyGivenNames a1
  extract_lets +onlyGivenNames a2
  extract_lets +onlyGivenNames a3
  extract_lets +onlyGivenNames a4
  split
  · refine Keeps.fst ?_
    refine Keeps.upd ?_
    exact h
  · with_reducible assumption

theorem State.trainLinks_keeps {s0 : State} {x0 : State} {x1 : Bool} (h : Keeps s0 x0) :
    Keeps s0 (State.trainLinks x0 x1) := by
  unfold State.trainLinks
  extract_lets +onlyGivenNames a1
  have ka1 : Keeps s0 a1 := by
    unfold a1
    refine State.domsOn_keeps ?_
    exact h
  refine Keeps.upd ?_
  exact ka1

theorem State.trainPort_keeps {s0 : State} {x0 : State} {x1 : Nat} (h : Keeps s0 x0) :
    Keeps s0 (State.trainPort x0 x1) := by
  unfold State.trainPort
  split
  · exact h
  · extract_lets +onlyGivenNames a1
    extract_lets +onlyGivenNames a2
    extract_lets +onlyGivenNames a3
    have ka3 : Keeps s0 a3 := by
      unfold a3
      refine State.portState_keeps ?_
      exact h
    refine State.setPort_keeps ?_
    exact ka3

theorem State.configuration_keeps {s0 : State} {x0 : State} {x1 : State → State} (h : Keeps s0 x0) (k1 : ∀ {y0}, Keeps s0 y0 → Keeps s0 (x1 y0)) :
    Keeps s0 (State.configuration x0 x1) := by
  unfold State.configuration
  split
  · refine Keeps.of1 ‹_› ?_
    refine State.applyConfig_keeps ?_
    refine State.stepBegins_keeps ?_
    exact h
  · refine State.bootFails_keeps ?_
    refine Keeps.of1 ‹_› ?_
    refine State.applyConfig_keeps ?_
    refine State.stepBegins_keeps ?_
    exact h
  · split
    · refine k1 ?_
      refine State.stepDone_keeps ?_
      refine Keeps.of1 ‹_› ?_
      refine State.applyConfig_keeps ?_
      refine State.stepBegins_keeps ?_
      exact h
    · refine State.bootFails_keeps ?_
      refine Keeps.of1 ‹_› ?_
      refine State.applyConfig_keeps ?_
      refine State.stepBegins_keeps ?_
      exact h

theorem State.bootRest_keeps {s0 : State} {x0 : State} (h : Keeps s0 x0) :
    Keeps s0 (State.bootRest x0) := by
  unfold State.bootRest
  extract_lets +onlyGivenNames a1
  extract_lets +onlyGivenNames a2
  extract_lets +onlyGivenNames a3
  have ka3 : Keeps s0 a3 := by
    unfold a3
    split
    · exact h
    · refine State.stepBegins_keeps ?_
      exact h
  refine State.mandatory_keeps ?_ ?_ ?_
  · exact ka3
  · intro b2 b3
    refine State.copySegments_keeps ?_
    refine State.domsOn_keeps ?_
    exact b3
  · intro b2 b3
    refine State.mandatory_keeps ?_ ?_ ?_
    · exact b3
    · intro b4 b5
      refine Keeps.fst ?_
      refine State.trainLinks_keeps ?_
      exact b5
    · intro b4 b5
      refine State.mandatory_keeps ?_ ?_ ?_
      · exact b5
      · intro b6 b7
        refine Keeps.fst ?_
        refine State.trainMemory_keeps ?_
        exact b7
      · intro b6 b7
        extract_lets +onlyGivenNames a4
        have ka4 : Keeps s0 a4 := by
          unfold a4
          split
          · refine State.stepSkipped_keeps ?_
            exact b7
          · split
            split
            · refine State.stepDone_keeps ?_
              refine Keeps.of1 ‹_› ?_
              refine State.identityStep_keeps ?_
              exact b7
            · refine State.stepFails_keeps ?_
              exact b7
        extract_lets +onlyGivenNames a5
        have ka5 : Keeps s0 a5 := by
          unfold a5
          refine State.stepBegins_keeps ?_
          exact ka4
        split
        split
        · refine State.bootFails_keeps ?_
          refine Keeps.of1 ‹_› ?_
          refine State.testEngines_keeps ?_
          exact ka5
        · extract_lets +onlyGivenNames a6
          have ka6 : Keeps s0 a6 := by
            unfold a6
            refine State.stepDone_keeps ?_
            refine Keeps.of1 ‹_› ?_
            refine State.testEngines_keeps ?_
            exact ka5
          extract_lets +onlyGivenNames a7
          have ka7 : Keeps s0 a7 := by
            unfold a7
            refine State.optional_keeps ?_ ?_
            · exact ka6
            · intro b8 b9
              extract_lets +onlyGivenNames a8
              have ka8 : Keeps s0 a8 := by
                unfold a8
                refine State.domsOn_keeps ?_
                exact b9
              refine Keeps.fst ?_
              refine Keeps.foldl ?_ ?_
              · intro b10 b11 b12
                refine State.trainPort_keeps ?_
                exact b12
              · exact ka8
          extract_lets +onlyGivenNames a8
          have ka8 : Keeps s0 a8 := by
            unfold a8
            refine State.optional_keeps ?_ ?_
            · exact ka7
            · intro b8 b9
              refine Keeps.fst ?_
              refine State.domsOn_keeps ?_
              exact b9
          refine State.configuration_keeps ?_ ?_
          · exact ka8
          · intro b8 b9
            extract_lets +onlyGivenNames a9
            have ka9 : Keeps s0 a9 := by
              unfold a9
              refine State.stepBegins_keeps ?_
              exact b9
            split
            · refine State.grantAccess_keeps ?_
              exact ka9
            · refine State.bootFails_keeps ?_
              exact ka9

theorem State.imageTaken_keeps {s0 : State} {x0 : State} {x1 : Nat} (h : Keeps s0 x0) :
    Keeps s0 (State.imageTaken x0 x1) := by
  unfold State.imageTaken
  extract_lets +onlyGivenNames a1
  extract_lets +onlyGivenNames a2
  have ka2 : Keeps s0 a2 := by
    unfold a2
    refine Keeps.upd ?_
    exact h
  extract_lets +onlyGivenNames a3
  have ka3 : Keeps s0 a3 := by
    unfold a3
    refine State.extend_keeps ?_
    exact ka2
  refine State.setFld_keeps ?_
  refine State.setFld_keeps ?_
  exact ka3

theorem State.imageStep_keeps {s0 : State} {x0 : State} (h : Keeps s0 x0) :
    Keeps s0 (State.imageStep x0) := by
  unfold State.imageStep
  extract_lets +onlyGivenNames a1
  have ka1 : Keeps s0 a1 := by
    unfold a1
    refine State.stepBegins_keeps ?_
    exact h
  extract_lets +onlyGivenNames a2
  extract_lets +onlyGivenNames a3
  extract_lets +onlyGivenNames a4
  have ka4 : Keeps s0 a4 := by
    unfold a4
    refine State.stepAlt_keeps ?_
    exact ka1
  extract_lets +onlyGivenNames a5
  extract_lets +onlyGivenNames a6
  extract_lets +onlyGivenNames a7
  have ka7 : Keeps s0 a7 := by
    unfold a7
    refine Keeps.upd ?_
    exact ka4
  split
  · exact ka7
  · extract_lets +onlyGivenNames a8
    split
    · refine State.bootRest_keeps ?_
      refine State.stepDone_keeps ?_
      refine State.imageTaken_keeps ?_
      exact ka1
    · split
      · exact ka7
      · refine State.bootFails_keeps ?_
        exact ka1

theorem State.takeConfig_keeps {s0 : State} {x0 : State} {x1 : Nat} {x2 : Bool} (h : Keeps s0 x0) :
    Keeps s0 (State.takeConfig x0 x1 x2).1 := by
  unfold State.takeConfig
  split
  · refine Keeps.fst ?_
    refine State.extend_keeps ?_
    refine State.setFld_keeps ?_
    refine Keeps.upd ?_
    exact h
  · with_reducible assumption

theorem State.strapStep_keeps {s0 : State} {x0 : State} (h : Keeps s0 x0) :
    Keeps s0 (State.strapStep x0).1 := by
  unfold State.strapStep
  refine Keeps.fst ?_
  split
  · refine State.jNote_keeps ?_
    exact h
  · exact h

theorem State.configStep_keeps {s0 : State} {x0 : State} (h : Keeps s0 x0) :
    Keeps s0 (State.configStep x0).1 := by
  unfold State.configStep
  extract_lets +onlyGivenNames a1
  refine State.takeConfig_keeps ?_
  exact h

theorem State.bootSteps_keeps {s0 : State} {x0 : State} (h : Keeps s0 x0) :
    Keeps s0 (State.bootSteps x0) := by
  unfold State.bootSteps
  refine State.mandatory_keeps ?_ ?_ ?_
  · exact h
  · intro b2 b3
    with_reducible assumption
  · intro b2 b3
    refine State.mandatory_keeps ?_ ?_ ?_
    · exact b3
    · intro b4 b5
      refine State.strapStep_keeps ?_
      exact b5
    · intro b4 b5
      refine State.mandatory_keeps ?_ ?_ ?_
      · exact b5
      · intro b6 b7
        refine State.configStep_keeps ?_
        exact b7
      · intro b6 b7
        refine State.imageStep_keeps ?_
        exact b7

theorem State.startDevice_keeps {s0 : State} {x0 : State} {x1 : StartEnv} (h : Keeps s0 x0) :
    Keeps s0 (State.startDevice x0 x1) := by
  unfold State.startDevice
  extract_lets +onlyGivenNames a1
  extract_lets +onlyGivenNames a2
  extract_lets +onlyGivenNames a3
  extract_lets +onlyGivenNames a4
  extract_lets +onlyGivenNames a5
  extract_lets +onlyGivenNames a6
  extract_lets +onlyGivenNames a7
  extract_lets +onlyGivenNames a8
  extract_lets +onlyGivenNames a9
  extract_lets +onlyGivenNames a10
  have ka10 : Keeps s0 a10 := by
    unfold a10
    refine Keeps.upd ?_
    exact h
  extract_lets +onlyGivenNames a11
  extract_lets +onlyGivenNames a12
  extract_lets +onlyGivenNames a13
  have ka13 : Keeps s0 a13 := by
    unfold a13
    refine State.setJbits_keeps ?_
    refine State.setJbits_keeps ?_
    refine State.newJournal_keeps ?_
    exact ka10
  extract_lets +onlyGivenNames a14
  extract_lets +onlyGivenNames a15
  have ka15 : Keeps s0 a15 := by
    unfold a15
    split
    · refine State.program_keeps ?_
      exact ka13
    · with_reducible assumption
  refine State.bootSteps_keeps ?_
  exact ka15

theorem execDeviceStart_keeps {s0 : State} {x0 : StartEnv} {x1 : State} (h : Keeps s0 x1) :
    KeepsO s0 (execDeviceStart x0 x1) := by
  unfold execDeviceStart
  extract_lets +onlyGivenNames a1
  refine Keeps.next ?_
  split
  · refine State.startDevice_keeps ?_
    exact h
  · exact h

theorem State.secRun_keeps {s0 : State} {x0 : State} {x1 : CmdRef} {x2 : Nat} {x3 : Cmd → State} (h : Keeps s0 x0) (k3 : ∀ {y0}, Keeps s0 (x3 y0)) :
    Keeps s0 (State.secRun x0 x1 x2 x3) := by
  unfold State.secRun
  split
  · refine State.run_keeps ?_ ?_
    · exact h
    · intro b1
      refine k3 
  · exact h

theorem execMeasureExtend_keeps {s0 : State} {x0 : CmdRef} {x1 : State} (h : Keeps s0 x1) :
    KeepsO s0 (execMeasureExtend x0 x1) := by
  unfold execMeasureExtend
  refine Keeps.next ?_
  refine State.secRun_keeps ?_ ?_
  · exact h
  · intro b1
    refine State.finish_keeps ?_
    refine State.extend_keeps ?_
    exact h

theorem execAttest_keeps {s0 : State} {x0 : CmdRef} {x1 : State} (h : Keeps s0 x1) :
    KeepsO s0 (execAttest x0 x1) := by
  unfold execAttest
  refine Keeps.next ?_
  refine State.secRun_keeps ?_ ?_
  · exact h
  · intro b1
    split
    · refine State.finish_keeps ?_
      exact h
    · extract_lets +onlyGivenNames a1
      extract_lets +onlyGivenNames a2
      split
      extract_lets +onlyGivenNames a3
      refine State.finish_keeps ?_
      refine State.wrote_keeps ?_
      refine State.hubWrites_keeps ?_
      refine Keeps.of2 ‹_› ?_
      refine State.draw_keeps ?_
      exact h

theorem execCertRead_keeps {s0 : State} {x0 : CmdRef} {x1 : State} (h : Keeps s0 x1) :
    KeepsO s0 (execCertRead x0 x1) := by
  unfold execCertRead
  refine Keeps.next ?_
  refine State.secRun_keeps ?_ ?_
  · exact h
  · intro b1
    split
    · refine State.finish_keeps ?_
      exact h
    · split
      · refine State.finish_keeps ?_
        exact h
      · split
        · refine State.finish_keeps ?_
          exact h
        · refine State.finish_keeps ?_
          refine State.wrote_keeps ?_
          refine State.hubWrites_keeps ?_
          exact h

theorem State.newChallenge_keeps {s0 : State} {x0 : State} (h : Keeps s0 x0) :
    Keeps s0 (State.newChallenge x0).2 := by
  unfold State.newChallenge
  extract_lets +onlyGivenNames a1
  refine Keeps.snd ?_
  refine Keeps.upd ?_
  exact h

theorem State.unlock_keeps {s0 : State} {x0 : State} {x1 : Nat} {x2 : Nat} (h : Keeps s0 x0) :
    Keeps s0 (State.unlock x0 x1 x2).1 := by
  unfold State.unlock
  extract_lets +onlyGivenNames a1
  extract_lets +onlyGivenNames a2
  extract_lets +onlyGivenNames a3
  extract_lets +onlyGivenNames a4
  extract_lets +onlyGivenNames a5
  have ka5 : Keeps s0 a5 := by
    unfold a5
    refine Keeps.upd ?_
    exact h
  split
  · extract_lets +onlyGivenNames a6
    have ka6 : Keeps s0 a6 := by
      unfold a6
      refine State.setFld_keeps ?_
      refine State.setFld_keeps ?_
      exact ka5
    refine Keeps.fst ?_
    refine State.traceFree_keeps ?_
    refine State.extend_keeps ?_
    exact ka6
  · refine Keeps.fst ?_
    refine State.setFld_keeps ?_
    exact ka5

theorem State.relock_keeps {s0 : State} {x0 : State} (h : Keeps s0 x0) :
    Keeps s0 (State.relock x0) := by
  unfold State.relock
  refine State.setFld_keeps ?_
  exact h

theorem execDebugUnlock_keeps {s0 : State} {x0 : CmdRef} {x1 : State} (h : Keeps s0 x1) :
    KeepsO s0 (execDebugUnlock x0 x1) := by
  unfold execDebugUnlock
  refine Keeps.next ?_
  refine State.secRun_keeps ?_ ?_
  · exact h
  · intro b1
    extract_lets +onlyGivenNames a1
    extract_lets +onlyGivenNames a2
    split
    · refine State.finish_keeps ?_
      refine State.relock_keeps ?_
      exact h
    · split
      · refine State.finish_keeps ?_
        exact h
      · split
        · split
          refine State.finish_keeps ?_
          refine State.wrote_keeps ?_
          refine State.hubWrites_keeps ?_
          refine Keeps.of2 ‹_› ?_
          refine State.newChallenge_keeps ?_
          exact h
        · refine State.readingThen_keeps ?_ ?_
          · exact h
          · intro b2 b3
            split
            split
            · refine State.finish_keeps ?_
              refine Keeps.of1 ‹_› ?_
              refine State.unlock_keeps ?_
              exact b3
            · refine State.finish_keeps ?_
              refine Keeps.of1 ‹_› ?_
              refine State.unlock_keeps ?_
              exact b3

theorem State.setRecover_keeps {s0 : State} {x0 : State} {x1 : Recovery → Recovery} (h : Keeps s0 x0) :
    Keeps s0 (State.setRecover x0 x1) := by
  unfold State.setRecover
  refine Keeps.upd ?_
  exact h

theorem execRecoveryAnnounce_keeps {s0 : State} {x0 : State} (h : Keeps s0 x0) :
    KeepsO s0 (execRecoveryAnnounce x0) := by
  unfold execRecoveryAnnounce
  refine Keeps.next ?_
  split
  · refine State.send_keeps ?_
    exact h
  · exact h

theorem execRecoveryLinkTimeout_keeps {s0 : State} {x0 : State} (h : Keeps s0 x0) :
    KeepsO s0 (execRecoveryLinkTimeout x0) := by
  unfold execRecoveryLinkTimeout
  refine Keeps.next ?_
  split
  · split
    · exact h
    · refine State.setRecover_keeps ?_
      exact h
  · exact h

theorem execOffer_keeps {s0 : State} {x0 : RecFrame} {x1 : State} (h : Keeps s0 x1) :
    KeepsO s0 (execOffer x0 x1) := by
  unfold execOffer
  refine Keeps.next ?_
  split
  · exact h
  · extract_lets +onlyGivenNames a1
    split
    · refine State.send_keeps ?_
      exact h
    · extract_lets +onlyGivenNames a2
      have ka2 : Keeps s0 a2 := by
        unfold a2
        refine State.setRecover_keeps ?_
        exact h
      refine Keeps.upd ?_
      exact ka2

theorem execData_keeps {s0 : State} {x0 : RecFrame} {x1 : State} (h : Keeps s0 x1) :
    KeepsO s0 (execData x0 x1) := by
  unfold execData
  extract_lets +onlyGivenNames a1
  refine Keeps.next ?_
  split
  · exact h
  · split
    · extract_lets +onlyGivenNames a2
      extract_lets +onlyGivenNames a3
      extract_lets +onlyGivenNames a4
      have ka4 : Keeps s0 a4 := by
        unfold a4
        refine Keeps.upd ?_
        exact h
      split
      · refine State.send_keeps ?_
        refine State.setRecover_keeps ?_
        exact ka4
      · refine State.setRecover_keeps ?_
        exact ka4
    · split
      · refine State.send_keeps ?_
        exact h
      · exact h

theorem State.programImage_keeps {s0 : State} {x0 : State} (h : Keeps s0 x0) :
    Keeps s0 (State.programImage x0).1 := by
  unfold State.programImage
  extract_lets +onlyGivenNames a1
  extract_lets +onlyGivenNames a2
  have ka2 : Keeps s0 a2 := by
    unfold a2
    refine State.erase_keeps ?_
    exact h
  split
  · split
    refine Keeps.fst ?_
    refine State.program_keeps ?_
    refine Keeps.of2 ‹_› ?_
    refine State.draw_keeps ?_
    exact ka2
  · refine Keeps.fst ?_
    refine State.program_keeps ?_
    exact ka2

theorem execDone_keeps {s0 : State} {x0 : RecFrame} {x1 : State} (h : Keeps s0 x1) :
    KeepsO s0 (execDone x0 x1) := by
  unfold execDone
  extract_lets +onlyGivenNames a1
  refine Keeps.next ?_
  split
  · exact h
  · extract_lets +onlyGivenNames a2
    extract_lets +onlyGivenNames a3
    have ka3 : Keeps s0 a3 := by
      unfold a3
      refine State.send_keeps ?_
      exact h
    split
    · refine State.setRecover_keeps ?_
      exact ka3
    · split
      extract_lets +onlyGivenNames a4
      have ka4 : Keeps s0 a4 := by
        unfold a4
        split
        · refine Keeps.of1 ‹_› ?_
          split
          · refine State.programImage_keeps ?_
            exact ka3
          · with_reducible assumption
        · refine State.send_keeps ?_
          refine Keeps.of1 ‹_› ?_
          split
          · refine State.programImage_keeps ?_
            exact ka3
          · with_reducible assumption
      extract_lets +onlyGivenNames a5
      have ka5 : Keeps s0 a5 := by
        unfold a5
        refine State.imageTaken_keeps ?_
        refine State.setJbits_keeps ?_
        exact ka4
      refine State.bootRest_keeps ?_
      extract_lets +onlyGivenNames a6
      have ka6 : Keeps s0 a6 := by
        unfold a6
        refine State.stepDone_keeps ?_
        exact ka5
      refine Keeps.upd ?_
      exact ka6

theorem execJtagDbgAuth_keeps {s0 : State} {x0 : AuthOp} {x1 : State} (h : Keeps s0 x1) :
    KeepsO s0 (execJtagDbgAuth x0 x1) := by
  unfold execJtagDbgAuth
  refine Keeps.next ?_
  split
  · exact h
  · split
    · extract_lets +onlyGivenNames a1
      have ka1 : Keeps s0 a1 := by
        unfold a1
        refine State.relock_keeps ?_
        exact h
      refine Keeps.upd ?_
      exact ka1
    · split
      · refine Keeps.upd ?_
        exact h
      · split
        refine Keeps.upd ?_
        refine Keeps.of2 ‹_› ?_
        refine State.newChallenge_keeps ?_
        exact h
    · split
      · refine Keeps.upd ?_
        exact h
      · split
        refine Keeps.upd ?_
        refine Keeps.of1 ‹_› ?_
        refine State.unlock_keeps ?_
        exact h

theorem State.debugRequest_keeps {s0 : State} {x0 : State} {x1 : Nat} {x2 : AccKind} {x3 : HReq} (h : Keeps s0 x0) :
    Keeps s0 (State.debugRequest x0 x1 x2 x3) := by
  unfold State.debugRequest
  split
  · refine State.request1_keeps ?_
    exact h
  · refine State.accessUnpopulated_keeps ?_
    exact h

theorem execJtagFabric_keeps {s0 : State} {x0 : FabricOp} {x1 : State} (h : Keeps s0 x1) :
    KeepsO s0 (execJtagFabric x0 x1) := by
  unfold execJtagFabric
  refine Keeps.next ?_
  split
  · split
    · exact h
    · refine State.debugRequest_keeps ?_
      exact h
  · split
    · exact h
    · refine State.debugRequest_keeps ?_
      exact h
  · split
    · exact h
    · refine State.debugRequest_keeps ?_
      exact h

theorem execJtagStackRead_keeps {s0 : State} {x0 : Fin 512} {x1 : Nat} {x2 : State} (h : Keeps s0 x2) :
    KeepsO s0 (execJtagStackRead x0 x1 x2) := by
  unfold execJtagStackRead
  extract_lets +onlyGivenNames a1
  refine Keeps.next ?_
  split
  · exact h
  · split
    · refine Keeps.upd ?_
      exact h
    · extract_lets +onlyGivenNames a2
      refine Keeps.upd ?_
      exact h

theorem State.millpondWord_keeps {s0 : State} {x0 : State} {x1 : Nat} {x2 : Nat} (h : Keeps s0 x0) :
    Keeps s0 (State.millpondWord x0 x1 x2) := by
  unfold State.millpondWord
  extract_lets +onlyGivenNames a1
  split
  extract_lets +onlyGivenNames a2
  extract_lets +onlyGivenNames a3
  extract_lets +onlyGivenNames a4
  refine Keeps.upd ?_
  refine Keeps.of2 ‹_› ?_
  refine State.draw_keeps ?_
  exact h

theorem State.spillwayWord_keeps {s0 : State} {x0 : State} {x1 : Nat} {x2 : Nat} {x3 : Nat} (h : Keeps s0 x0) :
    Keeps s0 (State.spillwayWord x0 x1 x2 x3) := by
  unfold State.spillwayWord
  split
  refine Keeps.upd ?_
  refine Keeps.of2 ‹_› ?_
  refine State.draw_keeps ?_
  exact h

theorem State.ijtagRefuse_keeps {s0 : State} {x0 : State} {x1 : Nat} (h : Keeps s0 x0) :
    Keeps s0 (State.ijtagRefuse x0 x1) := by
  unfold State.ijtagRefuse
  extract_lets +onlyGivenNames a1
  have ka1 : Keeps s0 a1 := by
    unfold a1
    refine State.mmioRefuse_keeps ?_
    exact h
  refine Keeps.upd ?_
  exact ka1

theorem State.ijtagSlot_keeps {s0 : State} {x0 : State} {x1 : Slotted} {x2 : Nat} (h : Keeps s0 x0) :
    Keeps s0 (State.ijtagSlot x0 x1 x2) := by
  unfold State.ijtagSlot
  split
  · refine State.accessUnpopulated_keeps ?_
    exact h
  · refine State.ijtagRefuse_keeps ?_
    exact h
  · split
    · refine State.ijtagRefuse_keeps ?_
      exact h
    · refine Keeps.upd ?_
      exact h
  · split
    · refine State.ijtagRefuse_keeps ?_
      exact h
    · refine Keeps.upd ?_
      exact h
  · split
    · refine State.ijtagRefuse_keeps ?_
      exact h
    · refine Keeps.upd ?_
      exact h
  · split
    · refine State.ijtagRefuse_keeps ?_
      exact h
    · split
      · refine State.readWord_keeps ?_
        exact h
      · split
        refine Keeps.upd ?_
        refine Keeps.of2 ‹_› ?_
        refine State.readReg_keeps ?_
        exact h

theorem State.ijtagRead_keeps {s0 : State} {x0 : State} {x1 : Nat} (h : Keeps s0 x0) :
    Keeps s0 (State.ijtagRead x0 x1) := by
  unfold State.ijtagRead
  refine State.ijtagSlot_keeps ?_
  exact h

theorem State.captureShown_keeps {s0 : State} {x0 : State} {x1 : Nat} (h : Keeps s0 x0) :
    Keeps s0 (State.captureShown x0 x1) := by
  unfold State.captureShown
  extract_lets +onlyGivenNames a1
  split
  · exact h
  · refine Keeps.upd ?_
    exact h

theorem execIjtagAccess_keeps {s0 : State} {x0 : Ijtag} {x1 : State} (h : Keeps s0 x1) :
    KeepsO s0 (execIjtagAccess x0 x1) := by
  unfold execIjtagAccess
  extract_lets +onlyGivenNames a1
  have ka1 : ∀ (t : State), Keeps s0 t → Keeps s0 (a1 t) := by
    intro b1 b2
    unfold a1
    split
    · exact h
    · exact b2
  extract_lets +onlyGivenNames a2
  have ka2 : ∀ (t : State), Keeps s0 t → Keeps s0 (a2 t) := by
    intro b1 b2
    unfold a2
    split
    · exact h
    · exact b2
  extract_lets +onlyGivenNames a3
  have ka3 : ∀ (x : Nat × State), Keeps s0 x.snd → Keeps s0 (a3 x) := by
    intro b1 b2
    unfold a3
    extract_lets +onlyGivenNames a4
    have ka4 : Keeps s0 a4 := by
      unfold a4
      exact b2
    refine Keeps.upd ?_
    exact ka4
  refine Keeps.next ?_
  split
  · refine ka1 ?_ ?_
    refine State.ijtagRead_keeps ?_
    exact h
  · refine ka2 ?_ ?_
    refine State.windowWrite_keeps ?_
    exact h
  · refine ka2 ?_ ?_
    split
    · exact h
    · refine State.startFreeze_keeps ?_
      exact h
  · refine ka2 ?_ ?_
    split
    · refine State.releaseFreeze_keeps ?_
      exact h
    · exact h
  · refine ka1 ?_ ?_
    refine ka3 ?_ ?_
    refine State.readReg_keeps ?_
    exact h
  · refine ka1 ?_ ?_
    split
    · refine State.millpondWord_keeps ?_
      exact h
    · exact h
  · refine ka1 ?_ ?_
    split
    · refine State.spillwayWord_keeps ?_
      exact h
    · exact h
  · refine ka2 ?_ ?_
    refine State.mbistWrite_keeps ?_
    exact h
  · refine ka1 ?_ ?_
    refine ka3 ?_ ?_
    refine State.readReg_keeps ?_
    exact h
  · refine ka2 ?_ ?_
    refine State.repWrite_keeps ?_
    exact h
  · refine ka2 ?_ ?_
    refine State.laneMapWrite_keeps ?_
    exact h
  · refine ka1 ?_ ?_
    refine ka3 ?_ ?_
    refine State.readReg_keeps ?_
    exact h
  · refine ka1 ?_ ?_
    refine ka3 ?_ ?_
    refine State.readReg_keeps ?_
    exact h
  · refine ka1 ?_ ?_
    refine ka3 ?_ ?_
    with_reducible assumption
  · refine ka1 ?_ ?_
    refine State.captureShown_keeps ?_
    exact h
  · refine ka1 ?_ ?_
    refine Keeps.upd ?_
    exact h

theorem execJtagExtest_keeps {s0 : State} {x0 : Nat} {x1 : State} (h : Keeps s0 x1) :
    KeepsO s0 (execJtagExtest x0 x1) := by
  unfold execJtagExtest
  extract_lets +onlyGivenNames a1
  refine Keeps.next ?_
  split
  · refine Keeps.upd ?_
    exact h
  · exact h

theorem State.takePacket_keeps {s0 : State} {x0 : State} {x1 : Nat} {x2 : Nat} {x3 : Nat} (h : Keeps s0 x0) :
    Keeps s0 (State.takePacket x0 x1 x2 x3) := by
  unfold State.takePacket
  extract_lets +onlyGivenNames a1
  extract_lets +onlyGivenNames a2
  extract_lets +onlyGivenNames a3
  have ka3 : Keeps s0 a3 := by
    unfold a3
    refine State.setQState_keeps ?_
    refine State.setQueue_keeps ?_
    exact h
  extract_lets +onlyGivenNames a4
  have ka4 : Keeps s0 a4 := by
    unfold a4
    refine Keeps.upd ?_
    exact ka3
  split
  · refine Keeps.upd ?_
    exact ka4
  · exact ka4

theorem execPacketFetch_keeps {s0 : State} {x0 : Fin 256} {x1 : State} (h : Keeps s0 x1) :
    KeepsO s0 (execPacketFetch x0 x1) := by
  unfold execPacketFetch
  refine Keeps.next ?_
  split
  · exact h
  · extract_lets +onlyGivenNames a1
    have ka1 : Keeps s0 a1 := by
      unfold a1
      refine State.hubReads_keeps ?_
      exact h
    split
    · refine State.takePacket_keeps ?_
      exact ka1
    · refine State.setQState_keeps ?_
      refine State.setQueue_keeps ?_
      exact ka1

theorem State.sealTimeout_keeps {s0 : State} {x0 : State} {x1 : Nat} (h : Keeps s0 x0) :
    Keeps s0 (State.sealTimeout x0 x1) := by
  unfold State.sealTimeout
  extract_lets +onlyGivenNames a1
  extract_lets +onlyGivenNames a2
  refine State.haltQueue_keeps ?_
  refine State.writeReply_keeps ?_
  exact h

theorem execSealReread_keeps {s0 : State} {x0 : Fin 256} {x1 : State} (h : Keeps s0 x1) :
    KeepsO s0 (execSealReread x0 x1) := by
  unfold execSealReread
  refine Keeps.next ?_
  split
  · exact h
  · extract_lets +onlyGivenNames a1
    have ka1 : Keeps s0 a1 := by
      unfold a1
      refine State.hubReads_keeps ?_
      exact h
    split
    · refine State.takePacket_keeps ?_
      exact ka1
    · extract_lets +onlyGivenNames a2
      extract_lets +onlyGivenNames a3
      have ka3 : Keeps s0 a3 := by
        unfold a3
        refine State.setQueue_keeps ?_
        exact ka1
      split
      · refine State.sealTimeout_keeps ?_
        exact ka3
      · exact ka3

theorem State.claimSlots_keeps {s0 : State} {x0 : State} {x1 : Cmd} (h : Keeps s0 x0) :
    Keeps s0 (State.claimSlots x0 x1) := by
  unfold State.claimSlots
  extract_lets +onlyGivenNames a1
  split
  · exact h
  · refine State.setQueue_keeps ?_
    exact h

theorem State.beginMat_keeps {s0 : State} {x0 : State} {x1 : Cmd} {x2 : MatWork} (h : Keeps s0 x0) :
    Keeps s0 (State.beginMat x0 x1 x2) := by
  unfold State.beginMat
  extract_lets refs s
  have hs : Keeps s0 s := State.modCmd_keeps h
  split
  · exact hs
  · exact State.readMask_keeps hs (fun k => k)

theorem State.issueMat_keeps {s0 : State} {x0 : State} {x1 : Cmd} (h : Keeps s0 x0) :
    Keeps s0 (State.issueMat x0 x1) := by
  unfold State.issueMat
  split
  · split
    · exact State.finish_keeps h
    · exact State.beginMat_keeps (State.claimSlots_keeps h)
  · exact State.beginMat_keeps h

theorem State.issueWork_keeps {s0 : State} {x0 : State} {x1 : Cmd} (h : Keeps s0 x0) :
    Keeps s0 (State.issueWork x0 x1) := by
  unfold State.issueWork
  extract_lets r region cl s
  have hs : Keeps s0 s := State.phaseCmd_keeps h
  split
  · exact State.issueMat_keeps h
  split
  · split
    · exact State.attnPin_keeps hs (fun k => k)
    · exact hs
  split
  · exact State.kvIssue_keeps (State.phaseCmd_keeps h)
  split
  · exact State.updIssue_keeps h
  split
  · exact hs.upd
  split
  · split
    · exact State.modCmd_keeps h
    · exact State.finish_keeps h
  · exact State.phaseCmd_keeps h

theorem State.issue_keeps {s0 : State} {x0 : State} {x1 : Cmd} (h : Keeps s0 x0) :
    Keeps s0 (State.issue x0 x1) := by
  unfold State.issue
  extract_lets +onlyGivenNames a1
  have ka1 : Keeps s0 a1 := by
    unfold a1
    refine State.traceAs_keeps ?_
    exact h
  extract_lets +onlyGivenNames a2
  have ka2 : Keeps s0 a2 := by
    unfold a2
    refine State.fetchSpans_keeps ?_
    exact ka1
  split
  · refine State.finish_keeps ?_
    exact ka2
  · extract_lets +onlyGivenNames a3
    extract_lets +onlyGivenNames a4
    extract_lets +onlyGivenNames a5
    have ka5 : Keeps s0 a5 := by
      unfold a5
      refine State.modCmd_keeps ?_
      exact ka2
    refine State.issueWork_keeps ?_
    exact ka5

theorem execCommandIssue_keeps {s0 : State} {x0 : Fin 256} {x1 : State} (h : Keeps s0 x1) :
    KeepsO s0 (execCommandIssue x0 x1) := by
  unfold execCommandIssue
  refine Keeps.next ?_
  split
  · exact h
  · split
    · exact h
    · refine State.issue_keeps ?_
      exact h

end Sys2Proof.Machine
end

