-- ==== Sys2Proof/WellFormed.lean ====
section
/-! DEFINITION. Well-formed commands: what arrives at the block fits the wires and fields it arrives on. The meanings are total and
take what they need of wider values; statements about a whole field ask for a well-formed command. -/
namespace Sys2Proof

/-- A value fits in `n` bits. -/
def fits (n v : Nat) : Bool := decide (v < 2 ^ n)

/-- A command in flight: one of the 256 queues (R46) and a 32-bit index (R51). -/
def CmdRef.wf (r : CmdRef) : Bool := decide (r.q < 256) && fits 32 r.idx

/-- A physical address (R29). -/
def addrWf (pa : Nat) : Bool := fits 48 pa

/-- A 64-byte line of the address space. -/
def lineWf (l : Nat) : Bool := fits 42 l

/-- The headers of a frame received: 48-bit MAC address, 12-bit VID, 3-bit priority, 16-bit UDP port. -/
def RxHdr.wf (h : RxHdr) : Bool :=
  h.dst.all (fits 48) && h.tag.all (fun x => fits 12 x.1 && fits 3 x.2) && h.dport.all (fits 16)

/-- A collective frame: the widths of its header, at most 8,192 payload bytes (R372). -/
def CFrame.wf (f : CFrame) : Bool :=
  fits 8 f.typ && fits 3 f.vc && fits 32 f.gid && fits 16 f.src && fits 16 f.dst && fits 32 f.redId && fits 64 f.step && fits 32 f.seq
    && fits 32 f.index && decide (f.plen ≤ 8192) && fits (8 * f.plen) f.data && fits 4 f.major && f.rx.wf

/-- A RoCEv2 packet: 24-bit queue pair and PSN, the RETH fields and a payload of at most 4,096 bytes (R353, R358). -/
def RocePkt.wf (k : RocePkt) : Bool :=
  fits 24 k.qpn && fits 24 k.psn && fits 64 k.va && fits 32 k.rkey && fits 32 k.dlen && fits 32 k.imm && decide (k.len ≤ 4096)
    && fits (8 * k.len) k.data && k.rx.wf

/-- A frame of the recovery protocol (R442). -/
def RecFrame.wf (f : RecFrame) : Bool :=
  fits 8 f.version && fits 8 f.flags && fits 32 f.session && fits 32 f.offset && fits 16 f.len && fits (8 * f.len) f.data

/-- An operation of the test port's fabric access: a line, a mask of its 64 bytes, its 64 bytes (R489). -/
def FabricOp.wf : FabricOp → Bool
  | .readOnce l => lineWf l
  | .invWrite l d => lineWf l && fits 512 d
  | .mergeWrite l m d => lineWf l && fits 64 m && fits 512 d

/-- An operation of the test port's authentication: a response carries 385 bytes (log 35). -/
def AuthOp.wf : AuthOp → Bool
  | .response v => fits (8 * 385) v
  | .challenge | .relock => true

/-- An instrument access: an address, a 64-bit value (R490). -/
def Ijtag.wf : Ijtag → Bool
  | .regRead pa => addrWf pa
  | .regWrite pa v => addrWf pa && fits 64 v
  | .mbistStart v | .repCmd _ v | .laneMapWrite _ v => fits 64 v
  | .freeze | .freezeRelease | .freezeState | .millpond .. | .spillway .. | .mbistStatus | .laneMapRead _ | .repAvail _ | .remap .. | .captureRead _ => true
  | .mbistLog k => decide (k < 2 ^ 20)

/-- A command whose operands fit. -/
def Instr.wf : Instr → Bool
  | .registerWrite _ pa size v => addrWf pa && decide (1 ≤ size ∧ size ≤ 64) && fits (8 * size) v
  | .snapLowRead _ pa => addrWf pa
  | .unpopulatedAccess _ pa len _ => addrWf pa && decide (1 ≤ len)
  | .mmioReadFault _ pa size => addrWf pa && decide (1 ≤ size)
  | .dbTailWrite _ v => fits 64 v
  | .commandComplete r | .nop r | .fence r | .wait r | .waitPoll r | .signal r | .queryCaps r | .brake r | .move r | .convert r | .fill r
  | .gather r | .scatter r | .accWrite r | .matmul r | .matmulWgrad r | .conv r | .combine r | .eltwise r _ | .reduce r _ | .norm r _
  | .activate r _ | .activateGrad r _ | .tableLoad r | .attnFwd r _ | .attnBwd r _ | .kvAppend r _ | .pageCopy r | .pageFree r
  | .poolCfg r | .updAdamw r _ | .updSgdm r _ | .updSignm r _ | .epochWaitEnd r _ | .gradClear r | .commitStep r | .stepReconcile r _
  | .telemetryFlush r | .allreduce r | .reduceScatter r | .allgather r | .broadcast r | .permute r | .late r | .groupLoad r
  | .phaseSelect r | .sliceFetch r | .readyWordPoll r | .autoLate r | .maskDeadline r | .progressTimeout r | .collectiveRetransmit r _
  | .decode r | .tokenize r | .dictLoad r | .assemble r | .hopperTake r | .hoist r | .lower r | .pin r | .unpin r | .stream r
  | .queueSetup r | .quarantine r | .powerCap r | .portCtl r | .errorRingCfg r | .measureExtend r | .attest r | .certRead r
  | .debugUnlock r | .traceCfg r | .traceMark r | .counterSnap r | .counterSnapLatch r | .freeze r | .katRun r _
  | .noPortUpTimeout r => r.wf
  | .arrive _ f | .lateFrame _ f | .go _ f | .up _ f | .down _ f | .sideUp _ f | .sideDown _ f | .xfer _ f | .collectiveAck _ f
  | .fetchReq _ f | .fetchData _ f | .fetchNak _ f | .brakeFrame _ f | .abort _ f => f.wf
  | .roceSend _ k | .rdmaWrite _ k | .rdmaWriteImmediate _ k | .rdmaRead _ k | .readResponse _ k => k.wf
  | .roceAck _ qpn psn h => fits 24 qpn && fits 24 psn && h.wf
  | .roceNak _ qpn psn _ h => fits 24 qpn && fits 24 psn && h.wf
  | .roceAckTimeout _ qpn => fits 24 qpn
  | .cnpReceived _ qpn h => fits 24 qpn && h.wf
  | .offer f | .data f | .done f => f.wf
  | .poisonHold pa => addrWf pa
  | .readShared _ l _ | .evict _ l | .readOnce l _ _ | .homeAtomic l _ _ _ | .transactionAck l | .snpShared _ l | .snpUnique _ l
  | .snpOnce _ l | .snpInv _ l | .snoopTimeout _ l | .cboInval _ l => lineWf l
  | .writeBack _ l _ level => lineWf l && level < 4
  | .readUnique _ l m d _ _ | .upgrade _ l m d _ _ | .mergeWrite l m d _ _ => lineWf l && fits 64 m && fits 512 d
  | .invWrite l d _ _ _ => lineWf l && fits 512 d
  | .corePoisonedAccess _ _ pa => addrWf pa
  | .uvtopidWrite _ v _ => fits 64 v
  | .clHartStart _ _ vec => fits 48 vec
  | .netDbSend _ v | .netDbReceive _ v | .netTimeStepWrite _ v | .obsMarkWrite _ v | .obsProfSelWrite _ v | .updJrnlWrite _ _ v
  | .mbistStart _ v | .chStateWrite _ _ v | .chLaneMapWrite _ _ v | .clDvfsReq _ v => fits 64 v
  | .pmbusMfrPowerCap v => fits 16 v
  | .pmbusUnsupported code => fits 8 code
  | .arpRequest _ t s m h => fits 32 t && fits 32 s && fits 48 m && h.wf
  | .neighborSolicitation _ t s m h => fits 128 t && fits 128 s && fits 48 m && h.wf
  | .icmpEchoRequest _ f => fits 48 f.mac && fits 32 f.ident && fits (8 * f.len) f.data && f.rx.wf
  | .pfcFrame _ en qs h => fits 8 en && decide (qs.length = 8) && qs.all (fits 16) && h.wf
  | .unsupportedProtocolFrame _ h _ => h.wf
  | .ptpEventMessage _ n _ h => fits 16 n && h.wf
  | .jtagStackRead _ off => fits 32 off
  | .jtagDbgAuth k => k.wf
  | .jtagFabric k => k.wf
  | .ijtagAccess k => k.wf
  | .tenteringWindow .. | .burstSlot .. | .accWriteLine _ | .tileDispatch _ | .frameGrant _ | .kstepEnd _ _ | .tileDrain _ _
  | .preemption _ | .contextSaveComplete _ _ | .contextRestore _ | .sampleDone _ _ | .textDone _ _ | .hopCtlEnable | .hopCtlDisable
  | .swapComplete _ | .qCtlEnable _ | .qCtlDisable _ | .qCtlRestart _ | .packetFetch _ | .sealReread _ | .commandIssue _
  | .refreshDue .. | .refreshRateLower _ | .scrubRead _ | .stackThermalSample _ _ | .selfRefreshTimeout _ | .softRow .. | .hardRow ..
  | .hardRowProgramDone _ | .undoSoft .. | .laneCommit .. | .mbistDone _ _ | .holdRepairCheck _ _ | .rcHoldCtlRelease _ _
  | .agentAttach _ _ | .agentDetach _ _ | .detachComplete _ | .coreCycleCharge _ _ | .timerCompare _ | .clHartStop _ _
  | .hartStopAtWfi _ | .clCtlOffReq _ | .clCtlOnReq _ | .dvfsChangeDone _ | .portTrainingDone _ | .portLinkFault _ | .portFecFault _ _
  | .portAutoUpRetry _ | .serdesAdaptWindow .. | .pfcPauseExpiry _ _ | .pfcXoffRepeat .. | .ppsInEdge
  | .timeReplicaResync _ | .deviceStart _ | .recoveryAnnounce | .recoveryLinkTimeout | .vinLow _ | .inputSag _ | .overVoltage _
  | .pwrGoodLost | .holdupEnd | .powerLoss _ | .resetNAssert | .resetNDeassert | .refclkLoss | .refclkReturn | .droopStretch _
  | .droopRecover _ | .droopFatal _ | .junctionSample _ | .capEvaluation _ | .govDomOn _ _ | .govDomOff _ _ | .domainSwitchDone _
  | .pmbusClearFaults | .d2dLaneSubstitution _ _ | .linkWidthLoss _ | .partLost _ | .controllerFault _ | .fatalDeviceError _
  | .fatalReset | .secBootCtlRestart _ | .brakeTimeReached | .brakeCut | .obsBrakeRelease | .obsBrakeCancel | .obsFrzFreeze
  | .freezeCapture | .obsFrzRelease | .traceLineFlush _ | .jtagExtest _ | .ppsOutPulse
  | .modeMismatch _ | .brakePfcRepeat => true

/-- The command in flight that an operation acts on: what queue and index it names. -/
def Instr.ref : Instr → Option CmdRef
  | .commandComplete r | .nop r | .fence r | .wait r | .waitPoll r | .signal r | .queryCaps r | .brake r | .move r | .convert r |
  .fill r | .gather r | .scatter r | .accWrite r | .matmul r | .matmulWgrad r | .conv r | .combine r | .eltwise r _ | .reduce r _ |
  .norm r _ | .activate r _ | .activateGrad r _ | .tableLoad r | .attnFwd r _ | .attnBwd r _ | .kvAppend r _ | .pageCopy r |
  .pageFree r | .poolCfg r | .updAdamw r _ | .updSgdm r _ | .updSignm r _ | .epochWaitEnd r _ | .gradClear r | .commitStep r |
  .stepReconcile r _ | .telemetryFlush r | .allreduce r | .reduceScatter r | .allgather r | .broadcast r | .permute r | .late r |
  .groupLoad r | .phaseSelect r | .sliceFetch r | .readyWordPoll r | .autoLate r | .maskDeadline r | .progressTimeout r |
  .collectiveRetransmit r _ | .decode r | .tokenize r | .dictLoad r | .assemble r | .hopperTake r | .hoist r | .lower r | .pin r |
  .unpin r | .stream r | .queueSetup r | .quarantine r | .powerCap r | .portCtl r | .errorRingCfg r | .measureExtend r | .attest r |
  .certRead r | .debugUnlock r | .traceCfg r | .traceMark r | .counterSnap r | .counterSnapLatch r | .freeze r | .katRun r _ |
  .noPortUpTimeout r => some r
  | .registerWrite .. | .snapLowRead _ _ | .unpopulatedAccess .. | .dbTailWrite _ _ | .qCtlEnable _ | .qCtlDisable _ | .qCtlRestart _ |
  .packetFetch _ | .sealReread _ | .commandIssue _ | .accWriteLine _ | .tileDispatch _ | .frameGrant _ | .kstepEnd _ _ | .tileDrain _ _
  | .preemption _ | .contextSaveComplete _ _ | .contextRestore _ | .arrive _ _ | .lateFrame _ _ | .go _ _ | .up _ _ | .down _ _ |
  .sideUp _ _ | .sideDown _ _ | .xfer _ _ | .collectiveAck _ _ | .fetchReq _ _ | .fetchData _ _ | .fetchNak _ _ | .brakeFrame _ _ |
  .abort _ _ | .sampleDone _ _ | .textDone _ _ | .hopCtlEnable | .hopCtlDisable | .swapComplete _ | .burstSlot _ _ | .refreshDue .. |
  .refreshRateLower _ | .scrubRead _ | .tenteringWindow .. | .stackThermalSample _ _ | .selfRefreshTimeout _ | .softRow .. | .hardRow ..
  | .hardRowProgramDone _ | .undoSoft .. | .laneCommit .. | .chLaneMapWrite .. | .chStateWrite .. | .mbistStart _ _ | .mbistDone _ _ |
  .poisonHold _ | .holdRepairCheck _ _ | .rcHoldCtlRelease _ _ | .readShared .. | .readUnique .. | .upgrade .. | .evict _ _ |
  .writeBack .. | .readOnce .. | .invWrite .. | .mergeWrite .. | .homeAtomic .. | .transactionAck _ | .snpShared _ _ | .snpUnique _ _ |
  .snpOnce _ _ | .snpInv _ _ | .snoopTimeout _ _ | .agentAttach _ _ | .agentDetach _ _ | .detachComplete _ | .corePoisonedAccess .. |
  .cboInval _ _ | .uvtopidWrite .. | .coreCycleCharge _ _ | .timerCompare _ | .clHartStart .. | .clHartStop _ _ | .hartStopAtWfi _ |
  .clCtlOffReq _ | .clCtlOnReq _ | .clDvfsReq _ _ | .dvfsChangeDone _ | .portTrainingDone _ | .portLinkFault _ | .portFecFault _ _ |
  .portAutoUpRetry _ | .serdesAdaptWindow .. | .arpRequest .. | .neighborSolicitation .. | .icmpEchoRequest _ _ |
  .unsupportedProtocolFrame .. | .pfcFrame .. | .pfcPauseExpiry _ _ | .pfcXoffRepeat .. | .ptpEventMessage .. | .roceSend _ _ |
  .rdmaWrite _ _ | .rdmaWriteImmediate _ _ | .rdmaRead _ _ | .roceAck .. | .roceNak .. | .readResponse _ _ | .roceAckTimeout _ _ |
  .cnpReceived .. | .netDbSend _ _ | .netDbReceive _ _ | .ppsInEdge | .netTimeStepWrite _ _ | .timeReplicaResync _ | .deviceStart _ |
  .recoveryAnnounce | .recoveryLinkTimeout | .offer _ | .data _ | .done _ | .vinLow _ | .inputSag _ | .overVoltage _ | .pwrGoodLost |
  .holdupEnd | .powerLoss _ | .resetNAssert | .resetNDeassert | .refclkLoss | .refclkReturn | .droopStretch _ | .droopRecover _ |
  .droopFatal _ | .junctionSample _ | .capEvaluation _ | .govDomOn _ _ | .govDomOff _ _ | .domainSwitchDone _ | .pmbusClearFaults |
  .pmbusMfrPowerCap _ | .pmbusUnsupported _ | .d2dLaneSubstitution _ _ | .linkWidthLoss _ | .partLost _ | .controllerFault _ |
  .fatalDeviceError _ | .fatalReset | .secBootCtlRestart _ | .updJrnlWrite .. | .brakeTimeReached | .brakeCut | .obsBrakeRelease |
  .obsBrakeCancel | .obsFrzFreeze | .freezeCapture | .obsFrzRelease | .obsMarkWrite _ _ | .obsProfSelWrite _ _ | .traceLineFlush _ |
  .jtagDbgAuth _ | .jtagFabric _ | .jtagStackRead _ _ | .ijtagAccess _ | .jtagExtest _ | .mmioReadFault .. | .ppsOutPulse |
  .modeMismatch _ | .brakePfcRepeat => none

end Sys2Proof
end

