-- ==== Sys2Proof/Laws/PerInstr.lean ====
section
/-! SUPPORT. What well-formedness gives of every command: the command in flight it acts on is one of a queue of the device (R46) with a
32-bit index (R51). -/
namespace Sys2Proof.Laws.Refs

/-- A well-formed command names a queue and an index that exist. -/
def Statement (i : Instr) : Prop := i.wf = true → ∀ r, i.ref = some r → r.q < 256 ∧ r.idx < 2 ^ 32

theorem of_wf {r : CmdRef} (h : r.wf = true) : r.q < 256 ∧ r.idx < 2 ^ 32 := by
  simpa [CmdRef.wf, fits] using h

theorem registerWrite (x0 x1 x2 x3) : Statement (.registerWrite x0 x1 x2 x3) := fun _ _ e => by cases e
theorem snapLowRead (x0 x1) : Statement (.snapLowRead x0 x1) := fun _ _ e => by cases e
theorem unpopulatedAccess (x0 x1 x2 x3) : Statement (.unpopulatedAccess x0 x1 x2 x3) := fun _ _ e => by cases e
theorem dbTailWrite (x0 x1) : Statement (.dbTailWrite x0 x1) := fun _ _ e => by cases e
theorem qCtlEnable (x0) : Statement (.qCtlEnable x0) := fun _ _ e => by cases e
theorem qCtlDisable (x0) : Statement (.qCtlDisable x0) := fun _ _ e => by cases e
theorem qCtlRestart (x0) : Statement (.qCtlRestart x0) := fun _ _ e => by cases e
theorem packetFetch (x0) : Statement (.packetFetch x0) := fun _ _ e => by cases e
theorem sealReread (x0) : Statement (.sealReread x0) := fun _ _ e => by cases e
theorem commandIssue (x0) : Statement (.commandIssue x0) := fun _ _ e => by cases e
theorem commandComplete (x0) : Statement (.commandComplete x0) := fun h r e => by cases e; exact of_wf h
theorem nop (x0) : Statement (.nop x0) := fun h r e => by cases e; exact of_wf h
theorem fence (x0) : Statement (.fence x0) := fun h r e => by cases e; exact of_wf h
theorem wait (x0) : Statement (.wait x0) := fun h r e => by cases e; exact of_wf h
theorem waitPoll (x0) : Statement (.waitPoll x0) := fun h r e => by cases e; exact of_wf h
theorem signal (x0) : Statement (.signal x0) := fun h r e => by cases e; exact of_wf h
theorem queryCaps (x0) : Statement (.queryCaps x0) := fun h r e => by cases e; exact of_wf h
theorem brake (x0) : Statement (.brake x0) := fun h r e => by cases e; exact of_wf h
theorem move (x0) : Statement (.move x0) := fun h r e => by cases e; exact of_wf h
theorem convert (x0) : Statement (.convert x0) := fun h r e => by cases e; exact of_wf h
theorem fill (x0) : Statement (.fill x0) := fun h r e => by cases e; exact of_wf h
theorem gather (x0) : Statement (.gather x0) := fun h r e => by cases e; exact of_wf h
theorem scatter (x0) : Statement (.scatter x0) := fun h r e => by cases e; exact of_wf h
theorem accWrite (x0) : Statement (.accWrite x0) := fun h r e => by cases e; exact of_wf h
theorem accWriteLine (x0) : Statement (.accWriteLine x0) := fun _ _ e => by cases e
theorem matmul (x0) : Statement (.matmul x0) := fun h r e => by cases e; exact of_wf h
theorem matmulWgrad (x0) : Statement (.matmulWgrad x0) := fun h r e => by cases e; exact of_wf h
theorem conv (x0) : Statement (.conv x0) := fun h r e => by cases e; exact of_wf h
theorem tileDispatch (x0) : Statement (.tileDispatch x0) := fun _ _ e => by cases e
theorem frameGrant (x0) : Statement (.frameGrant x0) := fun _ _ e => by cases e
theorem kstepEnd (x0 x1) : Statement (.kstepEnd x0 x1) := fun _ _ e => by cases e
theorem tileDrain (x0 x1) : Statement (.tileDrain x0 x1) := fun _ _ e => by cases e
theorem preemption (x0) : Statement (.preemption x0) := fun _ _ e => by cases e
theorem contextSaveComplete (x0 x1) : Statement (.contextSaveComplete x0 x1) := fun _ _ e => by cases e
theorem contextRestore (x0) : Statement (.contextRestore x0) := fun _ _ e => by cases e
theorem combine (x0) : Statement (.combine x0) := fun h r e => by cases e; exact of_wf h
theorem eltwise (x0 x1) : Statement (.eltwise x0 x1) := fun h r e => by cases e; exact of_wf h
theorem reduce (x0 x1) : Statement (.reduce x0 x1) := fun h r e => by cases e; exact of_wf h
theorem norm (x0 x1) : Statement (.norm x0 x1) := fun h r e => by cases e; exact of_wf h
theorem activate (x0 x1) : Statement (.activate x0 x1) := fun h r e => by cases e; exact of_wf h
theorem activateGrad (x0 x1) : Statement (.activateGrad x0 x1) := fun h r e => by cases e; exact of_wf h
theorem tableLoad (x0) : Statement (.tableLoad x0) := fun h r e => by cases e; exact of_wf h
theorem attnFwd (x0 x1) : Statement (.attnFwd x0 x1) := fun h r e => by cases e; exact of_wf h
theorem attnBwd (x0 x1) : Statement (.attnBwd x0 x1) := fun h r e => by cases e; exact of_wf h
theorem kvAppend (x0 x1) : Statement (.kvAppend x0 x1) := fun h r e => by cases e; exact of_wf h
theorem pageCopy (x0) : Statement (.pageCopy x0) := fun h r e => by cases e; exact of_wf h
theorem pageFree (x0) : Statement (.pageFree x0) := fun h r e => by cases e; exact of_wf h
theorem poolCfg (x0) : Statement (.poolCfg x0) := fun h r e => by cases e; exact of_wf h
theorem updAdamw (x0 x1) : Statement (.updAdamw x0 x1) := fun h r e => by cases e; exact of_wf h
theorem updSgdm (x0 x1) : Statement (.updSgdm x0 x1) := fun h r e => by cases e; exact of_wf h
theorem updSignm (x0 x1) : Statement (.updSignm x0 x1) := fun h r e => by cases e; exact of_wf h
theorem epochWaitEnd (x0 x1) : Statement (.epochWaitEnd x0 x1) := fun h r e => by cases e; exact of_wf h
theorem gradClear (x0) : Statement (.gradClear x0) := fun h r e => by cases e; exact of_wf h
theorem commitStep (x0) : Statement (.commitStep x0) := fun h r e => by cases e; exact of_wf h
theorem stepReconcile (x0 x1) : Statement (.stepReconcile x0 x1) := fun h r e => by cases e; exact of_wf h
theorem telemetryFlush (x0) : Statement (.telemetryFlush x0) := fun h r e => by cases e; exact of_wf h
theorem allreduce (x0) : Statement (.allreduce x0) := fun h r e => by cases e; exact of_wf h
theorem reduceScatter (x0) : Statement (.reduceScatter x0) := fun h r e => by cases e; exact of_wf h
theorem allgather (x0) : Statement (.allgather x0) := fun h r e => by cases e; exact of_wf h
theorem broadcast (x0) : Statement (.broadcast x0) := fun h r e => by cases e; exact of_wf h
theorem permute (x0) : Statement (.permute x0) := fun h r e => by cases e; exact of_wf h
theorem late (x0) : Statement (.late x0) := fun h r e => by cases e; exact of_wf h
theorem groupLoad (x0) : Statement (.groupLoad x0) := fun h r e => by cases e; exact of_wf h
theorem phaseSelect (x0) : Statement (.phaseSelect x0) := fun h r e => by cases e; exact of_wf h
theorem sliceFetch (x0) : Statement (.sliceFetch x0) := fun h r e => by cases e; exact of_wf h
theorem readyWordPoll (x0) : Statement (.readyWordPoll x0) := fun h r e => by cases e; exact of_wf h
theorem autoLate (x0) : Statement (.autoLate x0) := fun h r e => by cases e; exact of_wf h
theorem maskDeadline (x0) : Statement (.maskDeadline x0) := fun h r e => by cases e; exact of_wf h
theorem progressTimeout (x0) : Statement (.progressTimeout x0) := fun h r e => by cases e; exact of_wf h
theorem collectiveRetransmit (x0 x1) : Statement (.collectiveRetransmit x0 x1) := fun h r e => by cases e; exact of_wf h
theorem arrive (x0 x1) : Statement (.arrive x0 x1) := fun _ _ e => by cases e
theorem lateFrame (x0 x1) : Statement (.lateFrame x0 x1) := fun _ _ e => by cases e
theorem go (x0 x1) : Statement (.go x0 x1) := fun _ _ e => by cases e
theorem up (x0 x1) : Statement (.up x0 x1) := fun _ _ e => by cases e
theorem down (x0 x1) : Statement (.down x0 x1) := fun _ _ e => by cases e
theorem sideUp (x0 x1) : Statement (.sideUp x0 x1) := fun _ _ e => by cases e
theorem sideDown (x0 x1) : Statement (.sideDown x0 x1) := fun _ _ e => by cases e
theorem xfer (x0 x1) : Statement (.xfer x0 x1) := fun _ _ e => by cases e
theorem collectiveAck (x0 x1) : Statement (.collectiveAck x0 x1) := fun _ _ e => by cases e
theorem fetchReq (x0 x1) : Statement (.fetchReq x0 x1) := fun _ _ e => by cases e
theorem fetchData (x0 x1) : Statement (.fetchData x0 x1) := fun _ _ e => by cases e
theorem fetchNak (x0 x1) : Statement (.fetchNak x0 x1) := fun _ _ e => by cases e
theorem brakeFrame (x0 x1) : Statement (.brakeFrame x0 x1) := fun _ _ e => by cases e
theorem abort (x0 x1) : Statement (.abort x0 x1) := fun _ _ e => by cases e
theorem decode (x0) : Statement (.decode x0) := fun h r e => by cases e; exact of_wf h
theorem tokenize (x0) : Statement (.tokenize x0) := fun h r e => by cases e; exact of_wf h
theorem dictLoad (x0) : Statement (.dictLoad x0) := fun h r e => by cases e; exact of_wf h
theorem assemble (x0) : Statement (.assemble x0) := fun h r e => by cases e; exact of_wf h
theorem sampleDone (x0 x1) : Statement (.sampleDone x0 x1) := fun _ _ e => by cases e
theorem textDone (x0 x1) : Statement (.textDone x0 x1) := fun _ _ e => by cases e
theorem hopperTake (x0) : Statement (.hopperTake x0) := fun h r e => by cases e; exact of_wf h
theorem hopCtlEnable : Statement (.hopCtlEnable) := fun _ _ e => by cases e
theorem hopCtlDisable : Statement (.hopCtlDisable) := fun _ _ e => by cases e
theorem hoist (x0) : Statement (.hoist x0) := fun h r e => by cases e; exact of_wf h
theorem lower (x0) : Statement (.lower x0) := fun h r e => by cases e; exact of_wf h
theorem pin (x0) : Statement (.pin x0) := fun h r e => by cases e; exact of_wf h
theorem unpin (x0) : Statement (.unpin x0) := fun h r e => by cases e; exact of_wf h
theorem stream (x0) : Statement (.stream x0) := fun h r e => by cases e; exact of_wf h
theorem swapComplete (x0) : Statement (.swapComplete x0) := fun _ _ e => by cases e
theorem queueSetup (x0) : Statement (.queueSetup x0) := fun h r e => by cases e; exact of_wf h
theorem quarantine (x0) : Statement (.quarantine x0) := fun h r e => by cases e; exact of_wf h
theorem powerCap (x0) : Statement (.powerCap x0) := fun h r e => by cases e; exact of_wf h
theorem portCtl (x0) : Statement (.portCtl x0) := fun h r e => by cases e; exact of_wf h
theorem errorRingCfg (x0) : Statement (.errorRingCfg x0) := fun h r e => by cases e; exact of_wf h
theorem measureExtend (x0) : Statement (.measureExtend x0) := fun h r e => by cases e; exact of_wf h
theorem attest (x0) : Statement (.attest x0) := fun h r e => by cases e; exact of_wf h
theorem certRead (x0) : Statement (.certRead x0) := fun h r e => by cases e; exact of_wf h
theorem debugUnlock (x0) : Statement (.debugUnlock x0) := fun h r e => by cases e; exact of_wf h
theorem traceCfg (x0) : Statement (.traceCfg x0) := fun h r e => by cases e; exact of_wf h
theorem traceMark (x0) : Statement (.traceMark x0) := fun h r e => by cases e; exact of_wf h
theorem counterSnap (x0) : Statement (.counterSnap x0) := fun h r e => by cases e; exact of_wf h
theorem counterSnapLatch (x0) : Statement (.counterSnapLatch x0) := fun h r e => by cases e; exact of_wf h
theorem freeze (x0) : Statement (.freeze x0) := fun h r e => by cases e; exact of_wf h
theorem katRun (x0 x1) : Statement (.katRun x0 x1) := fun h r e => by cases e; exact of_wf h
theorem burstSlot (x0 x1) : Statement (.burstSlot x0 x1) := fun _ _ e => by cases e
theorem refreshDue (x0 x1 x2) : Statement (.refreshDue x0 x1 x2) := fun _ _ e => by cases e
theorem refreshRateLower (x0) : Statement (.refreshRateLower x0) := fun _ _ e => by cases e
theorem scrubRead (x0) : Statement (.scrubRead x0) := fun _ _ e => by cases e
theorem tenteringWindow (x0 x1 x2) : Statement (.tenteringWindow x0 x1 x2) := fun _ _ e => by cases e
theorem stackThermalSample (x0 x1) : Statement (.stackThermalSample x0 x1) := fun _ _ e => by cases e
theorem selfRefreshTimeout (x0) : Statement (.selfRefreshTimeout x0) := fun _ _ e => by cases e
theorem softRow (x0 x1 x2 x3 x4 x5) : Statement (.softRow x0 x1 x2 x3 x4 x5) := fun _ _ e => by cases e
theorem hardRow (x0 x1 x2 x3 x4 x5) : Statement (.hardRow x0 x1 x2 x3 x4 x5) := fun _ _ e => by cases e
theorem hardRowProgramDone (x0) : Statement (.hardRowProgramDone x0) := fun _ _ e => by cases e
theorem undoSoft (x0 x1 x2 x3 x4 x5) : Statement (.undoSoft x0 x1 x2 x3 x4 x5) := fun _ _ e => by cases e
theorem laneCommit (x0 x1 x2) : Statement (.laneCommit x0 x1 x2) := fun _ _ e => by cases e
theorem chLaneMapWrite (x0 x1 x2) : Statement (.chLaneMapWrite x0 x1 x2) := fun _ _ e => by cases e
theorem chStateWrite (x0 x1 x2) : Statement (.chStateWrite x0 x1 x2) := fun _ _ e => by cases e
theorem mbistStart (x0 x1) : Statement (.mbistStart x0 x1) := fun _ _ e => by cases e
theorem mbistDone (x0 x1) : Statement (.mbistDone x0 x1) := fun _ _ e => by cases e
theorem poisonHold (x0) : Statement (.poisonHold x0) := fun _ _ e => by cases e
theorem holdRepairCheck (x0 x1) : Statement (.holdRepairCheck x0 x1) := fun _ _ e => by cases e
theorem rcHoldCtlRelease (x0 x1) : Statement (.rcHoldCtlRelease x0 x1) := fun _ _ e => by cases e
theorem readShared (x0 x1 x2) : Statement (.readShared x0 x1 x2) := fun _ _ e => by cases e
theorem readUnique (x0 x1 x2 x3 x4 x5) : Statement (.readUnique x0 x1 x2 x3 x4 x5) := fun _ _ e => by cases e
theorem upgrade (x0 x1 x2 x3 x4 x5) : Statement (.upgrade x0 x1 x2 x3 x4 x5) := fun _ _ e => by cases e
theorem evict (x0 x1) : Statement (.evict x0 x1) := fun _ _ e => by cases e
theorem writeBack (x0 x1 x2 x3) : Statement (.writeBack x0 x1 x2 x3) := fun _ _ e => by cases e
theorem readOnce (x0 x1) : Statement (.readOnce x0 x1) := fun _ _ e => by cases e
theorem invWrite (x0 x1 x2 x3) : Statement (.invWrite x0 x1 x2 x3) := fun _ _ e => by cases e
theorem mergeWrite (x0 x1 x2 x3) : Statement (.mergeWrite x0 x1 x2 x3) := fun _ _ e => by cases e
theorem homeAtomic (x0 x1 x2) : Statement (.homeAtomic x0 x1 x2) := fun _ _ e => by cases e
theorem transactionAck (x0) : Statement (.transactionAck x0) := fun _ _ e => by cases e
theorem snpShared (x0 x1) : Statement (.snpShared x0 x1) := fun _ _ e => by cases e
theorem snpUnique (x0 x1) : Statement (.snpUnique x0 x1) := fun _ _ e => by cases e
theorem snpOnce (x0 x1) : Statement (.snpOnce x0 x1) := fun _ _ e => by cases e
theorem snpInv (x0 x1) : Statement (.snpInv x0 x1) := fun _ _ e => by cases e
theorem snoopTimeout (x0 x1) : Statement (.snoopTimeout x0 x1) := fun _ _ e => by cases e
theorem agentAttach (x0 x1) : Statement (.agentAttach x0 x1) := fun _ _ e => by cases e
theorem agentDetach (x0 x1) : Statement (.agentDetach x0 x1) := fun _ _ e => by cases e
theorem detachComplete (x0) : Statement (.detachComplete x0) := fun _ _ e => by cases e
theorem corePoisonedAccess (x0 x1 x2) : Statement (.corePoisonedAccess x0 x1 x2) := fun _ _ e => by cases e
theorem cboInval (x0 x1) : Statement (.cboInval x0 x1) := fun _ _ e => by cases e
theorem uvtopidWrite (x0 x1 x2) : Statement (.uvtopidWrite x0 x1 x2) := fun _ _ e => by cases e
theorem coreCycleCharge (x0 x1) : Statement (.coreCycleCharge x0 x1) := fun _ _ e => by cases e
theorem timerCompare (x0) : Statement (.timerCompare x0) := fun _ _ e => by cases e
theorem clHartStart (x0 x1 x2) : Statement (.clHartStart x0 x1 x2) := fun _ _ e => by cases e
theorem clHartStop (x0 x1) : Statement (.clHartStop x0 x1) := fun _ _ e => by cases e
theorem hartStopAtWfi (x0) : Statement (.hartStopAtWfi x0) := fun _ _ e => by cases e
theorem clCtlOffReq (x0) : Statement (.clCtlOffReq x0) := fun _ _ e => by cases e
theorem clCtlOnReq (x0) : Statement (.clCtlOnReq x0) := fun _ _ e => by cases e
theorem clDvfsReq (x0 x1) : Statement (.clDvfsReq x0 x1) := fun _ _ e => by cases e
theorem dvfsChangeDone (x0) : Statement (.dvfsChangeDone x0) := fun _ _ e => by cases e
theorem portTrainingDone (x0) : Statement (.portTrainingDone x0) := fun _ _ e => by cases e
theorem portLinkFault (x0) : Statement (.portLinkFault x0) := fun _ _ e => by cases e
theorem portFecFault (x0 x1) : Statement (.portFecFault x0 x1) := fun _ _ e => by cases e
theorem portAutoUpRetry (x0) : Statement (.portAutoUpRetry x0) := fun _ _ e => by cases e
theorem serdesAdaptWindow (x0 x1) : Statement (.serdesAdaptWindow x0 x1) := fun _ _ e => by cases e
theorem arpRequest (x0 x1 x2 x3) : Statement (.arpRequest x0 x1 x2 x3) := fun _ _ e => by cases e
theorem neighborSolicitation (x0 x1 x2 x3) : Statement (.neighborSolicitation x0 x1 x2 x3) := fun _ _ e => by cases e
theorem icmpEchoRequest (x0 x1) : Statement (.icmpEchoRequest x0 x1) := fun _ _ e => by cases e
theorem unsupportedProtocolFrame (x0 x1 x2) : Statement (.unsupportedProtocolFrame x0 x1 x2) := fun _ _ e => by cases e
theorem pfcFrame (x0 x1 x2) : Statement (.pfcFrame x0 x1 x2) := fun _ _ e => by cases e
theorem pfcPauseExpiry (x0 x1) : Statement (.pfcPauseExpiry x0 x1) := fun _ _ e => by cases e
theorem pfcXoffRepeat (x0 x1 x2) : Statement (.pfcXoffRepeat x0 x1 x2) := fun _ _ e => by cases e
theorem ptpEventMessage (x0 x1) : Statement (.ptpEventMessage x0 x1) := fun _ _ e => by cases e
theorem roceSend (x0 x1) : Statement (.roceSend x0 x1) := fun _ _ e => by cases e
theorem rdmaWrite (x0 x1) : Statement (.rdmaWrite x0 x1) := fun _ _ e => by cases e
theorem rdmaWriteImmediate (x0 x1) : Statement (.rdmaWriteImmediate x0 x1) := fun _ _ e => by cases e
theorem rdmaRead (x0 x1) : Statement (.rdmaRead x0 x1) := fun _ _ e => by cases e
theorem roceAck (x0 x1 x2) : Statement (.roceAck x0 x1 x2) := fun _ _ e => by cases e
theorem roceNak (x0 x1 x2 x3) : Statement (.roceNak x0 x1 x2 x3) := fun _ _ e => by cases e
theorem readResponse (x0 x1) : Statement (.readResponse x0 x1) := fun _ _ e => by cases e
theorem roceAckTimeout (x0 x1) : Statement (.roceAckTimeout x0 x1) := fun _ _ e => by cases e
theorem cnpReceived (x0 x1) : Statement (.cnpReceived x0 x1) := fun _ _ e => by cases e
theorem netDbSend (x0 x1) : Statement (.netDbSend x0 x1) := fun _ _ e => by cases e
theorem netDbReceive (x0 x1) : Statement (.netDbReceive x0 x1) := fun _ _ e => by cases e
theorem ppsInEdge : Statement (.ppsInEdge) := fun _ _ e => by cases e
theorem netTimeStepWrite (x0 x1) : Statement (.netTimeStepWrite x0 x1) := fun _ _ e => by cases e
theorem timeReplicaResync (x0) : Statement (.timeReplicaResync x0) := fun _ _ e => by cases e
theorem deviceStart (x0) : Statement (.deviceStart x0) := fun _ _ e => by cases e
theorem recoveryAnnounce : Statement (.recoveryAnnounce) := fun _ _ e => by cases e
theorem recoveryLinkTimeout : Statement (.recoveryLinkTimeout) := fun _ _ e => by cases e
theorem offer (x0) : Statement (.offer x0) := fun _ _ e => by cases e
theorem data (x0) : Statement (.data x0) := fun _ _ e => by cases e
theorem done (x0) : Statement (.done x0) := fun _ _ e => by cases e
theorem vinLow (x0) : Statement (.vinLow x0) := fun _ _ e => by cases e
theorem inputSag (x0) : Statement (.inputSag x0) := fun _ _ e => by cases e
theorem overVoltage (x0) : Statement (.overVoltage x0) := fun _ _ e => by cases e
theorem pwrGoodLost : Statement (.pwrGoodLost) := fun _ _ e => by cases e
theorem holdupEnd : Statement (.holdupEnd) := fun _ _ e => by cases e
theorem powerLoss (x0) : Statement (.powerLoss x0) := fun _ _ e => by cases e
theorem resetNAssert : Statement (.resetNAssert) := fun _ _ e => by cases e
theorem resetNDeassert : Statement (.resetNDeassert) := fun _ _ e => by cases e
theorem refclkLoss : Statement (.refclkLoss) := fun _ _ e => by cases e
theorem refclkReturn : Statement (.refclkReturn) := fun _ _ e => by cases e
theorem droopStretch (x0) : Statement (.droopStretch x0) := fun _ _ e => by cases e
theorem droopRecover (x0) : Statement (.droopRecover x0) := fun _ _ e => by cases e
theorem droopFatal (x0) : Statement (.droopFatal x0) := fun _ _ e => by cases e
theorem junctionSample (x0) : Statement (.junctionSample x0) := fun _ _ e => by cases e
theorem capEvaluation (x0) : Statement (.capEvaluation x0) := fun _ _ e => by cases e
theorem govDomOn (x0 x1) : Statement (.govDomOn x0 x1) := fun _ _ e => by cases e
theorem govDomOff (x0 x1) : Statement (.govDomOff x0 x1) := fun _ _ e => by cases e
theorem domainSwitchDone (x0) : Statement (.domainSwitchDone x0) := fun _ _ e => by cases e
theorem pmbusClearFaults : Statement (.pmbusClearFaults) := fun _ _ e => by cases e
theorem pmbusMfrPowerCap (x0) : Statement (.pmbusMfrPowerCap x0) := fun _ _ e => by cases e
theorem pmbusUnsupported (x0) : Statement (.pmbusUnsupported x0) := fun _ _ e => by cases e
theorem d2dLaneSubstitution (x0 x1) : Statement (.d2dLaneSubstitution x0 x1) := fun _ _ e => by cases e
theorem linkWidthLoss (x0) : Statement (.linkWidthLoss x0) := fun _ _ e => by cases e
theorem partLost (x0) : Statement (.partLost x0) := fun _ _ e => by cases e
theorem controllerFault (x0) : Statement (.controllerFault x0) := fun _ _ e => by cases e
theorem fatalDeviceError (x0) : Statement (.fatalDeviceError x0) := fun _ _ e => by cases e
theorem fatalReset : Statement (.fatalReset) := fun _ _ e => by cases e
theorem secBootCtlRestart (x0) : Statement (.secBootCtlRestart x0) := fun _ _ e => by cases e
theorem updJrnlWrite (x0 x1 x2) : Statement (.updJrnlWrite x0 x1 x2) := fun _ _ e => by cases e
theorem brakeTimeReached : Statement (.brakeTimeReached) := fun _ _ e => by cases e
theorem brakeCut : Statement (.brakeCut) := fun _ _ e => by cases e
theorem obsBrakeRelease : Statement (.obsBrakeRelease) := fun _ _ e => by cases e
theorem obsBrakeCancel : Statement (.obsBrakeCancel) := fun _ _ e => by cases e
theorem obsFrzFreeze : Statement (.obsFrzFreeze) := fun _ _ e => by cases e
theorem freezeCapture : Statement (.freezeCapture) := fun _ _ e => by cases e
theorem obsFrzRelease : Statement (.obsFrzRelease) := fun _ _ e => by cases e
theorem obsMarkWrite (x0 x1) : Statement (.obsMarkWrite x0 x1) := fun _ _ e => by cases e
theorem obsProfSelWrite (x0 x1) : Statement (.obsProfSelWrite x0 x1) := fun _ _ e => by cases e
theorem traceLineFlush (x0) : Statement (.traceLineFlush x0) := fun _ _ e => by cases e
theorem jtagDbgAuth (x0) : Statement (.jtagDbgAuth x0) := fun _ _ e => by cases e
theorem jtagFabric (x0) : Statement (.jtagFabric x0) := fun _ _ e => by cases e
theorem jtagStackRead (x0 x1) : Statement (.jtagStackRead x0 x1) := fun _ _ e => by cases e
theorem ijtagAccess (x0) : Statement (.ijtagAccess x0) := fun _ _ e => by cases e
theorem jtagExtest (x0) : Statement (.jtagExtest x0) := fun _ _ e => by cases e
theorem mmioReadFault (x0 x1 x2) : Statement (.mmioReadFault x0 x1 x2) := fun _ _ e => by cases e
theorem ppsOutPulse : Statement (.ppsOutPulse) := fun _ _ e => by cases e
theorem modeMismatch (x0) : Statement (.modeMismatch x0) := fun _ _ e => by cases e
theorem noPortUpTimeout (x0) : Statement (.noPortUpTimeout x0) := fun h r e => by cases e; exact of_wf h
theorem brakePfcRepeat : Statement (.brakePfcRepeat) := fun _ _ e => by cases e

end Sys2Proof.Laws.Refs
end

