-- ==== Sys2Proof/Machine/Accuracy.lean ====
section
/-! DEFINITION. The accuracy that R165 states of the built-in tables. Config.tableImage, whose bytes the spec does not print, is a free
value (log 9); this is what the spec says of it, for a claim to assume. No meaning of a command rests on it. -/
namespace Sys2Proof.Machine

/-- The real number that a finite value stands for. -/
def Val.Means (v : Val) (r : ℝ) : Prop :=
  match v with
  | .fin neg m e => r = (if neg then -1 else 1) * (m : ℝ) * (2 : ℝ) ^ e
  | _ => False

/-- `a` agrees with `b` to a relative error below 2^-20, or to an absolute error below 2^-24 (R165). -/
def Agrees (a b : ℝ) : Prop := |a - b| < 2 ^ (-20 : ℤ) * |b| ∨ |a - b| < 2 ^ (-24 : ℤ)

/-- Within its range, from LO up to HI, a built-in table's segments agree with a function. -/
def TableAgrees (slot : Nat) (der : Bool) (f : ℝ → ℝ) : Prop :=
  let t := builtinTable slot der
  ∀ (x : Val) (r lo hi : ℝ), x.Means r → (tblF t 4).Means lo → (tblF t 8).Means hi → lo ≤ r → r < hi →
    ∃ y, (tblSeg t x).1.Means y ∧ Agrees y (f r)

/-- A function in the forward table of a slot, and its derivative in the other one. -/
def SlotAgrees (slot : Nat) (f : ℝ → ℝ) : Prop := TableAgrees slot false f ∧ TableAgrees slot true (deriv f)

/-- The built-in tables are as accurate as R165 says. Slot 4 holds 2 to the power f for both tables, since the exponential is its own
derivative, and slot 6 the reciprocal square root. -/
def TablesAccurate : Prop :=
  SlotAgrees 0 (fun x => x * ((ProbabilityTheory.gaussianReal 0 1) (Set.Iic x)).toReal)
    ∧ SlotAgrees 1 (fun x => x / (1 + Real.exp (-x)))
    ∧ SlotAgrees 2 Real.tanh
    ∧ SlotAgrees 3 (fun x => 1 / (1 + Real.exp (-x)))
    ∧ TableAgrees 4 false (fun x => (2 : ℝ) ^ x) ∧ TableAgrees 4 true (fun x => (2 : ℝ) ^ x)
    ∧ SlotAgrees 5 (fun x => Real.log (1 + Real.exp x))
    ∧ SlotAgrees 6 (fun x => 1 / Real.sqrt x)

end Sys2Proof.Machine
end

