-- ==== Sys2Proof/Tests/Slice0.lean ====
section
/-! SUPPORT. Tests: ill-formed commands are refused; the hypotheses of each statement are met by a concrete state, clause by clause; one
step of small examples worked out from the spec. -/
namespace Sys2Proof.Tests
set_option Elab.async false
open Sys2Proof Sys2Proof.Machine

/-! ## Helpers -/

def r0 : CmdRef := ⟨0, 0⟩

/-- A command of queue 0, issued: header version 1.0, opcode, LEN and a body. -/
def cm (op len : Nat) (body : Nat := 0) : Cmd := { ref := r0, pkt := put 1 1 1 + put 2 2 op + put 0xE 1 len + body, len := len, phase := .issued }

/-- The state after reset with one command in flight. -/
def st (c : Cmd) : State := { State.reset with cmds := [c] }

/-- No channel holds a scrub read: the finite check. -/
def scrubFree (s : State) : Bool := s.chans.all fun p => (s.chan p.1).queue.all fun q => !q.op.isScrub

theorem scrubs_iff (s : State) : (∀ g, ∀ q ∈ (s.chan g).queue, q.op.isScrub = false) ↔ scrubFree s = true := by
  simp only [scrubFree, List.all_eq_true, Bool.not_eq_true']
  refine ⟨fun h p _ q hq => h p.1 q hq, fun h g q hq => ?_⟩
  have key : ∀ t : Tab Chan, (∃ p ∈ t, p.1 = g) ∨ Tab.find t g = none := by
    intro t
    induction t with
    | nil => exact .inr rfl
    | cons p t ih =>
      by_cases e : g = p.1
      · exact .inl ⟨p, List.mem_cons_self, e.symm⟩
      · rcases ih with ⟨q, hq, hg⟩ | hn
        · exact .inl ⟨q, List.mem_cons_of_mem _ hq, hg⟩
        · exact .inr (by simp [Tab.find, e, hn])
  rcases key s.chans with ⟨p, hp, rfl⟩ | hn
  · exact h p hp q hq
  · simp [State.chan, Tab.get, hn] at hq

theorem plain_st (c : Cmd) : (st c).Plain := ⟨rfl, rfl, rfl, (scrubs_iff _).2 rfl⟩
theorem untraced_st (c : Cmd) : (st c).Untraced := fun _ _ => rfl
theorem quiet_st (c : Cmd) : (st c).Quiet := ⟨fun _ _ => rfl, fun _ _ => rfl⟩
theorem plain_reset : State.reset.Plain := ⟨rfl, rfl, rfl, (scrubs_iff _).2 rfl⟩
theorem untraced_reset : State.reset.Untraced := fun _ _ => rfl
theorem quiet_reset : State.reset.Quiet := ⟨fun _ _ => rfl, fun _ _ => rfl⟩

/-- A state whose trace rings and profiling counters are off: the finite check. -/
theorem untraced_of {s : State} (h : ((List.range 5).all fun r => s.fld F.OBS_TRC_BASE_MODE r == 0) = true) : s.Untraced := by
  simp only [List.all_eq_true, List.mem_range, beq_iff_eq] at h
  exact h

theorem quiet_of {s : State} (h : ((List.range 5).all fun r => s.fld F.OBS_TRC_BASE_MODE r == 0) = true)
    (k : ((List.range 80).all fun i => !s.flag F.OBS_PROF_SEL_EN i) = true) : s.Quiet := by
  simp only [List.all_eq_true, List.mem_range, Bool.not_eq_true'] at k
  exact ⟨untraced_of h, k⟩

/-! The predicates of the statements as checks that Lean evaluates. -/

def isPlain (s : State) : Bool := s.ecc.isEmpty && s.caches.isEmpty && s.homes.isEmpty && scrubFree s
def isUntraced (s : State) : Bool := (List.range 5).all fun r => s.fld F.OBS_TRC_BASE_MODE r == 0
def isQuiet (s : State) : Bool := isUntraced s && (List.range 80).all fun i => !s.flag F.OBS_PROF_SEL_EN i
def isReady (s : State) (r : CmdRef) (op : Nat) (c : Cmd) : Bool :=
  decide (s.cmd r = some c) && decide (c.opcode = op) && decide (c.phase = .issued) && !c.held && s.running && !s.stalled c &&
    !s.homeWaits c.operandSpans

theorem plain_iff (s : State) : s.Plain ↔ isPlain s = true := by
  simp only [isPlain, Bool.and_eq_true, List.isEmpty_iff, ← scrubs_iff]
  exact ⟨fun h => ⟨⟨⟨h.1, h.2⟩, h.3⟩, h.4⟩, fun h => ⟨h.1.1.1, h.1.1.2, h.1.2, h.2⟩⟩

theorem untraced_iff (s : State) : s.Untraced ↔ isUntraced s = true := by
  simp only [isUntraced, State.Untraced, List.all_eq_true, List.mem_range, beq_iff_eq]

theorem quiet_iff (s : State) : s.Quiet ↔ isQuiet s = true := by
  simp only [isQuiet, Bool.and_eq_true, List.all_eq_true, List.mem_range, Bool.not_eq_true', ← untraced_iff]
  exact ⟨fun h => ⟨h.1, h.2⟩, fun h => ⟨h.1, h.2⟩⟩

theorem ready_iff (s : State) (r : CmdRef) (op : Nat) (c : Cmd) : s.Ready r op c ↔ isReady s r op c = true := by
  simp only [isReady, Bool.and_eq_true, decide_eq_true_eq, Bool.not_eq_true']
  exact ⟨fun h => ⟨⟨⟨⟨⟨⟨h.1, h.2⟩, h.3⟩, h.4⟩, h.5⟩, h.6⟩, h.7⟩, fun h => ⟨h.1.1.1.1.1.1, h.1.1.1.1.1.2, h.1.1.1.1.2, h.1.1.1.2, h.1.1.2, h.1.2, h.2⟩⟩

theorem unit_iff (s : State) (r : CmdRef) (op : Nat) (c : Cmd) : s.UnitReady r op c ↔ isReady s r op c = true ∧ s.frozen = false ∧ s.turn c = true :=
  ⟨fun h => ⟨(ready_iff _ _ _ _).1 h.1, h.2, h.3⟩, fun h => ⟨(ready_iff _ _ _ _).2 h.1, h.2.1, h.2.2⟩⟩

def isApart (a b : Td) : Bool := a.rows.all fun p => b.rows.all fun q =>
  decide (a.rowAddr p.1 p.2.1 p.2.2 + a.rowLen ≤ b.rowAddr q.1 q.2.1 q.2.2 ∨ b.rowAddr q.1 q.2.1 q.2.2 + b.rowLen ≤ a.rowAddr p.1 p.2.1 p.2.2)
def isOutside (d : Td) (a : Nat) : Bool := d.rows.all fun q =>
  decide (a < d.rowAddr q.1 q.2.1 q.2.2 ∨ d.rowAddr q.1 q.2.1 q.2.2 + d.rowLen ≤ a)
def isRegular (d : Td) : Bool := decide (d.e 0 % d.fmt.blockLen = 0) && decide (d.e 0 * d.fmt.elemBits % 8 = 0) &&
  d.rows.all fun p => d.rows.all fun q => decide (p = q) ||
    decide (d.rowAddr p.1 p.2.1 p.2.2 + d.rowLen ≤ d.rowAddr q.1 q.2.1 q.2.2 ∨ d.rowAddr q.1 q.2.1 q.2.2 + d.rowLen ≤ d.rowAddr p.1 p.2.1 p.2.2)

theorem apart_iff (a b : Td) : a.Apart b ↔ isApart a b = true := by
  simp only [isApart, Td.Apart, List.all_eq_true, decide_eq_true_eq]

theorem outside_iff (d : Td) (a : Nat) : d.Outside a ↔ isOutside d a = true := by
  simp only [isOutside, Td.Outside, List.all_eq_true, decide_eq_true_eq]

theorem regular_iff (d : Td) : d.Regular ↔ isRegular d = true := by
  simp only [isRegular, Bool.and_eq_true, List.all_eq_true, decide_eq_true_eq, Bool.or_eq_true]
  exact ⟨fun h => ⟨⟨h.1, h.2⟩, fun p hp q hq => if e : p = q then .inl e else .inr (h.3 p hp q hq e)⟩,
    fun h => ⟨h.1.1, h.1.2, fun p hp q hq n => (h.2 p hp q hq).resolve_left n⟩⟩

theorem rowsReady_iff (s : State) (r : CmdRef) (d : Td) (idx : Nat) : s.RowsReady r d idx ↔ s.Plain ∧ s.Quiet ∧ d.Regular ∧
    (idx = 0xFFFF ∨ ∀ k, k < 4 → d.Outside (s.amaxWord (s.regionOf r.q) idx + k)) :=
  ⟨fun h => ⟨h.1, h.2, h.3, h.4⟩, fun h => ⟨h.1, h.2.1, h.2.2.1, h.2.2.2⟩⟩

/-- A frame that its port accepts; one that reaches the collective unit; a clear priority of a port. -/
def isAccepts (s : State) (p : Nat) (h : RxHdr) : Bool :=
  (h.dst.all fun m => s.macOk p m) && (h.tag.all fun x => decide (x.1 = 0 ∨ x.1 = s.fld F.NET_CFG_VID (netOf p))) && decide (h.len ≤ 9216) &&
    ((s.fld F.PORT_PFC_EN p).testBit (RxHdr.prio h) || !s.bufferFull p)
def isTakes (s : State) (p : Fin 4) (f : CFrame) : Bool :=
  s.takes p && isAccepts s p.val f.rx && decide (f.rx.dport = none ∨ f.rx.dport = some (s.fld F.CT_CFG_UDP_PORT 0)) && f.rx.sumOk
def isClear (s : State) (p prio : Nat) : Bool :=
  decide (Tab.get 0 (s.port p).pausedTill prio ≤ s.time) && (s.port p).waiting.all fun y => decide (y.hdr.pcp ≠ prio)

theorem accepts_iff (s : State) (p : Nat) (h : RxHdr) : s.Accepts p h ↔ isAccepts s p h = true := by
  simp only [isAccepts, Bool.and_eq_true, Option.all_eq_true, decide_eq_true_eq, Bool.or_eq_true, Bool.not_eq_true']
  exact ⟨fun h => ⟨⟨⟨h.1, fun x hx => h.2 x.1 x.2 hx⟩, h.3⟩, h.4⟩, fun h => ⟨h.1.1.1, fun v c hx => h.1.1.2 (v, c) hx, h.1.2, h.2⟩⟩

theorem takes_iff (s : State) (p : Fin 4) (f : CFrame) : s.TakesFrame p f ↔ isTakes s p f = true := by
  simp only [isTakes, Bool.and_eq_true, decide_eq_true_eq, ← accepts_iff]
  exact ⟨fun h => ⟨⟨⟨h.1, h.2⟩, h.3⟩, h.4⟩, fun h => ⟨h.1.1.1, h.1.1.2, h.1.2, h.2⟩⟩

theorem clear_iff (s : State) (p prio : Nat) : s.Clear p prio ↔ isClear s p prio = true := by
  simp only [isClear, Bool.and_eq_true, List.all_eq_true, decide_eq_true_eq]
  exact ⟨fun h => ⟨h.1, h.2⟩, fun h => ⟨h.1, h.2⟩⟩

/-- No stack is at grade 4: none is in protective self-refresh. -/
theorem awake_of {s : State} (h : ((List.range 32).all fun k => decide (s.fld F.STK_THERM_GRADE k < 4)) = true) : s.Awake := by
  intro spans
  simp only [List.all_eq_true, List.mem_range, decide_eq_true_eq] at h
  simp only [State.asleep, State.hotStack, Option.isSome_eq_false_iff, Option.isNone_iff_eq_none, List.find?_eq_none, List.mem_range]
  intro k hk
  have := h k hk
  simp; omega

/-- The premise of `awake_of` as a check. -/
def isAwake (s : State) : Bool := (List.range 32).all fun k => decide (s.fld F.STK_THERM_GRADE k < 4)

theorem awake_reset : State.reset.Awake := awake_of (by decide +kernel)

/-- No stack is at a grade that stops a network: none of its requests waits. -/
theorem cool_of {s : State} {n : Nat} (h : ((List.range 32).all fun k => decide (s.fld F.STK_THERM_GRADE k < 3)) = true) : ∀ spans, s.netWaits n spans = false := by
  intro spans
  simp only [List.all_eq_true, List.mem_range, decide_eq_true_eq] at h
  simp only [State.netWaits, State.hotStack, Option.isSome_eq_false_iff, Option.isNone_iff_eq_none, List.find?_eq_none, List.mem_range]
  intro k hk
  have := h k hk
  split <;> (simp; omega)

theorem roceReady_iff (s : State) (p q : Nat) (h : RxHdr) : s.RoceReady p q h ↔ s.portTakes p = true ∧ isAccepts s p h = true ∧
    ((h.dport = none ∨ h.dport = some 4791) ∧ h.sumOk = true) ∧
    (2 ≤ q ∧ q < s.fld F.NET_QPT_COUNT (netOf p) ∧ (s.qp (netOf p) q).st = 1) ∧ s.netWaits (netOf p) (s.qpSpans (netOf p) q) = false := by
  rw [← accepts_iff]
  exact ⟨fun h => ⟨h.1, h.2, h.3, h.4, h.5⟩, fun h => ⟨h.1, h.2.1, h.2.2.1, h.2.2.2.1, h.2.2.2.2⟩⟩

theorem inMemory_of {s : State} {pa : Nat} {x : Range} (h : rangeOf s.localGib pa = x) (n : ∀ q off, x ≠ .doorbell q off) : s.InMemory pa :=
  fun q off e => n q off (h.symm.trans e)

/-- A state with one command in flight. -/
def withCmd (s : State) (c : Cmd) : State := { s with cmds := [c] }

/-- The state after reset with one field of a register at a value. -/
abbrev rst (f : Fld) (i v : Nat) : State := State.reset.setFld f i v

/-- The state after reset with queue 0 bound to region 0. -/
def q0 : State := rst F.Q_CFG_REGION 0 0


/-! ## Witnesses: the step, memory, registers, queues -/

/-- Queue 0 in a state with TAIL. -/
def qs (state tail : Nat) : State := (State.reset.setFld F.Q_STATE_STATE 0 state).setFld F.Q_TAIL_TAIL 0 tail

/-- An idle canonical state steps to a next state; a plain state for a memory write. -/
theorem witness_EveryStepKeepsCanonicalForm : (∃ t, step State.reset = .next t) ∧ State.reset.Canonical := ⟨⟨_, rfl⟩, ⟨rfl, rfl⟩⟩
theorem witness_MemoryWriteIsReadBack : State.reset.Plain := plain_reset
theorem witness_IdleTimePassesAndStopsAreRare : State.reset.pending = [] ∧ State.reset.pwr.timeFrac < 2 ^ 32 ∧ State.reset.pwr.refclk = true ∧
    signed (State.reset.fld F.NET_TIME_ADJ_FREQ 0) 32 = 0 ∧ ({ State.reset with pwr := { refclk := false } } : State).pwr.refclk = false ∧
    (Instr.overVoltage 48001 = .overVoltage 48001 ∧ 48000 < 48001) ∧ ∀ mv, Instr.overVoltage 48000 = .overVoltage mv → mv ≤ 48000 :=
  ⟨rfl, by decide, rfl, by decide +kernel, rfl, ⟨rfl, by decide⟩, fun _ h => by cases h; decide⟩

theorem witness_RegisterWriteFollowsAccessCodes : (47, 12, Acc.rw) ∈ Reg.Q_RING_BASE.layout ∧ (0, 0, Acc.w1c) ∈ Reg.AMR_FAULT_STATUS.layout ∧
    (∀ hi lo a, (hi, lo, a) ∈ Reg.Q_RING_BASE.layout → lo ≤ 48 → 48 ≤ hi → a ≠ .rw ∧ a ≠ .w1c) := by
  refine ⟨by decide, by decide, ?_⟩
  intro hi lo a h _ _
  simp [Reg.layout] at h
  omega

theorem witness_DoorbellsMoveTailAndCommandsIssue_doorbell : (qs 0 0).qState 0 = 0 ∧ (qs 3 0).qState 0 = 3 ∧
    ((qs 1 5).qState 0 = 1 ∧ sub32 5 ((qs 1 5).qTail 0) = 0) ∧ sub32 (5 + 2 ^ 31) ((qs 1 5).qTail 0) = 2 ^ 31 ∧
    (sub32 65 ((qs 2 0).qTail 0) = 65 ∧ 2 ^ (qs 2 0).qLog 0 < sub32 65 ((qs 2 0).qHead 0)) ∧
    (sub32 64 ((qs 1 0).qTail 0) = 64 ∧ sub32 64 ((qs 1 0).qHead 0) ≤ 2 ^ (qs 1 0).qLog 0) := by decide +kernel

/-- Queue 0 with its ring at the top of the interleaved range. -/
def ringTop : State := State.reset.setFld F.Q_RING_BASE_BASE 0 (ilvTop 0 / 4096 - 1)

theorem witness_QueuesEnableDrainAndLoad : (qs 1 0).qState 0 ≠ 0 ∧ State.reset.qState 0 = 0 ∧
    (State.reset.ringBase 0 + 64 * 2 ^ State.reset.qLog 0 ≤ ilvTop State.reset.localGib ∧
      State.reset.stsBase 0 + (32 * 2 ^ State.reset.qLog 0 + 8) ≤ ilvTop State.reset.localGib ∧ State.reset.fld F.Q_CFG_CTX_SLOTS 0 = 0) ∧
    (ringTop.qState 0 = 0 ∧ ringTop.ringBase 0 + 64 * 2 ^ ringTop.qLog 0 ≤ ilvTop ringTop.localGib ∧
      ¬ ((ringTop.setFld F.Q_CFG_SIZE_LOG2 0 7).ringBase 0 + 64 * 2 ^ (ringTop.setFld F.Q_CFG_SIZE_LOG2 0 7).qLog 0 ≤ ilvTop ringTop.localGib)) := by
  decide +kernel

theorem witness_QueuesEnableDrainAndLoad_disable : (qs 0 0).qState 0 = 0 ∧ ((qs 5 0).qState 0 = 5 ∧ (qs 5 0).queueCmds 0 = []) ∧
    ({ qs 1 0 with cmds := [cm 0 1] }.qState 0 = 1 ∧ ∃ c ∈ { qs 1 0 with cmds := [cm 0 1] }.queueCmds 0, c.phase = .issued) ∧
    (qs 6 0).qState 0 ≠ 5 := by decide +kernel

/-- A sealed NOP with SEQ 0 (R58, R59). -/
def nopPacket : Nat := let p := put 1 1 1 + put 0xE 1 1; p + put 60 4 (crc32c p 60)

/-- Queue 0 running, with a sealed NOP in slot 0 of its ring and TAIL 1. -/
def fetchable (state : Nat) : State := (qs state 1).putRaw 0 nopPacket 64

theorem witness_PacketsAreFetchedUnderTheirSeal : (fetchable 1).fetches 0 = true ∧ (fetchable 1).qState 0 = 1 ∧ (fetchable 1).qTail 0 ≠ ((fetchable 1).queue 0).fetch ∧
    (fetchable 1).sealed 0 = some (nopPacket, 1) ∧ (qs 1 1).sealed 0 = none ∧ (qs 1 1).fetches 0 = true ∧
    (qs 1 1).qTail 0 ≠ ((qs 1 1).queue 0).fetch ∧
    ∀ s ∈ [fetchable 1, qs 1 1], s.asleep (s.packetSpans 0) = false ∧ ((s.hubReads (s.packetSpans 0)).sealed 0 = none ↔ s.sealed 0 = none) ∧
      (s.setFld F.STK_THERM_GRADE 0 4).asleep (s.packetSpans 0) = true := by decide +kernel

theorem witness_PacketsAreFetchedUnderTheirSeal_reread : (fetchable 2).Plain ∧ (fetchable 2).fetches 0 = true ∧ (fetchable 2).qState 0 = 2 ∧
    (fetchable 2).sealed 0 = some (nopPacket, 1) ∧
    (∀ s ∈ [fetchable 2, qs 2 1], s.asleep (s.packetSpans 0 ++ s.replySpans 0 (s.queue 0).fetch) = false ∧
      ((s.hubReads (s.packetSpans 0)).sealed 0 = none ↔ s.sealed 0 = none)) ∧
    ((qs 2 1).sealed 0 = none ∧ ((qs 2 1).queue 0).rereads + 1 < 64) ∧
    (let s := (qs 2 1).setQueue 0 { rereads := 63 }; s.Plain ∧ s.sealed 0 = none ∧ s.qState 0 = 2 ∧ 64 ≤ (s.queue 0).rereads + 1) :=
  ⟨(plain_iff _).2 (by decide +kernel), by decide +kernel, by decide +kernel, by decide +kernel, by decide +kernel, by decide +kernel,
    (plain_iff _).2 (by decide +kernel), by decide +kernel, by decide +kernel, by decide +kernel⟩

/-- A decoded command of a running queue. -/
def decoded (c : Cmd) : State := { qs 1 1 with cmds := [{ c with phase := .decoded }] }
def dnop : Cmd := { cm 0 1 with phase := .decoded }

theorem witness_DoorbellsMoveTailAndCommandsIssue : (decoded dnop).issueHead 0 = some dnop ∧ (decoded dnop).cmd dnop.ref = some dnop ∧ (decoded dnop).mayIssue dnop = true ∧
    (decoded dnop).epochBusy dnop = false ∧
    ((decoded dnop).traceAs unitCmdProc 0x100 dnop.layer dnop.operator (dnop.tracePayload dnop.opcode) false).issueFault dnop = none := by
  decide +kernel

/-- A scale entry that reads poison ends its command at issue. -/
theorem witness_DoorbellsMoveTailAndCommandsIssue_poison :
    let c : Cmd := { cm 0x1003 2 (put 0x40 8 0x2000 + put 0x48 1 0x1B) with phase := .decoded }
    let s : State := { (decoded c).setFld F.NTEL_SCALE_COUNT 0 1 with ecc := [(0, 2 ^ 576 - 1)] }
    let v := s.traceAs unitCmdProc 0x100 c.layer c.operator (c.tracePayload c.opcode) false
    let u := v.fetchSpans c.ref (v.issueSpans c)
    s.issueHead 0 = some c ∧ s.mayIssue c = true ∧ (u.firstBad (u.issueSpans c)).isSome = true := by
  decide +kernel

theorem witness_DoorbellsMoveTailAndCommandsIssue_barrier :
    let c : Cmd := { cm 1 1 with ref := ⟨0, 1⟩, phase := .decoded }
    let s : State := { qs 1 1 with cmds := [cm 0 1, c] }
    s.issueHead 0 = some c ∧ c.opcode = 1 ∧ ∃ e ∈ (s.queueCmds 0).takeWhile (fun x => x.ref ≠ c.ref), e.phase ≠ .completed := by
  decide +kernel

theorem witness_CompletionWritesReplyAndHead :
    let c : Cmd := { cm 0 1 with phase := .ended }
    let s : State := { qs 1 1 with cmds := [c] }
    (s.Plain ∧ s.cmd c.ref = some c ∧ s.running = true ∧ c.counts = [] ∧ s.flag F.OBS_ACCT_EN 0 = false ∧ s.fld F.OBS_TRC_BASE_MODE 4 = 0 ∧
      s.braking = false ∧ s.qState 0 = 1 ∧ s.queueCmds 0 = [c]) ∧ c.quiet = false ∧ s.asleep (s.replySpans 0 c.ref.idx) = false ∧
      (s.setFld F.STK_THERM_GRADE 0 4).asleep (s.replySpans 0 c.ref.idx) = true ∧
    (let d : Cmd := { c with ref := ⟨0, 1⟩ }; { qs 1 1 with cmds := [cm 0 1, d] }.queueCmds 0 = [cm 0 1, d] ∧ (cm 0 1).phase ≠ .completed) :=
  ⟨⟨(plain_iff _).2 (by decide +kernel), by decide +kernel, by decide +kernel, rfl, by decide +kernel, by decide +kernel, by decide +kernel, by decide +kernel,
    by decide +kernel⟩, by decide +kernel, by decide +kernel, by decide +kernel, by decide +kernel⟩

/-- Where no home is busy, nothing waits for one. -/
theorem homeWaits_none {s : State} (h : s.homes = []) (spans : List (Nat × Nat)) : s.homeWaits spans = false := by
  simp [State.homeWaits, h]

/-- A command that is ready in the state after reset. -/
theorem ready {op len body : Nat} (h : (cm op len body).opcode = op) (hs : (st (cm op len body)).stalled (cm op len body) = false) :
    (st (cm op len body)).Ready r0 op (cm op len body) :=
  ⟨by simp [st, State.cmd, cm, r0], h, rfl, rfl, rfl, hs, homeWaits_none rfl _⟩

theorem unitReady {op len body : Nat} (h : (cm op len body).opcode = op) (hs : (st (cm op len body)).stalled (cm op len body) = false)
    (ht : (st (cm op len body)).turn (cm op len body) = true) :
    (st (cm op len body)).UnitReady r0 op (cm op len body) := ⟨ready h hs, (by decide +kernel : State.reset.frozen = false), ht⟩

theorem witness_QueuesEnableDrainAndLoad_setup (b : Nat) (hb : b = put 0x10 1 1 ∨ b = put 0x10 1 1 + put 0x48 1 1 + put 0x30 8 0x80060002 ∨
      b = put 0x10 1 1 + put 0x48 1 1 + put 0x30 8 0x80060002 + put 0x18 8 (ilvTop 0)) :
    (st (cm 0x9001 2 b)).Ready r0 0x9001 (cm 0x9001 2 b) ∧ (st (cm 0x9001 2 b)).qState 1 = 0 := by
  rcases hb with rfl | rfl | rfl <;> exact ⟨ready (by decide +kernel) (by decide +kernel), by decide +kernel⟩

theorem witness_QueuesEnableDrainAndLoad_faults :
    (st (cm 0x9001 2 0)).setupFault (cm 0x9001 2 (put 0x30 8 0x80060002)).pkt 0x18 = none ∧
    (st (cm 0x9001 2 0)).setupFault (cm 0x9001 2 (put 0x30 8 0x80060002 + put 0x18 8 (ilvTop 0))).pkt 0x18 = some (ilvTop 0) := by
  decide +kernel

theorem witness_ControlPacketsComplete : (st (cm 0 1)).Ready r0 0 (cm 0 1) ∧ (st (cm 1 1)).Ready r0 1 (cm 1 1) :=
  ⟨ready (by decide +kernel) (by decide +kernel), ready (by decide +kernel) (by decide +kernel)⟩

/-- WAIT on the word at 0x1000: VALUE 0 is met, VALUE 1 is not. -/
theorem witness_ControlPacketsComplete_wait (v : Nat) (hv : v = 0 ∨ v = 1) :
    let c := cm 2 1 (put 0x10 8 0x1000 + put 0x18 8 v)
    (st c).Plain ∧ (st c).heldAtCut r0.q = false ∧ (st c).Ready r0 2 c ∧ (c.f 0x18 8 ≤ (st c).readMem (c.fb 0x10 47 0) 8 ↔ v = 0) := by
  rcases hv with rfl | rfl <;> exact ⟨plain_st _, by decide +kernel, ready (by decide +kernel) (by decide +kernel), by decide +kernel⟩

theorem witness_ControlPacketsComplete_poll :
    let c : Cmd := { cm 2 1 (put 0x10 8 0x1000 + put 0x18 8 1 + put 0x20 1 1) with phase := .waiting }
    (st c).Plain ∧ (st c).heldAtCut r0.q = false ∧ (st c).cmd r0 = some c ∧ c.opcode = 2 ∧ (st c).running = true :=
  ⟨plain_st _, by decide +kernel, by decide +kernel, by decide +kernel, rfl⟩

theorem witness_ControlPacketsComplete_signal (m : Nat) (hm : m = 0 ∨ m = 1) :
    let c := cm 3 1 (put 0x10 8 0x1000 + put 0x18 8 7 + put 0x20 1 m)
    (st c).Plain ∧ (st c).Ready r0 3 c := by
  rcases hm with rfl | rfl <;> exact ⟨plain_st _, ready (by decide +kernel) (by decide +kernel)⟩

theorem witness_ControlPacketsComplete_caps : (st (cm 4 1 (put 0x10 8 0x1000))).Plain ∧ (st (cm 4 1 (put 0x10 8 0x1000))).Ready r0 4 (cm 4 1 (put 0x10 8 0x1000)) :=
  ⟨plain_st _, ready (by decide +kernel) (by decide +kernel)⟩

/-- Register offsets of queue 0 (R87): Q_RING_BASE 0x00, Q_PTR 0x20, Q_CTL 0x38. -/
theorem witness_QueueRegistersTakeWritesInTheirStates (o : Nat) (r : Reg) (h : (o, r) ∈ [(0, Reg.Q_RING_BASE), (0x20, .Q_PTR), (0x38, .Q_CTL)]) :
    State.reset.running = true ∧ (∃ off, rangeOf State.reset.localGib (0x700003010000 + o) = .hub off) ∧ Agent.reachesRegs (.hart 0) = true ∧
      (0x700003010000 + o) % 8 = 0 ∧ slotAt State.reset.localGib (0x700003010000 + o) = .reg r 0 ∧ (qs 5 0).qState 0 = 5 ∧ (qs 1 0).qState 0 ≠ 0 ∧
      State.reset.coreDenied (.hart 0) 7 (0x700003010000 + o) 8 = false := by
  simp only [List.mem_cons, Prod.mk.injEq, List.not_mem_nil, or_false] at h
  rcases h with ⟨rfl, rfl⟩ | ⟨rfl, rfl⟩ | ⟨rfl, rfl⟩
  · exact ⟨rfl, ⟨0x3010000, by decide +kernel⟩, by decide +kernel, by decide +kernel, by decide +kernel, by decide +kernel, by decide +kernel, by decide +kernel⟩
  · exact ⟨rfl, ⟨0x3010020, by decide +kernel⟩, by decide +kernel, by decide +kernel, by decide +kernel, by decide +kernel, by decide +kernel, by decide +kernel⟩
  · exact ⟨rfl, ⟨0x3010038, by decide +kernel⟩, by decide +kernel, by decide +kernel, by decide +kernel, by decide +kernel, by decide +kernel, by decide +kernel⟩

/-! ## Witnesses: Brake, Freeze, trace, counters, data movement -/

/-- A group of two ranks, this device rank 1 of GROUP_ID 9; the member list names ranks 0 and 1. -/
def gangGroup : Group := { entry := put 2 1 5 + put 4 4 9 + put 8 2 2 + put 0xA 2 1, members := 0, gsig := 0 }

/-- Every MODE in every STATE of the Brake, without GANG; the state serves the release and the cancel too. -/
theorem witness_BrakeCommandChecksItsState : ∀ m ∈ [0, 1, 2], ∀ b ∈ [0, 1, 2, 3],
    let c := cm 5 1 (put 0x10 1 m + put 0x18 8 5)
    let s := withCmd (rst F.OBS_BRAKE_STATE 0 b) c
    s.Ready r0 5 c ∧ s.Untraced ∧ c.f 0x11 1 = 0 ∧ c.f 0x10 1 = m ∧ s.fld F.OBS_BRAKE_STATE 0 = b ∧ s.running = true ∧ (s.braking = true ↔ 2 ≤ b) := by
  simp -zeta only [ready_iff, untraced_iff]
  decide +kernel

/-- With GANG: on a gang master with its group of two loaded, and on a device that is none. -/
def masterGroup : Group := { gangGroup with entry := put 2 1 5 + put 8 2 2 }
theorem witness_BrakeCommandChecksItsState_gang : ∀ m ∈ [0, 1, 2], ∀ b ∈ [0, 1, 2, 3], ∀ role ∈ [0, 1],
    let c := cm 5 1 (put 0x10 1 m + put 0x11 1 1 + put 0x18 8 5)
    let s := { withCmd ((rst F.OBS_BRAKE_STATE 0 b).setFld F.CT_STATUS_GANG_ROLE 0 role) c with coll := { groups := [(0, some masterGroup)] } }
    s.Ready r0 5 c ∧ s.Untraced ∧ c.f 0x11 1 = 1 ∧ c.f 0x10 1 = m ∧ s.fld F.OBS_BRAKE_STATE 0 = b ∧ (s.fld F.CT_STATUS_GANG_ROLE 0 = 1 ↔ role = 1) ∧
      s.gangGroup = some masterGroup ∧ (List.range masterGroup.n).filter (· ≠ masterGroup.rank) ≠ [] := by
  simp -zeta only [ready_iff, untraced_iff]
  decide +kernel

theorem witness_BrakeReleaseReturnsQueues : ∀ b ∈ [0, 1, 2, 3], let s := rst F.OBS_BRAKE_STATE 0 b
    s.running = true ∧ s.Untraced ∧ s.fld F.OBS_BRAKE_STATE 0 = b := by
  simp -zeta only [untraced_iff]
  decide +kernel

/-- At T and before it; a queue of each kind: running, in SEAL_WAIT, draining; the control queue of the hub. -/
theorem witness_BrakeCutsFreezesAndRecords_time :
    let s := (((rst F.OBS_BRAKE_STATE 0 1).setFld F.OBS_BRAKE_T_T 0 5).setFld F.Q_STATE_STATE 1 1).setFld F.Q_STATE_STATE 2 3
    s.running = true ∧ s.fld F.OBS_BRAKE_STATE 0 = 1 ∧ s.time < s.fld F.OBS_BRAKE_T_T 0 ∧
      { s with time := 5 }.fld F.OBS_BRAKE_T_T 0 ≤ { s with time := 5 }.time ∧ s.qState 1 = 1 ∧ s.isCtrl 1 = false ∧ s.qState 2 ≠ 1 ∧ s.qState 2 ≠ 2 := by
  decide +kernel

theorem witness_BrakeCutsFreezesAndRecords_cut : ∀ record ∈ [0, 0x1000],
    let s := { rst F.OBS_BRAKE_STATE 0 2 with obs := { brake := { record := record } } }
    let busy := { withCmd (rst F.OBS_BRAKE_STATE 0 2) (cm 0 1) with obs := { brake := { issuedBefore := [r0] } } }
    s.Plain ∧ s.Untraced ∧ s.running = true ∧ s.fld F.OBS_BRAKE_STATE 0 = 2 ∧ s.frozen = false ∧ (∀ r ∈ s.obs.brake.issuedBefore, s.atCut r = true) ∧
      s.braking = true ∧ (busy.Plain ∧ busy.Untraced ∧ busy.running = true ∧ ∃ r ∈ busy.obs.brake.issuedBefore, busy.atCut r = false) := by
  simp -zeta only [plain_iff, untraced_iff]
  decide +kernel

theorem witness_BrakeCutsFreezesAndRecords_member : ∀ t0 ∈ [0, 7], ∀ b ∈ [0, 2],
    let f : CFrame := { typ := 13, vc := 0, gid := gangGroup.gid, src := 0, dst := 1, redId := 0, step := 0, plen := 8, data := t0 }
    let s := { (rst F.OBS_BRAKE_STATE 0 b).setFld F.PORT_STATUS_STATE 1 2 with time := 7, coll := { groups := [(0, some gangGroup)] } }
    s.TakesFrame 1 f ∧ f.major = 1 ∧ f.typ = 13 ∧ f.src = 0 ∧ s.groups.find? (fun g => decide (g.kind = 5 ∧ g.gid = f.gid)) = some gangGroup ∧
      (let a := s.sendAck (CFrame.key f) f.vc gangGroup.rank 0 1 (s.fld F.CT_CFG_WINDOW 0)
       a.coll.ended.contains (CFrame.key f) = false ∧ (a.braking = true ↔ b = 2) ∧ le f.data 0 8 = t0 ∧ (t0 ≠ 0 → t0 ≤ s.time)) ∧
      { s with coll := { s.coll with ended := [CFrame.key f] } }.coll.ended.contains (CFrame.key f) = true := by
  simp -zeta only [takes_iff]
  decide +kernel

theorem witness_FreezeStopsCapturesAndReleases : ∀ m ∈ [0, 1], ∀ base ∈ [0, 0x10], ∀ b ∈ [0, 1],
    let c := cm 0xB004 1 (put 0x10 1 m)
    let s := withCmd ((rst F.OBS_FRZ_BASE 0 base).setFld F.OBS_FRZ_STATE 0 b) c
    s.Plain ∧ s.Untraced ∧ s.running = true ∧ s.Ready r0 0xB004 c ∧ c.f 0x10 1 = m ∧ s.fld F.OBS_FRZ_BASE 0 = base ∧ (s.frozen = true ↔ b = 1) ∧
      s.fld F.OBS_FRZ_STATE 0 = b ∧ ∃ u ∈ allUnits, u ∉ s.obs.frzUnits := by
  simp -zeta only [plain_iff, untraced_iff, ready_iff]
  decide +kernel

/-- A frame that a Freeze held, on a priority that is not paused. -/
theorem witness_FreezeStopsCapturesAndReleases_held :
    let x : Sent := { hdr := {}, frame := .ptp 3 0 0 }
    let s := { rst F.OBS_FRZ_STATE 0 1 with obs := { txHeld := [x] } }
    s.Untraced ∧ s.running = true ∧ s.frozen = true ∧ ∀ y ∈ s.obs.txHeld, s.pausedAt y = false := by
  simp -zeta only [untraced_iff]
  decide +kernel

/-- Ring 4, the last one, and all five. -/
theorem witness_TraceRingsAreSetUpAndFlushed : ∀ k ∈ [4, 0xFF],
    let c := cm 0xB001 1 (put 0x10 1 k + put 0x12 1 10)
    let s := withCmd State.reset c
    (s.Ready r0 0xB001 c ∧ (c.f 0x10 1 ≤ 4 ∨ c.f 0x10 1 = 0xFF) ∧ c.f 0x10 1 = k) ∧
      (let t := { rst F.OBS_TRC_BASE_BASE 4 64 with obs := { rings := [(4, { queued := [1] })] } }
       t.Plain ∧ t.running = true ∧ (Tab.get ({} : TraceRing) t.obs.rings (4 : Fin 5)).queued = [1]) := by
  simp -zeta only [plain_iff, ready_iff]
  decide +kernel

/-- A mark on a ring that is off and on one in WRAP, as the first record of a line; a selection at the last signal of a unit and one beyond. -/
theorem witness_MarksAndCountersAreRecorded : ∀ m ∈ [0, 2],
    let c := cm 0xB002 1 (put 0x10 8 77)
    let k := ringOf (unitCtl 0 / 256)
    let s := withCmd (((rst F.OBS_TRC_BASE_MODE k m).setFld F.OBS_TRC_CFG_CLASS_MASK k 0xFFF).setFld F.OBS_TRC_BASE_SIZE_LOG2 k 10) c
    s.Ready r0 0xB002 c ∧ s.running = true ∧ s.fld F.OBS_TRC_BASE_MODE k = m ∧ (s.fld F.OBS_TRC_CFG_CLASS_MASK k).testBit 11 = true ∧
      (Tab.get ({} : TraceRing) s.obs.rings k).queued = [] := by
  simp -zeta only [ready_iff]
  decide +kernel

theorem witness_MarksAndCountersAreRecorded_select :
    let good (n : Fin 80) (v : Nat) : Bool := unitExists (bits v 27 16) && decide (ringOf (bits v 27 16 / 256) = n.val / 16) && signalListed (bits v 27 16) (bits v 15 8)
    State.reset.running = true ∧ good 0 0 = true ∧ good 16 0 = false ∧ good 0 (0xFF * 2 ^ 8) = false := by
  decide +kernel

theorem witness_MarksAndCountersAreRecorded_snap :
    let c := cm 0xB003 1 (put 0x10 8 0x10000 + put 0x18 1 7)
    let d : Cmd := { c with phase := .running, work := .snap 2000 }
    let s := withCmd State.reset c
    let early := withCmd State.reset d
    let due := { early with time := 2000 }
    s.Ready r0 0xB003 c ∧ (early.Plain ∧ early.running = true ∧ early.cmd r0 = some d ∧ d.phase = .running ∧ d.work = .snap 2000 ∧
      early.now (ringOf (early.regionOf r0.q)) < 2000) ∧ (due.Plain ∧ due.running = true ∧ due.cmd r0 = some d ∧ 2000 ≤ due.now (ringOf (due.regionOf r0.q))) := by
  simp -zeta only [ready_iff, plain_iff]
  decide +kernel

/-- A tensor descriptor at a byte of a packet (R70): format, RANK, extents, and rows one after another in lines of 64 bytes; no scale. -/
def td (off base fmt e0 e1 : Nat) (e2 : Nat := 1) (e3 : Nat := 1) (rank : Nat := 2) : Nat :=
  put off 8 base + put (off + 8) 1 (fmt + 16 * rank) + put (off + 0xA) 2 0xFFFF + put (off + 0xC) 4 e0 + put (off + 0x10) 4 e1 + put (off + 0x14) 4 e2 +
    put (off + 0x18) 4 e3 + put (off + 0x20) 4 1 + put (off + 0x24) 4 e1 + put (off + 0x28) 4 (e1 * e2)

/-- A MOVE, a GATHER and a SCATTER of rows of four FP32 elements. -/
def moved (op : Nat) : Cmd := cm op 3 (td 0x10 0x1000 0 4 2 + td 0x40 0x2000 0 4 (if op = 0x1004 then 1 else 2) + put 0x70 1 0xE4 + td 0x80 0x3000 11 1 1)
def moving (op i : Nat) : State := withCmd (q0.putRaw 0x3000 i 4) (moved op)
def movedIdx (op i : Nat) : List Nat := if op = 0x1001 then [] else (moving op i).indices (tdAt (moved op).pkt 0x80)

/-- The predicate of the statements as a check. -/
def isCopyReady (s : State) (c : Cmd) (op : Nat) (idx : List Nat) : Bool :=
  let a := tdAt c.pkt 0x10
  let d := tdAt c.pkt 0x40
  (isPlain s && isQuiet s && decide (c.f 0x71 1 = 0) && isRegular d) && isApart a d && decide (a.fmtc = d.fmtc) &&
    decide (d.fmt.isBlock = false ∧ d.fmt.rowed = false) && decide (d.fmt.elemBits % 8 = 0) && permOk (c.f 0x70 1) && decide (a.rowLen = d.rowLen) &&
    (List.range (d.e 0)).all fun i0 => d.rows.all fun q => (sourceOf op (c.f 0x70 1) idx [i0, q.1, q.2.1, q.2.2]).toList.all fun e =>
      decide ((e.getD 1 0, e.getD 2 0, e.getD 3 0) ∈ a.rows ∧ e.getD 0 0 < a.e 0)

theorem moverReady_of {s : State} {c : Cmd} {d : Td} (h : (isPlain s && isQuiet s && decide (c.f 0x71 1 = 0) && isRegular d) = true) : s.MoverReady c d := by
  simp only [Bool.and_eq_true, decide_eq_true_eq] at h
  exact ⟨(plain_iff _).2 h.1.1.1, (quiet_iff _).2 h.1.1.2, .inl h.1.2, (regular_iff _).2 h.2⟩

theorem copyReady_of {s : State} {c : Cmd} {op : Nat} {idx : List Nat} (h : isCopyReady s c op idx = true) : s.CopyReady c op idx := by
  simp only [isCopyReady, Bool.and_eq_true (_ && _) (_ : Bool), decide_eq_true_eq, List.all_eq_true, List.mem_range, Option.mem_toList] at h
  obtain ⟨⟨⟨⟨⟨⟨⟨m, ap⟩, sm⟩, fl⟩, wh⟩, pm⟩, ln⟩, ins⟩ := h
  exact ⟨moverReady_of (by simpa using m), (apart_iff _ _).2 ap, sm, fl, wh, pm, fun _ => ln, fun i0 h0 q hq e he => ins i0 h0 q hq e he⟩

/-- Every index of GATHER and SCATTER within its bound, and one at it. -/
theorem witness_MoversCopyElements : ∀ o ∈ [(0x1001, 0), (0x1004, 0), (0x1004, 2), (0x1005, 0), (0x1005, 2)],
    (moving o.1 o.2).UnitReady r0 o.1 (moved o.1) ∧ isCopyReady (moving o.1 o.2) (moved o.1) o.1 (movedIdx o.1 0) = true ∧
      ((movedIdx o.1 o.2).findIdx? (fun j => (if o.1 = 0x1004 then (tdAt (moved o.1).pkt 0x10).e 1 else (tdAt (moved o.1).pkt 0x40).e 1) ≤ j) = none ↔ o.2 = 0) := by
  simp only [unit_iff]
  decide +kernel

theorem witness_MoversCopyElements_ready (op : Nat) (h : op ∈ [0x1001, 0x1004, 0x1005]) : (moving op 0).CopyReady (moved op) op (movedIdx op 0) :=
  copyReady_of (by revert op; decide +kernel)

/-- FILL of two rows of FP32; CONVERT of two rows to BF16. -/
theorem witness_FillRepeatsValue : let c := cm 0x1003 2 (put 0x10 8 0x3F800000 + td 0x40 0x2000 0 4 2)
    (withCmd q0 c).UnitReady r0 0x1003 c ∧ (withCmd q0 c).MoverReady c (tdAt c.pkt 0x40) ∧
      (tdAt c.pkt 0x40).fmt.rowed = false ∧ (tdAt c.pkt 0x40).fmt.elemBits / 8 * 8 = (tdAt c.pkt 0x40).fmt.elemBits :=
  ⟨(unit_iff _ _ _ _).2 (by decide +kernel), moverReady_of (by decide +kernel), by decide +kernel, by decide +kernel⟩

theorem witness_ConvertEncodesDecodedElements : let c := cm 0x1002 2 (td 0x10 0x1000 0 4 2 + td 0x40 0x2000 1 4 2 + put 0x70 1 0xE4)
    (withCmd q0 c).UnitReady r0 0x1002 c ∧ (withCmd q0 c).RowsReady r0 (tdAt c.pkt 0x40) 0xFFFF ∧ c.f 0x71 1 = 0 := by
  simp -zeta only [unit_iff, rowsReady_iff, plain_iff, quiet_iff, regular_iff, outside_iff]
  decide +kernel

/-- A line of one element of a command that runs; an ACC_WRITE to a gradient without a conflict. -/
def accLine : AccLine := { cmd := r0, seed := 0, step := 0, tid := 0, elems := [(0x2000, 0, .one)] }
def accCmd : Cmd := { cm 0x1006 2 (td 0x10 0x1000 0 4 2 + td 0x40 0x2000 0 4 2) with phase := .running, work := .acc 1 }
def accState : State := { withCmd q0 accCmd with upds := [(3, { adds := [accLine] })] }

theorem witness_AccWriteAddsLineByLine : (let c := { accCmd with phase := .issued, work := .none }
    (withCmd q0 c).UnitReady r0 0x1006 c ∧ (withCmd q0 c).Plain ∧ (withCmd q0 c).Quiet ∧ c.f 0x71 1 = 0 ∧
      (withCmd q0 c).gradConflict (tdAt c.pkt 0x40).base (tdAt c.pkt 0x40).spanLen = none) ∧
    accState.Plain ∧ accState.Quiet ∧ (accState.upd 3).adds = [accLine] ∧ accLine.elems = [(0x2000, 0, .one)] ∧ accState.frozen = false ∧
      accState.running = true ∧ accState.fld F.UPD_CTL_MODE 3 ≠ 2 ∧ accState.fld F.STK_THERM_GRADE 3 < 3 ∧ accState.cmd accLine.cmd = some accCmd ∧
      accCmd.work = .acc 1 ∧ accCmd.phase = .running ∧ ∀ e ∈ accState.cmds, e.opcode ≠ 0x9002 := by
  simp -zeta only [unit_iff, plain_iff, quiet_iff]
  decide +kernel

/-- An image of zeros is no good table; a unit with two uncorrectable words. -/
theorem witness_TablesLoadReduceAndActivate :
    (let c := cm 0x3005 1 (put 0x10 8 0x1000 + put 0x18 1 8)
     (withCmd q0 c).UnitReady r0 0x3005 c ∧ (withCmd q0 c).Plain ∧ tableOk (le ((withCmd q0 c).readMem (c.fb 0x10 47 0) 8320) 0 4160) = false) ∧
    (let c := cm 0x3006 2 (td 0x10 0x1000 0 4 2 + td 0x40 0x2000 0 1 2)
     (withCmd q0 c).UnitReady r0 0x3006 c ∧ (withCmd q0 c).RowsReady r0 (tdAt c.pkt 0x40) 0xFFFF ∧
      (withCmd q0 c).fld F.ERR_RING_BASE_SIZE_LOG2 0 = 0 ∧ 2 ≤ ({ uncorrectable := 2 } : BufEvents).uncorrectable ∧ ({} : BufEvents).uncorrectable < 2) := by
  simp -zeta only [unit_iff, rowsReady_iff, plain_iff, quiet_iff, regular_iff, outside_iff]
  decide +kernel

/-- ACTIVATE and ACTIVATE_GRAD by the last built-in table, and by a slot that holds none; AMAX word 0, and none. -/
theorem witness_TablesLoadReduceAndActivate_tables : ∀ slot ∈ [6, 15], ∀ idx ∈ [0, 0xFFFF],
    (let c := cm 0x3003 2 (td 0x10 0x1000 0 4 2 + td 0x40 0x2000 0 4 2 + put 0x70 1 slot + put 0x72 2 idx)
     (withCmd q0 c).UnitReady r0 0x3003 c ∧ (withCmd q0 c).RowsReady r0 (tdAt c.pkt 0x40) (c.f 0x72 2) ∧
      (((withCmd q0 c).table ((withCmd q0 c).regionOf r0.q) (c.f 0x70 1) false).isSome = true ↔ slot = 6)) ∧
    (let c := cm 0x3004 3 (td 0x10 0x1000 0 4 2 + td 0x40 0x2000 0 4 2 + td 0x70 0x3000 0 4 2 + put 0xA0 1 slot)
     (withCmd q0 c).UnitReady r0 0x3004 c ∧ (withCmd q0 c).RowsReady r0 (tdAt c.pkt 0x70) 0xFFFF ∧
      (((withCmd q0 c).table ((withCmd q0 c).regionOf r0.q) (c.f 0xA0 1) true).isSome = true ↔ slot = 6)) := by
  simp -zeta only [unit_iff, rowsReady_iff, plain_iff, quiet_iff, regular_iff, outside_iff]
  decide +kernel

theorem witness_EltwiseAppliesItsOperation : ∀ idx ∈ [0, 0xFFFF],
    let c := cm 0x3001 3 (td 0x10 0x1000 0 4 2 + td 0x40 0x2000 0 4 1 + td 0x70 0x3000 0 4 2 + put 0xAC 2 idx)
    (withCmd q0 c).UnitReady r0 0x3001 c ∧ ({} : BufEvents).uncorrectable < 2 ∧ (withCmd q0 c).RowsReady r0 (tdAt c.pkt 0x70) (c.f 0xAC 2) := by
  simp -zeta only [unit_iff, rowsReady_iff, plain_iff, quiet_iff, regular_iff, outside_iff]
  decide +kernel

/-- NORM forward and backward; COMBINE of a tensor of rank 3 of two partials. -/
theorem witness_NormAndCombine : ∀ mode ∈ [0, 1, 2, 3],
    (let c := cm 0x3002 5 (td 0x10 0x1000 0 4 2 + td 0x40 0x2000 0 4 2 + td 0x70 0x3000 0 4 1 + td 0xA0 0x4000 0 4 1 + td 0xD0 0x5000 0 4 2 + td 0x100 0x6000 0 2 2 +
      put 0x130 1 mode + put 0x132 2 0xFFFF)
     (withCmd q0 c).UnitReady r0 0x3002 c ∧ (withCmd q0 c).RowsReady r0 (tdAt c.pkt 0xD0) (c.f 0x132 2) ∧ (tdAt c.pkt 0x100).Regular ∧
      (tdAt c.pkt 0xD0).Apart (tdAt c.pkt 0x100) ∧ c.f 0x130 1 = mode) ∧
    (let c := cm 0x2004 2 (td 0x10 0x1000 0 4 2 2 1 3 + td 0x40 0x2000 0 4 2 + put 0x70 2 0xFFFF)
     (withCmd q0 c).UnitReady r0 0x2004 c ∧ (withCmd q0 c).RowsReady r0 (tdAt c.pkt 0x40) (c.f 0x70 2)) := by
  simp -zeta only [unit_iff, rowsReady_iff, plain_iff, quiet_iff, regular_iff, apart_iff, outside_iff]
  decide +kernel

/-! ## Witnesses: engines, attention, pages, memory tiers, updates -/

/-- A MATMUL in BF16 of 4 by 16 by 16 on logical engine 0 of region 0, D in FP32 without epilogue or AMAX. -/
def matPkt (op : Nat) : Nat := (cm op 4 (td 0x10 0x1000 1 16 4 + td 0x40 0x2000 1 16 16 + td 0x70 0x4000 0 16 4 + put 0xD1 1 1 + put 0xD6 2 0xFFFF)).pkt
def mat (phase : Phase) (w : Work) : Cmd := { ref := r0, pkt := matPkt 0x2001, len := 4, phase := phase, work := w }
def matState (phase : Phase) (w : Work) (e : Engine) : State := { withCmd q0 (mat phase w) with engines := [(0, e)] }
def matLong : Cmd := { mat .running (.mat {}) with pkt := (cm 0x2001 4 (td 0x10 0x1000 1 2048 4 + td 0x40 0x10000 1 16 2048 + td 0x70 0x4000 0 16 4 + put 0xD1 1 1 + put 0xD6 2 0xFFFF)).pkt }
def item : Item := { cmd := r0, index := 0 }

/-- With the mask in service and with engine 0 of the region quarantined and no other mapped. -/
theorem witness_MatrixCommandsReachTheEngines (op : Nat) (h : op ∈ [0x2001, 0x2002, 0x2003]) :
    let c : Cmd := { mat .issued .none with pkt := matPkt op }
    let s := withCmd q0 c
    let t := withCmd (q0.setFld ⟨.RC_ENGMAP, 15, 0⟩ 0 0xFFFF) c
    (s.UnitReady r0 op c ∧ s.Plain ∧ c.work = .none ∧ 0 < c.geo.items ∧ s.onEngines (s.regionOf r0.q) r0 = false ∧ s.maskLost (s.regionOf r0.q) c.geo.mask = false) ∧
    (t.UnitReady r0 op c ∧ t.Plain ∧ t.onEngines (t.regionOf r0.q) r0 = false ∧ t.maskLost (t.regionOf r0.q) c.geo.mask = true) := by
  simp -zeta only [unit_iff, plain_iff]
  revert op
  decide +kernel

theorem witness_MatrixCommandsReachTheEngines_frame :
    let s := { matState .running (.mat {}) {} with accs := [(0, { waiting := [(r0, 0)] })] }
    let c := mat .running (.mat {})
    (s.acc (0 : Fin 4)).waiting = (c.ref, 0) :: [] ∧ s.cmd c.ref = some c ∧ s.frozen = false ∧
      (s.acc (0 : Fin 4)).canGrant c.ref (c.geo.rowsOf 0) c.geo.frames = true := by
  decide +kernel

theorem witness_MatrixCommandsReachTheEngines_dispatch :
    let s := matState .running (.mat {}) {}
    let c := mat .running (.mat {})
    s.frozen = false ∧ s.running = true ∧ s.inService 0 = true ∧ s.Untraced ∧ (s.engine 0).compute = none ∧ (s.engine 0).drain = none ∧
      (s.engine 0).saving = none ∧ (s.engine 0).cmd = none ∧ s.logicalOf 0 = some 0 ∧ s.savedFor ((0 : Fin 16) / 4) 0 = [] ∧
      s.cmds.filter (s.readyFor 0 0) = [c] ∧ s.pick (unitEngine 0) [c] = some c ∧ s.cmd c.ref = some c ∧ c.nextItem = some 0 ∧
      c.geo.tileLive c.mat.mask (c.geo.tile 0) = true ∧ c.geo.frames = 0 := by
  simp -zeta only [untraced_iff]
  decide +kernel

/-- The only K step of the item, and the first and the last of an item of more. -/
theorem witness_KStepsAccumulate : ∀ o ∈ [(mat .running (.mat {}), 0), (matLong, 0), (matLong, (matLong.geo.range 0 0).2 - 1)],
    let c := o.1
    let i := { item with kstep := o.2, begun := decide (o.2 ≠ 0) }
    let s : State := { withCmd q0 c with engines := [(0, { cmd := some r0, compute := some i })] }
    s.frozen = false ∧ s.running = true ∧ s.Quiet ∧ s.Plain ∧ (∀ d ∈ s.cmds, d.opcode ≠ 0x9002) ∧ (s.engine (0 : Fin 16)).compute = some i ∧
      (s.engine (0 : Fin 16)).drain = none ∧ (s.engine (0 : Fin 16)).saving = none ∧ s.cmd i.cmd = some c ∧ c.mat.failed = false ∧ c.mat.leaving = false ∧ c.held = false ∧
      s.stalled c = false ∧ c.geo.nc ≤ 1 ∧ i.kstep < (c.geo.range i.index i.chunk).2 - (c.geo.range i.index i.chunk).1 ∧
      (i.kstep + 1 = (c.geo.range i.index i.chunk).2 - (c.geo.range i.index i.chunk).1 ↔ o.2 ≠ 0 ∨ c = mat .running (.mat {})) := by
  simp -zeta only [quiet_iff, plain_iff]
  decide +kernel

theorem witness_DrainsWriteTheirRows : let s := matState .running (.mat { cursor := 1 }) { cmd := some r0, drain := some { item with begun := true } }
    let c := mat .running (.mat { cursor := 1 })
    let g := c.geo
    s.frozen = false ∧ s.running = true ∧ s.Plain ∧ s.Quiet ∧ (∀ d ∈ s.cmds, d.opcode ≠ 0x9002) ∧ (s.engine (0 : Fin 16)).drain = some { item with begun := true } ∧
      s.cmd r0 = some c ∧ s.stalled c = false ∧ c.opcode / 4096 = 2 ∧ g.wide = false ∧ g.epi = 0 ∧ g.amax = 0xFFFF ∧ g.dmode = 0 ∧ g.nt = 1 ∧
      g.d.e 0 = g.n ∧ g.d.Regular ∧ c.ref = r0 ∧ (s.queue 0).slots = [] ∧ c.mat.failed = false ∧ c.mat.leaving = false := by
  simp -zeta only [plain_iff, quiet_iff, regular_iff]
  decide +kernel

theorem witness_DrainsWriteTheirRows_rows : let c := mat .running (.mat { cursor := 1 })
    let g := c.geo
    let ix := fun row => g.dRow (g.batch (g.tile 0)) (g.mtile (g.tile 0) * g.mt + row)
    let live := (List.range (g.rowsOf (g.tile 0))).filter (fun row => g.computed c.mat.mask (g.mtile (g.tile 0) * g.mt + row) (g.ntile (g.tile 0)))
    live = [0, 1, 2, 3] ∧ (∀ row ∈ live, ix row ∈ g.d.rows) ∧ ∀ x ∈ live, ∀ y ∈ live, ix x = ix y → x = y := by
  decide +kernel

/-- A preemptible queue with one save slot while a Brake is in force; the slot being written; the slot holding the item. -/
def saving (b : Nat) (e : Engine) (w : MatWork) : State :=
  { (((q0.setFld F.OBS_BRAKE_STATE 0 b).setFld F.Q_CFG_PRIO 0 2).setFld F.Q_CFG_CTX_SLOTS 0 1).setFld F.Q_CTX_BASE_BASE 0 1 with
    cmds := [mat .running (.mat w)], engines := [(0, e)] }

theorem witness_SavedItemsComeBack :
    (let item : Item := { item with atEnd := true }
     let s := saving 3 { cmd := some r0, compute := some item } {}
     item.atEnd = true ∧ s.frozen = false ∧ s.running = true ∧ s.Plain ∧ s.Quiet ∧ s.cmd item.cmd = some (mat .running (.mat {})) ∧ (∀ d ∈ s.cmds, d.opcode ≠ 0x9002) ∧ item.cmd.q < 256 ∧
      (s.engine (0 : Fin 16)).compute = some item ∧ (s.engine (0 : Fin 16)).drain = none ∧ (s.engine (0 : Fin 16)).saving = none ∧ s.preemptible 0 = true ∧
      s.braking = true ∧ s.freeSlot 0 = some 0 ∧ (mat .running (.mat {})).ref = item.cmd ∧ (mat .running (.mat {})).mat.failed = false ∧ (mat .running (.mat {})).mat.leaving = false) ∧
    (let s := saving 3 { cmd := some r0, compute := some item, saving := some 0 } {}
     s.Plain ∧ s.Quiet ∧ (s.engine (0 : Fin 16)).saving = some 0 ∧ (s.engine (0 : Fin 16)).compute = some item ∧ (mat .running (.mat {})).mat.primary = none ∧
      (∀ q < 256, s.qState q ≠ 3) ∧ s.maskLost (s.regionOf 0) (mat .running (.mat {})).geo.mask = false) ∧
    (let s := saving 0 {} { saved := [(0, 0, 0)] }
     let c := mat .running (.mat { saved := [(0, 0, 0)] })
     s.Plain ∧ s.Quiet ∧ (s.acc ((0 : Fin 16) / 4)).waiting.contains (c.ref, c.geo.tile 0) = false ∧ s.inService (0 : Fin 16) = true ∧ s.braking = false ∧ s.logicalOf (0 : Fin 16) = some 0 ∧ c.mat.saved = [(0, 0, 0)] ∧ s.cmds = [c] ∧ c.mat.failed = false ∧ c.mat.leaving = false ∧ c.held = false ∧ c.geo.frames = 0 ∧ c.phase = .running ∧
      s.regionOf 0 = (0 : Fin 16) / 4 ∧ s.fld F.Q_STATE_STATE 0 ≠ 6 ∧ (s.readMem (s.slotAddr 0 0 + 0xA) 1).testBit 0 = false ∧ s.pick (unitEngine 0) [c] = some c ∧
      s.readMem (s.slotAddr 0 0 + 0x18) 2 ≤ 4096) := by
  simp -zeta only [plain_iff, quiet_iff]
  decide +kernel

/-! ## Witnesses: attention, pages, memory tiers -/

def attFwd : Cmd := cm 0x4001 5 (td 0x10 0x1000 1 16 2 1 1 4 + td 0x40 0x2000 1 16 2 1 1 4 + td 0x70 0x3000 1 16 2 1 1 4 + td 0xA0 0x4000 1 16 2 1 1 4 +
  td 0xD0 0x5000 0 2 2 1 1 4 + put 0x104 4 0x3F800000)
def attBwd : Cmd := cm 0x4002 8 (td 0x10 0x1000 1 16 2 1 1 4 + td 0x40 0x2000 1 16 2 1 1 4 + td 0x70 0x3000 1 16 2 1 1 4 + td 0xA0 0x4000 1 16 2 1 1 4 +
  td 0xD0 0x5000 1 16 2 1 1 4 + td 0x100 0x6000 0 2 2 1 1 4 + td 0x130 0x7000 1 16 2 1 1 4 + td 0x160 0x8000 1 16 2 1 1 4 + td 0x190 0x9000 1 16 2 1 1 4)

theorem witness_AttentionWritesItsRows :
    ({} : BufEvents).uncorrectable < 2 ∧ (withCmd q0 attFwd).Plain ∧ (withCmd q0 attFwd).Quiet ∧ attFwd.work = .none ∧
      (withCmd q0 attFwd).UnitReady r0 0x4001 attFwd ∧ (attnP attFwd.pkt 0x100).paged = false ∧ (tdAt attFwd.pkt 0xA0).Regular ∧
      ({ tdAt attFwd.pkt 0xD0 with ovp := 2 } : Td).Regular ∧ (tdAt attFwd.pkt 0xA0).Apart { tdAt attFwd.pkt 0xD0 with ovp := 2 } ∧
      (tdAt attFwd.pkt 0xA0).rows = (tdAt attFwd.pkt 0x10).rows ∧ ({ tdAt attFwd.pkt 0xD0 with ovp := 2 } : Td).rows = (tdAt attFwd.pkt 0x10).rows := by
  simp only [unit_iff, plain_iff, quiet_iff, regular_iff, apart_iff]
  decide +kernel

theorem witness_AttentionWritesItsRows_bwd : let c := attBwd
    let s := withCmd q0 c
    s.Plain ∧ s.Quiet ∧ c.work = .none ∧ s.UnitReady r0 0x4002 c ∧ (tdAt c.pkt 0x130).Regular ∧ (tdAt c.pkt 0x160).Regular ∧ (tdAt c.pkt 0x190).Regular ∧
      (tdAt c.pkt 0x130).Apart (tdAt c.pkt 0x160) ∧ (tdAt c.pkt 0x130).Apart (tdAt c.pkt 0x190) ∧ (tdAt c.pkt 0x160).Apart (tdAt c.pkt 0x190) ∧
      (tdAt c.pkt 0x130).rows = (tdAt c.pkt 0x10).rows ∧ (tdAt c.pkt 0x160).rows = (tdAt c.pkt 0x40).rows ∧ (tdAt c.pkt 0x190).rows = (tdAt c.pkt 0x40).rows ∧
      0 < (tdAt c.pkt 0x40).e 2 ∧ (tdAt c.pkt 0x10).e 2 % (tdAt c.pkt 0x40).e 2 = 0 := by
  simp -zeta only [unit_iff, plain_iff, quiet_iff, regular_iff, apart_iff]
  decide +kernel

/-- A pool of four pages at 0x100000, its states at 0x200000; a sequence at an address with a length and CAP 4, its table 64 bytes on. -/
def pool4 : Pool := { base := 0x100000, stateBase := 0x200000, pages := 4, hkv := 1, fmt := 1, dcode := 0 }
def seqAt (a len : Nat) (s : State) : State := s.putRaw a (put 1 1 1 + put 4 4 len + put 8 8 (a + 64) + put 0x10 4 4 + put 0x14 4 0xFFFFFFFF) 64
def pooled (len len2 : Nat) (c : Cmd) : State := { seqAt 0x3000 len (seqAt 0x4000 len2 (withCmd q0 c)) with vecs := [(0, { pool := some pool4 })] }
def seqd (a len : Nat) : SeqD := { addr := a, len := len, table := a + 64, cap := 4, dropped := 0xFFFFFFFF }
def append : Cmd := { cm 0x4003 3 (put 0x10 8 0x3000 + td 0x20 0x1000 1 64 1 1 1 3 + td 0x50 0x2000 1 64 1 1 1 3) with work := .kv [2] none 16 0 0x3040 }

theorem witness_AppendFillsReservedPages :
    let s := pooled 16 0 append
    let p := pool4
    let q := seqd 0x3000 16
    let k := tdAt append.pkt 0x20
    s.UnitReady r0 0x4003 append ∧ s.Plain ∧ s.Quiet ∧ (s.vec (s.regionOf r0.q)).pool = some p ∧ append.f 0x18 1 = 0 ∧ ({} : BufEvents).uncorrectable < 2 ∧ append.work = .kv [2] none 16 0 q.table ∧
      q.len % 16 = 0 ∧ [2].Nodup ∧ (∀ n ∈ [2], n < p.pages) ∧ [2].length = ceilDiv (k.e 1) 16 ∧ p.pages < 2 ^ 24 ∧ q.len / 16 + [2].length ≤ q.cap ∧ 0 < p.d * p.elem ∧
      p.base + p.pb * p.pages ≤ p.stateBase ∧ q.addr + 64 ≤ q.table ∧ q.table + 4 * q.cap ≤ p.base ∧ q.table + 4 * q.cap ≤ p.stateBase := by
  simp -zeta only [unit_iff, plain_iff, quiet_iff]
  decide +kernel

theorem seqReady_iff (s : State) (off a : Nat) (q : SeqD) : s.SeqReady off a q ↔ s.seqAt a = some q ∧ s.seqFault off a = none ∧ s.spanFault .ilv a 64 = none :=
  ⟨fun h => ⟨h.1, h.2, h.3⟩, fun h => ⟨h.1, h.2.1, h.2.2⟩⟩

/-- A fork into an empty sequence, one with a length and one of too many entries; a free; a POOL_CFG with no page in use and with one. -/
theorem witness_PagesAreSharedAndReleased : ∀ l ∈ [(16, 0), (16, 16), (80, 0)],
    (let c := cm 0x4004 1 (put 0x10 8 0x3000 + put 0x18 8 0x4000)
     let s := pooled l.1 l.2 c
     s.Plain ∧ (s.vec (s.regionOf r0.q)).pool = some pool4 ∧ s.SeqReady 0x10 (c.fb 0x10 47 0) (seqd 0x3000 l.1) ∧ s.UnitReady r0 0x4004 c ∧
      s.SeqReady 0x18 (c.fb 0x18 47 0) (seqd 0x4000 l.2) ∧ ((seqd 0x3000 l.1).entries ≤ (seqd 0x4000 l.2).cap ↔ l.1 ≠ 80) ∧
      ∀ j < (seqd 0x3000 l.1).entries, s.entryDropped (seqd 0x3000 l.1) j = false ∧ (s.page pool4 (s.entryPage (seqd 0x3000 l.1) j)).ref < 65535) ∧
    ∀ m ∈ [0, 1], let c := cm 0x4005 1 (put 0x10 8 0x3000 + put 0x1C 1 m)
      (pooled l.1 l.2 c).Plain ∧ (pooled l.1 l.2 c).UnitReady r0 0x4005 c ∧ (c.f 0x1C 1 = 0 ↔ m = 0) := by
  simp -zeta only [unit_iff, plain_iff, seqReady_iff]
  decide +kernel

/-- A fork of a sequence whose first entry is dropped. -/
theorem witness_PagesAreSharedAndReleased_dropped :
    let c := cm 0x4004 1 (put 0x10 8 0x3000 + put 0x18 8 0x4000)
    let s := (pooled 16 0 c).putRaw 0x3040 0x80FFFFFF 4
    s.seqAt (c.fb 0x10 47 0) = some (seqd 0x3000 16) ∧ ∃ j ∈ List.range (seqd 0x3000 16).entries, s.entryDropped (seqd 0x3000 16) j = true := by
  decide +kernel

theorem witness_PagesAreSharedAndReleased_pool : ∀ m ∈ [0, 1],
    let c := cm 0x4006 1 (put 0x10 1 m + put 0x12 1 1 + put 0x14 2 1 + put 0x18 8 0x100000 + put 0x20 4 4 + put 0x28 8 0x200000)
    let s := pooled 0 0 c
    let used := s.setPage pool4 3 { st := 2, drop := false, ref := 1, pins := 0, owner := 0 }
    (s.Plain ∧ s.UnitReady r0 0x4006 c ∧ s.holds = [] ∧ ∀ n < pool4.pages, (s.page pool4 n).st = 0) ∧
      (used.Plain ∧ used.UnitReady r0 0x4006 c ∧ used.holds = [] ∧ (used.page pool4 3).st ≠ 0) ∧
      (withCmd q0 c).Plain ∧ (withCmd q0 c).UnitReady r0 0x4006 c ∧ ((withCmd q0 c).vec ((withCmd q0 c).regionOf r0.q)).pool = none ∧ (c.f 0x10 1 = 1 ↔ m = 1) := by
  simp -zeta only [unit_iff, plain_iff]
  decide +kernel

/-- A Hoist without hints and a channel without a swap, in every state whose Hoists are at their reset contents. -/
theorem witness_HintsAndStreamsActOnFrames_idle (c : Cmd) : (∀ k, ((withCmd q0 c).hoist k).hints = []) ∧ ∀ k, ((withCmd q0 c).hoistChan k).swap = none :=
  ⟨fun _ => rfl, fun _ => rfl⟩

/-- The four hints on a hoist unit, UNPIN with nothing pinned among them (it is refused). -/
theorem witness_HintsAndStreamsActOnFrames : ∀ op ∈ [0x8001, 0x8002, 0x8003, 0x8004],
    let c := cm op 1 (put 0x10 8 0 + put 0x18 8 4096)
    let s := withCmd q0 c
    let kind := if op = 0x8001 then HintKind.hoist else if op = 0x8002 then .lower else if op = 0x8003 then .pin else .unpin
    let p : State := { s with hoists := (List.range 32).map (fun k => (k, { attrs := [(0, 0x1000#16)] })) }
    s.Ready r0 op c ∧ s.holds = [] ∧ (op ≠ 0x8004 → (s.framesOf (c.fb 0x10 47 0) (c.f 0x18 8)).length = 1) ∧ ((s.hintFault kind (c.fb 0x10 47 0) (c.f 0x18 8)).isSome = true ↔ op = 0x8004) ∧
      p.Ready r0 op c ∧ p.hintFault kind (c.fb 0x10 47 0) (c.f 0x18 8) = none := by
  simp -zeta only [ready_iff]
  decide +kernel

theorem witness_HintsAndStreamsActOnFrames_swap : let w : Swap := { slow := 9000, victim := 5, cursor := 1024 }
    let s : State := { State.reset with hoistCh := [(511, { swap := some w })] }
    s.frozen = false ∧ s.fld F.STK_THERM_GRADE ((511 : Fin 512) / 16) < 3 ∧ s.holds = [] ∧ (s.hoistChan (511 : Fin 512)).swap = some w ∧ 1024 ≤ w.cursor ∧ w.slow ≠ w.victim ∧
      (s.hoist ((511 : Fin 512) / 16)).hints = [] := by
  decide +kernel

/-- OPEN on the aperture of one stack with nothing open, with the number in use, and with a window above 4,096 units; ADVANCE and CLOSE. -/
theorem witness_HintsAndStreamsActOnFrames_stream : ∀ o ∈ [(0, 1), (0, 5000), (1, 1), (2, 1)],
    let c := cm 0x8005 1 (put 0x10 1 o.1 + put 0x11 1 7 + put 0x14 4 o.2 + put 0x18 8 aptBase + put 0x20 4 1 + put 0x24 4 2)
    let y : Stream := { base := aptBase, segUnits := 1, segments := 2, win := 1 }
    let s := withCmd (q0.setFld ⟨.AMR_CFG, 4, 0⟩ 0 8) c
    let t := { s with hoists := [(0, { streams := [(7, some y)] })] }
    (s.Ready r0 0x8005 c ∧ s.holds = [] ∧ c.f 0x11 1 < 8 ∧ c.f 0x10 1 = o.1 ∧ s.hoistsOf (c.fb 0x18 47 0) = [0] ∧ s.streamOf 0 7 = none ∧
      s.streamClash [0] (s.segFrames y 0 2) = none ∧ (c.f 0x14 4 * c.f 0x20 4 ≤ 4096 ↔ o.2 = 1)) ∧
    t.Ready r0 0x8005 c ∧ t.holds = [] ∧ t.openOn 7 = [(0, y)] ∧ c.f 0x28 4 < y.segments ∧
      { t with cmds := [{ c with pkt := c.pkt + put 0x28 4 2 }] }.openOn 7 = [(0, y)] ∧ y.segments ≤ ({ c with pkt := c.pkt + put 0x28 4 2 } : Cmd).f 0x28 4 := by
  simp -zeta only [ready_iff]
  decide +kernel

/-! ## Witnesses: updates, collectives -/

/-- Slices of 16 weights; the three operations, with and without a working copy. -/
def slice (op wc : Nat) : Cmd := { cm op 6 (td 0x10 0x2000 0 16 1 1 1 1 + td 0x40 0x4000 0 16 1 1 1 1 + td 0x70 0x6000 0 16 1 1 1 1 +
  (if op = 0x5001 then td 0xA0 0x8000 0 16 1 1 1 1 else 0) + td 0xD0 0xA000 1 16 1 1 1 1 + put 0x102 2 (2 * wc)) with
  work := .upd { stack := 0, entry := 1, waited := true, srcs := [0, 0, 0, 0] }, ntel := { uwBase := 0x100000 } }
def slicing (c : Cmd) : State := { withCmd q0 c with upds := [(0, { slices := [r0] })] }

theorem witness_SlicesUpdateTheirWeights : ∀ op ∈ [0x5001, 0x5002, 0x5003], ∀ wc ∈ [0, 1],
    let c := slice op wc
    let s := slicing c
    let w := tdAt c.pkt 0x40
    let others : List (Nat × Nat) := [((tdAt c.pkt 0x70).base, 4 * w.e 0), (s.jAddr 0 1, 64), (c.ntel.uwRow c.layer + 16 * 0, 16)] ++
      (if op = 0x5001 then [((tdAt c.pkt 0xA0).base, 4 * w.e 0)] else []) ++ (if updWc c.pkt then [((tdAt c.pkt 0xD0).base, (tdAt c.pkt 0xD0).rowLen)] else [])
    s.UnitReady r0 op c ∧ s.Plain ∧ s.Quiet ∧ (∀ e ∈ s.cmds, e.opcode ≠ 0x9002) ∧ (s.upd 0).slices.head? = some r0 ∧ s.fld F.UPD_CTL_MODE 0 ≠ 2 ∧
      (∀ x ∈ others, w.base + 4 * w.e 0 ≤ x.1 ∨ x.1 + x.2 ≤ w.base) ∧ (updWc c.pkt = true ↔ wc = 1) ∧ (tdAt c.pkt 0xD0).Regular ∧ (tdAt c.pkt 0xD0).e 0 = w.e 0 := by
  simp -zeta only [unit_iff, plain_iff, quiet_iff, regular_iff]
  decide +kernel

/-- A flush that only clears census rows, one that fails, and one that asks for nothing. -/
theorem witness_FlushesJournalsAndEpochsAdvance : ∀ o ∈ [(0, 0, 0), (16, 0, 1), (1, 0xFFFF, 0)],
    let c := { cm 0x5007 2 (put 0x18 4 o.1 + put 0x20 4 o.2.1 + put 0x2C 4 o.2.2) with ntel := { censusBase := 0x4000 } }
    let s := (withCmd q0 c).putRaw (c.ntel.censusRow 0 0 + 0x29) 1 1
    (o.1 = 16 → s.rowOk (c.ntel.censusRow 0 0) 0x28 = true ∧ s.rowOk (c.ntel.censusRow 0 15) 0x28 = false) ∧ s.UnitReady r0 0x5007 c ∧ s.Plain ∧ s.Quiet ∧ (o.1 ≠ 1 → s.flushFails c = none ∧ ffEntries (c.f 0x18 4) = false ∧ ffUw (c.f 0x18 4) = false ∧
      ffSnap (c.f 0x18 4) = false ∧ (ffClearCensus (c.f 0x18 4) = false ↔ o.1 = 0) ∧ c.fb 0x40 47 0 = 0) ∧ (o.1 = 1 → s.flushFails c ≠ none) := by
  simp -zeta only [unit_iff, plain_iff, quiet_iff]
  decide +kernel

/-- A journal at 0x800000 of stack 0 with one entry of STEP 5 in a state, in the last place. -/
def journal (c : Cmd) (state : Nat) : State :=
  (withCmd ((q0.setFld F.UPD_JRNL_EN 0 1).setFld F.UPD_JRNL_BASE 0 8) c).putRaw (0x800000 + 512 * 2047) (put 2 1 state + put 8 8 5) 64

theorem witness_FlushesJournalsAndEpochsAdvance_journal : ∀ state ∈ [0, 1, 3, 4],
    let g := cm 0x5004 1 (td 0x10 0x2000 0 16 1 1 1 1)
    let c := cm 0x5005 1 (put 0x10 8 5 + put 0x18 4 1)
    (let s := journal g state
     s.Plain ∧ s.Quiet ∧ s.running = true ∧ s.frozen = false ∧ s.UnitReady r0 0x5004 g ∧ s.gradConflict (tdAt g.pkt 0x10).base (tdAt g.pkt 0x10).spanLen = none) ∧
    (let s := journal c state
     s.Plain ∧ s.Quiet ∧ s.UnitReady r0 0x5005 c ∧ stacksOf (c.f 0x18 4) = [0] ∧ (state ≠ 0 → s.jUsed 0 = [2047] ∧ s.jStep 0 2047 = 5) ∧
      (s.jUsed 0 = [] ↔ state = 0) ∧ s.jState 0 2047 = state) := by
  simp -zeta only [unit_iff, plain_iff, quiet_iff]
  decide +kernel

theorem witness_FlushesJournalsAndEpochsAdvance_reconcile :
    let c := cm 0x5006 1 (put 0x10 8 5 + put 0x18 4 1)
    let d := cm 0x5006 1 (put 0x10 8 5 + put 0x18 4 1 + put 0x1C 1 2)
    (journal c 4).Plain ∧ (journal c 4).Quiet ∧ (journal c 4).UnitReady r0 0x5006 c ∧ (journal c 4).reconTodo c = [] ∧ (journal d 4).Plain ∧ (journal d 4).Quiet ∧
      (journal d 4).UnitReady r0 0x5006 d ∧ (journal d 4).reconTodo d = [(0, 2047)] ∧ d.f 0x1C 1 = 2 ∧ d.fb 0x20 47 0 = 0 ∧
      updWc ((journal d 4).jPacket 0 2047) = false := by
  simp -zeta only [unit_iff, plain_iff, quiet_iff]
  decide +kernel

theorem witness_FlushesJournalsAndEpochsAdvance_epoch : ∀ refs ∈ [[], [(0, 0, 1)]],
    let u : UpdWork := { stack := 0, entry := 0, weight := some (0, 1) }
    let c : Cmd := { slice 0x5001 0 with phase := .waiting, work := .upd u }
    let s : State := { q0 with cmds := [c, { cm 0x2001 4 with ref := ⟨1, 0⟩, phase := .running, refs := refs }] }
    s.Plain ∧ s.Quiet ∧ s.running = true ∧ s.frozen = false ∧ s.cmd r0 = some c ∧ s.heldAtCut r0.q = false ∧ (s.liveRefs 0 1 = 0 ↔ refs = []) ∧
      s.jUsed 31 = [] ∧ bit 1 0 = true ∧ s.spanFault (.apt (31 : Fin 32)) (bits 1 47 20 <<< 20) 0x100000 ≠ none := by
  simp -zeta only [plain_iff, quiet_iff]
  decide +kernel

/-- A group of two ranks for reductions, this device at a rank; the network side with port 0 UP and the group in slot 63. -/
def group2 (rank : Nat) : Group := { entry := put 2 1 0 + put 4 4 9 + put 8 2 2 + put 0xA 2 rank + put 0x10 4 1000, members := 0, gsig := 0xABCD }
def net0 (s : State) (rank : Nat) : State :=
  { (s.setFld F.PORT_STATUS_STATE 0 2).setFld F.CT_STAGING_SIZE_MIB 0 8 with coll := { groups := [(63, some (group2 rank))] } }

theorem witness_GroupsLoadAndPhasesSwitch : ∀ m ∈ [0, 1], ∀ size ∈ [0, 8],
    let c := cm 0x6007 1 (put 0x10 1 63 + put 0x11 1 m + put 0x18 8 0x1000)
    let d := cm 0x6008 1 (put 0x10 1 m + put 0x11 1 3 + put 0x18 8 0xFFFFFFFFFFFF3FFF)
    let s := withCmd ((net0 State.reset 0).setFld F.CT_STAGING_SIZE_MIB 0 size) c
    let t := withCmd ((net0 State.reset 0).setFld F.CT_STAGING_SIZE_MIB 0 size) d
    s.Plain ∧ s.Ready r0 0x6007 c ∧ (s.noStaging = true ↔ size = 0) ∧ s.slotBusy (c.f 0x10 1) = false ∧ (c.f 0x11 1 = 1 ↔ m = 1) ∧
      t.Plain ∧ t.Ready r0 0x6008 d ∧ d.f 0x11 1 ≤ 3 ∧ (d.f 0x10 1 = 0 ↔ m = 0) ∧
      ∀ k < 8, le (d.f 0x18 8) k 1 = 0xFF ∨ le (d.f 0x18 8) k 1 ≤ 63 ∧ (t.group (le (d.f 0x18 8) k 1)).isSome = true := by
  simp -zeta only [plain_iff, ready_iff]
  decide +kernel

/-- A collective of four FP32 elements, issued or running. -/
def coll (op rank : Nat) (phase : Phase) (f : CollWork → CollWork := id) (body : Nat := 0) : Cmd :=
  { cm op 3 (td 0x10 0x1000 0 4 1 1 1 1 + td 0x40 0x2000 0 4 (if op = 0x6003 then 2 else 1) 1 1 (if op = 0x6003 then 2 else 1) + put 0x70 1 0xBF + put 0x72 1 0 +
      put 0x78 4 7 + put 0x80 8 3 + body) with phase := phase, work := .coll (f { slot := 63, group := group2 rank }) }

/-- Both ranks of each collective; the ready word short of its value and absent; PERMUTE to the other rank. -/
theorem witness_CollectivesStart : ∀ op ∈ [0x6001, 0x6002, 0x6003, 0x6004, 0x6005], ∀ rank ∈ [0, 1], ∀ body ∈ [0, put 0x90 8 0x3000 + put 0x98 8 1],
    let c := coll op rank .issued (fun w => { w with ptab := [1, 0], cfg := 4 * 2 ^ 12, staging := 2 ^ 23 }) (if op ≤ 0x6002 then body else put 0x76 2 rank)
    let s := withCmd (net0 State.reset rank) c
    s.Ready r0 op c ∧ s.Plain ∧ s.frozen = false ∧ c.ref = r0 ∧ c.work = .coll c.cw ∧ 2 ≤ c.cw.group.n ∧ s.portA = some 0 ∧ c.cw.arrived = false ∧ c.cw.late = false ∧
      c.cw.mask = none ∧ s.coll.grants = [] ∧ s.deadlinePast c = false ∧ (c.readyAddr ≠ 0 → s.readMem c.readyAddr 8 < c.f 0x98 8) ∧
      c.cw.ptab.getD c.cw.group.rank 0 ≠ c.cw.group.rank ∧ c.cw.group.rank < c.cw.group.n ∧ 
      c.work = .coll { slot := c.cw.slot, group := c.cw.group, cfg := c.cw.cfg, staging := c.cw.staging, exps := c.cw.exps, ptab := c.cw.ptab } ∧ s.cmds = [c] ∧ c.stagedBytes < c.cw.staging ∧ c.cw.window = 4 ∧
      s.Clear 0 (s.pcpOf c.cw.group.vc) ∧ isAwake s = true := by
  simp -zeta only [ready_iff, plain_iff, clear_iff]
  decide +kernel

theorem witness_CollectivesStart_idle (s : State) (h : s.hoists = []) : ∀ k, (s.hoist k).hints = [] := by
  intro k
  simp only [State.hoist, h]
  rfl

theorem witness_CollectivesStart_images : (∀ op ∈ [0x6003, 0x6004],
    let c := coll op 1 .issued id (put 0x76 2 1)
    c.srcTd.image = [(0x1000, 16)] ∧ (c.dstImage (if op = 0x6003 then 1 else 0)).map (·.2) = [16] ∧ unitsOf (c.dstImage 0) = 1) ∧
    (let c : Cmd := { cm 0x6009 1 (put 0x10 1 0xBF + put 0x12 2 1 + put 0x18 8 0x5000 + put 0x20 8 0x6000 + put 0x28 8 100) with
       work := .coll { slot := 63, group := group2 0 } }
     (withCmd (net0 State.reset 0) c).Ready r0 0x6009 c ∧ (withCmd (net0 State.reset 0) c).Plain ∧ c.work = .coll c.cw) := by
  simp -zeta only [ready_iff, plain_iff]
  decide +kernel

/-- A started reduction: its ready word short and met, its deadline at the lead time and past; LATE with and without a match. -/
def started (rank deadline body : Nat) : Cmd := coll 0x6001 rank .running (fun w => { w with started := true, got := [0], cfg := 2 ^ 32 }) (put 0x88 8 deadline + body)

theorem witness_CollectivesMoveOn : ∀ rank ∈ [0, 1], ∀ body ∈ [0, put 0x90 8 0x3000 + put 0x98 8 1], ∀ time ∈ [0, 4000, 5000],
    let c := started rank 5000 body
    let s := { net0 (withCmd State.reset c) rank with time := time }
    (s.Plain ∧ s.running = true ∧ s.frozen = false ∧ s.braking = false ∧ s.fld F.CT_SLOG_BASE_SIZE_LOG2 0 = 0 ∧ s.cmd r0 = some c ∧ c.ref = r0 ∧ c.phase = .running ∧
      c.opcode / 4096 = 6 ∧ c.cw.started = true ∧ c.work = .coll c.cw) ∧
    (c.isReduction = true ∧ c.cw.arrived = false ∧ c.cw.late = false ∧ c.deadline ≠ 0 ∧ c.cw.leadUs ≠ 0 ∧ c.cw.mask = none ∧ c.cw.aborting = none ∧
      (List.range c.cw.group.n).filter (fun i => c.cw.got.contains i && !(c.cw.lates.contains i)) ≠ []) ∧
    (s.now 4 + 1000 * c.cw.leadUs < c.deadline ↔ time = 0) ∧ (s.deadlinePast c = true ↔ time = 5000) ∧
    (c.readyAddr = 0 ↔ body = 0) ∧ (c.readyAddr ≠ 0 → s.readMem c.readyAddr 8 < c.f 0x98 8 ∧ c.f 0x98 8 ≤ (s.putRaw c.readyAddr 1 8).readMem c.readyAddr 8) ∧
    isAwake (s.putRaw c.readyAddr 1 8) = true := by
  simp -zeta only [plain_iff]
  decide +kernel

theorem witness_CollectivesMoveOn_late : ∀ red ∈ [7, 8],
    let c := started 1 0 0
    let e : Cmd := { cm 0x6006 1 (put 0x10 1 0xBF + put 0x14 4 red + put 0x18 8 3) with ref := ⟨1, 0⟩ }
    let s := { net0 State.reset 1 with cmds := [c, e] }
    s.Ready ⟨1, 0⟩ 0x6006 e ∧ s.noStaging = false ∧ ((s.resolve (e.f 0x10 1)).map (·.1) = some c.cw.slot ∧ c.f 0x78 4 = e.f 0x14 4 ∧ c.f 0x80 8 = e.f 0x18 8 ↔ red = 7) := by
  simp -zeta only [ready_iff]
  decide +kernel

/-- An overdue SLICE_FETCH, with port 0 UP and with none; a flow of one unacknowledged frame. -/
theorem witness_CollectivesMoveOn_overdue : ∀ up ∈ [0, 2],
    let c : Cmd := { cm 0x6009 1 (put 0x12 2 1 + put 0x28 8 100) with phase := .running, work := .coll { slot := 63, group := group2 0, started := true } }
    let s := { (net0 (withCmd State.reset c) 0).setFld F.PORT_STATUS_STATE 0 up with time := 1000000 }
    let y : CFrame := { typ := 1, vc := 0, gid := 9, src := 1, dst := 0, redId := 7, step := 3 }
    let d : Cmd := { c with work := .coll { slot := 63, group := group2 0, started := true, flows := [{ peer := 1, unacked := [y] }] } }
    s.Plain ∧ s.cmd r0 = some c ∧ c.cw.seen (c.f 0x12 2) + 1000 * c.cw.group.faultUs ≤ s.time ∧ max c.cw.lastSeen s.portsDownAt + 1000 * c.cw.group.faultUs ≤ s.time ∧
      ({ s with time := 999999 } : State).time < c.cw.lastSeen + 1000 * c.cw.group.faultUs ∧ s.Clear 0 (s.pcpOf y.vc) ∧ (s.portA = none ↔ up = 0) ∧ r0.q ≠ 512 ∧
      (d.cw.flow 1).unacked ≠ [] ∧ (d.cw.flow 1).retries < 7 ∧ (d.cw.flow 1).peer = 1 ∧ (withCmd s d).cmd r0 = some d := by
  simp -zeta only [plain_iff, clear_iff]
  decide +kernel

/-! Frames: of no group, of a group without a command, and of each kind to a running command, the last flow number before and at the expected one. -/

def frame (typ src seq : Nat) (gid : Nat := 9) (data : Nat := 0) (plen : Nat := 16) : CFrame :=
  { typ := typ, vc := 0, gid := gid, src := src, dst := 0, redId := 7, step := 3, seq := seq, plen := plen, data := data }

theorem witness_CollectiveFramesAreAnsweredInOrder : ∀ typ ∈ [1, 2, 3, 4, 5, 6, 7, 8, 11, 12, 14], ∀ gid ∈ [9, 10],
    let s := net0 State.reset 0
    let t := net0 (withCmd State.reset (coll 0x6001 0 .running (fun w => { w with started := true, flows := [{ peer := 1, recvSeq := 5 }] }))) 0
    (frame typ 1 0 gid).major = 1 ∧ ({ frame typ 1 0 gid with major := 2 } : CFrame).major ≠ 1 ∧ State.reset.takes 0 = false ∧ s.frozen = false ∧ s.TakesFrame 0 (frame typ 1 0 gid) ∧ (frame typ 1 0 gid).typ = typ ∧ s.collOf (CFrame.key (frame typ 1 0 gid)) = none ∧
      s.coll.ended.contains (CFrame.key (frame typ 1 0 gid)) = false ∧ ((∃ g ∈ s.groups, g.gid = gid) ↔ gid = 9) ∧
      t.TakesFrame 0 (frame typ 1 4) ∧ t.TakesFrame 0 (frame typ 1 6) ∧ t.Clear 0 (t.pcpOf 0) ∧ t.portA = some 0 ∧ (t.collOf (CFrame.key (frame typ 1 4))).isSome = true ∧ seqBefore 4 5 = true ∧ seqBefore 6 5 = false ∧
      ∀ c ∈ (t.collOf (CFrame.key (frame typ 1 4))).toList, (c.cw.flow 1).recvSeq = 5 ∧ t.cmd c.ref = some c := by
  simp -zeta only [takes_iff, clear_iff]
  decide +kernel

/-- An ACK; a FETCH_REQ with fetching disabled and enabled; a FETCH_NAK and an ABORT. -/
theorem witness_CollectiveFramesAreAnsweredInOrder_answers :
    (let c := coll 0x6001 0 .running (fun w => { w with started := true, flows := [{ peer := 1 }] })
     let s := net0 (withCmd State.reset c) 0
     s.Plain ∧ s.frozen = false ∧ s.TakesFrame 0 (frame 9 1 0) ∧ s.TakesFrame 0 (frame 14 1 0) ∧ (frame 14 1 0).seq = (c.cw.flow 1).recvSeq ∧ s.portA = some 0 ∧ s.gangOf (CFrame.key (frame 9 1 0)) = none ∧ s.collOf (CFrame.key (frame 9 1 0)) = some c ∧
      s.cmd c.ref = some c ∧ c.isReduction = true ∧ c.cw.settled.length < c.cw.group.n ∧ (c.cw.flow 1).queued = [] ∧ (c.cw.flow 1).peer = 1 ∧ (frame 14 1 0).typ = 14) ∧
    (∀ en ∈ [0, 1], let s := (net0 State.reset 0).setFld F.CT_CFG_FETCH_EN 0 en
     let f := frame 10 1 0 9 (put 0 8 0x1000 + put 8 8 64)
     s.Plain ∧ s.TakesFrame 0 f ∧ s.asleep [(le f.data 0 8, le f.data 8 8)] = false ∧ s.portA = some 0 ∧ s.gangOf (CFrame.key f) = none ∧ f.typ = 10 ∧ s.groups.find? (fun g => g.gid = f.gid) = some (group2 0) ∧
      s.coll.served = [] ∧ (s.flag F.CT_CFG_FETCH_EN 0 = false ↔ en = 0) ∧ (s.spanFault .words (le f.data 0 8) (le f.data 8 8)).isSome = false) ∧
    (let c : Cmd := { cm 0x6009 1 (put 8 4 7 + put 0x12 2 1 + put 0x28 8 100) with phase := .running, work := .coll { slot := 63, group := group2 0, started := true } }
     let s := net0 (withCmd State.reset c) 0
     let f : CFrame := { frame 12 1 0 with redId := c.seqNo, step := 0 }
     s.collOf (CFrame.key f) = some c ∧ s.cmd c.ref = some c ∧ c.opcode = 0x6009 ∧ c.f 0x12 2 = f.src ∧ s.TakesFrame 0 f ∧ s.gangOf (CFrame.key f) = none ∧ f.seq = (c.cw.flow f.src).recvSeq) := by
  simp -zeta only [plain_iff, takes_iff]
  decide +kernel

/-- ARRIVE and LATE at rank 0 while both ranks but the sender's are awaited, GO, UP, DOWN and side data at a reduction; XFER at an ALLGATHER; the last
unit of a fetch. -/
theorem witness_FramesAdvanceTheirCollective : ∀ typ ∈ [1, 2, 3, 4, 5, 6, 7, 8],
    let c := coll (if typ = 8 then 0x6003 else 0x6001) 0 .running (fun w => { w with started := true })
    let s := net0 (withCmd State.reset c) 0
    let f := frame typ 1 0 9 0xABCD
    s.Plain ∧ s.frozen = false ∧ s.TakesFrame 0 f ∧ isAwake s = true ∧ s.collOf (CFrame.key f) = some c ∧ s.cmd c.ref = some c ∧ f.seq = (c.cw.flow f.src).recvSeq ∧
      s.fld F.CT_SLOG_BASE_SIZE_LOG2 0 = 0 ∧ f.typ = typ ∧ (typ ≠ 8 → c.isReduction = true ∧ c.cw.group.rank = 0 ∧ c.cw.mask = none ∧ c.opcode = 0x6001) ∧
      0 ∉ c.cw.got ∧ 0 ∉ c.cw.lates ∧ 0 ≠ f.src ∧ c.cw.settled.length < c.cw.group.n ∧ le f.data 0 4 = c.cw.group.gsig := by
  simp -zeta only [plain_iff, takes_iff]
  decide +kernel

theorem witness_FramesAdvanceTheirCollective_fetch :
    let c : Cmd := { cm 0x6009 1 (put 8 4 7 + put 0x12 2 1 + put 0x20 8 0x6000 + put 0x28 8 100) with phase := .running, work := .coll { slot := 63, group := group2 0, started := true } }
    let s := net0 (withCmd State.reset c) 0
    let f : CFrame := { frame 11 1 0 9 5 100 with redId := c.seqNo, step := 0 }
    s.Plain ∧ s.TakesFrame 0 f ∧ isAwake s = true ∧ s.collOf (CFrame.key f) = some c ∧ s.cmd c.ref = some c ∧ f.seq = (c.cw.flow f.src).recvSeq ∧ c.opcode = 0x6009 ∧
      ceilDiv (c.f 0x28 8) 8192 ≤ c.cw.units.length + 1 := by
  simp -zeta only [plain_iff, takes_iff]
  decide +kernel

/-! ## Witnesses: input, control, security, power -/

/-- A descriptor of one frame of 16 by 16, and one of codec 0. -/
def desc (codec : Nat) : Nat := put 1 1 1 + put 2 1 codec + put 4 2 16 + put 6 2 16 + put 8 8 0x10000 + put 0x10 4 64 + put 0x18 2 1 + put 0x1C 4 1 +
  put 0x24 2 16 + put 0x26 2 16 + put 0x28 4 64 + put 0x2C 4 1
def dec (phase : Phase) (w : Work) (e2 : Nat) : Cmd :=
  { cm 0x7001 3 (put 0x10 8 0x3000 + put 0x18 8 0x20000 + td 0x40 0x8000 1 192 1 e2 1 3 + put 0x71 1 1 + put 0x74 2 8 + put 0x76 2 8) with phase := phase, work := w }

theorem witness_LanesDecodeAndTokenize : ∀ o ∈ [(1, 1), (0, 1), (1, 2)],
    let c := dec .issued .none o.2
    let s := (withCmd State.reset c).putRaw 0x3000 (desc o.1) 128
    let d := s.readMem (c.fb 0x10 47 0) 128
    s.Plain ∧ s.Quiet ∧ s.running = true ∧ s.frozen = false ∧ s.braking = false ∧ s.fld F.BLT_DMG_BASE_SIZE_LOG2 0 = 0 ∧ s.input.current = none ∧ s.input.queue = [] ∧
      s.input.soloV = [] ∧ s.input.soloT = [] ∧ s.input.starved = none ∧ (∀ e ∈ s.cmds, e.opcode ≠ 0x9002 ∧ e.opcode ≠ 0x7005) ∧ s.UnitReady r0 0x7001 c ∧
      ((s.malformed d c.tp.tt = true ∨ Desc.codec d = 0) ↔ o.1 = 0) ∧ ((tdAt c.pkt 0x40).e 2 = Desc.nout d / c.tp.tt ↔ o.2 = 1) ∧ s.freeLane true = some 0 := by
  simp -zeta only [plain_iff, quiet_iff, unit_iff]
  decide +kernel

/-- The last lanes finish: a sample of a list that is read as zeros, and a text of eight bytes. -/
theorem witness_LanesDecodeAndTokenize_done :
    (let c := dec .running (.sample 0) 1
     let s := (withCmd State.reset c).setLane true 23 (some { cmd := r0, sample := 0 })
     let out : Td := { tdAt c.pkt 0x40 with ovp := c.tp.ovp }
     (∀ k < 64, out.Outside (c.fb 0x18 47 0 + k)) ∧ s.running = true ∧ s.Plain ∧ s.Quiet ∧ s.braking = false ∧ s.lane true (23 : Fin 24) = some { cmd := r0, sample := 0 } ∧ s.cmd r0 = some c ∧ c.ref = r0 ∧ c.phase = .running ∧
      s.stalled c = false ∧ c.opcode = 0x7001 ∧ c.fb 0x18 47 0 = 0x20000 ∧ ({ tdAt c.pkt 0x40 with ovp := c.tp.ovp } : Td).Regular) ∧
    (let b := put 0x10 8 0x3000 + put 0x18 4 8 + put 0x20 8 0x5000 + put 0x28 4 16
     let c : Cmd := { cm 0x7002 1 b with phase := .running, work := .sample 0 }
     let s := (withCmd State.reset c).setLane false 3 (some { cmd := r0, sample := 0 })
     s.Plain ∧ s.Quiet ∧ s.lane false (3 : Fin 4) = some { cmd := r0, sample := 0 } ∧ s.cmd r0 = some c ∧ c.ref = r0 ∧ s.stalled c = false ∧ c.fb 0x30 47 0 = 0 ∧
      (withCmd State.reset (cm 0x7002 1 b)).UnitReady r0 0x7002 (cm 0x7002 1 b) ∧ (withCmd State.reset (cm 0x7002 1 b)).freeLane false = some 0) := by
  simp -zeta only [plain_iff, quiet_iff, unit_iff, regular_iff, outside_iff]
  decide +kernel

/-- A dictionary head that is refused, one of one token whose image is out of range, and a whole one of one token "a". -/
theorem witness_LanesDecodeAndTokenize_dict : ∀ o ∈ [(0, 0x3000), (1, 0x3000)],
    let c := cm 0x7003 1 (put 0x10 8 o.2 + put 0x18 1 1)
    let h := put 1 1 o.1 + put 4 4 1 + put 8 4 10
    let s := (withCmd State.reset c).putRaw o.2 h 64
    s.Plain ∧ s.UnitReady r0 0x7003 c ∧ (dictFault (s.readMem (c.fb 0x10 47 0) 64) false = none ↔ o.1 = 1) ∧
      s.spanFault .ilv (c.fb 0x10 47 0) (64 + 8 + Dict.poolLen h) = none ∧ c.f 0x18 1 ≤ 1 := by
  simp -zeta only [plain_iff, unit_iff]
  decide +kernel

/-- A Hopper of two slots, off and on, slot 1 READY or TAKEN. -/
def hopper (on : Nat) (x : HopSlotState) (c : Cmd) : State :=
  ((withCmd ((rst F.HOP_STATUS_EN 0 on).setFld F.HOP_CFG_SLOTS 0 2) c).setFld F.HOP_STATUS_TAKE_IDX 0 1).setHopSlot 1 { st := x, batch := 3 }

theorem witness_HopperTakesAndReturns : ∀ on ∈ [0, 1], ∀ x ∈ [HopSlotState.free, .ready, .taken], ∀ m ∈ [0, 1],
    let c := cm 0x7005 1 (put 0x10 1 m + put 0x11 1 1 + put 0x18 8 0x6000)
    let d := cm 0x7004 3 (put 0x10 8 0x3000 + put 0x18 4 1 + put 0x20 2 1 + put 0x24 4 16)
    let s := hopper on x c
    s.Plain ∧ s.Quiet ∧ s.running = true ∧ s.frozen = false ∧ s.braking = false ∧ s.input.current = none ∧ s.input.queue = [] ∧ s.input.soloV = [] ∧ s.input.soloT = [] ∧
      s.input.starved = none ∧ (∀ e ∈ s.cmds, e.phase ≠ .waiting) ∧ s.UnitReady r0 0x7005 c ∧ (s.hopOn = true ↔ on = 1) ∧ (c.f 0x10 1 = 0 ↔ m = 0) ∧
      s.fld F.HOP_CFG_LOW_WATER 0 = 0 ∧ (s.hopSlot (s.fld F.HOP_STATUS_TAKE_IDX 0)).st = x ∧ (s.hopSlot (c.f 0x11 1)).st = x ∧ (hopper on x d).UnitReady r0 0x7004 d ∧
      (s.hopCount .free = s.hopSize ↔ x = .free) ∧ (∀ e ∈ s.cmds, ¬ (e.opcode = 0x7004 ∧ (e.phase = .issued ∨ e.phase = .running))) := by
  simp -zeta only [plain_iff, quiet_iff, unit_iff]
  decide +kernel

/-- The last engine, update unit, lane and port, a unit that cannot be quarantined; MODE 0 and 1; an engine in and out of service. -/
theorem witness_UnitsAreTestedAndQuarantined : ∀ u ∈ [unitEngine 15, unitEngine 15 + 0x1C, unitBolter, unitPort 7, 0xFFF], ∀ m ∈ [0, 1], ∀ quar ∈ [0, 8],
    let c := cm 0x9002 1 (put 0x10 2 u + put 0x12 1 23 + put 0x13 1 m)
    let s := { (withCmd ((rst F.RC_ENGMAP_QUAR 3 quar).setFld F.PORT_STATUS_STATE 7 (4 * m)) c).setFld F.UPD_CTL_MODE 31 1 with obs := { katPassed := [15] } }
    s.Ready r0 0x9002 c ∧ s.Untraced ∧ s.fld F.ERR_RING_BASE_SIZE_LOG2 0 = 0 ∧ (∀ e ∈ s.cmds, e.opcode = 0x9002 → e.ref = r0) ∧ (∀ e ∈ s.cmds, e.opcode / 4096 ≠ 2) ∧
      s.input.current = none ∧ s.input.queue = [] ∧ s.input.soloV = [] ∧ s.input.soloT = [] ∧ s.input.starved = none ∧ (∀ e ∈ s.cmds, e.phase ≠ .waiting) ∧ c.ref = r0 ∧
      c.f 0x10 2 = u ∧ c.f 0x12 1 < 24 ∧ (c.f 0x13 1 = 0 ↔ m = 0) ∧ s.unitBusy u (c.f 0x12 1) = false ∧ (targetOf u = none ↔ u = 0xFFF) ∧
      (s.engineOut 15 = true ↔ quar = 8) ∧ 15 ∈ s.obs.katPassed ∧ s.fld F.UPD_CTL_MODE 31 = 1 ∧ (s.fld F.PORT_STATUS_STATE 7 = 0 ∨ s.fld F.PORT_STATUS_STATE 7 = 4) := by
  simp -zeta only [ready_iff, untraced_iff]
  decide +kernel

theorem witness_UnitsAreTestedAndQuarantined_targets : targetOf (unitEngine 15) = some (.engine 15) ∧ targetOf (unitEngine 15 + 0x1C) = some (.upd 31) ∧
    targetOf unitBolter = some (.lane true) ∧ targetOf (unitPort 7) = some (.port 7) ∧ 15 ∉ ({} : Observe).katPassed := by
  decide +kernel

/-- KAT_RUN of engine 3 of a region in and out of service, and of a region that is none; ERROR_RING_CFG; PORT_CTL UP and DOWN in each state. -/
theorem witness_UnitsAreTestedAndQuarantined_kat : ∀ b ∈ [0, 3, 4], ∀ quar ∈ [0, 8], ∀ sets ∈ [0, 1],
    let c := cm 0xB005 1 (put 0x10 1 b + put 0x11 1 8 + put 0x12 1 sets + put 0x18 8 0x4000)
    let s := withCmd (rst F.RC_ENGMAP_QUAR b quar) c
    s.Plain ∧ s.Untraced ∧ s.fld F.ERR_RING_BASE_SIZE_LOG2 0 = 0 ∧ s.UnitReady r0 0xB005 c ∧ ¬ s.regionOf r0.q < 4 ∧ c.f 0x10 1 = b ∧
      (b ≤ 3 → ((∀ m ∈ (List.range 4).filter (fun m => (c.f 0x11 1).testBit m), s.engineOut (4 * b + m) = true) ↔ quar = 8)) := by
  simp -zeta only [plain_iff, untraced_iff, unit_iff]
  decide +kernel

theorem witness_UnitsAreTestedAndQuarantined_ports : ∀ x ∈ [0, 1, 2, 3, 4], ∀ m ∈ [0, 1],
    let c := cm 0x9004 1 (put 0x10 1 7 + put 0x11 1 m)
    let d := cm 0x9005 1 (put 0x10 8 0x4000 + put 0x18 1 31)
    let s := withCmd (rst F.PORT_STATUS_STATE 7 x) c
    s.Plain ∧ s.Untraced ∧ s.fld F.ERR_RING_BASE_SIZE_LOG2 0 = 0 ∧ s.Ready r0 0x9004 c ∧ c.f 0x10 1 = 7 ∧ c.f 0x11 1 = m ∧ s.fld F.PORT_STATUS_STATE 7 = x ∧
      (withCmd (State.reset.setDom (netDom 7) true) c).domOn (netDom 7) = true ∧ s.domOn (netDom 7) = false ∧ (withCmd State.reset d).Ready r0 0x9005 d ∧ d.f 0x18 1 < 32 ∧ d.fb 0x10 47 0 % 64 = 0 := by
  simp -zeta only [plain_iff, untraced_iff, ready_iff]
  decide +kernel

/-- A class 0xA command at the front, with debug allowed and not, with and without an identity and a certificate of 100 bytes. -/
def secured (allow : Nat) (seed : Option Nat) (certLen : Nat) (c : Cmd) : State :=
  { withCmd State.reset c with sec := { queue := [r0], cfg := put 2 2 allow, seed := seed },
                               flash := [(0x20000, BitVec.ofNat 8 certLen), (0x20001, 0), (0x20002, 0), (0x20003, 0)] }

theorem witness_SecurityAndRecoveryRunTheirProtocols : ∀ op ∈ [0xA001, 0xA002, 0xA003, 0xA004], ∀ o ∈ [(0, none, 0, 0), (1, some 5, 100, 1), (1, some 5, 100, 2)],
    let c := cm op 1 (if op = 0xA003 then put 0x10 8 0x4000 + put 0x18 4 (if o.2.2.2 = 2 then 103 else 104) else if op = 0xA004 then put 0x10 1 o.2.2.2 + put 0x11 1 1 + put 0x18 8 0x4000
      else put 0x10 8 7)
    let s := secured o.1 o.2.1 o.2.2.1 c
    s.Plain ∧ s.Untraced ∧ s.secHead = some r0 ∧ s.Ready r0 op c ∧ (s.sec.seed = none ↔ o.1 = 0) ∧ (s.debugAllowed = true ↔ o.1 = 1) ∧
      (s.certificate.map (·.1) = if o.1 = 1 then some 100 else none) ∧ (op = 0xA003 → (c.f 0x18 4 < 104 ↔ o.2.2.2 = 2) ∧ s.spanFault .ilv (c.fb 0x10 47 0) 104 = none) ∧
      (op = 0xA004 → c.f 0x10 1 = o.2.2.2) := by
  simp -zeta only [plain_iff, untraced_iff, ready_iff]
  decide +kernel

/-- No challenge stands: a response fails whatever its signature (the signature check itself rests on a key the model does not fix). -/
theorem witness_SecurityAndRecoveryRunTheirProtocols_response : ((secured 1 none 0 (cm 0xA004 1 (put 0x10 1 1))).unlock 1 0).2 = false := by decide +kernel

/-- No priority of a port is paused at reset, whichever the free one is. -/
theorem witness_SecurityAndRecoveryRunTheirProtocols_clear : State.reset.Clear 4 Config.otherPcp := ⟨Nat.le_refl 0, fun _ h => nomatch h⟩

theorem witness_SecurityAndRecoveryRunTheirProtocols_recovery : ∀ up ∈ [true, false], ∀ se ∈ [none, some 5], ∀ f ∈ [({ session := 5, len := 4, data := 0x300000 } : RecFrame),
      { session := 5, len := 4, data := 0x300001 }, { session := 5, offset := 1024, len := 1024 }, { session := 5, offset := 2048, len := 1024 }, { session := 5, offset := 0, len := 1024 }],
    let s : State := { State.reset with pwr := { phase := .recovery }, sec := { recover := { linkUp := up, session := se, imgLen := 2048, next := 1024 } } }
    s.frozen = false ∧ s.pwr.phase = .recovery ∧ s.sec.recover.linkUp = up ∧ s.sec.recover.session = se ∧ f.port = 4 ∧ f.version / 16 = 1 ∧
      (f.offset = s.sec.recover.next → f.offset % 1024 = 0 ∧ 1 ≤ f.len ∧ f.len ≤ 1024 ∧ f.offset + f.len ≤ s.sec.recover.imgLen) ∧
      s.sec.recover.next ≠ s.sec.recover.imgLen ∧ imageResult 0 2048 s.minFw = 1 := by
  decide +kernel

/-- Each threshold of the input voltage at its boundary, with the always-on domain running and not; a last-gasp slot armed and not. -/
theorem witness_InputFaultsHoldUp : State.reset.alive = true ∧ 32000 ≤ State.reset.pwr.vinMv ∧ (31000 ≤ 31999 ∧ 31999 < 32000) ∧ 30999 < 31000 ∧ (41000 < 48000 ∧ 48000 ≤ 48000) ∧
    ({ State.reset with pwr := {} } : State).alive = false ∧
    (let s : State := { State.reset with pwr := { phase := .holdup } }
     s.pwr.phase = .holdup ∧ s.gaspSlot = none ∧ ((s.setFld F.GOV_LG_ARMED 0 1).setFld F.GOV_LG_ERASED 0 0x80).gaspSlot = some 7 ∧
      s.time < s.pwr.holdAt + 20000000 ∧ ¬ ({ s with time := 20000000 } : State).time < s.pwr.holdAt + 20000000) ∧ 23999 < 24000 ∧ (24000 ≤ 30999 ∧ 30999 < 31000) ∧
    State.reset.pwr.phase ≠ .holdup := by
  decide +kernel

theorem witness_ResetsKeepWhatTheyName :
    ({ State.reset with pwr := {} } : State).pwr.phase = .off ∧ State.reset.pwr.phase ≠ .off ∧ State.reset.pwr.phase ≠ .holdup ∧ State.reset.running = true ∧
      State.reset.pwr.refclk = true ∧ Agent.reachesRegs .devctl = true ∧ Agent.reachesRegs .netA = false ∧
      (let s : State := { State.reset with pwr := { phase := .fatal } }
       s.pwr.phase = .fatal ∧ s.pwr.refclk = true ∧ s.pwr.resetN = true) ∧ ({ State.reset with pwr := {} } : State).alive = false ∧
      (let s : State := { State.reset with pwr := { refclk := false } }
       s.pwr.refclk = false ∧ isUntraced s = true) ∧ 32000 ≤ ({ vinMv := 32000 } : StartEnv).vinMv ∧ ({ vinMv := 31999 } : StartEnv).vinMv < 32000 := by
  decide +kernel

/-- The cap at 1,500 W: above, at 97 % and below; every setting at its limit; the temperature thresholds at their boundaries (in 1/16 °C). -/
theorem witness_GovernorThrottlesAndSwitchesDomains : State.reset.running = true ∧ State.reset.alive = true ∧ 1000 * State.reset.fld F.GOV_STATUS_EFF_CAP_W 0 < 1500001 ∧
    ¬ 1000 * State.reset.fld F.GOV_STATUS_EFF_CAP_W 0 < 1500000 ∧ 100 * 1454999 < 97 * (1000 * State.reset.fld F.GOV_STATUS_EFF_CAP_W 0) ∧
    (∃ x ∈ [((0, 31, true) : Steps), (8, 31, true), (8, 16, true), (8, 8, true)], atLimit x = true) ∧ (1600 : Int) = 16 * 100 ∧ (1552 : Int) = 16 * 97 ∧ (1728 : Int) = 16 * 108 ∧
    (71 : Fin 72).val ∉ State.reset.pwr.droop ∧ (71 : Fin 72).val ∈ ({ State.reset with pwr := { State.reset.pwr with droop := [71] } } : State).pwr.droop := by
  decide +kernel

theorem witness_GovernorThrottlesAndSwitchesDomains_domains : State.reset.fld F.ERR_RING_BASE_SIZE_LOG2 0 = 0 ∧ isUntraced State.reset = true ∧
    Agent.firmware (.hart 0) = false ∧ Agent.firmware .devctl = true ∧ (∃ d ∈ List.range 72, State.reset.domRefused d true = true ∨ State.reset.domRefused d false = true) ∧
    (∃ d ∈ List.range 72, State.reset.domRefused d true = false) ∧ State.reset.pwr.requests = [] ∧
    (let s : State := { State.reset with pwr := { State.reset.pwr with requests := [(71, true)] } }
     s.running = true ∧ s.pwr.requests = ((71 : Fin 72).val, true) :: [] ∧ s.domReady (71, true) = true) ∧
    (∀ on ∈ [true, false], let s : State := { (rst F.CL_CTL_ON 7 (if on then 0 else 1)) with pwr := { State.reset.pwr with requests := [(67, on)] } }
     s.running = true ∧ s.pwr.requests = ((67 : Fin 72).val, on) :: [] ∧ s.domReady (67, on) = true) ∧ 0xFF ∉ pmbusCodes := by
  decide +kernel

theorem witness_ChipFaultsStopTheDevice : State.reset.running = true ∧ (Tab.get ({} : Link) State.reset.links (7 : Fin 8).val).full = true ∧
    (Tab.get ({} : Link) ({ State.reset with links := [(7, { full := false })] } : State).links (7 : Fin 8).val).full = false ∧
    (0x0F01 ≤ ({ code := 0x0F09, unit := 0 } : FatalFault).code ∧ ({ code := 0x0F09, unit := 0 } : FatalFault).code ≤ 0x0F09) ∧ (∀ k ∈ [1, 3], bits (k <<< 61) 63 61 = k) ∧
    (({ code := 0x0F00, unit := 0 } : FatalFault).code < 0x0F01) ∧ (({ code := 0x0F0A, unit := 0 } : FatalFault).code > 0x0F09) ∧
    ({ code := 0x0F03, unit := 0, arg := 0x3F } : FatalFault).code = 0x0F03 ∧ (partOf 0x3F).isSome = true ∧ partOf 0x40 = none ∧
    ({ State.reset with pwr := {} } : State).running = false := by
  decide +kernel

/-! ## Witnesses: stacks, repair, coherence, cores, networks, accesses -/

/-- The last channel, die, bank and stack; a request of its bank waiting, its refresh postponed up to the limit and not; asleep and awake. -/
def req0 : BurstReq := { cls := .crit, line := 0, op := .writeBack 5 }
def chanState (c : Chan) (asleep : Bool) (state : Nat) : State :=
  { rst F.CH_STATE_STATE 0 state with chans := [(0, c)], stks := [(0, { selfRef := asleep, lowered := [(0, 1)] })] }

theorem witness_SlotsRefreshAndGradesFollowTheirRules : ∀ asleep ∈ [false, true], ∀ state ∈ [0, 1, 2], ∀ tent ∈ [0, 3], ∀ n ∈ [3, 4], ∀ at_ ∈ [0, 57344 * 1024 - 1],
    let s := { chanState { queue := [req0], tentDue := tent, banks := [(0, { postponed := n })], scrubAt := at_ } asleep state with time := 32000000 }
    s.Plain ∧ s.Quiet ∧ (s.stack 0).selfRef = asleep ∧ s.fld F.CH_STATE_STATE 0 = state ∧ (s.chan 0).tentDue = tent ∧ (s.chan 0).refresh = [] ∧
      (Tab.get ({} : BankRef) (s.chan 0).banks 0).postponed = n ∧ (s.stack 0).lowered = [(0, 1)] ∧ 0 + 32000000 ≤ s.time ∧ ({ s with time := 31999999 } : State).time < 0 + 32000000 ∧
      (s.chan 0).scrubAt = at_ := by
  simp -zeta only [plain_iff, quiet_iff]
  decide +kernel

theorem witness_SlotsRefreshAndGradesFollowTheirRules_queued : ∀ n ∈ [3, 4], ∀ pay ∈ [false, true],
    let s := chanState { queue := [req0], banks := [(0, { postponed := n, paying := pay })] } false 0
    (∃ q ∈ (s.chan (0 : Fin 512)).queue, ∃ p ∈ (s.placeAt q.line).toList, p.2.die = (0 : Fin 16).val ∧ p.2.bank = (0 : Fin 32).val) ∧ s.stack ((0 : Fin 512) / 16) = { lowered := [(0, 1)] } ∧
      (Tab.get ({} : BankRef) (s.chan 0).banks 0).paying = pay ∧ (∀ q ∈ (s.chan (0 : Fin 512)).queue, ∀ p ∈ (s.placeAt q.line).toList, ¬ (p.2.die = (15 : Fin 16).val ∧ p.2.bank = (31 : Fin 32).val)) ∧
      (State.reset.chan 511).queue = [] := by
  decide +kernel

/-- A drift at and above DRIFT_TH with the windows of the last millisecond at and beyond the limit, an extra window owed and not. -/
theorem witness_SlotsRefreshAndGradesFollowTheirRules_windows : ∀ o ∈ [(10, 0), (11, 9311), (11, 9312)], ∀ e ∈ [false, true], ∀ k ∈ [TentKind.oscillator, .vref, .impedance],
    let s := { (rst F.STK_TENT_CFG_DRIFT_TH 0 10) with
      time := 5, chans := [(0, { oscLast := some 100, extraDue := e, tents := [(0, o.2 - (TentKind.slots k - 32))] })], stks := [(1, { selfRef := true })] }
    s.Untraced ∧ (s.fld F.STK_TENT_CFG_DRIFT_TH 0 < max 100 (100 + o.1) - min 100 (100 + o.1) ↔ o.1 = 11) ∧
      (s.tentSlots 0 + TentKind.slots k + 32 ≤ 9375 ↔ o.2 ≠ 9312) ∧ s.tentFits (0 : Fin 512) (TentKind.slots k) = true ∧ s.windowDue (0 : Fin 512) k = true ∧
      (s.chan 0).extraDue = e ∧ (s.stack 0).selfRef = false ∧ (s.stack 1).selfRef = true := by
  simp -zeta only [untraced_iff]
  decide +kernel

theorem witness_SlotsRefreshAndGradesFollowTheirRules_idle :
    let s := { State.reset with time := 5, chans := [(0, { slot := 1, tentLast := [(TentKind.num .vref, 1)], tents := [(0, 9344)] })] }
    s.windowDue (0 : Fin 512) .vref = false ∧ s.tentFits (0 : Fin 512) 32 = false := by
  decide +kernel

/-- The grades at their thresholds, a repair waiting and none, asleep and awake, below and at ten samples. -/
theorem witness_SlotsRefreshAndGradesFollowTheirRules_grades : ∀ n ∈ [8, 9], ∀ sr ∈ [false, true], ∀ w ∈ [none, some { kind := 1, chan := 15, die := 0, bank := 31, row := 4095 : RepOp }],
    let s := { (rst F.STK_THERM_GRADE 31 2) with time := 5, stks := [(31, { below := n, selfRef := sr, repWait := w })] }
    (∀ e ∈ s.cmds, e.opcode / 4096 ≠ 6) ∧ (∀ m < 2, s.liveQps m = []) ∧ s.Untraced ∧ s.running = true ∧ (s.stack (31 : Fin 32)).repWait = w ∧ (s.stack (31 : Fin 32)).selfRef = sr ∧ ((s.stack 31).below + 1 < 10 ↔ n = 8) ∧ s.fld F.STK_THERM_GRADE 31 = 2 ∧
      gradeOf 1681 = 3 ∧ gradeOf 1680 = 2 ∧ gradeOf 1520 = 2 ∧ gradeOf 1472 ≤ 2 ∧ gradeOf 1473 ≤ 2 ∧ (1472 : Int) ≤ gradeThr 2 - 48 ∧ ¬ (1473 : Int) ≤ gradeThr 2 - 48 ∧
      (s.stack 31).srSince + 1000000000 ≤ ({ s with time := 1000000000 } : State).time ∧ s.time < (s.stack 31).srSince + 1000000000 := by
  simp -zeta only [untraced_iff]
  decide +kernel

/-- Row 4,095, the last one of die 0, and 4,096 beyond it; a bank with four rows in soft entries and without; a stack busy and not. -/
theorem witness_ChannelsAreRepairedAndTested : ∀ row ∈ [4095, 4096], ∀ soft ∈ [[], [1, 2, 3, 4095], [1, 2, 3, 4]], ∀ busy ∈ [0, 1], ∀ g ∈ [2, 3],
    let s := (((rst F.REP_STATUS_BUSY 31 busy).setFld F.STK_THERM_GRADE 31 g).setBankRep 31 0 15 31 { soft := soft })
    s.Plain ∧ s.running = true ∧ s.fld F.ERR_RING_BASE_SIZE_LOG2 0 = 0 ∧ (row < rowsOfDie 0 ↔ row = 4095) ∧ (s.bankRep 31 0 15 31).soft = soft ∧
      (s.bankRep 31 0 15 31).hard = [] ∧ (s.flag F.REP_STATUS_BUSY 31 = true ↔ busy = 1) ∧ (s.stack 31).selfRef = false ∧ s.fld F.STK_THERM_GRADE 31 = g ∧ (s.backServed (31 : Fin 32) = true ↔ g = 2) ∧ ((∀ x ∈ soft, x ≠ row) ↔ ¬ (row = 4095 ∧ 4095 ∈ soft)) ∧
      (s.stack 31).rep = none ∧ (s.stack 31).repNext = [] ∧
      ((s.setStack 31 { s.stack 31 with rep := some { kind := 2, chan := 15, die := 0, bank := 31, row := row } }).stack 31).rep.isSome = true := by
  simp -zeta only [plain_iff]
  decide +kernel

/-- A channel in each state; the device quiesced; BIST idle, in progress and its log of one entry full. -/
theorem witness_ChannelsAreRepairedAndTested_mbist : ∀ g ∈ [0, 1, 2, 3], ∀ busy ∈ [0, 1],
    let s := { (rst F.CH_STATE_STATE 511 g).setFld F.TST_MBIST_STATUS_BUSY 0 busy with obs := { mbist := if busy = 1 then some (1, 511, 15) else none } }
    s.Plain ∧ s.running = true ∧ s.fld F.ERR_RING_BASE_SIZE_LOG2 0 = 0 ∧ s.fld F.CH_STATE_STATE 511 = g ∧ s.quiesced = true ∧ Agent.firmware (.rgnctl 3) = true ∧
      Agent.firmware (.hart 0) = false ∧ (s.flag F.TST_MBIST_STATUS_BUSY 0 = false ↔ busy = 0) ∧ s.fld F.CH_STATE_STATE (511 % 512) = g ∧ 511 / 2 ^ 16 % 4 ≠ 3 ∧
      (s.obs.mbist = none ↔ busy = 0) ∧ [({ die := 0, bank := 0, row := 0, lanes := 0 } : MbistRow)].length ≤ 2 ^ s.fld F.TST_MBIST_LOG_ENTRIES_LOG2 0 ∧
      2 ^ s.fld F.TST_MBIST_LOG_ENTRIES_LOG2 0 < [({ die := 0, bank := 0, row := 0, lanes := 0 } : MbistRow), { die := 1, bank := 0, row := 0, lanes := 0 }].length := by
  simp -zeta only [plain_iff]
  decide +kernel

/-- A burst whose every symbol differs reads as an error; a hold of its unit in slot 0, slots full, and holds in each state. -/
def spoilt : State := { State.reset with ecc := [(lineOf 0x1000, 2 ^ 576 - 1)] }

theorem witness_HoldsAreRepairedAndReleased : State.reset.badLine (lineOf 0x1000) = false ∧ spoilt.badLine (lineOf 0x1000) = true ∧ (chanOf spoilt.localGib 0x1000).isSome = true ∧
    spoilt.fld F.ERR_RING_BASE_SIZE_LOG2 0 = 0 ∧ spoilt.running = true ∧ isUntraced spoilt = true ∧
    (∀ b ∈ [[], [0x1000]], let s := spoilt.setHold 0 0 (some { unit := hoistUnit 0 0x1000, state := 2, bursts := b })
     s.hold 0 0 = some { unit := hoistUnit s.localGib 0x1000, state := 2, bursts := b } ∧ (0x1000 / 64 * 64 ∈ b ↔ b ≠ [])) ∧
    (let s : State := { spoilt with holds := (List.range 16).map (fun k => (k, some { unit := 0x2000000 * (k + 1), state := 3 })) }
     ∀ j < 16, ∀ h ∈ (s.hold 0 j).toList, h.unit ≠ hoistUnit s.localGib 0x1000 ∧ h.state = 3) := by
  decide +kernel

theorem witness_HoldsAreRepairedAndReleased_check : ∀ x ∈ [1, 2, 3], ∀ b ∈ [[], [0x1000]],
    let h : Hold := { unit := 0, state := x, bursts := b, ran := b, rowed := b }
    let s := State.reset.setHold 3 15 (some h)
    s.Plain ∧ s.Untraced ∧ s.running = true ∧ s.frozen = false ∧ s.hold (3 : Fin 4) (15 : Fin 16) = some h ∧ h.bursts.any s.repBusy = false ∧ h.runs = [] ∧ (∀ y ∈ h.bursts, y ∈ h.rowed) ∧ h.failed = false ∧
      s.fld F.RC_RTAB_COUNT 3 = 0 ∧ h.state = x ∧ (b = [] → ∀ y ∈ h.bursts, y ∈ h.ran ∧ s.governs 3 y ≠ 3) := by
  simp -zeta only [plain_iff, untraced_iff]
  decide +kernel

/-! Lines: line 7 of the interleaved range, agents 12 and 0. -/

theorem witness_HomesServeAndSnoopsAnswer : ∀ at_ ∈ [0, 0x1FFF], ∀ x ∈ [LineState.i, .s, .e, .o, .m], ∀ g ∈ [1, 2], ∀ d ∈ [none, some { mode := 1, owner := 12 : DirEntry }],
    let s := { ((rst F.CF_AGENTS_ATTACHED 0 at_).setFld F.CH_STATE_STATE 1 g) with
      caches := if x = LineState.i then [] else [(cacheKey 12 7, { st := x, data := 5 })], dir := if d = none then [] else [(7, d)] }
    s.running = true ∧ s.coherent 7 = true ∧ s.ecc = [] ∧ (s.attached (12 : Fin 13) = true ↔ at_ ≠ 0) ∧ (s.copyOf (12 : Fin 13) 7).st = x ∧ (s.dir = [] ↔ d = none) ∧ s.dirOf 7 = d ∧
      (s.home 7).txn = none ∧ (s.caches = [] ↔ x = LineState.i) ∧ (s.holeAt (64 * 7) = true ↔ g = 2) ∧ (s.chanBlocked 7 .crit = true ↔ g = 2) ∧ (s.chanBlocked 7 .bulk = true ↔ g = 2) := by
  decide +kernel

/-- The reset state counts and traces nothing; a window of the line's channel blocks it. -/
theorem witness_HomesServeAndSnoopsAnswer_blocked : ∀ n ∈ [0, 1], let s : State := { State.reset with chans := [(1, { tentDue := n })] }
    s.Quiet ∧ s.running = true ∧ s.coherent 7 = true ∧ s.ecc = [] ∧ s.dir = [] ∧ (s.home 7).txn = none ∧ s.holeAt (64 * 7) = false ∧
      ∀ cls ∈ [TClass.coll, .bulk], (s.chanBlocked 7 cls = true ↔ n = 1) := by
  simp -zeta only [quiet_iff]
  decide +kernel

/-- The line's set of the L3 of cluster 7 with 15 and with 16 shared lines: room for one more, and none. -/
theorem witness_HomesServeAndSnoopsAnswer_room : ∀ n ∈ [15, 16],
    let s := { rst F.CF_AGENTS_ATTACHED 0 0x1FFF with caches := (List.range n).map (fun i => (cacheKey 7 (7 + l3.sets * (i + 1)), { st := .s, data := i })) }
    s.attached (7 : Fin 13) = true ∧ (s.copyOf (7 : Fin 13) 7).st = .i ∧ ((s.setOf 7 7).length < l3.ways ↔ n = 15) ∧ s.holeAt (64 * 7) = false ∧
      (s.setOf 7 7).all (fun l => decide ((s.copyOf (7 : Fin 13) l).st = .s)) = true := by
  decide +kernel

theorem witness_HomesServeAndSnoopsAnswer_owned : ∀ m ∈ [1, 2], ∀ o ∈ [0, 12], ∀ g ∈ [true, false], ∀ w ∈ [[], [HReq.readShared 3], [.evict 12], [.readShared 12, .evict 3]],
    let s := { (rst F.CF_AGENTS_ATTACHED 0 0x1FFF) with
      dir := [(7, some { mode := m, owner := o })], homes := [(8, { txn := some { req := .readShared 1, granted := g }, wait := w })],
      caches := if o = 12 then [(cacheKey 12 7, { st := .o })] else [] }
    s.running = true ∧ s.coherent 7 = true ∧ s.ecc = [] ∧ s.attached (12 : Fin 13) = true ∧ s.Quiet ∧ s.holeAt (64 * 7) = false ∧ s.dirOf 7 = some { mode := m, owner := o } ∧ m ≠ 0 ∧ (o ≠ (12 : Fin 13).val ↔ o = 0) ∧
      (s.home 7).txn = none ∧ (o = 12 → (s.copyOf (12 : Fin 13) 7).st = .o ∧ ∀ a ∈ ({ mode := m, owner := o } : DirEntry).named, a = 12) ∧
      (s.home 8).txn = some { req := .readShared 1, granted := g } ∧ (s.home 8).wait = w ∧ s.coherent 8 = true ∧ s.holeAt (64 * 8) = false ∧ (s.copyOf (12 : Fin 13) 8).st = LineState.i ∧
      s.instant 8 (.evict 12) = true ∧ s.instant 8 (.readShared 3) = false := by
  simp -zeta only [quiet_iff]
  decide +kernel

/-- Each snoop as the last answer awaited for its request, and as one of two; the agent's copy in each dirty or exclusive state. -/
theorem witness_HomesServeAndSnoopsAnswer_snoops : ∀ o ∈ [(Snoop.shared, HReq.readShared 1), (.unique, .readUnique 1 1 9 false), (.once, .readOnce 2), (.inv, .invWrite 2 9 false), (.inv, .mergeWrite 1 1 9)],
    ∀ x ∈ [LineState.m, .e], ∀ more ∈ [[], [(3, o.1)]],
    let s := { (rst F.CF_AGENTS_ATTACHED 0 0x1FFF) with
      homes := [(7, { txn := some { req := o.2, snoops := (12, o.1) :: more } })], caches := [(cacheKey 12 7, { st := x, data := 5 })],
      dir := [(7, some { mode := 1, owner := 12 })] }
    s.running = true ∧ s.ecc = [] ∧ s.attached (12 : Fin 13) = true ∧ (s.home 7).txn = some { req := o.2, snoops := ((12 : Fin 13).val, o.1) :: more } ∧
      (more = [] ∨ (3, o.1) ∈ more ∧ (3, o.1) ≠ ((12 : Fin 13).val, o.1)) ∧ (11, o.1) ∉ ((12 : Fin 13).val, o.1) :: more ∧
      (s.copyOf (12 : Fin 13) 7).st = x ∧ (s.copyOf (12 : Fin 13) 7).poison = false ∧ s.dirOf 7 = some { mode := 1, owner := (12 : Fin 13).val } ∧
      (s.copyOf 1 7).st = LineState.i ∧ (s.home 8).txn = none ∧ (∀ u ∈ [1, 2], s.chanBlocked 7 (clsOf u) = false) ∧
      (∀ y ∈ (s.home 7).txn.toList, y.granted = false ∧ y.dirty = false ∧ y.data = none) := by
  decide +kernel

theorem witness_HomesServeAndSnoopsAnswer_detach : ∀ d ∈ [0, 0x1000], let s := { (rst F.CF_AGENTS_DETACHING 0 d) with dir := [(7, some { mode := 1, owner := 12 })], caches := [(cacheKey 12 7, { st := .m })] }
    s.running = true ∧ s.ecc = [] ∧ s.fld F.ERR_RING_BASE_SIZE_LOG2 0 = 0 ∧ Agent.firmware .netA = false ∧ Agent.firmware .devctl = true ∧
      ((s.fld F.CF_AGENTS_DETACHING 0).testBit (12 : Fin 13) = true ↔ d ≠ 0) ∧ (∃ e ∈ (s.dirOf 7).toList, (12 : Fin 13).val ∈ e.named) ∧ (s.copyOf (12 : Fin 13) 7).st = .m ∧ s.homes = [] ∧
      (let t := { s with homes := [(8, { txn := some { req := .readShared 12 } })] }
       ∃ p ∈ t.homes, ∃ x, p.2.txn = some x ∧ x.req.agent = some (12 : Fin 13).val) := by
  decide +kernel

/-- Hart 63, running and not, at a poisoned line of a free and of a busy home; its cluster attached, its copy in each state. -/
theorem witness_HartsAndClustersMeetTheDevice : ∀ hs ∈ [0, 1, 2], ∀ at_ ∈ [0, 0x80], ∀ x ∈ [LineState.i, .s, .e, .o, .m],
    let s := { ((rst F.CL_HART_CTL_STATE 63 hs).setFld F.CF_AGENTS_ATTACHED 0 at_) with
      ecc := [(lineOf 0x1000, 2 ^ 576 - 1)], homes := [(8, { txn := some { req := .readOnce 2 } })], caches := [(cacheKey 7 9, { st := x, data := 5 })] }
    (s.hartRuns (63 : Fin 64) = true ↔ hs = 1) ∧ s.badLine (lineOf 0x1000) = true ∧ s.badLine (lineOf 0x2000) = false ∧ s.coherent (lineOf 0x1000) = true ∧ (s.home (lineOf 0x1000)).txn = none ∧
      s.holeAt (64 * lineOf 0x1000) = false ∧ s.chanBlocked (lineOf 0x1000) .crit = false ∧ (s.attached ((63 : Fin 64).val / 8) = true ↔ at_ ≠ 0) ∧
      s.dirOf (lineOf 0x1000) = none ∧ s.running = true ∧ (s.home 8).txn.isSome = true ∧ s.coherent 8 = true ∧ s.holeAt (64 * 8) = false ∧
      (s.home 9).txn = none ∧ s.coherent 9 = true ∧ s.holeAt (64 * 9) = false ∧ (s.copyOf ((63 : Fin 64).val / 8) 9).st = x ∧ s.chanBlocked 9 .crit = false ∧
      (s.setOf ((63 : Fin 64).val / 8) (lineOf 0x1000)).length < l3.ways ∧ (∀ n ∈ [1, 5, 7], s.pmpAllows (63 : Fin 64) n 0x1000 1 = true) ∧
      s.pmpAllows (63 : Fin 64) 7 (64 * 9) 64 = true := by
  decide +kernel

/-- An entry of hart 63 that covers every address without a permission, for a hart in S-mode: a fetch, a load and a store are refused. -/
theorem witness_HartsAndClustersMeetTheDevice_pmp :
    let s := { rst F.CL_HART_CTL_STATE 63 1 with harts := [(63, { mode := 1, pmpCfg := [(0, 0x18)], pmpAddr := [(0, 2 ^ 54 - 1)] })], ecc := [(lineOf 0x1000, 2 ^ 576 - 1)] }
    s.hartRuns (63 : Fin 64) = true ∧ s.badLine (lineOf 0x1000) = true ∧ (∀ n ∈ [1, 5, 7], s.pmpAllows (63 : Fin 64) n 0x1000 1 = false) ∧
      s.pmpAllows (63 : Fin 64) 7 (64 * 9) 64 = false ∧ (∀ n ∈ [5, 7], s.coreDenied (.hart 63) n 0x700003010000 8 = true ∧ s.coreDenied (.hart 63) n 0x700003010000 4 = true) ∧
      (∀ k ∈ [AccKind.read, .write, .amo], s.coreDenied (.hart 63) (faultOf k) 0x700003010000 8 = true) := by
  decide +kernel

/-- Accounting with no table, with a row of an unsupported version and of version 1. -/
theorem witness_HartsAndClustersMeetTheDevice_account : ∀ en ∈ [0, 1], ∀ ver ∈ [0, 1],
    let s := ((((rst F.CL_HART_CTL_STATE 63 1).setFld F.OBS_ACCT_EN 0 en).setFld F.CL_TIMECMP_CMP 63 1).setFld F.OBS_ACCT_BASE 0 0x20).putRaw 0x1000 (put 0x79 1 ver) 0x80
    s.Plain ∧ s.hartRuns (63 : Fin 64) = true ∧ (s.flag F.OBS_ACCT_EN 0 = false ↔ en = 0) ∧
      s.acctRow (s.fld F.uvtopid_LAYER_ID 63) (s.fld F.uvtopid_OPERATOR_ID 63) = some 0x1000 ∧ (s.rowOk 0x1000 0x78 = true ↔ ver = 1) ∧ s.acctRow 0 1 = none ∧
      s.now 4 < s.fld F.CL_TIMECMP_CMP 63 ∧ ({ s with time := 1 } : State).fld F.CL_TIMECMP_CMP 63 ≤ ({ s with time := 1 } : State).now 4 := by
  simp -zeta only [plain_iff]
  decide +kernel

theorem witness_HartsAndClustersMeetTheDevice_switch : ∀ hs ∈ [0, 1, 2], ∀ on ∈ [0, 1],
    let s := { ((rst F.CL_HART_CTL_STATE 63 hs).setFld F.CL_CTL_ON 7 on) with harts := [(63, { stopPend := true })] }
    s.running = true ∧ s.fld F.ERR_RING_BASE_SIZE_LOG2 0 = 0 ∧ Agent.coreOrFirmware .netA = false ∧ Agent.coreOrFirmware (.hart 63) = true ∧ s.hartState (63 : Fin 64) = hs ∧
      (s.hart (63 : Fin 64)).stopPend = true ∧ (s.flag F.CL_CTL_ON (7 : Fin 8) = true ↔ on = 1) ∧ ((∀ j < 8, s.hartState (8 * (7 : Fin 8).val + j) ≠ 1) ↔ hs ≠ 1) := by
  decide +kernel

/-- A cluster domain on and off with its parent on. -/
theorem witness_HartsAndClustersMeetTheDevice_domains : ∀ b ∈ [true, false],
    let s : State := { State.reset with pwr := { State.reset.pwr with requests := [(71, true), (67, b)] } }
    s.domWill (60 + (7 : Fin 8).val) = b ∧ s.domWill 71 = true := by
  decide +kernel

theorem witness_PortsTrainAndFail : ∀ x ∈ [0, 1, 2, 3, 4], ∀ th ∈ [0, 5], ∀ au ∈ [0, 1],
    let s := ((((rst F.PORT_STATUS_STATE 7 x).setFld F.PORT_FEC_TH_UNCORR_TH 7 th).setFld F.PORT_CFG_AUTO_UP 7 au).setFld F.PORT_STATUS_REASON 7 1)
    let s : State := { s.setDom (netDom 7) true with ports := [(7, { cfg := au * 2 ^ 11 })] }
    s.Untraced ∧ s.fld F.ERR_RING_BASE_SIZE_LOG2 0 = 0 ∧ s.running = true ∧ s.fld F.PORT_STATUS_STATE (7 : Fin 8) = x ∧ (s.fld F.PORT_FEC_TH_UNCORR_TH (7 : Fin 8) = 0 ↔ th = 0) ∧
      s.fld F.PORT_FEC_TH_UNCORR_TH 7 < 6 ∧ s.fld F.PORT_STATUS_REASON 7 = 1 ∧ ((s.port (7 : Fin 8)).cfg.testBit 11 = true ↔ au = 1) ∧ s.domOn (netDom 7) = true ∧ (s.setDom (netDom 7) false).domOn (netDom 7) = false := by
  simp -zeta only [untraced_iff]
  decide +kernel

/-- The last port of each network, UP and DOWN, with addresses; a priority paused and not; a Brake scheduled and not. -/
theorem witness_FramesAreAnsweredAndTimed : ∀ p ∈ [(3 : Fin 8), 7], ∀ x ∈ [2, 3], ∀ b ∈ [0, 1],
    let s := { ((((((rst F.PORT_STATUS_STATE p x).setFld F.NET_IPV4_ADDR (netOf p) 5).setFld F.NET_IPV6_LO_ADDR (netOf p) 6).setFld F.PORT_PFC_EN p 0x80).setFld F.PORT_PFC_XOFF_KIB p 8).setFld
      F.OBS_BRAKE_STATE 0 b) with ports := [(p.val, { pausedTill := [(7, 9)], xoff := [(7, true)] })] }
    s.running = true ∧ s.Untraced ∧ s.fld F.ERR_RING_BASE_SIZE_LOG2 0 = 0 ∧ (s.portUp p = true ↔ x = 2) ∧ s.fld F.NET_IPV4_ADDR (netOf p) = 5 ∧ s.ipv6 (netOf p) = 6 ∧ s.frozen = false ∧
      (s.fld F.PORT_PFC_EN p).testBit (7 : Fin 8) = true ∧ (s.fld F.PORT_PFC_EN p).testBit (0 : Fin 8) = false ∧ Tab.get 0 (s.port p).pausedTill (7 : Fin 8) = 9 ∧ s.time < 9 ∧
      Tab.get 0 (s.port p).pausedTill (0 : Fin 8) = 0 ∧ Tab.get false (s.port p).xoff (7 : Fin 8) = true ∧ 1024 * s.fld F.PORT_PFC_XOFF_KIB p ≤ 8192 ∧ s.fld F.OBS_BRAKE_STATE 0 = b := by
  simp -zeta only [untraced_iff]
  decide +kernel

/-- Headers that a port accepts: none stated, its own MAC under its VLAN ID and under priority tagging; and those it discards: another MAC,
another VLAN ID, a frame too long, one of a priority that it does not pause where its buffer is full. -/
theorem witness_FramesAreAnsweredAndTimed_accepts : ∀ p ∈ [(3 : Fin 8), 7],
    let s := (((rst F.PORT_STATUS_STATE p 2).setFld F.PORT_MAC_MAC p 5).setFld F.NET_CFG_VID (netOf p) 9)
    let full := { s with ports := [(p.val, { buffered := [(0, 2 ^ 22)] })] }
    (∀ h ∈ [({} : RxHdr), { dst := some 5, tag := some (9, 7) }, { tag := some (0, 3), dport := some 4791 }, { dport := some 4790 }, { sumOk := false }], s.Accepts p h) ∧
      s.macOk p 6 = false ∧ s.fld F.NET_CFG_VID (netOf p) ≠ 8 ∧ (full.bufferFull p = true ↔ p = 3) ∧ (full.fld F.PORT_PFC_EN p).testBit 0 = false ∧
      s.Clear p (s.fld F.NET_CFG_PTP_PCP (netOf p)) := by
  simp -zeta only [accepts_iff, clear_iff]
  decide +kernel

/-- A frame that waits for its priority leaves as the pause ends. -/
theorem witness_FramesAreAnsweredAndTimed_waiting :
    let y : Sent := { hdr := { pcp := 7 }, frame := .ptp 3 0 0 }
    let s := { State.reset with time := 9, ports := [(3, { pausedTill := [(7, 9)], waiting := [y] })] }
    Tab.get 0 (s.port 3).pausedTill (7 : Fin 8) ≠ 0 ∧ Tab.get 0 (s.port 3).pausedTill (7 : Fin 8) ≤ s.time ∧ s.frozen = false ∧ y ∈ (s.port 3).waiting ∧
      TxFrame.port y.frame = (3 : Fin 8).val ∧ y.hdr.pcp = (7 : Fin 8).val := by
  decide +kernel

/-- The priority of a frame of no stated code point is free: nothing waits on any of them. -/
theorem witness_FramesAreAnsweredAndTimed_clear : State.reset.Clear 3 Config.otherPcp :=
  ⟨Nat.le_refl 0, fun _ h => nomatch h⟩

/-! RoCE: queue pair 2 of network B in RTS on port 4, its areas in memory, a registration of 4,096 bytes at 0x40000. -/

def pair (sends : List SendWr) (rqTail : Nat) : Qp :=
  { st := 1, ctx := put 1 1 1 + put 4 2 3 + put 6 1 4 + put 8 8 0x10000 + put 0x10 8 0x20000 + put 0x18 8 0x30000 + put 0x38 1 4 + put 0x39 1 4 + put 0x3A 1 4, port := 4, rqTail := rqTail, sends := sends }
def roce (x : Qp) : State :=
  ({ (((rst F.PORT_STATUS_STATE 4 2).setFld F.NET_QPT_COUNT 1 4).setFld F.NET_MR_COUNT 1 2).setFld F.NET_MR_BASE 1 0x2000 with nets := [(1, { qps := [(2, x)] })] }).putRaw (0x40020)
    (put 1 1 1 + put 2 1 7 + put 4 2 3 + put 6 2 9 + put 8 8 0x50000 + put 0x10 8 4096) 32
def sent (op : Nat) : SendWr := { idx := 0, op := op, wrId := 77, laddr := 0x60000, len := 100, imm := 0, rkey := 0, raddr := 0, psn := 0, last := 0 }

theorem witness_RoceSendsRetriesPlacesAndAnswers : ∀ op ∈ [1, 2, 3, 4],
    let s := roce (pair [sent op] 0)
    s.Plain ∧ s.running = true ∧ s.braking = false ∧ s.RoceReady 4 2 {} ∧ (s.qp (netOf 4) 2).sends = [sent op] ∧ (s.qp (netOf 4) 2).sqHead = (s.qp (netOf 4) 2).sqTail ∧
      psnSub (psnAdd 0 1) (psnAdd (sent op).last 1) < 2 ^ 23 ∧ 2 ^ 23 ≤ psnSub (s.qp (netOf 4) 2).una (psnAdd (sent op).last 1) ∧ (sent op).psn = (s.qp (netOf 4) 2).una ∧
      0 + 50 < (sent op).len ∧ (sent op).len ≤ 0 + 100 ∧ (s.qp (netOf 4) 2).retryMax ≤ (s.qp (netOf 4) 2).retries ∧ (roce (pair [] 0)).qp (netOf 4) 2 = pair [] 0 ∧
      rangeOf s.localGib ((sent op).laddr + (sent op).got) = .ilv := by
  simp -zeta only [plain_iff, roceReady_iff]
  decide +kernel

/-- A queue pair with retries left; a doorbell that posts one WRITE of 100 bytes. -/
theorem witness_RoceSendsRetriesPlacesAndAnswers_post :
    let x := { pair [] 0 with ctx := (pair [] 0).ctx + put 0x3B 1 0x77 }
    let s := (roce x).putRaw x.sqBase (put 0 1 2 + put 0x10 8 0x60000 + put 0x18 4 100) 64
    let e := s.readMem (x.sqBase + 64 * (x.sqHead % 2 ^ x.sqLog)) 64
    s.running = true ∧ x.st = 1 ∧ s.qp (netOf 4) 2 = x ∧ s.mayRoce (netOf 4) x.port = true ∧ s.portUp x.port = true ∧ s.frozen = false ∧ x.sends = [] ∧ x.sqHead < 2 ^ 32 ∧
      1 % 2 ^ 32 = (x.sqHead + 1) % 2 ^ 32 ∧ 1 ≤ le e 0 1 ∧ le e 0 1 ≤ 4 ∧ le e 0x18 4 ≤ 2 ^ 31 ∧ s.placeable (netOf 4) (leBits e 0x10 47 0) (le e 0x18 4) = true ∧ x.owed = false ∧ s.Clear x.port (s.fld F.NET_CFG_ROCE_PCP (netOf 4)) := by
  simp -zeta only [clear_iff]
  decide +kernel

/-- A packet of the expected PSN with the registered key, with another key; with and without a receive entry; a later PSN. -/
def packet (rkey psn : Nat) : RocePkt := { qpn := 2, psn := psn, first := true, last := true, va := 0x50000 + 3996, rkey := rkey, dlen := 100, len := 100, data := 5 }

theorem witness_RoceSendsRetriesPlacesAndAnswers_responder : ∀ key ∈ [9 * 65536 + 1, 9 * 65536 + 2], ∀ tail ∈ [0, 1], ∀ psn ∈ [0, 1],
    let x := pair [] tail
    let s := (roce x).putRaw x.rqBase (put 8 8 0x60000 + put 0x10 4 100) 32
    let k := packet key psn
    let e := s.readMem (x.rqBase + 32 * (x.rqHead % 2 ^ x.rqLog)) 32
    s.Plain ∧ s.frozen = false ∧ s.RoceReady 4 k.qpn k.rx ∧ s.Clear x.port (s.fld F.NET_CFG_ROCE_PCP (netOf 4)) ∧ { k with unlisted := true }.rx = k.rx ∧ k.unlisted = false ∧ s.qp (netOf 4) k.qpn = x ∧ x.recv = none ∧ (k.psn = x.rqPsn ↔ psn = 0) ∧ (psn = 1 → 2 ^ 23 ≤ psnSub x.rqPsn k.psn) ∧
      k.first = true ∧ k.last = true ∧ k.dlen = k.len ∧ k.dlen ≤ 2 ^ 31 ∧ (s.registered (netOf 4) x.pd k.rkey k.va k.dlen 2 = true ↔ key = 9 * 65536 + 1) ∧
      (s.registered (netOf 4) x.pd k.rkey k.va k.dlen 1 = true ↔ key = 9 * 65536 + 1) ∧ (x.rqHead = x.rqTail ↔ tail = 0) ∧ k.len ≤ le e 0x10 4 ∧
      s.placeable (netOf 4) (leBits e 8 47 0) (le e 0x10 4) = true ∧ rangeOf s.localGib k.va = .ilv ∧ rangeOf s.localGib (leBits e 8 47 0) = .ilv ∧ x.nakSent = false := by
  simp -zeta only [plain_iff, roceReady_iff, clear_iff]
  decide +kernel

/-- No stack of the reset state is hot: no network access waits. -/
theorem witness_RoceSendsRetriesPlacesAndAnswers_cool (n : Nat) (spans : List (Nat × Nat)) : (roce (pair [] 0)).netWaits n spans = false := cool_of (by decide +kernel) spans

theorem witness_RoceSendsRetriesPlacesAndAnswers_memory : (roce (pair [] 0)).InMemory 0x50000 := by
  have h : rangeOf (roce (pair [] 0)).localGib 0x50000 = .ilv := by decide +kernel
  exact inMemory_of h (fun _ _ e => by cases e)

/-- PORT_CTL modes 2 to 5: a queue pair in RESET and in RTS, its context bad and good. -/
theorem witness_RoceSendsRetriesPlacesAndAnswers_ctl : ∀ m ∈ [2, 3, 4, 5], ∀ pn ∈ [1, 2, 3],
    let c := cm 0x9004 1 (put 0x11 1 m + put 0x12 1 1 + put 0x14 4 pn)
    let s := withCmd (roce (pair [] 0)) c
    s.Plain ∧ s.frozen = false ∧ s.Ready r0 0x9004 c ∧ 2 ≤ c.f 0x11 1 ∧ c.f 0x12 1 = 1 ∧ c.f 0x14 4 = pn ∧ (s.qp 1 pn).st = (if pn = 2 then 1 else 0) ∧ 3 < s.fld F.NET_QPT_COUNT 1 ∧
      s.ctxFault (s.readMem (s.ctxAddr 1 pn) 128) ≠ none ∧ ∀ e ∈ (s.net 1).qps, e.2.recv = none ∧ e.2.sync = false ∧ e.2.back = false := by
  simp -zeta only [plain_iff, ready_iff]
  decide +kernel

/-- Debug levels 0, 1 and 2; the last offset of a channel; engine 15 out of service, its spare column in each state; a hole and none. -/
theorem witness_TestAccessFollowsItsLevel : ∀ lv ∈ [0, 1, 2], ∀ g ∈ [0, 2, 3], ∀ r ∈ [true, false], ∀ sp ∈ [0, 1, 40],
    let s := { ((rst F.SEC_DEBUG_LEVEL 0 lv).setFld F.CH_STATE_STATE 511 g).setFld F.RC_ENGMAP_QUAR 3 8 with
      pwr := { State.reset.pwr with resetN := r }, engines := [(15, { spare := sp, millpond := [(4095, 5#40)] })] }
    s.Plain ∧ s.Untraced ∧ s.debugLevel = lv ∧ s.debugAllowed = false ∧ s.coherent 7 = true ∧ s.dir = [] ∧ s.holeAt (64 * 7) = false ∧ s.chanBlocked 7 .bulk = false ∧ 0xDFFFFFC0 % 64 = 0 ∧
      0xDFFFFFC0 >>> 16 < 57344 ∧ s.fld F.CH_STATE_STATE (511 : Fin 512) = g ∧ (s.stack 31).selfRef = false ∧ s.engineOpen (15 : Fin 16) = true ∧ s.engineOpen (0 : Fin 16) = false ∧
      (s.engine (15 : Fin 16)).spare = sp ∧ s.frozen = false ∧ s.pwr.phase ≠ .off ∧ s.pwr.resetN = r ∧
      ({ s with sec := { cfg := put 2 2 1 } } : State).debugAllowed = true := by
  simp -zeta only [plain_iff, untraced_iff]
  decide +kernel

/-- A line of a channel in TEST, and a line in no range. -/
theorem witness_TestAccessFollowsItsLevel_hole : (rst F.CH_STATE_STATE 1 2).holeAt (64 * 7) = true ∧ State.reset.coherent 0x17FFFFFFFFF = false ∧
    slotAt State.reset.localGib 0x700003010000 = .reg .Q_RING_BASE 0 := by
  decide +kernel

/-- A register of the hub at its offset, aligned and not; a SNAP register and its high half; an unlisted slot; an IMSIC page; a firmware
register; scratch; an address of no range. -/
theorem witness_AccessesAreChecked : State.reset.running = true ∧ State.reset.fld F.ERR_RING_BASE_SIZE_LOG2 0 = 0 ∧
    rangeOf State.reset.localGib 0x700003010000 = .hub 0x3010000 ∧ slotAt State.reset.localGib 0x700003010000 = .reg .Q_RING_BASE 0 ∧ 0x700003010000 % 8 = 0 ∧ 0x700003010001 % 8 ≠ 0 ∧
    slotAt State.reset.localGib 0x700003010001 = .reg .Q_RING_BASE 0 ∧ State.reset.refusedByR10 0x700003010001 8 = true ∧ State.reset.refusedByR10 0x700003010000 8 = false ∧
    Agent.reachesRegs (.hart 0) = true ∧ Agent.reachesRegs .netA = false ∧ Reg.Q_RING_BASE.isSnap = false ∧ Reg.Q_RING_BASE.ofQueue = true := by
  decide +kernel

theorem witness_AccessesAreChecked_slots : slotAt State.reset.localGib 0x700000301000 = .reg .OBS_AON 0 ∧ slotAt State.reset.localGib 0x700000301004 = .reg .OBS_AON 0 ∧
    Reg.OBS_AON.isSnap = true ∧ slotAt State.reset.localGib 0x700003010048 = .unlisted ∧ slotAt State.reset.localGib 0x700008000FFC = .imsic 0 0xFFC ∧
    rangeOf State.reset.localGib 0x700008000FFC = .hub 0x8000FFC ∧ 0x700008000FFC % 8 ≠ 0 ∧ Reg.CF_AGENTS.firmwareOnly = true ∧ Agent.firmware (.hart 0) = false ∧
    Reg.CL_DVFS.firmwareOnly = false ∧ Reg.CL_DVFS.ofQueue = false ∧ Reg.CL_DVFS.ofRegion = false ∧ Reg.CL_DVFS.ofHub = false := by
  decide +kernel

theorem witness_AccessesAreChecked_ranges : State.reset.coreMisaligned (.hart 0) (scratchBase 3 + 1) 8 = true ∧ State.reset.coreMisaligned (.hart 0) (scratchBase 3) 8 = false ∧
    State.reset.coreMisaligned .netA (scratchBase 3 + 1) 8 = false ∧
    rangeOf State.reset.localGib (scratchBase 3 + scratchSize - 8) = .scratch 3 ∧ Agent.mayReach .netA (.scratch 3) = true ∧ naturalAccess (scratchBase 3 + scratchSize - 8) 8 = true ∧
    State.reset.reachable (.hart 0) (ilvTop 0 - 1) = true ∧ State.reset.reachable (.hart 0) (ilvTop 0) = false ∧
    (∀ j < 8, State.reset.reachable (.hart 0) (scratchBase 3 + j) = true) := by
  decide +kernel

theorem witness_BootRangesAnswerOnlyTheController : State.reset.running = true ∧ rangeOf State.reset.localGib 0x7F000003FFFF = .rom ∧ rangeOf State.reset.localGib 0x7F0001000000 = .sram ∧
    rangeOf State.reset.localGib 0x7F0000040000 = .none ∧ (.netA : Agent) ≠ .devctl ∧ naturalAccess 0x7F0001000000 8 = true ∧ isPlain State.reset = true := by
  decide +kernel

/-- CAP_W and WINDOW_MS at both ends of their ranges and beyond, with and without a byte that must be 0. -/
theorem witness_PowerCapGovernsTheNextComparison : ∀ o ∈ [(1050, 1), (1500, 1000), (1049, 1), (1501, 1), (1050, 0), (1050, 1001)], ∀ z ∈ [0, 1],
    let c := cm 0x9003 1 (put 0x10 2 o.1 + put 0x12 2 o.2 + put 0x37 1 z)
    let s := withCmd State.reset c
    s.Ready r0 0x9003 c ∧ c.f 1 1 = 1 ∧ s.regionOf c.ref.q = 8 ∧ (headerChecks c).first = none ∧ c.f 0x10 2 = o.1 ∧ c.f 0x12 2 = o.2 ∧ s.pwr.boardCap ≤ 1500 ∧ c.len = 1 ∧
      ((∃ b ∈ List.range 0x38, 0x14 ≤ b ∧ c.f b 1 ≠ 0) ↔ z = 1) := by
  simp -zeta only [ready_iff]
  decide +kernel

/-! ## Ill-formed commands are refused -/

theorem test_refuses_wide_queue : Instr.wf (.nop ⟨256, 0⟩) = false := by decide
theorem test_refuses_wide_index : Instr.wf (.nop ⟨0, 2 ^ 32⟩) = false := by decide
theorem test_refuses_wide_address : Instr.wf (.registerWrite .devctl (2 ^ 48) 8 0) = false := by decide
theorem test_refuses_no_size : Instr.wf (.registerWrite .devctl 0 0 0) = false := by decide
theorem test_refuses_long_size : Instr.wf (.registerWrite .devctl 0 65 0) = false := by decide
theorem test_refuses_wide_write : Instr.wf (.registerWrite .devctl 0 4 (2 ^ 32)) = false := by decide
theorem test_refuses_empty_access : Instr.wf (.unpopulatedAccess .devctl 0 0 .read) = false ∧ Instr.wf (.mmioReadFault .devctl 0 0) = false := by decide
theorem test_refuses_wide_value : Instr.wf (.dbTailWrite 0 (2 ^ 64)) = false := by decide
theorem test_refuses_wide_line : Instr.wf (.readOnce (2 ^ 42)) = false := by decide
theorem test_refuses_wide_mask : Instr.wf (.mergeWrite 0 (2 ^ 64) 0) = false := by decide
theorem test_refuses_wide_data : Instr.wf (.invWrite 0 (2 ^ 512) false) = false := by decide +kernel
theorem test_refuses_wide_vector : Instr.wf (.clHartStart .devctl 0 (2 ^ 48)) = false := by decide
theorem test_refuses_wide_pair : Instr.wf (.roceAck 0 (2 ^ 24) 0) = false ∧ Instr.wf (.roceNak 0 0 (2 ^ 24) .rnr) = false ∧ Instr.wf (.roceAckTimeout 0 (2 ^ 24)) = false := by decide
theorem test_refuses_wide_pmbus : Instr.wf (.pmbusMfrPowerCap 65536) = false ∧ Instr.wf (.pmbusUnsupported 256) = false := by decide
theorem test_refuses_wide_names : Instr.wf (.arpRequest 0 (2 ^ 32) 0 0) = false ∧ Instr.wf (.neighborSolicitation 0 (2 ^ 128) 0 0) = false := by decide
theorem test_refuses_wide_echo : Instr.wf (.icmpEchoRequest 0 ⟨false, 0, 0, 2 ^ 48, 0, 0, 0, {}⟩) = false := by decide
theorem test_refuses_short_pause : Instr.wf (.pfcFrame 0 0 [0]) = false := by decide
theorem test_refuses_wide_sequence : Instr.wf (.ptpEventMessage 0 65536) = false := by decide
theorem test_refuses_wide_offset : Instr.wf (.jtagStackRead 0 (2 ^ 32)) = false := by decide
theorem test_refuses_long_response : Instr.wf (.jtagDbgAuth (.response (2 ^ 3080))) = false := by decide +kernel
theorem test_refuses_wide_fabric : Instr.wf (.jtagFabric (.readOnce (2 ^ 42))) = false := by decide
theorem test_refuses_wide_instrument : Instr.wf (.ijtagAccess (.regRead (2 ^ 48))) = false ∧ Instr.wf (.ijtagAccess (.mbistStart (2 ^ 64))) = false := by decide
theorem test_refuses_long_payload : Instr.wf (.arrive 0 { frame 1 0 0 with plen := 8193 }) = false := by decide
theorem test_refuses_wide_payload : Instr.wf (.rdmaWrite 0 { packet 0 0 with len := 1, data := 256 }) = false := by decide
theorem test_refuses_wide_session : Instr.wf (.offer { session := 2 ^ 32 }) = false := by decide

/-! ## The spec's worked examples -/

/-- The worked decode of R33 (L = 6) and its inverse. -/
theorem test_worked_decode : chanOf 6 0x0123456789C0 = some ⟨463, 0x91A2B3C0⟩ ∧ paOf 6 ⟨463, 0x91A2B3C0⟩ = 0x0123456789C0 := by decide +kernel

/-- The worked aperture address of R34 (L = 6): channel 87. -/
theorem test_worked_aperture : chanOf 6 0x414123456780 = some ⟨87, 0xDA345680⟩ ∧ paOf 6 ⟨87, 0xDA345680⟩ = 0x414123456780 := by decide +kernel

/-- The base-die registers of stack S29 stand at 0x7130_0700_0000 (R37). -/
theorem test_worked_window : slotAt 6 0x713007000000 = .blkId .stk 29 := by decide +kernel

/-- One FP32 value in E4M3, under an overflow policy: 0 the default, SAT here, 2 INF. -/
def e4m3 (bits ovp : Nat) : Nat × NumFlags := let r := Fmt.encodeRow .e4m3 ovp (fun _ => .one) [fp32Val bits]; (r.1 % 256, r.2.1)

/-- Worked conversions: 3.3 gives 0x45 with NX, 240.0 gives 0x77, 464.0 gives 0x7E with NX. -/
theorem test_worked_e4m3 : e4m3 0x40533333 0 = (0x45, { nx := true }) ∧ e4m3 0x43700000 0 = (0x77, {}) ∧ e4m3 0x43E80000 0 = (0x7E, { nx := true }) := by decide +kernel

/-- 465.0 overflows: 0x7E under the default, the NaN 0x7F under INF. -/
theorem test_worked_e4m3_overflow : e4m3 0x43E88000 0 = (0x7E, { nx := true, of := true }) ∧ (e4m3 0x43E88000 2).1 = 0x7F := by decide +kernel

/-- -0.0013 is subnormal, 0.0009 vanishes with UF. -/
theorem test_worked_e4m3_small : e4m3 0xBAAA64C3 0 = (0x81, { nx := true }) ∧ e4m3 0x3A6BEDFA 0 = (0x00, { nx := true, uf := true }) := by decide +kernel

/-- 3.3 in BF16 is 0x4053. -/
theorem test_worked_bf16 : (Fmt.encodeRow .bf16 0 (fun _ => .one) [fp32Val 0x40533333]).1 % 65536 = 0x4053 := by decide +kernel

/-- Stochastic rounding of R200's example: 2^-26 added to 1.0 gives 1 + 2^-23 exactly when r is at least 57,344. -/
theorem test_worked_rounding : (accAdd 0x3F800000 (.fin false 1 (-26)) 57344).1 = 0x3F800001 ∧ (accAdd 0x3F800000 (.fin false 1 (-26)) 57343).1 = 0x3F800000 := by decide +kernel

/-- NOP ends with OK, and an idle step lets one nanosecond pass. -/
theorem test_nop_ends : (match exec (.nop r0) (st (cm 0 1)) with | .next t => (t.cmd r0).map (fun c => (c.phase, c.status)) | _ => none) = some (.ended, 0) := by
  decide +kernel

theorem test_idle_step : (match step State.reset with | .next t => some t.time | _ => none) = some 1 := by decide +kernel

/-- SIGNAL in add mode adds 5 to the word at 0x1000 (R67). -/
theorem test_signal_adds :
    (match exec (.signal r0) ((st (cm 3 1 (put 0x10 8 0x1000 + put 0x18 8 5 + put 0x20 1 1))).putRaw 0x1000 7 8) with | .next t => some (t.readMem 0x1000 8) | _ => none) =
      some 12 := by decide +kernel

/-- misa reads without H; a register of the hypervisor extension raises an illegal-instruction exception (R300); marchid (R303). -/
theorem test_core_registers : misaWord.testBit 7 = false ∧ (State.reset.csrRead 63 0x600).resp = .exception 2 0 ∧ (State.reset.csrRead 63 0xF12).resp = .data 0x8000000000005608 := by
  decide +kernel

/-- A claim through mtopei clears the pending bit that it shows, the lowest enabled one (R313). -/
theorem test_claim_clears : let s : State := { State.reset with imsics := [(63, { pend := 0x62, enable := 0x60 })] }
    (s.csrRead 63 0x35C).resp = .data 0x50005 ∧ (Tab.get ({} : Imsic) (s.csrWrite 63 0x35C 0).imsics 63).pend = 0x42 := by
  decide +kernel

end Sys2Proof.Tests
end

section
/-! SUPPORT. The boot ROM and the boot SRAM (R40): where they stand, who reaches them, and that an access by anyone else is one to an
unpopulated address (R31). -/
namespace Sys2Proof.Machine

/-! ## Where the boot ranges stand (R30) -/

/-- The boot ROM or the boot SRAM. -/
def Range.Boot (x : Range) : Prop := x = .rom ∨ x = .sram

/-- The interleaved range ends below the apertures, whatever the local share. -/
theorem ilvTop_le (l : Nat) : ilvTop l ≤ 0x1C0000000000 := by
  unfold ilvTop gib
  omega

theorem rangeOf_above_doorbells {l pa : Nat} (h : 0x780000100000 ≤ pa) :
    rangeOf l pa = if 0x7F0000000000 ≤ pa ∧ pa < 0x7F0000040000 then .rom
      else if 0x7F0001000000 ≤ pa ∧ pa < 0x7F0001400000 then .sram else .none := by
  have top := ilvTop_le l
  unfold rangeOf aptBase aptPitch
  iterate 7 rw [if_neg (by omega)]

theorem not_boot_below_doorbells {l pa : Nat} (h : pa < 0x780000100000) : ¬ (rangeOf l pa).Boot := by
  have rom : ¬ (0x7F0000000000 ≤ pa ∧ pa < 0x7F0000040000) := by omega
  have sram : ¬ (0x7F0001000000 ≤ pa ∧ pa < 0x7F0001400000) := by omega
  unfold rangeOf Range.Boot
  rw [if_neg rom, if_neg sram]
  dsimp only
  repeat' split
  all_goals simp

theorem boot_rangeOf_iff {l pa : Nat} :
    (rangeOf l pa).Boot ↔ 0x7F0000000000 ≤ pa ∧ pa < 0x7F0000040000 ∨ 0x7F0001000000 ≤ pa ∧ pa < 0x7F0001400000 := by
  by_cases h : 0x780000100000 ≤ pa
  · rw [rangeOf_above_doorbells h, Range.Boot]
    split
    · next rom => simp [rom]
    · next rom => split <;> simp [*]
  · exact ⟨fun b => absurd b (not_boot_below_doorbells (Nat.lt_of_not_le h)), by omega⟩

/-- The boot ranges begin and end at whole lines. -/
theorem boot_rangeOf_line {l pa : Nat} (h : (rangeOf l pa).Boot) : (rangeOf l (64 * (pa / 64))).Boot := by
  rw [boot_rangeOf_iff] at h ⊢
  omega

/-! A definition that is at once a match on `rangeOf` is unfolded here as a function, before its arguments: to compare it with its body
on given arguments, the kernel would evaluate the match and with it `ilvTop`, a product by 2^30, on an unknown share. -/

theorem State.coherent_boot {s : State} {pa : Nat} (h : (rangeOf s.localGib pa).Boot) : s.coherent (pa / 64) = false := by
  conv => lhs; fun; fun; delta State.coherent
  obtain e | e := boot_rangeOf_line h <;> simp only [e]

/-! ## Who reaches them -/

theorem View.allows_boot (w : View) {x : Range} (h : x.Boot) : w.allows x = false := by
  obtain rfl | rfl := h <;> cases w <;> rfl

/-- No operand may lie in a boot range (R41). -/
theorem State.spanFault_boot {s : State} {pa n : Nat} (w : View) (h : (rangeOf s.localGib pa).Boot) (hn : 0 < n) :
    s.spanFault w pa n = some pa := by
  simp [State.spanFault, View.allows_boot w h, Nat.ne_of_gt hn]

/-- A boot range, or none: no channel serves it, and it holds no register, scratch or doorbell. -/
def Range.BootOrNone (x : Range) : Prop := x.Boot ∨ x = .none

theorem chanOf_bootOrNone {l pa : Nat} (h : (rangeOf l pa).BootOrNone) : chanOf l pa = none := by
  conv => lhs; fun; fun; delta chanOf
  obtain (e | e) | e := h <;> simp only [e]

theorem State.holeAt_bootOrNone {s : State} {pa : Nat} (h : (rangeOf s.localGib pa).BootOrNone) : s.holeAt pa = false := by
  conv => lhs; fun; fun; delta State.holeAt
  simp only [chanOf_bootOrNone h]

theorem State.coreMisaligned_bootOrNone {s : State} {pa : Nat} (a : Agent) (size : Nat) (h : (rangeOf s.localGib pa).BootOrNone) :
    s.coreMisaligned a pa size = false := by
  conv => lhs; fun; fun; fun; fun; delta State.coreMisaligned
  obtain (e | e) | e := h <;> simp only [e]

theorem Agent.mayReach_boot_iff {a : Agent} {x : Range} (h : x.Boot) : Agent.mayReach a x = true ↔ a = .devctl := by
  obtain rfl | rfl := h <;> cases a <;> simp [Agent.mayReach]

theorem Agent.mayReach_bootOrNone {a : Agent} {x : Range} (ha : a ≠ .devctl) (h : x.BootOrNone) : Agent.mayReach a x = false := by
  obtain b | rfl := h
  · exact Bool.eq_false_iff.mpr (fun r => ha ((Agent.mayReach_boot_iff b).mp r))
  · cases a <;> rfl

theorem State.reachable_of_not_mayReach {s : State} {a : Agent} {pa : Nat} (h : Agent.mayReach a (rangeOf s.localGib pa) = false) :
    s.reachable a pa = false := by
  simp [State.reachable, h]

theorem State.reachable_devctl_boot {s : State} {pa : Nat} (h : (rangeOf s.localGib pa).Boot) : s.reachable .devctl pa = true := by
  have may := (Agent.mayReach_boot_iff h).mpr rfl
  have hole := State.holeAt_bootOrNone (.inl h)
  unfold State.reachable
  obtain e | e := h <;> simp [e ▸ may, e, hole]

/-! ## What an access does -/

theorem exec_registerWrite (a : Agent) (pa size v : Nat) (s : State) :
    exec (.registerWrite a pa size v) s = execRegisterWrite a pa size v s := rfl

theorem exec_unpopulatedAccess (a : Agent) (pa len : Nat) (k : AccKind) (s : State) :
    exec (.unpopulatedAccess a pa len k) s = execUnpopulatedAccess a pa len k s := rfl

/-- A direct write that its core lets out and that a channel, if any, serves is a write to its range. -/
theorem exec_registerWrite_range {s : State} {a : Agent} {pa size : Nat} (v : Nat) (run : s.running = true)
    (aligned : s.coreMisaligned a pa size = false) (allowed : s.coreDenied a 7 pa size = false) (served : s.holeAt pa = false) :
    exec (.registerWrite a pa size v) s = .next (s.rangeWrite a (rangeOf s.localGib pa) pa size v) := by
  simp [exec_registerWrite, execRegisterWrite, ok, State.directWrite, run, aligned, allowed, served]

/-- A write to a boot range, or to none, by an agent that does not reach it is one to an unpopulated address. -/
theorem State.rangeWrite_bootOrNone {a : Agent} {x : Range} (s : State) (pa size v : Nat) (ha : a ≠ .devctl) (h : x.BootOrNone) :
    s.rangeWrite a x pa size v = s.accessUnpopulated a .write pa := by
  have may := Agent.mayReach_bootOrNone ha h
  obtain (rfl | rfl) | rfl := h <;> simp [State.rangeWrite, may]

theorem exec_registerWrite_bootOrNone {s : State} {a : Agent} {pa size : Nat} (v : Nat) (run : s.running = true) (ha : a ≠ .devctl)
    (h : (rangeOf s.localGib pa).BootOrNone) (allowed : s.coreDenied a 7 pa size = false) :
    exec (.registerWrite a pa size v) s = .next (s.accessUnpopulated a .write pa) := by
  rw [exec_registerWrite_range v run (State.coreMisaligned_bootOrNone a size h) allowed (State.holeAt_bootOrNone h),
    State.rangeWrite_bootOrNone s pa size v ha h]

/-- An access whose first byte does not exist for its agent is one to an unpopulated address. -/
theorem exec_unpopulatedAccess_first {s : State} {a : Agent} {pa size : Nat} {k : AccKind} (run : s.running = true)
    (allowed : s.coreDenied a (faultOf k) pa size = false) (first : s.reachable a pa = false) (hs : 0 < size) :
    exec (.unpopulatedAccess a pa size k) s = .next (s.accessUnpopulated a k pa) := by
  obtain ⟨m, hm⟩ : ∃ m, min 64 size = m + 1 := ⟨min 64 size - 1, by omega⟩
  have found : (List.range (min 64 size)).find? (fun n => ¬ s.reachable a (pa + n)) = some 0 := by
    rw [hm, List.range_succ_eq_map]
    simp [first]
  rw [exec_unpopulatedAccess, execUnpopulatedAccess, found]
  simp [ok, run, allowed]

theorem State.RegsKept.of_memOnly {s t : State} (h : State.MemOnly s t) (l : List (Reg × Nat)) : s.RegsKept t l := by
  intro q j _ _
  simp only [State.getR, h.regs]

/-- A write of memory in a plain state, in the words of the claims. -/
theorem State.Plain.writeMem_spec {s : State} (p : s.Plain) (pa v n : Nat) :
    (s.writeMem pa v n).BytesAre pa n v ∧ s.BytesKept (s.writeMem pa v n) pa n ∧ s.RegsKept (s.writeMem pa v n) [] := by
  obtain ⟨only, bytes⟩ := p.writeMem pa v n
  refine ⟨fun k hk => ?_, fun a ha => ?_, .of_memOnly only []⟩
  · rw [bytes, if_pos (by omega), Nat.add_sub_cancel_left]
  · rw [bytes, if_neg (by omega)]

theorem exec_registerWrite_devctl_sram {s : State} {pa size : Nat} (v : Nat) (run : s.running = true)
    (h : rangeOf s.localGib pa = .sram) (natural : naturalAccess pa size = true) :
    exec (.registerWrite .devctl pa size v) s = .next (s.writeMem pa v size) := by
  have boot : (rangeOf s.localGib pa).BootOrNone := .inl (.inr h)
  rw [exec_registerWrite_range v run (State.coreMisaligned_bootOrNone _ size boot) rfl (State.holeAt_bootOrNone boot), h]
  simp [State.rangeWrite, Agent.mayReach, natural]

/-- An agent other than the device controller finds a boot range as it finds an address of no range (R40). -/
theorem bootOrNone_answers_unpopulated {s : State} {a : Agent} {pa size : Nat} (v : Nat) {k : AccKind} (run : s.running = true)
    (ha : a ≠ .devctl) (h : (rangeOf s.localGib pa).BootOrNone) (store : s.coreDenied a 7 pa size = false)
    (access : s.coreDenied a (faultOf k) pa size = false) :
    exec (.registerWrite a pa size v) s = .next (s.accessUnpopulated a .write pa) ∧
      (0 < size → exec (.unpopulatedAccess a pa size k) s = .next (s.accessUnpopulated a k pa)) :=
  ⟨exec_registerWrite_bootOrNone v run ha h store,
    exec_unpopulatedAccess_first run access (State.reachable_of_not_mayReach (Agent.mayReach_bootOrNone ha h))⟩

/-- Settles O59: no other agent may reach the ranges of the device controller, whose writes of the boot SRAM are writes of memory. -/
theorem bootRangesAnswerOnlyTheController : Obligations.BootRangesAnswerOnlyTheController := by
  unfold Obligations.BootRangesAnswerOnlyTheController
  intro s a pa size v k run boot
  refine ⟨fun ha store access => ⟨?_, ?_⟩, fun w n => State.spanFault_boot w boot, State.coherent_boot boot,
    State.reachable_devctl_boot boot, fun plain sram natural => ?_⟩
  · exact State.reachable_of_not_mayReach (Agent.mayReach_bootOrNone ha (.inl boot))
  · obtain ⟨write, other⟩ := bootOrNone_answers_unpopulated v run ha (.inl boot) store access
    exact ⟨write, other, fun p none => bootOrNone_answers_unpopulated v run ha (.inr none)⟩
  · exact ⟨_, exec_registerWrite_devctl_sram v run sram natural, plain.writeMem_spec pa v size⟩

end Sys2Proof.Machine
end

section
/-! SUPPORT. Writes to the registers of a queue (R87, R88): a direct write to the hub window reaches the register at its address, and the
state of the queue decides whether a register of the queue takes it. -/
namespace Sys2Proof.Machine

/-! ## A write to the hub window -/

theorem chanOf_hub {l pa off : Nat} (h : rangeOf l pa = .hub off) : chanOf l pa = none := by
  conv => lhs; fun; fun; delta chanOf
  simp only [h]

/-- No channel serves the hub window, so none is missing there (R487). -/
theorem State.holeAt_hub {s : State} {pa off : Nat} (h : rangeOf s.localGib pa = .hub off) : s.holeAt pa = false := by
  conv => lhs; fun; fun; delta State.holeAt
  simp only [chanOf_hub h]

theorem State.coreMisaligned_hub {s : State} {pa off : Nat} (a : Agent) (size : Nat) (h : rangeOf s.localGib pa = .hub off) :
    s.coreMisaligned a pa size = false := by
  conv => lhs; fun; fun; fun; fun; delta State.coreMisaligned
  simp only [h]

theorem exec_registerWrite_hub {s : State} {a : Agent} {pa size off : Nat} (v : Nat) (run : s.running = true)
    (hub : rangeOf s.localGib pa = .hub off) (reach : Agent.reachesRegs a = true) (allowed : s.coreDenied a 7 pa size = false) :
    exec (.registerWrite a pa size v) s = .next (s.slotWrite a (slotAt s.localGib pa) pa size v) := by
  rw [exec_registerWrite_range v run (State.coreMisaligned_hub a size hub) allowed (State.holeAt_hub hub), hub]
  simp only [State.rangeWrite, reach, if_true, State.windowWrite]

/-! ## A write to a register of a queue -/

/-- The area, configuration and interrupt registers of a queue. -/
theorem Reg.ofQueue_setup : ∀ r ∈ [Reg.Q_RING_BASE, .Q_STS_BASE, .Q_CTX_BASE, .Q_CFG, .Q_IRQ], r.ofQueue = true := by decide

/-- No register of a queue is kept to firmware or to the cores. -/
theorem Reg.firmwareOnly_ofQueue {r : Reg} (h : r.ofQueue = true) : r.firmwareOnly = false := by
  revert h
  cases r <;> decide

theorem State.slotWrite_ofQueue (s : State) (a : Agent) {r : Reg} {pa size : Nat} (q v : Nat) (hr : r.ofQueue = true)
    (hs : size = 4 ∨ size = 8) (aligned : pa % size = 0) :
    s.slotWrite a (.reg r q) pa size v =
      s.queueWrite r q ((2 ^ (8 * size) - 1) <<< (8 * (pa % 8))) ((v % 2 ^ (8 * size)) <<< (8 * (pa % 8))) := by
  have notCore : ¬ (r = .CL_HART_CTL ∨ r = .CL_TIMECMP) := by
    rintro (rfl | rfl) <;> cases hr
  simp [State.slotWrite, State.regWrite, hs, aligned, Reg.firmwareOnly_ofQueue hr, notCore, hr]

/-- The area, configuration and interrupt registers: written only while the queue is DISABLED (R87). -/
theorem State.queueWrite_setup (s : State) {r : Reg} (q mask v : Nat)
    (hr : r ∈ [.Q_RING_BASE, .Q_STS_BASE, .Q_CTX_BASE, .Q_CFG, .Q_IRQ]) :
    s.queueWrite r q mask v = if s.qState q = 0 then s.putFields r q mask v else s := by
  simp only [List.mem_cons, List.not_mem_nil, or_false] at hr
  obtain rfl | rfl | rfl | rfl | rfl := hr <;> simp [State.queueWrite, State.storedIf]

/-- Q_PTR: written only while the queue is DISABLED or HALTED (R87). -/
theorem State.queueWrite_ptr (s : State) (q mask v : Nat) :
    s.queueWrite .Q_PTR q mask v = if s.qState q = 0 ∨ s.qState q = 5 then s.putFields .Q_PTR q mask v else s := by
  simp [State.queueWrite, State.storedIf]

/-- Only the three lowest bits of the word written to Q_CTL count, and a write at its offset holds them. -/
theorem State.queueWrite_ctl (s : State) {size : Nat} (q v : Nat) (hs : size = 4 ∨ size = 8) :
    s.queueWrite .Q_CTL q (2 ^ (8 * size) - 1) (v % 2 ^ (8 * size)) = s.qCtl q v := by
  have low : (v % 2 ^ (8 * size) &&& (2 ^ (8 * size) - 1)) % 8 = v % 8 := by
    rw [Nat.and_two_pow_sub_one_eq_mod, Nat.mod_mod]
    obtain rfl | rfl := hs <;> omega
  simp only [State.queueWrite, State.qCtl, low]

/-- A write with exactly one of the three bits is the command of that bit (R79, R80). -/
theorem State.next_qCtl_one (s : State) (q : Fin 256) (v : Nat) :
    (v % 8 = 1 → .next (s.qCtl q v) = exec (.qCtlEnable q) s) ∧ (v % 8 = 2 → .next (s.qCtl q v) = exec (.qCtlDisable q) s) ∧
      (v % 8 = 4 → .next (s.qCtl q v) = exec (.qCtlRestart q) s) := by
  have enable : exec (.qCtlEnable q) s = .next (s.qEnable q) := rfl
  have disable : exec (.qCtlDisable q) s = .next (s.qDisable q) := rfl
  have restart : exec (.qCtlRestart q) s = .next (s.qRestart q) := rfl
  refine ⟨fun h => ?_, fun h => ?_, fun h => ?_⟩
  · simp [State.qCtl, h, enable]
  · simp [State.qCtl, h, disable]
  · simp [State.qCtl, h, restart]

/-- A write with several of the three bits has no effect (R88). -/
theorem State.qCtl_several (s : State) (q : Nat) {v : Nat} (h : v % 8 = 3 ∨ v % 8 = 5 ∨ v % 8 = 6 ∨ v % 8 = 7) : s.qCtl q v = s := by
  obtain h | h | h | h := h <;> simp [State.qCtl, h]

/-- Settles O12: a write that reaches a register of a queue is a queueWrite of the bytes it names. -/
theorem queueRegistersTakeWritesInTheirStates : Obligations.QueueRegistersTakeWritesInTheirStates := by
  unfold Obligations.QueueRegistersTakeWritesInTheirStates
  intro s a pa size v r q run ⟨off, hub⟩ reach hs aligned slot allowed sh put
  have write (hr : r.ofQueue = true) : exec (.registerWrite a pa size v) s =
      .next (s.queueWrite r q ((2 ^ (8 * size) - 1) <<< sh) ((v % 2 ^ (8 * size)) <<< sh)) := by
    rw [exec_registerWrite_hub v run hub reach allowed, slot, State.slotWrite_ofQueue s a q v hr hs aligned]
  refine ⟨fun setup => ?_, fun ptr => ?_, fun ctl start => ?_⟩
  · rw [write (Reg.ofQueue_setup r setup), State.queueWrite_setup s q _ _ setup]
    exact ⟨fun disabled => by rw [if_pos disabled], fun other => by rw [if_neg other]⟩
  · subst ptr
    rw [write rfl, State.queueWrite_ptr]
    exact ⟨fun taken => by rw [if_pos taken], fun on notHalted => by rw [if_neg (not_or.mpr ⟨on, notHalted⟩)]⟩
  · subst ctl
    have acts : exec (.registerWrite a pa size v) s = .next (s.qCtl q v) := by
      simp only [write rfl, sh, start, Nat.mul_zero, Nat.shiftLeft_zero, State.queueWrite_ctl s q v hs]
    obtain ⟨enable, disable, restart⟩ := s.next_qCtl_one q v
    rw [acts]
    exact ⟨enable, disable, restart, fun several => by rw [State.qCtl_several s q several]⟩

end Sys2Proof.Machine
end

section
/-! SUPPORT. POWER_CAP (R407): when its packet passes the checks of R62, what it writes, and the comparison of R406 that follows. -/
namespace Sys2Proof.Machine

/-! ## Bytes of a packet -/

theorem testBit_le {x off size k : Nat} : (le x off size).testBit k = (decide (k < 8 * size) && x.testBit (8 * off + k)) := by
  simp [le, Nat.testBit_mod_two_pow, Nat.testBit_shiftRight]

/-- A field is zero when each of its bytes is. -/
theorem le_eq_zero_iff {x off n : Nat} : le x off n = 0 ↔ ∀ k < n, le x (off + k) 1 = 0 := by
  constructor
  · intro field k hk
    refine Nat.eq_of_testBit_eq fun j => ?_
    have bit := congrArg (fun y => Nat.testBit y (8 * k + j)) field
    simp only [testBit_le, Nat.zero_testBit, Bool.and_eq_false_iff, decide_eq_false_iff_not] at bit ⊢
    rw [show 8 * (off + k) + j = 8 * off + (8 * k + j) by omega]
    exact bit.imp_left (by omega)
  · intro bytes
    refine Nat.eq_of_testBit_eq fun j => ?_
    by_cases hj : j < 8 * n
    · have bit := congrArg (fun y => Nat.testBit y (j % 8)) (bytes (j / 8) (by omega))
      simp only [testBit_le, Nat.zero_testBit, Bool.and_eq_false_iff, decide_eq_false_iff_not] at bit ⊢
      rw [show 8 * (off + j / 8) + j % 8 = 8 * off + j by omega] at bit
      exact bit.imp_left (by omega)
    · simp [testBit_le, hj]

/-- A field that is cleared reads as zero, and every other byte as before. -/
theorem le_clearBytes {pkt off n b : Nat} (hn : 0 < n) :
    le (clearBytes pkt (off, n)) b 1 = if off ≤ b ∧ b < off + n then 0 else le pkt b 1 := by
  refine Nat.eq_of_testBit_eq fun j => ?_
  simp only [clearBytes, testBit_le]
  rw [testBit_setBits (by omega)]
  by_cases hj : j < 8
  · by_cases h1 : b < off
    · rw [if_pos (by omega), if_neg (by omega), testBit_le]
    · by_cases h2 : b < off + n
      · rw [if_neg (by omega), if_pos (by omega), if_pos (by omega)]
        simp
      · rw [if_neg (by omega), if_neg (by omega), if_neg (by omega), testBit_le]
  · rw [apply_ite (fun y => Nat.testBit y j)]
    simp [hj, testBit_le]

/-! ## The checks of a packet (R62) -/

theorem lowestOff_eq_none_iff : ∀ {l : List (Nat × Nat)}, lowestOff l = none ↔ l = []
  | [] => by simp [lowestOff]
  | p :: ps => by
    simp only [lowestOff, reduceCtorEq, iff_false]
    split
    · exact Option.some_ne_none p
    · split <;> exact Option.some_ne_none _

theorem exists_lowestOff {l : List (Nat × Nat)} (h : l ≠ []) : ∃ p, lowestOff l = some p :=
  Option.ne_none_iff_exists'.mp (mt lowestOff_eq_none_iff.mp h)

namespace Checks

theorem first_of_length {c : Checks} (h : c.length ≠ []) : ∃ d, c.first = some (0x0105, d) := by
  obtain ⟨p, hp⟩ := exists_lowestOff h
  exact ⟨p.2, by simp [first, hp]⟩

theorem first_of_reserved {c : Checks} (hl : c.length = []) (h : c.reserved ≠ []) : ∃ d, c.first = some (0x0102, d) := by
  obtain ⟨p, hp⟩ := exists_lowestOff h
  exact ⟨p.2, by simp [first, lowestOff_eq_none_iff.mpr hl, hp]⟩

theorem first_eq_none_iff {c : Checks} :
    c.first = none ↔ c.length = [] ∧ c.reserved = [] ∧ c.format = [] ∧ c.limit = [] ∧ c.address = [] := by
  simp only [← lowestOff_eq_none_iff, first]
  cases lowestOff c.length with
  | some p => simp
  | none => cases lowestOff c.reserved with
    | some p => simp
    | none => cases lowestOff c.format with
      | some p => simp
      | none => cases lowestOff c.limit with
        | some p => simp
        | none => cases lowestOff c.address <;> simp

/-- Checks that all pass add nothing to those that follow. -/
theorem app_of_first_none {a : Checks} (b : Checks) (h : a.first = none) : a.app b = b := by
  obtain ⟨hl, hr, hf, hm, ha⟩ := first_eq_none_iff.mp h
  simp [app, hl, hr, hf, hm, ha]

end Checks

@[simp] theorem failLen_length_eq_nil {b : Bool} {off : Nat} : (failLen b off).length = [] ↔ b = false := by
  cases b <;> simp [failLen]

theorem failLen_only_length (b : Bool) (off : Nat) : failLen b off = { length := (failLen b off).length } := by
  cases b <;> rfl

theorem mustZero_only_reserved (pkt off n : Nat) : mustZero pkt off n = { reserved := (mustZero pkt off n).reserved } := by
  unfold mustZero
  split
  · rfl
  · split <;> rfl

theorem mustZero_reserved_eq_nil {pkt off n : Nat} : (mustZero pkt off n).reserved = [] ↔ ∀ k < n, le pkt (off + k) 1 = 0 := by
  rw [mustZero]
  split
  · next zero => exact iff_of_true rfl (le_eq_zero_iff.mp zero)
  · next nonzero =>
    split
    · next k found =>
      have bad := List.find?_some found
      have mem := List.mem_of_find?_eq_some found
      exact iff_of_false (List.cons_ne_nil _ _) fun bytes => (of_decide_eq_true bad) (bytes k (List.mem_range.mp mem))
    · next missing =>
      refine absurd (le_eq_zero_iff.mpr fun k hk => ?_) nonzero
      simpa using List.find?_eq_none.mp missing k (List.mem_range.mpr hk)

/-! ## The packet of POWER_CAP -/

/-- CAP_W and WINDOW_MS lie in their ranges (R406, R407). -/
def Cmd.CapSound (c : Cmd) : Prop := 1050 ≤ c.f 0x10 2 ∧ c.f 0x10 2 ≤ 1500 ∧ 1 ≤ c.f 0x12 2 ∧ c.f 0x12 2 ≤ 1000

theorem unlisted_only_reserved (c : Cmd) (used : List (Nat × Nat)) :
    unlisted c used = { reserved := (unlisted c used).reserved } := mustZero_only_reserved _ _ _

/-- The one unit of a POWER_CAP has nothing but its two fields before its seal. -/
theorem unlisted_powerCap_eq_nil {c : Cmd} (unit : c.len = 1) :
    (unlisted c [(0x10, 4)]).reserved = [] ↔ ∀ b, 0x14 ≤ b → b < 0x38 → c.f b 1 = 0 := by
  simp only [unlisted, List.foldl, mustZero_reserved_eq_nil, unit, le_clearBytes (show 0 < 4 by decide), Cmd.f]
  constructor
  · intro bytes b h1 h2
    have byte := bytes (b - 0x10) (by omega)
    rwa [if_neg (by omega), show 0x10 + (b - 0x10) = b by omega] at byte
  · intro bytes k hk
    split
    · rfl
    · exact bytes (0x10 + k) (by omega) (by omega)

/-- Only the length and the reserved bytes of a POWER_CAP are checked. -/
theorem checksPowerCap_eq (c : Cmd) : checksPowerCap c =
    { length := (lenIs c 1).length ++ (failLen (¬ capInRange (c.f 0x10 2)) 0x10).length ++
        (failLen (c.f 0x12 2 < 1 ∨ 1000 < c.f 0x12 2) 0x12).length
      reserved := (unlisted c [(0x10, 4)]).reserved } := by
  simp only [checksPowerCap, Checks.all, List.foldl, lenIs]
  rw [failLen_only_length, unlisted_only_reserved, failLen_only_length (off := 0x10), failLen_only_length (off := 0x12)]
  simp [Checks.app]

theorem checksPowerCap_length_eq_nil {c : Cmd} : (checksPowerCap c).length = [] ↔ c.len = 1 ∧ c.CapSound := by
  simp only [checksPowerCap_eq, lenIs, capInRange, Cmd.CapSound, List.append_eq_nil_iff, failLen_length_eq_nil,
    decide_eq_false_iff_not, decide_eq_true_eq]
  omega

theorem checksPowerCap_first_eq_none {c : Cmd} :
    (checksPowerCap c).first = none ↔ c.len = 1 ∧ c.CapSound ∧ ∀ b, 0x14 ≤ b → b < 0x38 → c.f b 1 = 0 := by
  rw [Checks.first_eq_none_iff, checksPowerCap_length_eq_nil]
  simp only [checksPowerCap_eq, and_true]
  constructor
  · rintro ⟨⟨unit, sound⟩, reserved⟩
    exact ⟨unit, sound, (unlisted_powerCap_eq_nil unit).mp reserved⟩
  · rintro ⟨unit, sound, reserved⟩
    exact ⟨⟨unit, sound⟩, (unlisted_powerCap_eq_nil unit).mpr reserved⟩

theorem checksPowerCap_reserved_ne_nil {c : Cmd} (unit : c.len = 1) (bad : ∃ b, 0x14 ≤ b ∧ b < 0x38 ∧ c.f b 1 ≠ 0) :
    (checksPowerCap c).reserved ≠ [] := by
  obtain ⟨b, h1, h2, nonzero⟩ := bad
  rw [checksPowerCap_eq]
  exact fun zero => nonzero ((unlisted_powerCap_eq_nil unit).mp zero b h1 h2)

/-- A queue of the hub decodes a POWER_CAP with a sound header by its own checks. -/
theorem State.decodeFault_powerCap {s : State} {c : Cmd} (version : c.f 1 1 = 1) (op : c.opcode = 0x9003)
    (hub : s.regionOf c.ref.q = 8) (header : (headerChecks c).first = none) : s.decodeFault c = (checksPowerCap c).first := by
  have own : s.checksOf c = checksPowerCap c := by simp only [State.checksOf, op]
  have taken : opcodeExists 0x9003 = true ∧ accepts 8 0x9003 = true := by decide
  simp [State.decodeFault, version, op, hub, own, taken, Checks.app_of_first_none _ header]

/-! ## The comparison with the cap (R406) -/

@[simp] theorem State.msi_pwr (s : State) (file eiid : Nat) : (s.msi file eiid).pwr = s.pwr := by
  unfold State.msi
  split <;> rfl

@[simp] theorem State.aplicRaise_pwr (s : State) (n : Nat) : (s.aplicRaise n).pwr = s.pwr := by
  unfold State.aplicRaise
  dsimp only
  split
  · rfl
  · split
    · exact State.msi_pwr s _ _
    · rfl

@[simp] theorem State.govEvt_pwr (s : State) (f : Fld) : (s.govEvt f).pwr = s.pwr := by
  unfold State.govEvt State.wire
  split
  · rw [State.aplicRaise_pwr, State.setFld_pwr]
  · rfl

@[simp] theorem State.throttle_pwr (s : State) : s.throttle.pwr = s.pwr := rfl

/-- The throttle state that the cap has led to. -/
def Power.capSteps (p : Power) : Steps := (p.capCl, p.capStretch, p.capBulk)

/-- What a comparison of the power with a limit, both in mW, makes of a throttle state. -/
def Steps.compared (lim mw : Nat) (ts : Steps) : Steps := if lim < mw then stepOn ts else if 100 * mw < 97 * lim then stepOff ts else ts

/-- A comparison goes by the effective cap of GOV_STATUS. -/
theorem exec_capEvaluation {s : State} (mw : Nat) (run : s.running = true) : ∃ u, exec (.capEvaluation mw) s = .next u ∧
    u.pwr.capSteps = Steps.compared (1000 * s.fld F.GOV_STATUS_EFF_CAP_W 0) mw s.pwr.capSteps := by
  have arm : exec (.capEvaluation mw) s = execCapEvaluation mw s := rfl
  refine ⟨_, by rw [arm, execCapEvaluation, ok], ?_⟩
  simp [run, Power.capSteps, Steps.compared]

/-! ## What POWER_CAP writes -/

/-- The state with the fields of a POWER_CAP in GOV_CAP and the effective cap that follows from them. -/
def State.withCap (s : State) (c : Cmd) : State :=
  ((s.setFld F.GOV_CAP_CAP_W 0 (c.f 0x10 2)).setFld F.GOV_CAP_WINDOW_MS 0 (c.f 0x12 2)).effCap

theorem State.Ready.exec_powerCap {s : State} {r : CmdRef} {c : Cmd} (h : s.Ready r 0x9003 c) :
    exec (.powerCap r) s = .next ((s.withCap c).finish r 0 0) := by
  have arm : exec (.powerCap r) s = execPowerCap r s := rfl
  rw [arm, execPowerCap, ok, h.run]
  rfl

/-- The fields of the packet are as wide as those of GOV_CAP. -/
theorem Cmd.f_two_mod (c : Cmd) (off : Nat) : c.f off 2 % 2 ^ 16 = c.f off 2 := Nat.mod_mod _ _

theorem State.withCap_capW (s : State) (c : Cmd) : (s.withCap c).fld F.GOV_CAP_CAP_W 0 = c.f 0x10 2 := by
  rw [State.withCap, State.effCap, State.fld_setFld_reg (by decide) (by decide) (by decide),
    State.fld_setFld_field (by decide) (by decide) (by rfl) (by decide), State.fld_setFld_same (by decide) (by decide)]
  exact c.f_two_mod 0x10

theorem State.withCap_windowMs (s : State) (c : Cmd) : (s.withCap c).fld F.GOV_CAP_WINDOW_MS 0 = c.f 0x12 2 := by
  rw [State.withCap, State.effCap, State.fld_setFld_reg (by decide) (by decide) (by decide),
    State.fld_setFld_same (by decide) (by decide)]
  exact c.f_two_mod 0x12

theorem State.effCap_effCapW {s : State} (board : s.pwr.boardCap ≤ 1500) :
    s.effCap.fld F.GOV_STATUS_EFF_CAP_W 0 = min (s.fld F.GOV_CAP_CAP_W 0) s.pwr.boardCap := by
  rw [State.effCap, State.fld_setFld_same (by decide) (by decide)]
  exact Nat.mod_eq_of_lt (Nat.lt_of_le_of_lt ((Nat.min_le_right _ _).trans board) (by decide))

/-- The new cap takes effect at once: the effective cap is the lower of it and the board cap (R406). -/
theorem State.withCap_effCapW {s : State} (c : Cmd) (board : s.pwr.boardCap ≤ 1500) :
    (s.withCap c).fld F.GOV_STATUS_EFF_CAP_W 0 = min (c.f 0x10 2) s.pwr.boardCap := by
  rw [State.withCap, State.effCap_effCapW (by exact board), State.fld_setFld_field (by decide) (by decide) (by rfl) (by decide),
    State.fld_setFld_same (by decide) (by decide)]
  exact congrArg (min · _) (c.f_two_mod 0x10)

theorem State.RegsKept.setFld {s t : State} {l : List (Reg × Nat)} {f : Fld} {i : Nat} (v : Nat) (h : s.RegsKept t l)
    (hi : i < 4096) (listed : (f.reg, i) ∈ l) : s.RegsKept (t.setFld f i v) l := by
  intro q j hj other
  rw [State.getR_setFld_reg hi hj, h q j hj other]
  by_contra same
  rw [not_or, not_not, not_not] at same
  exact other (same.1 ▸ same.2 ▸ listed)

theorem State.withCap_regsKept (s : State) (c : Cmd) : s.RegsKept (s.withCap c) [(.GOV_CAP, 0), (.GOV_STATUS, 0)] := by
  have same : s.RegsKept s [(.GOV_CAP, 0), (.GOV_STATUS, 0)] := fun _ _ _ _ => rfl
  have cap := same.setFld (f := F.GOV_CAP_CAP_W) (i := 0) (c.f 0x10 2) (by decide) (by decide)
  have window := cap.setFld (f := F.GOV_CAP_WINDOW_MS) (i := 0) (c.f 0x12 2) (by decide) (by decide)
  exact window.setFld (f := F.GOV_STATUS_EFF_CAP_W) (i := 0) _ (by decide) (by decide)

theorem State.RegsKept.finish {s t : State} {l : List (Reg × Nat)} (h : s.RegsKept t l) (r : CmdRef) (a b : Nat) :
    s.RegsKept (t.finish r a b) l := fun q j hj other => by
  rw [State.finish_get_getR, h q j hj other]

theorem State.RegOnly.setFld {s t : State} (h : s.RegOnly t) (f : Fld) (i v : Nat) : s.RegOnly (t.setFld f i v) := by
  obtain ⟨eq⟩ := h
  exact ⟨by rw [eq]; rfl⟩

theorem State.RegOnly.finish {s t : State} (h : s.RegOnly t) (r : CmdRef) (a b : Nat) : s.CmdRegOnly (t.finish r a b) := by
  obtain ⟨eq⟩ := h
  exact ⟨by rw [eq]; rfl, by rw [eq]; exact fun _ _ => rfl⟩

theorem State.withCap_regOnly (s : State) (c : Cmd) : s.RegOnly (s.withCap c) :=
  have same : s.RegOnly s := ⟨rfl⟩
  ((same.setFld _ _ _).setFld _ _ _).setFld _ _ _

/-- Settles O60: the packet passes its checks when its fields are in range; then its cap is in the effective cap by which the next
comparison goes. -/
theorem powerCapGovernsTheNextComparison : Obligations.PowerCapGovernsTheNextComparison := by
  unfold Obligations.PowerCapGovernsTheNextComparison
  intro s r c cap ms sound
  refine ⟨fun version op hub header => ?_, fun ready _ board => ?_⟩
  · rw [State.decodeFault_powerCap version op hub header]
    exact ⟨checksPowerCap_first_eq_none,
      fun bad => Checks.first_of_length (mt checksPowerCap_length_eq_nil.mp bad),
      fun unit inRange bad => Checks.first_of_reserved (checksPowerCap_length_eq_nil.mpr ⟨unit, inRange⟩)
        (checksPowerCap_reserved_ne_nil unit bad)⟩
  · have sameCmds : (s.withCap c).cmds = s.cmds := rfl
    refine ⟨(s.withCap c).finish r 0 0, ready.exec_powerCap, ⟨ready.ended sameCmds 0 0, (s.withCap c).othersKept_finish r 0 0⟩,
      ?_, ?_, (s.withCap_regsKept c).finish r 0 0, (s.withCap_regOnly c).finish r 0 0, fun mw => ?_⟩
    · rw [State.finish_get_fld, State.withCap_capW]
    · rw [State.finish_get_fld, State.withCap_windowMs]
    · obtain ⟨u, step, steps⟩ := exec_capEvaluation (s := (s.withCap c).finish r 0 0) mw ready.running
      rw [State.finish_get_fld, State.withCap_effCapW c board] at steps
      exact ⟨u, step, steps⟩

end Sys2Proof.Machine
end
